-- ==== Sys2Proof/Word.lean ====
section
/-! DEFINITION. The word types of the device and its plainest arithmetic: bytes, register words, heads, and the
descriptor of one register field. -/

namespace Sys2Proof

/-- One byte of a payload, of host memory or of the stack (R7: little-endian everywhere). -/
abbrev Byte := BitVec 8

/-- One 32-bit register word (R12). -/
abbrev Word := BitVec 32

/-- A string of bytes: a mailbox payload, a descriptor, a line. -/
abbrev Bytes := List (BitVec 8)

/-- A storage-controller attachment (R239): Head A, or Head A and Head B. -/
inductive Head where
  | a
  | b
  deriving DecidableEq, Repr

/-- The number the spec gives a head: 0 for Head A, 1 for Head B. -/
def Head.num : Head → Nat
  | .a => 0
  | .b => 1

/-- The other head. -/
def Head.other : Head → Head
  | .a => .b
  | .b => .a

/-- The head of a number: 0 names Head A, every other value Head B. -/
def Head.ofNum (n : Nat) : Head := if n = 0 then .a else .b

/-- What a request at a channel controller is for (R154, R157): its rank group. -/
inductive ReqKind where
  | correction
  | sealMeta
  | port (p : Nat)
  | forager
  deriving DecidableEq, Repr

/-- A request that counts in a class: one of the ports 0 to 4 (R226). -/
def ReqKind.port? : ReqKind → Option Nat
  | .port p => some p
  | _ => none

/-- Who makes a request for a line at a controller (R154, R224 to R226): a head's CXL.mem read or the merge read of its partial write; the
ingest buffer, which writes a line it holds; a job by its slot; the Keeper for a migration or a second-loss placement, or for its other
work; the seal engine for metadata; the Forager. Correction write-backs are made by the correction itself (R173). -/
inductive ReqSrc where
  | mem (h : Head)
  | ingest
  | job (slot : Nat)
  | moving
  | keeper
  | sealMeta
  | forager
  deriving DecidableEq, Repr

/-- What a fetched line of seal metadata shows once it is checked (R209, R213, R214): good, corrected by the line code,
uncorrectable, or good with a MAC that does not match its parent's entry. -/
inductive Arrival where
  | good
  | corrected
  | uncorrectable
  | macFails
  deriving DecidableEq, Repr

/-- A line of seal metadata as it arrives (R209, R213): its 64 bytes after the line code corrected `symbols` symbols; or
uncorrectable; or a copy that the ECC of the base-die SRAM finds uncorrectable: a cached line, or one copy (`both`: both copies) of
a node of the top store. -/
inductive MetaLine where
  | line (data : Bytes) (symbols : Nat)
  | uncorrectable
  | sram (both : Bool)
  deriving DecidableEq, Repr

/-- Symbols that the line code corrected in an arriving line. -/
def MetaLine.symbols : MetaLine → Nat
  | .line _ n => n
  | _ => 0

/-- How a link request of the device ended (R92, R111). -/
inductive LinkErr where
  | ur
  | ca
  | timeout
  | ep
  deriving DecidableEq, Repr

/-- What a read of host memory brings: its bytes, or how it failed. -/
inductive Fetched where
  | ok (data : Bytes)
  | err (e : LinkErr)
  deriving DecidableEq, Repr

/-- What a configuration write sets for a head's function (R242, R244): Bus Master Enable, D3hot, PTM Enable, MSI-X
Enable, a vector's mask, Max_Payload_Size and Max_Read_Request_Size in bytes, relaxed ordering, the mailbox's doorbell
and background interrupts, and the AER severity of an uncorrectable internal error. -/
inductive CfgItem where
  | busMaster (on : Bool)
  | d3hot (on : Bool)
  | ptmEnable (on : Bool)
  | msixEnable (on : Bool)
  | msixMask (vector : Nat) (on : Bool)
  | maxPayload (bytes : Nat)
  | maxRead (bytes : Nat)
  | relaxed (on : Bool)
  | mailboxIrq (doorbell background : Bool)
  | uncFatal (on : Bool)
  | bar (second : Bool) (addr : Nat)
  | msixEntry (vector addr data : Nat)
  | extendedTag (on : Bool)
  | tenBitTag (on : Bool)
  | aerClear (uncorrectable : Bool) (mask : Nat)
  | ideBlocks (n : Fin 4) (first second : Nat × Nat)
  | cxlIdeSkid (on : Bool)
  | functionMask (on : Bool)
  deriving DecidableEq, Repr

/-- An IDE stream of a head (R219): CXL IDE on CXL.mem, the link stream of CXL.io, or a selective stream of it. -/
inductive IdeStream where
  | cxl
  | link
  | selective (n : Fin 4)
  deriving DecidableEq, Repr

/-- The position of a stream of CXL.io in a head's list. -/
def IdeStream.index : IdeStream → Option Nat
  | .cxl => none
  | .link => some 0
  | .selective n => some (n.val + 1)

/-- What places a hold (R151, R152, R220): the head's mailbox command in progress, its background seal, or its context
window. -/
inductive HoldOf where
  | command
  | background
  | window
  deriving DecidableEq, Repr

/-- How a head's link comes up or retrains (R273, R274): its rate as PHYC_LOOP.RATE encodes it, the mask of its lanes in
the link, lane reversal, the mask of lanes with inverted polarity, and whether it runs in the 256 B flit mode. -/
structure LinkForm where
  rate : Nat
  lanes : Nat
  reversed : Bool
  polarity : Nat
  flit : Bool := false
  deriving DecidableEq, Repr

/-- The margining parameters of a head (R278). -/
structure MarginParams where
  voltageSupported : Bool
  indUpDownVoltage : Bool
  indLeftRightTiming : Bool
  indErrorSampler : Bool
  numVoltageSteps : Nat
  numTimingSteps : Nat
  maxVoltageOffset : Nat
  maxTimingOffset : Nat
  sampleReporting : Nat
  maxLanes : Nat
  deriving DecidableEq, Repr

/-- What adaptation has brought a receiver to (R275): taps h1 to h12, CTLE and gain codes, and the two floating taps with
their positions. -/
structure Adapted where
  taps : List Int
  ctle : Nat
  gain : Nat
  pos0 : Nat
  val0 : Int
  pos1 : Nat
  val1 : Int
  deriving DecidableEq, Repr

/-- What the sense points report every 10 us (R323): by die the currents of VDD, VDDQ and VPP in mA, the input powers of
VIN_IVR, VDD_LOGIC, VDD_PHY and VPP in 1/16 W, and the regulator phases (die, 0 VDD or 1 VDDQ) that left the balance. -/
structure Telemetry where
  dies : List (Nat × Nat × Nat)
  vin : Nat
  logic : Nat
  phy : Nat
  vpp : Nat
  badPhases : List (Nat × Nat)
  deriving DecidableEq, Repr

/-- A DOE object of R242: CDAT, an SPDM message, an SPDM session established or ended, keys of an IDE stream set (`on`) or stopped
within a session (R219), the algorithms, the certificate chain of slot 0, the measurements, or a challenge whose transcript the device
signs (R307). -/
inductive DoeObject where
  | cdat
  | spdm
  | session (on : Bool)
  | ideKeys (stream : IdeStream) (on : Bool)
  | algorithms
  | certificate
  | measurements
  | challenge (transcript : Bytes)
  deriving DecidableEq, Repr

/-- A firmware image (R304): what its header holds, `rest` being the bytes of the header that no named field takes, and its body, whose
length is the header's body length. `rinros` tells that the part family is Rinros. -/
structure Image where
  rinros : Bool := true
  major : BitVec 8 := 0
  minor : BitVec 8 := 0
  patch : BitVec 16 := 0
  svn : Fin 65 := 0
  digest : Bytes := []
  key : Bytes := []
  rest : Bytes := []
  signature : Bytes := []
  body : Bytes := []
  deriving DecidableEq, Repr

/-- The access still in progress at a register window as its gate closes (R335): a read of a head, by its offset and size, or a write. -/
inductive LateAccess where
  | read (h : Head) (off : Nat) (wide : Bool)
  | write
  deriving DecidableEq, Repr

/-- A rail that may leave tolerance without a brown-out (R414). -/
inductive LowRail where
  | vddPhy
  | vddIo
  | vpp
  deriving DecidableEq, Repr

/-- An image slot of the flash (R304, R305): the result of its last check in the coding of RST_BOOT_INFO.IMG_A (0 accepted, 1 absent,
2 key digest, 3 signature, 4 body digest, 5 family), and the image it holds. The SVN is judged apart, since MIN_SVN moves. -/
structure ImgSlot where
  cause : Nat := 1
  image : Image := {}
  deriving DecidableEq, Repr

/-- A redundant element of a die (R362, R396): its class, its item and the selection. -/
structure CalItem where
  cls : Nat
  item : Nat
  value : Nat
  deriving DecidableEq, Repr

namespace Machine

/-- One field of one register: its absolute bit address in BAR0 (byte offset times 8, plus its lowest bit), its
width in bits, and its value after a power-on reset (R8). -/
structure Fld where
  key : Nat
  width : Nat
  reset : Nat
  deriving DecidableEq, Repr

/-- The access types of R9. -/
inductive Access where
  | rw
  | ro
  | wo
  | w1c
  | w1s
  | rc
  deriving DecidableEq, Repr

/-- One field of a register with its access type and whether a warm reset keeps it (R8). -/
structure FieldRow where
  fld : Fld
  acc : Access
  kept : Bool
  deriving DecidableEq, Repr

/-- One row of the register map: a register of `size` bytes, or an array of `n1 * n2` of them at strides `s1` and
`s2`. `perHead` marks the two registers of R406 of which each head has its own copy. -/
structure RegRow where
  base : Nat
  size : Nat
  s1 : Nat
  n1 : Nat
  s2 : Nat
  n2 : Nat
  perHead : Bool
  fields : Nat → Nat → List FieldRow

end Machine

end Sys2Proof
end

