-- ==== Sys2Proof/Syntax.lean ====
section
/-! DEFINITION. The commands: one constructor per row of the command table, with the operands that its sender or the
outside world supplies. `h` is the head that sends a command or whose link it arrives on, `p` the input payload of a
mailbox command, `w` the word that a register write carries; an event's operands are what the event brings. -/

namespace Sys2Proof

/-- The commands of the device: the writes and reads of its registers, its mailbox commands, its link transactions, its
pins and the events of its own engines. -/
inductive Instr where
  /-- REGISTER_WRITE: A head writes a register that has no row of its own; the write acts on its fields by their
  access types (R9). -/
  | registerWrite (h : Head) (off : Nat) (wide : Bool) (v : Nat)
  /-- RC_FIELD_READ: A read of an RC field returns its value, including any event in the same cycle, and clears it
  (R10). -/
  | rcFieldRead (h : Head) (off : Nat)
  /-- SNAPSHOT_READ: A low-word or 64-bit read of a 64-bit register takes a new snapshot for that requester; a high-
  word read uses the held snapshot (R12). -/
  | snapshotRead (h : Head) (off : Nat) (wide : Bool)
  /-- BEAT_BOUNDARY: At each 3,900 ns boundary of platform time the device applies ownership changes, commits, class
  steps and the other beat work in order (R263). -/
  | beatBoundary
  /-- STK_COMMIT: A write of STK_COMMIT.COMMIT requests that the activate-window shadows be applied at the next beat
  boundary (R33). -/
  | stkCommit (h : Head) (w : Word)
  /-- MAP_COMMIT: A write of MAP_COMMIT.COMMIT sets PENDING and requests that the comb-region shadows be applied
  (R56). -/
  | mapCommit (h : Head) (w : Word)
  /-- QOS_SCHED_COMMIT: A write of QOS_SCHED_COMMIT.COMMIT requests that the port-latency and ingest shadows be
  applied (R169). -/
  | qosSchedCommit (h : Head) (w : Word)
  /-- QOS_CLASS_COMMIT: A write of QOS_CLASS_COMMIT.COMMIT requests that the class, head-class and window shadows be
  applied (R233). -/
  | qosClassCommit (h : Head) (w : Word)
  /-- QOS_BW_SNAP_TAKE: A write of TAKE clears DONE and requests a bandwidth snapshot at the next boundary (R237). -/
  | qosBwSnapTake (h : Head) (w : Word)
  /-- THERMAL_SAMPLE: Every 256 beats the thermal model updates every die's estimate (R314). -/
  | thermalSample
  /-- REFRESH_WINDOW: A channel's refresh window opens at its offset in a refresh beat, and the pointer advances at
  its end (R162). -/
  | refreshWindow (ch : Nat)
  /-- PER_BANK_REFRESH: A bank is refreshed over eight rows at its window offset (R162). -/
  | perBankRefresh (ch : Nat)
  /-- REQUEST_ENQUEUE: A request at a port takes a free controller queue entry open to it (R154). -/
  | requestEnqueue (src : ReqSrc) (sa : Nat) (write : Bool) (step : Option Nat)
  /-- CHANNEL_COMMAND_ISSUE: A channel controller issues the next legal command of its first-ranked request (R158). -/
  | channelCommandIssue (ch : Nat) (dt : Nat)
  /-- LANE_CYCLE: A row lane carries the first-ranked transfer of its run's direction, or idles (R160). -/
  | laneCycle (l : Nat) (dt : Nat)
  /-- LANE_ROW_LANDED: A lane-read row is held in a comb cell, and the lane check units check its lines (R30). -/
  | laneRowLanded (l : Nat)
  /-- LINE_READ_CHECK: A line arriving from a die is decoded under the line code and found good, corrected or
  uncorrectable (R172). -/
  | lineReadCheck (sa : Nat) (source : Nat) (lane : Bool) (flips : List (Nat × Byte))
  /-- THRESHOLD_WINDOW_BOUNDARY: An error-threshold window ends, and the scores and mire counts clear (R182). -/
  | thresholdWindowBoundary
  /-- PARTIAL_WRITE_MERGE: A partial write's line is read, checked, merged and written, or the write is discarded
  (R174). -/
  | partialWriteMerge
  /-- MIRE_LOG_DRAIN: The Keeper moves staged mire records into the mire log (R177). -/
  | mireLogDrain
  /-- FORAGER_PASS_END: A Forager pass ends and writes its summary (R180). -/
  | foragerPassEnd
  /-- MIGRATION_ROW_LANDED: A migrated row lands at its reserve place, and the front advances (R184). -/
  | migrationRowLanded (bad : List (Nat × Nat))
  /-- ABRUPT_FILL_ROW: A reserve place of a failed die is filled with mired lines (R185). -/
  | abruptFillRow
  /-- COLUMN_REPAIR_REOPEN: At 7,800 ns the channel reopens, the repair register updates, and a repair event is raised
  (R39). -/
  | columnRepairReopen (ch : Nat) (taken : Option Nat)
  /-- LANE_REPAIR_RETURN: The repaired lane, retrained, returns to service, and a repair event is raised (R40). -/
  | laneRepairReturn (l : Nat) (g : Nat) (taken : Option Nat)
  /-- FEED_OVERCURRENT: A die feed over its current limit opens all three feeds of the die, and the die fails abruptly
  (R45). -/
  | feedOvercurrent (d : Nat) (feed : Nat)
  /-- INVERTER_FILL_DONE: The inverter finishes a decode-matrix entry and stores it after its identity check (R80). -/
  | inverterFillDone (ok : Bool)
  /-- DECODE_WAY_WAIT_END: A miss that waited for an unpinned way takes it (R79). -/
  | decodeWayWaitEnd (slot : Nat)
  /-- CMB_DMC_FLUSH: A write of FLUSH discards every unpinned decode-matrix entry (R82). -/
  | cmbDmcFlush (h : Head) (w : Word)
  /-- SQ_DOORBELL: A write to an SQ doorbell sets the ring's tail (R90). -/
  | sqDoorbell (h : Head) (q : Fin 64) (index : Nat)
  /-- CQ_DOORBELL: A write to a CQ doorbell returns entries to the device (R90). -/
  | cqDoorbell (h : Head) (q : Fin 64) (index : Nat)
  /-- RING_FETCH_TURN: Ring fetch serves the next SQ in round robin, up to BURST descriptors (R92). -/
  | ringFetchTurn
  /-- DESCRIPTOR_FETCHED: A descriptor read completes, and the job takes a slot and is judged (R118). -/
  | descriptorFetched (q : Fin 64) (f : Fetched)
  /-- FRAGMENT_LIST_FETCHED: A job's fragment list read completes and its entries are checked (R118). -/
  | fragmentListFetched (slot : Nat)
  /-- JOB_DISPATCH: A job in a slot starts once its order, context and claims allow, and its mode is chosen (R118). -/
  | jobDispatch (bad : Option Nat)
  /-- MAC_PASS: A multiply-accumulate pass of a job is issued to the array (R228). -/
  | macPass (bad : Bool)
  /-- DMA_READ_COMPLETION: A read completion from the link arrives for a job (R111). -/
  | dmaReadCompletion (tag : Nat) (data : Bytes) (bad : List Nat)
  /-- DMA_WRITE_ACK: A data link layer Ack covers a job's write (R401). -/
  | dmaWriteAck (tag : Nat)
  /-- DMA_REQUEST_ERROR: A link read ends in Unsupported Request or Completer Abort, and the job ends with DMA_ERROR
  (R111). -/
  | dmaRequestError (tag : Nat)
  /-- DMA_COMPLETION_TIMEOUT: A link read times out, and the job ends with DMA_ERROR (R111). -/
  | dmaCompletionTimeout (tag : Nat)
  /-- JOB_END: A job finishes its work and takes its final status (R118). -/
  | jobEnd (slot : Nat)
  /-- COMPLETION_POST: A completion is written at the CQ tail once an entry is free, and the slot is released (R91).
  -/
  | completionPost (slot : Nat)
  /-- CQ_COALESCE_TIMEOUT: The oldest unsignalled completion has waited COAL_US, and the interrupt is raised (R94). -/
  | cqCoalesceTimeout (q : Fin 64)
  /-- COMPLETION_WRITE_FAIL: A completion write fails on the link, WRITE_ERR sets, and the CQ stops posting (R93). -/
  | completionWriteFail (q : Fin 64) (st : Nat)
  /-- SQ_ENABLE: A write of ENABLE 1 to an SQ enables it, or sets ERR (R88). -/
  | sqEnable (h : Head) (q : Fin 64) (w : Word)
  /-- SQ_DISABLE: A write of ENABLE 0 to an SQ stops fetching from it (R89). -/
  | sqDisable (h : Head) (q : Fin 64) (w : Word)
  /-- CQ_ENABLE: A write of ENABLE 1 to a CQ enables it, and held completions may post (R88). -/
  | cqEnable (h : Head) (q : Fin 64) (w : Word)
  /-- CQ_DISABLE: A write of ENABLE 0 to a CQ disables it when its SQs are drained, or sets ERR (R89). -/
  | cqDisable (h : Head) (q : Fin 64) (w : Word)
  /-- JRG_ABORT: A write to JRG_ABORT aborts the jobs of ring SQ that carry the CID (R123). -/
  | jrgAbort (h : Head) (q : Fin 64) (cid : BitVec 16)
  /-- JOB_SUBMIT: OCS command that submits a job through the mailbox (R121). -/
  | jobSubmit (h : Head) (p : Bytes)
  /-- JOB_SUBMIT_WAIT_EXPIRY: WAIT_US expires before the job ends, and JOB_SUBMIT returns STATE 1 (R121). -/
  | jobSubmitWaitExpiry (h : Head)
  /-- JOB_SUBMIT_SLOT_TIMEOUT: A JOB_SUBMIT finds no slot within 10 ms and returns BUSY (R121). -/
  | jobSubmitSlotTimeout (h : Head)
  /-- OCS_SLOT_GRANTED: A freed slot goes to the longest-waiting JOB_SUBMIT (R86). -/
  | ocsSlotGranted
  /-- JOB_QUERY: OCS command that reports a job handle's state and completion (R121). -/
  | jobQuery (h : Head) (p : Bytes)
  /-- JOB_ABORT: OCS command that aborts an OCS job by handle or a ring job by CID (R123). -/
  | jobAbort (h : Head) (p : Bytes)
  /-- RING_CREATE: OCS command that configures and enables a ring (R122). -/
  | ringCreate (h : Head) (p : Bytes)
  /-- RING_DELETE: Background OCS command that disables a ring (R122). -/
  | ringDelete (h : Head) (p : Bytes)
  /-- RING_DELETE_DRAINED: A deleted SQ drains, and RING_DELETE reports OK (R122). -/
  | ringDeleteDrained (h : Head)
  /-- RING_ASSIGN: OCS command that changes the owner of a disabled ring (R122). -/
  | ringAssign (h : Head) (p : Bytes)
  /-- CTX_ALLOC: OCS command that takes a free context and writes an image (R151). -/
  | ctxAlloc (h : Head) (p : Bytes)
  /-- CTX_READ: OCS command that returns a context image and list (R151). -/
  | ctxRead (h : Head) (p : Bytes)
  /-- CTX_WRITE: OCS command that writes a context image (R151). -/
  | ctxWrite (h : Head) (p : Bytes)
  /-- CTX_MARK: OCS command that sets and clears UNAVAIL bits (R151). -/
  | ctxMark (h : Head) (p : Bytes)
  /-- CTX_RETIRE: OCS command that moves a context to RETIRED (R151). -/
  | ctxRetire (h : Head) (p : Bytes)
  /-- CTX_FREE: OCS command that returns a context and its extensions to the free entries (R151). -/
  | ctxFree (h : Head) (p : Bytes)
  /-- CTX_ASSIGN: OCS command that gives a context to a new owner (R151). -/
  | ctxAssign (h : Head) (p : Bytes)
  /-- CTX_HOLD_RELEASE: The jobs holding a context complete, and a held command is judged again and carried out or
  refused (R151). -/
  | ctxHoldRelease (h : Head) (w : HoldOf)
  /-- CTX_HOLD_TIMEOUT: A hold lasts 100 ms, and the command returns BUSY (R151). -/
  | ctxHoldTimeout (h : Head) (w : HoldOf)
  /-- STX_WIN_READ: A window CMD of read copies an entry into the head's data words (R152). -/
  | stxWinRead (h : Head) (w : Word)
  /-- STX_WIN_WRITE: A window CMD of write copies the data words into an entry, or sets ERR (R152). -/
  | stxWinWrite (h : Head) (w : Word)
  /-- CTX_LINE_FETCHED: A context-cache miss fills its way, and the job's fragment fetch may start (R143). -/
  | ctxLineFetched (slot : Nat)
  /-- CTX_WAY_WAIT_END: A context miss that waited for an unpinned way takes it (R144). -/
  | ctxWayWaitEnd (slot : Nat)
  /-- CTX_REWRITE_DONE: The adoption rewrite of OWNER finishes, and ACTIVE clears (R142). -/
  | ctxRewriteDone
  /-- SELF_REFRESH_ENTERED: The dies complete self-refresh entry (R166). -/
  | selfRefreshEntered
  /-- SELF_REFRESH_EXITED: The dies leave self-refresh, and scheduling resumes (R166). -/
  | selfRefreshExited
  /-- CXL_MEM_READ: A CXL.mem read reaches the mapper and is checked, served or poisoned (R61). -/
  | cxlMemRead (h : Head) (dpa : Nat)
  /-- CXL_MEM_WRITE: A full-line CXL.mem write, with or without poison, reaches the mapper and is checked (R61). -/
  | cxlMemWrite (h : Head) (dpa : Nat) (poison : Bool) (data : Bytes)
  /-- CXL_MEM_PARTIAL_WRITE: A CXL.mem write with partial byte enables is checked and sent to merge (R174). -/
  | cxlMemPartialWrite (h : Head) (dpa : Nat) (data : List (Nat × BitVec 8))
  /-- HDM_DECODER_COMMIT: A head commits an HDM decoder, or gets Error Not Committed (R62). -/
  | hdmDecoderCommit (h : Head) (n : Fin 4) (base : Nat) (size : Nat) (skip : Nat) (ways : Nat) (gran : Nat) (lock : Bool)
  /-- SEAL_BUDGET_SET: OCS command that writes the seal record for the next power-on start (R193). -/
  | sealBudgetSet (h : Head) (p : Bytes)
  /-- KEY_CREATE: OCS command that creates a key in the lowest free slot and returns its handle (R198). -/
  | keyCreate (h : Head) (p : Bytes)
  /-- KEY_ERASE: OCS command that stops a key slot and starts its zeroisation (R199). -/
  | keyErase (h : Head) (p : Bytes)
  /-- KEY_ZEROISE_DONE: The keys are overwritten with zeros, LIVE clears, and KEY_ERASE completes (R199). -/
  | keyZeroiseDone (slot : Fin 1024)
  /-- SEAL_GRANULE: Background OCS command that seals a PLAIN granule (R195). -/
  | sealGranule (h : Head) (p : Bytes)
  /-- RESEAL: Background OCS command that re-establishes a sealed granule (R195). -/
  | reseal (h : Head) (p : Bytes)
  /-- SEAL_FILL_DONE: The fill of a sealing granule ends, and it becomes SEALED at the next boundary (R195). -/
  | sealFillDone (g : Fin 64)
  /-- UNSEAL: OCS command that returns a granule to PLAIN (R196). -/
  | unseal (h : Head) (p : Bytes)
  /-- SEAL_STATUS: OCS command that returns the granule states and SEA_STATUS (R220). -/
  | sealStatus (h : Head) (p : Bytes)
  /-- SEAL_METADATA_ARRIVAL: Fetched counter blocks, nodes and tags are verified, and a sealed line is decrypted or
  fails (R209). -/
  | sealMetadataArrival (sa : Nat) (source : Nat) (fetched : List (Nat × MetaLine)) (tag : MetaLine)
  /-- PAGE_REENCRYPTION: A minor counter overflow raises the major counter and re-encrypts the page (R206). -/
  | pageReencryption (sa : Nat) (bad : List (Nat × Nat))
  /-- IDE_INTEGRITY_FAILURE: An IDE integrity failure puts the stream in the insecure state and raises a fault (R219).
  -/
  | ideIntegrityFailure (h : Head) (stream : IdeStream)
  /-- PARTNER_DETECTED: Receiver detect finds a partner, and the head enters TRAINING (R245). -/
  | partnerDetected (h : Head)
  /-- DL_UP: A head's link reaches DL_Up, and the head becomes UP or reports arrival (R245). -/
  | dlUp (h : Head) (k : LinkForm)
  /-- DL_DOWN: A head's link goes down, the head becomes DOWN, and its fence timer starts (R246). -/
  | dlDown (h : Head) (n : Nat)
  /-- LINK_RETRAIN: A link retrains, ending eye scans and restarting adaptation (R280). -/
  | linkRetrain (h : Head) (k : LinkForm)
  /-- FENCE_TIMER_EXPIRY: A head's fence timer reaches TIMEOUT_MS (R247). -/
  | fenceTimerExpiry (h : Head)
  /-- FENCE_COMPLETE: At t0 + 100 µs the head becomes FENCED, and events are raised (R249). -/
  | fenceComplete (h : Head)
  /-- PERST_ASSERT: A head's PERST# is asserted, holding its lanes idle and starting a fence (R247). -/
  | perstAssert (h : Head)
  /-- PERST_DEASSERT: A head's PERST# is released, and its lanes enter Detect (R284). -/
  | perstDeassert (h : Head)
  /-- HOT_RESET_RECEIVED: A hot reset arrives on a head's link and starts a fence (R247). -/
  | hotResetReceived (h : Head)
  /-- LINK_DISABLE_RECEIVED: A link disable arrives on a head's link and starts a fence (R247). -/
  | linkDisableReceived (h : Head)
  /-- FUNCTION_LEVEL_RESET: A Function Level Reset clears the head's function state without fencing (R247). -/
  | functionLevelReset (h : Head)
  /-- CONFIG_SPACE_WRITE: A configuration write sets a head's function state, such as Bus Master Enable, D3hot or PTM
  Enable (R242). -/
  | configSpaceWrite (h : Head) (item : CfgItem)
  /-- FENCE: OCS command that fences the other head (R268). -/
  | fence (h : Head) (p : Bytes)
  /-- ADOPT: OCS command that adopts a fenced head's resources (R252). -/
  | adopt (h : Head) (p : Bytes)
  /-- HEAD_REJOIN: OCS command by which a fenced head returns (R255). -/
  | headRejoin (h : Head) (p : Bytes)
  /-- HEAD_STATUS: OCS command that returns head states and time status (R267). -/
  | headStatus (h : Head) (p : Bytes)
  /-- PART_ASSIGN: OCS command that assigns or unassigns a granule's partition (R269). -/
  | partAssign (h : Head) (p : Bytes)
  /-- PART_GIVE: OCS command that gives a partition to the other head (R269). -/
  | partGive (h : Head) (p : Bytes)
  /-- HEAD_CFG: OCS command that sets the requester's fence timeout and the time preference or switch (R268). -/
  | headCfg (h : Head) (p : Bytes)
  /-- PTM_EXCHANGE_START: At each PTM_PERIOD beat the device starts a PTM exchange on each head (R257). -/
  | ptmExchangeStart
  /-- PTM_RESPONSE: A valid PTM response locks the head and updates platform time or the offset (R257). -/
  | ptmResponse (h : Head) (t : Nat)
  /-- HOLDOVER_EXPIRY: 10 ms of holdover end, and the time source changes or becomes free-running (R258). -/
  | holdoverExpiry (t : Nat)
  /-- PREFERRED_HEAD_WAIT_EXPIRY: The preferred head has been unavailable for 10 ms, and the other locked head becomes
  time head (R258). -/
  | preferredHeadWaitExpiry
  /-- TIM_SWITCH: A write of TIM_CMD.SWITCH makes the other locked head the time head (R258). -/
  | timSwitch (h : Head) (w : Word)
  /-- IDENTIFY_MEMORY_DEVICE: Standard command that reports volatile capacity (R243). -/
  | identifyMemoryDevice (h : Head) (p : Bytes)
  /-- GET_HEALTH_INFO: Standard command that reports health indications (R243). -/
  | getHealthInfo (h : Head) (p : Bytes)
  /-- GET_EVENT_RECORDS: Standard command that reads event records (R264). -/
  | getEventRecords (h : Head) (p : Bytes)
  /-- CLEAR_EVENT_RECORDS: Standard command that removes event records (R264). -/
  | clearEventRecords (h : Head) (p : Bytes)
  /-- GET_EVENT_INTERRUPT_POLICY: Standard command that reads the event interrupt policy (R244). -/
  | getEventInterruptPolicy (h : Head) (p : Bytes)
  /-- SET_EVENT_INTERRUPT_POLICY: Standard command that sets the event log vectors (R244). -/
  | setEventInterruptPolicy (h : Head) (p : Bytes)
  /-- GET_SUPPORTED_LOGS: Standard command that lists the supported logs (R243). -/
  | getSupportedLogs (h : Head) (p : Bytes)
  /-- GET_LOG: Standard command that reads the Command Effects Log (R296). -/
  | getLog (h : Head) (p : Bytes)
  /-- GET_TIMESTAMP: Standard command that returns platform time (R243). -/
  | getTimestamp (h : Head) (p : Bytes)
  /-- SET_TIMESTAMP: Standard command that records its value in TIM_TS_SET only (R243). -/
  | setTimestamp (h : Head) (p : Bytes)
  /-- GET_POISON_LIST: Standard command that reports the mired lines of the requester's partitions (R243). -/
  | getPoisonList (h : Head) (p : Bytes)
  /-- GET_FW_INFO: Standard command that reports the two image slots (R306). -/
  | getFwInfo (h : Head) (p : Bytes)
  /-- TRANSFER_FW: Standard command that writes a part of an image to the slot not running (R306). -/
  | transferFw (h : Head) (p : Bytes) (img : Bytes)
  /-- FW_TRANSFER_TIMEOUT: A transfer that receives no part for 10 s is aborted (R306). -/
  | fwTransferTimeout
  /-- ACTIVATE_FW: Standard command that selects a slot or restarts the Keeper into it (R306). -/
  | activateFw (h : Head) (p : Bytes)
  /-- STD_UNSUPPORTED_COMMAND: Any other standard command returns Unsupported (R243). -/
  | stdUnsupportedCommand (h : Head) (op : Nat) (p : Bytes)
  /-- DOE_REQUEST: A DOE object for CDAT, SPDM or IDE key management is served (R307). -/
  | doeRequest (h : Head) (o : DoeObject)
  /-- LOW_RATE_RETRAIN: Each second, a link below 8.0 GT/s is retrained (R274). -/
  | lowRateRetrain (h : Head)
  /-- ADAPTATION_UPDATE: Receiver taps, CTLE, gain and floating taps are adapted, and DFE_SAT is judged (R275). -/
  | adaptationUpdate (n : Fin 16) (a : Adapted)
  /-- FOM_SWEEP_START: At a 256-beat boundary a lane's FOM sweep starts (R277). -/
  | fomSweepStart (n : Fin 16)
  /-- FOM_SWEEP_END: A FOM sweep ends, and a low FOM raises a fault (R277). -/
  | fomSweepEnd (n : Fin 16) (lower : Nat) (middle : Nat) (upper : Nat)
  /-- MARGINING_COMMAND: A partner's margining command is served with the offset sampler, pausing or resuming a scan
  (R278). -/
  | marginingCommand (n : Fin 16) (on : Bool)
  /-- EYE_SCAN_START: A write of PHYL_SCAN_CTL.START starts an eye scan, or sets REFUSED (R279). -/
  | eyeScanStart (h : Head) (n : Fin 16) (w : Word)
  /-- EYE_SCAN_POINT_END: A scan point's dwell ends and its mismatch byte is stored; the last point ends the scan
  (R279). -/
  | eyeScanPointEnd (n : Fin 16) (mismatches : Nat)
  /-- SCAN_DATA_READ: A read of PHYL_SCAN_DATA returns four points and advances IDX (R279). -/
  | scanDataRead (h : Head) (n : Fin 16)
  /-- NEAR_END_LOOP_START: A write of PHYC_LOOP.START 1 starts a near-end loop, or sets REFUSED (R282). -/
  | nearEndLoopStart (h : Head) (w : Word)
  /-- NEAR_END_LOOP_STOP: A write of PHYC_LOOP.START 0 ends the loop, and the lanes return to Detect (R282). -/
  | nearEndLoopStop (h : Head) (w : Word)
  /-- FAR_END_LOOPBACK_ENTRY: The partner enters Loopback with the device as follower (R281). -/
  | farEndLoopbackEntry (h : Head) (mask : Nat)
  /-- L0P_REQUEST: The partner requests an L0p width change, and the device responds (R273). -/
  | l0pRequest (h : Head) (narrow : Bool)
  /-- OCS_IDENTIFY: OCS command that returns identity and image state (R298). -/
  | ocsIdentify (h : Head) (p : Bytes)
  /-- HEALTH_GET: OCS command that returns health, thermal and advisory state (R309). -/
  | healthGet (h : Head) (p : Bytes)
  /-- LEVEL_SET: OCS command that turns the requester's expert level on or off (R301). -/
  | levelSet (h : Head) (p : Bytes)
  /-- LEVEL_LOCK: OCS command that freezes the requester's expert bit (R301). -/
  | levelLock (h : Head) (p : Bytes)
  /-- COMPAT_SET: OCS command that writes the compatibility record (R302). -/
  | compatSet (h : Head) (p : Bytes)
  /-- MAP_RECORD_SET: OCS command that writes or erases the map record (R302). -/
  | mapRecordSet (h : Head) (p : Bytes)
  /-- MAP_RECORD_GET: OCS command that reports the map record in flash (R297). -/
  | mapRecordGet (h : Head) (p : Bytes)
  /-- STACK_PARK: Background OCS command that parks the stack in self-refresh (R303). -/
  | stackPark (h : Head) (p : Bytes)
  /-- PARK_COMPLETE: Every die is in self-refresh, and STACK_PARK completes (R303). -/
  | parkComplete
  /-- STACK_UNPARK: OCS command that leaves self-refresh and resumes admission (R303). -/
  | stackUnpark (h : Head) (p : Bytes)
  /-- PHY_LOOP: OCS command that writes PHYC_LOOP and returns the PRBS counts (R282). -/
  | phyLoop (h : Head) (p : Bytes)
  /-- CFG_READ: OCS command that reads registers by offset (R299). -/
  | cfgRead (h : Head) (p : Bytes)
  /-- CFG_WRITE: OCS command that writes registers under claims, checking any commit (R300). -/
  | cfgWrite (h : Head) (p : Bytes)
  /-- FW_STATUS: OCS command that reports both image slots (R305). -/
  | fwStatus (h : Head) (p : Bytes)
  /-- FW_CONFIRM: OCS command that confirms the image on trial (R305). -/
  | fwConfirm (h : Head) (p : Bytes)
  /-- FW_SELECT: OCS command that selects the image for the next start (R306). -/
  | fwSelect (h : Head) (p : Bytes)
  /-- FW_SVN_COMMIT: OCS command that raises MIN_SVN in OTP (R306). -/
  | fwSvnCommit (h : Head) (p : Bytes) (stuck : Nat)
  /-- OCS_UNSUPPORTED_OPCODE: An OCS opcode that no chapter defines returns UNSUPPORTED (R296). -/
  | ocsUnsupportedOpcode (h : Head) (op : Nat) (p : Bytes)
  /-- BACKGROUND_PROGRESS_UPDATE: A background command's percent complete is updated (R294). -/
  | backgroundProgressUpdate (h : Head) (percent : Nat)
  /-- LOCK_STEP_MISMATCH: The Keeper cores disagree, raising a fault and resetting the Keeper (R287). -/
  | lockStepMismatch
  /-- WATCHDOG_EXPIRY: The Keeper watchdog expires, raising a fault and resetting the Keeper (R287). -/
  | watchdogExpiry
  /-- KEEPER_READY: The Keeper reaches READY, and KEEPER_RESTARTED is raised (R288). -/
  | keeperReady (dt : Nat)
  /-- IMAGE_READY_TIMEOUT: An image does not reach READY within 2 s, and it is rolled back or the start fails (R305).
  -/
  | imageReadyTimeout
  /-- TRIAL_CONFIRM_TIMEOUT: An image on trial runs 60 s without a restart and becomes confirmed (R305). -/
  | trialConfirmTimeout
  /-- SENSOR_CONVERSION: Every 8 µs all sensors convert, and governing temperatures update (R311). -/
  | sensorConversion (r : List (Option Int))
  /-- CANARY_CHECK: Before a canary refresh the Keeper reads and rewrites the row, and a correction is a canary
  failure (R315). -/
  | canaryCheck (d : Nat) (failed : Bool)
  /-- GRACE_TIMER_EXPIRY: The grace time ends, and the stage becomes 2 or 0 (R316). -/
  | graceTimerExpiry
  /-- ESCALATION_TIMER_EXPIRY: The stage-2 escalation timer reaches GRACE, and the stage becomes 3 (R316). -/
  | escalationTimerExpiry
  /-- RELEASE_TIMER_EXPIRY: Temperatures stay below threshold for RELEASE_MS, and the stage falls by one (R316). -/
  | releaseTimerExpiry
  /-- SHUTDOWN_JOB_ABORT: At t0 + 500 µs every running job is aborted (R319). -/
  | shutdownJobAbort
  /-- SHUTDOWN_STOP_DECISION: At t0 + 520 µs the device parks the stack or powers it down (R319). -/
  | shutdownStopDecision
  /-- THERMAL_RESUME: Temperatures stay at resumption values for 1 s, and the device leaves shutdown (R320). -/
  | thermalResume
  /-- RAIL_TELEMETRY_UPDATE: Every 10 µs feed currents and input powers are measured (R323). -/
  | railTelemetryUpdate (m : Telemetry)
  /-- POWER_CEILING_UPDATE: Every 10 µs AVG_POWER updates and DUTY is adjusted (R324). -/
  | powerCeilingUpdate
  /-- THERMAL_GET: OCS command that returns thermal and power registers (R326). -/
  | thermalGet (h : Head) (p : Bytes)
  /-- OSC_STABLE: The backup oscillator counts 65,536 cycles and is judged stable (R328). -/
  | oscStable
  /-- PLL_LOCK: The core and row PLLs lock, and the start proceeds to fuse sensing (R329). -/
  | pllLock (dt : Nat)
  /-- CLOCK_MONITOR_WINDOW: A 5.12 µs window counts each REFCLK and qualifies or fails it (R330). -/
  | clockMonitorWindow (a : Nat) (b : Nat)
  /-- GATE_OPEN: The Keeper opens a gate domain that has work pending (R334). -/
  | gateOpen (d : Fin 18)
  /-- GATE_IDLE_EXPIRY: A domain has been idle for IDLE_US, and the Keeper begins to close it (R334). -/
  | gateIdleExpiry (d : Fin 18)
  /-- GATE_CLOSE: After waiting for the bus to go idle, the gate closes (R335). -/
  | gateClose (d : Fin 18) (late : Option LateAccess)
  /-- DEVICE_RESET: OCS command that schedules a warm reset 1 ms after it completes (R346). -/
  | deviceReset (h : Head) (p : Bytes)
  /-- RST_CTL_WARM: A write of WARM with KEY 0xA5 begins a warm reset (R337). -/
  | rstCtlWarm (h : Head) (w : Word)
  /-- BOOT_STATUS_GET: OCS command that returns boot, quiesce and clock status (R346). -/
  | bootStatusGet (h : Head) (p : Bytes)
  /-- WARM_RESET: A warm reset begins stack quiesce (R339). -/
  | warmReset
  /-- QUIESCE_FORCED: Quiesce has not reached self-refresh at 500 µs, and it is forced (R339). -/
  | quiesceForced
  /-- QUIESCE_COMPLETE: The main and Keeper domains are reset, and the warm start begins (R339). -/
  | quiesceComplete (t : Nat)
  /-- RAILS_IN_TOLERANCE: All rails are within tolerance, and power-on reset is released (R342). -/
  | railsInTolerance (heads : Bool)
  /-- RAIL_BROWN_OUT: VDD_LOGIC, VIN_IVR or VPP falls below brown-out (R413). -/
  | railBrownOut (r : Fin 3)
  /-- VAUX_LOSS: VAUX is lost, and every domain resets (R337). -/
  | vauxLoss
  /-- VAUX_RISE: VAUX reaches tolerance, and the SBA straps are sampled (R384). -/
  | vauxRise (sba : Fin 8)
  /-- RAIL_OUT_OF_TOLERANCE: VDD_PHY or VDD_IO leaves tolerance, idling the lanes or failing flash access (R414). -/
  | railOutOfTolerance (r : LowRail)
  /-- RAIL_RETURN: A rail returns to tolerance, and the lanes or flash resume (R414). -/
  | railReturn (r : LowRail)
  /-- FUSE_SENSING_DONE: All fuse words are sensed, and step 4 judges regions and marginal words (R348). -/
  | fuseSensingDone (weak : List (Nat × Nat))
  /-- FLASH_ANSWER_TIMEOUT: The flash does not answer within 10 ms, and the start fails with cause 0x06 (R392). -/
  | flashAnswerTimeout
  /-- IMAGE_ACCEPTED: The ROM accepts an image, and the Keeper runs it (R305). -/
  | imageAccepted (sram : List (Nat × Nat)) (sel : Bool) (a : Option Image) (b : Option Image) (dt : Nat)
  /-- TSV_TRAINING_DONE: TSV training and repair end, and stack bring-up begins (R43). -/
  | tsvTrainingDone (feeds : List Nat) (pairOpen : Bool) (found : List (Nat × Nat)) (dt : Nat)
  /-- STACK_BRINGUP_DONE: Stack bring-up ends, and the lanes enter link training (R343). -/
  | stackBringupDone (bad : Bool) (dt : Nat)
  /-- START_RETRY_WAIT_EXPIRY: The retry wait ends, and a new attempt begins at step 2 (R344). -/
  | startRetryWaitExpiry
  /-- FUSE_READ: OCS command that senses one fuse word at both margins (R355). -/
  | fuseRead (h : Head) (p : Bytes) (weak : Nat)
  /-- FUSE_PROGRAM: OCS command that blows bits in a fuse word (R356). -/
  | fuseProgram (h : Head) (p : Bytes) (stuck : Nat)
  /-- FUSE_LOCK: OCS command that blows a region lock fuse (R353). -/
  | fuseLock (h : Head) (p : Bytes) (stuck : Nat)
  /-- LC_ADVANCE: OCS command that advances the life-cycle state (R358). -/
  | lcAdvance (h : Head) (p : Bytes) (auth : Bytes) (stuck : Nat)
  /-- CAL_RUN: OCS command that queues a die for recalibration (R363). -/
  | calRun (h : Head) (p : Bytes)
  /-- CAL_MEASUREMENT_END: A die's 32 calibration windows end, and T_CAL updates (R363). -/
  | calMeasurementEnd (found : List CalItem) (ends : List Nat)
  /-- TEST_ENTER: OCS command that enters test mode (R367). -/
  | testEnter (h : Head) (p : Bytes)
  /-- BIST_RUN: Background OCS command that runs a BIST target (R368). -/
  | bistRun (h : Head) (p : Bytes)
  /-- BIST_START: A write of BST_CTL.START in test mode runs the target (R368). -/
  | bistStart (h : Head) (w : Word)
  /-- BIST_DONE: A BIST ends with PASS or FAIL (R368). -/
  | bistDone (pass : Bool) (repairs : List (Nat × Nat))
  /-- REPAIR_COMMIT: OCS command that programs the soft repairs into OTP (R369). -/
  | repairCommit (h : Head) (p : Bytes) (stuck : List (Nat × Nat))
  /-- CMB_DISPATCH_RESUME: 100 µs after a comb-engine block reset, dispatch resumes (R375). -/
  | cmbDispatchResume
  /-- FAULT_ACK: OCS command that acknowledges a fault source (R382). -/
  | faultAck (h : Head) (p : Bytes)
  /-- FAULT_LOG_READ: OCS command that reads fault log records (R382). -/
  | faultLogRead (h : Head) (p : Bytes)
  /-- FLT_PEND_ACK: A write of 1 to FLT_PEND acknowledges sources (R376). -/
  | fltPendAck (h : Head) (n : Fin 20) (w : Word)
  /-- ERRN_RELEASE: A write of FLT_ERRN.RELEASE releases ERR_N (R377). -/
  | errnRelease (h : Head) (w : Word)
  /-- ERRN_PULSE_END: The ERR_N pulse ends, and the pin is released unless held (R377). -/
  | errnPulseEnd
  /-- SB_WRITE_TRANSACTION: A sideband write commits its data bytes at STOP (R386). -/
  | sbWriteTransaction (p : Bytes) (stop : Bool) (stuck : Nat)
  /-- SB_READ_TRANSACTION: A sideband read returns bytes from the pointer and advances it (R385). -/
  | sbReadTransaction (n : Nat)
  /-- SB_BUS_CLEAR: Bus-clear pulses release SDA and discard the partial transaction (R388). -/
  | sbBusClear
  /-- SB_SCL_TIMEOUT: SCL held low for 25 ms releases SDA and raises source 630 (R388). -/
  | sbSclTimeout
  /-- SB_SDA_TIMEOUT: The device held SDA low for 25 ms, releases it, and raises source 630 (R388). -/
  | sbSdaTimeout
  /-- FRU_WRITE: OCS command that rewrites FRU record bytes (R398). -/
  | fruWrite (h : Head) (p : Bytes)
  /-- FRU_READ: OCS command that reads FRU record bytes (R398). -/
  | fruRead (h : Head) (p : Bytes)
  /-- FLASH_INFO: OCS command that reports the flash and usable records (R398). -/
  | flashInfo (h : Head) (p : Bytes)
  /-- FLASH_RECORD_WRITTEN: A record's erase, program and read-back end, or FLASH_ERROR is returned (R394). -/
  | flashRecordWritten (ok : Bool)
  /-- MIRE_LOG_READ: OCS command that reads mire log records (R191). -/
  | mireLogRead (h : Head) (p : Bytes)
  /-- FRG_META_PASS: OCS command that queues a Forager pass over a metadata region (R181). -/
  | frgMetaPass (h : Head) (p : Bytes)
  /-- DIE_RETIRE: OCS command that retires a die (R191). -/
  | dieRetire (h : Head) (p : Bytes)
  /-- RETIRE_STATUS: OCS command that returns health and migration state (R191). -/
  | retireStatus (h : Head) (p : Bytes)
  /-- PHY_PLL_LOCK: A head's PHY PLL locks within 100 µs of its REFCLK qualifying, and the head may then train (R329).
  -/
  | phyPllLock (h : Head)
  /-- PLL_LOCK_TIMEOUT: A PLL that has not locked within 200 µs fails the start attempt with cause 0x02 (R344). -/
  | pllLockTimeout
  /-- FUSE_WORD_READ_TIMEOUT: A fuse word read that has not completed within 50 µs fails the start attempt with cause
  0x03 (R344). -/
  | fuseWordReadTimeout
  /-- NEITHER_IMAGE_PASSES: The ROM finds that both image slots fail R304, and the attempt fails with cause 0x07
  (R305). -/
  | neitherImagePasses (a : Option Image) (b : Option Image)
  /-- PARTNER_LOST: Receiver detect no longer finds a partner on a head in TRAINING, and the head returns to ABSENT
  (R245). -/
  | partnerLost (h : Head)
  deriving DecidableEq, Repr

end Sys2Proof
end

