-- ==== Sys2Proof/Decode.lean ====
section
/-! DEFINITION. The command that a word spells by the bits of the command table. -/

namespace Sys2Proof

/-- No row of spec/opcode_table.json gives its command any bits: a command arrives as a register access, a mailbox
command, a link transaction or an event, never as one word. -/
def decodeTableWord (_nbits _w : Nat) : Option Instr := none

end Sys2Proof
end

