-- ==== Sys2Proof/Config.lean ====
section
/-! DEFINITION. What the spec leaves open: values it calls unpredictable or does not state, each an opaque constant
with no body, so that nothing can be proved of it beyond its type. -/

namespace Sys2Proof.Config

/-- A free number for the `n`-th open value a run meets (notes/assumptions/1.md). -/
opaque freeNat : Nat → Nat

/-- The data a read of a never-written line returns, byte `i` of the line at stack address `sa`, at the `n`-th open
value (R15: unpredictable; notes/assumptions/2.md). -/
opaque neverWritten : (n sa i : Nat) → BitVec 8

/-- The key that KEY_CREATE draws for the `n`-th draw (R198: a true random source; notes/assumptions/3.md). -/
opaque drawnKey : Nat → BitVec 256

/-- The set of the metadata cache that a line falls into (R208 names 7,680 sets and not which line goes where;
notes/assumptions/102.md). -/
opaque sealSet : Nat × Nat × Nat → Nat

/-- The mire word of the part: the 8 check symbols of a mired line (R175: chosen at distance 8 from every codeword, its value not
stated; notes/assumptions/1.md). -/
opaque mireWord : List Nat

/-- Yunapel's Vendor ID (R240: its value is not stated; notes/assumptions/1.md). -/
opaque vendorId : BitVec 16

/-- A measured quantity the spec does not compute (a shift in a rate, a figure of merit, a delay): the `n`-th one
(notes/assumptions/1.md). -/
opaque measured : Nat → Nat

/-- The bits by which a word of the REPAIR region of the OTP spells a list of repaired positions (R349, R369: the spec names
the words and not their layout; notes/assumptions/1.md). -/
opaque repairWord : List Nat → Nat

/-- The positions that a programmed word of the REPAIR region spells (notes/assumptions/1.md). -/
opaque repairPositions : Nat → List Nat

/-- The effects that the Command Effects Log states for an opcode (R296: those "that the CXL specification lets it state", which
the spec does not list; notes/assumptions/1.md). -/
opaque commandEffects : Nat → Nat

/-- The characters of the firmware revision string for a version (R306: the spec does not state them; notes/assumptions/1.md). -/
opaque revisionText : (major minor patch : Nat) → List (BitVec 8)

/-- The image that the bytes of a slot spell, none where they spell none (R304 names what the header holds and not its layout;
notes/assumptions/1.md). -/
opaque imageSpelt : List (BitVec 8) → Option Image

/-- The private key that the DICE derivation of R307 gives for a unique device secret, before it is brought into the range of the curve
(R307 names the layering and not its function; notes/assumptions/149.md). -/
opaque identityKey : List (BitVec 8) → Nat

/-- Which of the 256 SRAM macros of the base die belong to the Keeper SRAM (R366 names it and not its macros;
notes/assumptions/150.md). -/
opaque keeperMacro : Nat → Bool

/-- The SHA-384 digest of the boot ROM (R307: its value is not stated; notes/assumptions/1.md). -/
opaque romDigest : List (BitVec 8)

/-- Which of the words 0x0E0 to 0x1FE of the CAL region holds a calibrated value of a die, of the PHY or of the base die (R349 names the
contents and not their layout; notes/assumptions/1.md). -/
opaque calPlace : (die cls item : Nat) → Fin 0x11F

/-- The value that a programmed word of the CAL region spells (R349; notes/assumptions/1.md). -/
opaque calSpelt : (word die cls item : Nat) → BitVec 16

/-- The nominal value that the ROM holds for a calibrated element (R361: its value is not stated; notes/assumptions/1.md). -/
opaque nominalCal : (die cls item : Nat) → BitVec 16

/-- By how many selections a regulator's output trim moves in 10 mV, less one (R364: the size of a selection is not stated;
notes/assumptions/1.md). -/
opaque trimStep : Nat

/-- The fault of a base-die SRAM macro that a programmed word of the REPAIR region spells: the macro, and the row or, with bit 16 set,
the column (R349, R366; notes/assumptions/1.md). -/
opaque sramRepair : Nat → Nat × Nat

/-- Where a channel keeps its canary row (R315 puts it in the Keeper region and does not say where): the refresh group of 8 rows that holds
it, and its bank (notes/assumptions/146.md). -/
opaque canaryPlace : (ch : Nat) → Fin 8192 × Fin 16

/-- The weight of a new total in the exponential average of AVG_POWER (R324: a time constant of 100 us, whose discrete form
the spec does not state; notes/assumptions/1.md). -/
opaque powerWeight : Rat

end Sys2Proof.Config
end

