-- ==== Sys2Proof/Machine/FaultTable.lean ====
section
/-! DEFINITION. The table of the 640 fault sources (R372) and the reset values that depend on an array index. -/

namespace Sys2Proof.Machine

/-- One row of the table of R372: the sources `lo` to `hi`, their class, default severity and default reactions
(bit layout of the REACT byte of R381: 1 MSI-X, 2 NMI, 4 block reset, 8 device reset, 16 ERR_N). -/
structure FaultRow where
  lo : Nat
  hi : Nat
  cls : Nat
  sev : Nat
  react : Nat
  deriving DecidableEq, Repr

/-- The rows of R372, in order; a source in no row is reserved. -/
def faultRows : List FaultRow :=
  [⟨0, 47, 0, 2, 1⟩, ⟨48, 95, 1, 1, 1⟩, ⟨96, 143, 2, 1, 0⟩, ⟨144, 191, 3, 1, 1⟩, ⟨192, 223, 4, 1, 1⟩,
   ⟨224, 235, 5, 3, 17⟩, ⟨236, 247, 6, 2, 1⟩, ⟨248, 259, 7, 1, 1⟩, ⟨260, 387, 8, 1, 0⟩, ⟨388, 403, 9, 1, 1⟩,
   ⟨404, 419, 10, 0, 0⟩, ⟨420, 547, 11, 2, 1⟩, ⟨548, 550, 12, 2, 17⟩, ⟨551, 556, 13, 1, 1⟩,
   ⟨564, 567, 14, 2, 1⟩, ⟨572, 573, 15, 1, 1⟩, ⟨576, 581, 16, 1, 1⟩, ⟨584, 593, 17, 1, 1⟩, ⟨600, 602, 18, 1, 1⟩,
   ⟨608, 613, 19, 2, 1⟩, ⟨616, 619, 20, 2, 1⟩, ⟨620, 623, 21, 2, 5⟩, ⟨624, 626, 22, 1, 0⟩, ⟨628, 630, 23, 1, 1⟩,
   ⟨632, 635, 24, 2, 1⟩]

/-- The row of a source, none for a reserved source ("Reserved sources never occur", R372). -/
def faultRow (n : Nat) : Option FaultRow := faultRows.find? fun r => decide (r.lo ≤ n) && decide (n ≤ r.hi)

/-- CLASS of FLT_SRC_CFG_n; 0 for a reserved source, whose configuration register reads zero (R372). -/
def fltClass (n : Nat) : Nat := match faultRow n with
  | some r => r.cls
  | none => 0

/-- Default SEVERITY of a source (R372). -/
def fltSev (n : Nat) : Nat := match faultRow n with
  | some r => r.sev
  | none => 0

/-- Default REACT of a source (R372). -/
def fltReact (n : Nat) : Nat := match faultRow n with
  | some r => r.react
  | none => 0

/-- Reset value of AER: 1, and 0 for sources 584 to 599 and for reserved sources (R380, R372). -/
def fltAer (n : Nat) : Nat := if (faultRow n).isNone || (decide (584 ≤ n) && decide (n ≤ 599)) then 0 else 1

/-- Reset value of RECORD: 1, and 0 for reserved sources (R379, R372). -/
def fltRecord (n : Nat) : Nat := if (faultRow n).isNone then 0 else 1

/-- A source whose block has a block reset under R375: CMB 564 to 567, PHY lanes 388 to 419, Keeper 620 to 623. -/
def hasBlockReset (n : Nat) : Bool :=
  (decide (564 ≤ n) && decide (n ≤ 567)) || (decide (388 ≤ n) && decide (n ≤ 419)) ||
    (decide (620 ≤ n) && decide (n ≤ 623))

/-- Reset value of FLT_SEV_REACT_s: 0, 0, NMI, NMI and ERR_N. -/
def sevReactReset (s : Nat) : Nat := if s = 2 then 0x02 else if s = 3 then 0x12 else 0

/-- Reset value of QOS_AGE_LIMIT_c: 0 for class 0, 0x10 * 2^(c-1) otherwise. -/
def ageLimitReset (c : Nat) : Nat := if c = 0 then 0 else 0x10 * 2 ^ (c - 1)

/-- Reset value of QOS_PORT_LAT_p.RAMP in units of 8 ns. -/
def portRampReset (p : Nat) : Nat := if p ≤ 1 then 0x7D else if p = 2 then 0x4E2 else if p = 3 then 0x1F4 else 0xC35

/-- Reset value of QOS_PORT_LAT_p.TARGET in units of 8 ns. -/
def portTargetReset (p : Nat) : Nat :=
  if p ≤ 1 then 0xFA else if p = 2 then 0x9C4 else if p = 3 then 0x3E8 else 0x186A

end Sys2Proof.Machine
end

