-- ==== Sys2Proof/Machine/Fields.lean ====
section
/-! DEFINITION. The register fields of the spec's register tables: one `Fld` per field, with its absolute bit
address in BAR0 (offset * 8 + lowest bit), its width and its power-on reset value (R8; a reset of "—" is held as 0
until the start sequence loads it). Block bases: R404. Sideband-only registers stand from 0x100_0000 up. -/

namespace Sys2Proof.Machine.R

open Sys2Proof.Machine

-- IDC_CAP0_HDR0 (file 01)
def IDC_CAP0_HDR0_CAP_ID : Fld := ⟨16, 16, 0⟩
def IDC_CAP0_HDR0_CAP_VER : Fld := ⟨12, 4, 0⟩
def IDC_CAP0_HDR0_BODY_DW : Fld := ⟨0, 12, 0⟩
-- IDC_CAP0_HDR1 (file 01)
def IDC_CAP0_HDR1_NEXT : Fld := ⟨32, 24, 0⟩
-- IDC_CORE_INFO (file 20)
def IDC_CORE_INFO_REGMAP_VER : Fld := ⟨88, 8, 1⟩
def IDC_CORE_INFO_BAR0_MIB : Fld := ⟨80, 8, 16⟩
def IDC_CORE_INFO_BAR2_KIB : Fld := ⟨64, 16, 256⟩
-- IDC_STACK_GEOM (file 01)
def IDC_STACK_GEOM_ROW_BITS : Fld := ⟨155, 5, 16⟩
def IDC_STACK_GEOM_ROW_LANES : Fld := ⟨148, 4, 4⟩
def IDC_STACK_GEOM_CH_PER_DIE : Fld := ⟨144, 4, 4⟩
def IDC_STACK_GEOM_BANKS_PER_CH : Fld := ⟨136, 8, 16⟩
def IDC_STACK_GEOM_BANK_GROUPS : Fld := ⟨132, 4, 4⟩
def IDC_STACK_GEOM_DIES : Fld := ⟨128, 4, 0⟩
-- IDC_USER_MIB (file 01)
def IDC_USER_MIB_USER_MIB : Fld := ⟨160, 32, 0⟩
-- IDC_PART_ID (file 00)
def IDC_PART_ID_PART_NUMBER : Fld := ⟨528, 16, 0⟩
def IDC_PART_ID_STEP_LETTER : Fld := ⟨524, 4, 1⟩
def IDC_PART_ID_STEP_DIGIT : Fld := ⟨520, 4, 1⟩
def IDC_PART_ID_COMPAT_1604 : Fld := ⟨512, 1, 0⟩
-- IDC_CTRL_LEVEL (file 01)
def IDC_CTRL_LEVEL_B_LOCK : Fld := ⟨649, 1, 0⟩
def IDC_CTRL_LEVEL_B_EXPERT : Fld := ⟨648, 1, 0⟩
def IDC_CTRL_LEVEL_A_LOCK : Fld := ⟨641, 1, 0⟩
def IDC_CTRL_LEVEL_A_EXPERT : Fld := ⟨640, 1, 0⟩
-- IDC_LEVEL_DROP_CNT (file 01)
def IDC_LEVEL_DROP_CNT_B_DROPS : Fld := ⟨688, 16, 0⟩
def IDC_LEVEL_DROP_CNT_A_DROPS : Fld := ⟨672, 16, 0⟩
-- IDC_CLAIM_DROP_CNT (file 01)
def IDC_CLAIM_DROP_CNT_LAST_BLOCK : Fld := ⟨728, 8, 0⟩
def IDC_CLAIM_DROP_CNT_COUNT : Fld := ⟨704, 16, 0⟩
-- IDC_FW_VER (file 13)
def IDC_FW_VER_MAJOR : Fld := ⟨792, 8, 0⟩
def IDC_FW_VER_MINOR : Fld := ⟨784, 8, 0⟩
def IDC_FW_VER_PATCH : Fld := ⟨768, 16, 0⟩
-- IDC_FW_STAT (file 13)
def IDC_FW_STAT_READY : Fld := ⟨831, 1, 0⟩
def IDC_FW_STAT_STATE : Fld := ⟨829, 2, 0⟩
def IDC_FW_STAT_RUNNING : Fld := ⟨828, 1, 0⟩
def IDC_FW_STAT_OTHER_VALID : Fld := ⟨827, 1, 0⟩
def IDC_FW_STAT_HELD : Fld := ⟨826, 1, 0⟩
def IDC_FW_STAT_MIN_SVN : Fld := ⟨816, 8, 0⟩
def IDC_FW_STAT_SVN : Fld := ⟨808, 8, 0⟩
-- IDC_KPR_STAT (file 13)
def IDC_KPR_STAT_PARKED : Fld := ⟨863, 1, 0⟩
def IDC_KPR_STAT_RESTARTS : Fld := ⟨832, 16, 0⟩
-- IDC_PARK_DROP_CNT (file 13)
def IDC_PARK_DROP_CNT_B_DROPS : Fld := ⟨880, 16, 0⟩
def IDC_PARK_DROP_CNT_A_DROPS : Fld := ⟨864, 16, 0⟩
-- IDC_UNIQUE_ID (file 20)
def IDC_UNIQUE_ID_ID (n : Nat) : Fld := ⟨896 + 32 * n, 32, 0⟩
-- IDC_OTP_ID (file 20)
def IDC_OTP_ID_LC_STATE : Fld := ⟨1053, 3, 0⟩
def IDC_OTP_ID_DIVISION : Fld := ⟨1046, 2, 0⟩
def IDC_OTP_ID_FROM_STRAP : Fld := ⟨1045, 1, 0⟩
def IDC_OTP_ID_SEAL_KEYS : Fld := ⟨1044, 1, 0⟩
def IDC_OTP_ID_FUSED_MAX : Fld := ⟨1032, 8, 0⟩
def IDC_OTP_ID_MIN_SVN : Fld := ⟨1024, 7, 0⟩
-- IDC_CAP1_HDR0 (file 01)
def IDC_CAP1_HDR0_CAP_ID : Fld := ⟨2064, 16, 0⟩
def IDC_CAP1_HDR0_CAP_VER : Fld := ⟨2060, 4, 0⟩
def IDC_CAP1_HDR0_BODY_DW : Fld := ⟨2048, 12, 0⟩
-- IDC_CAP1_HDR1 (file 01)
def IDC_CAP1_HDR1_NEXT : Fld := ⟨2080, 24, 0⟩
-- IDC_CMB_INFO (file 05)
def IDC_CMB_INFO_JOB_SLOTS : Fld := ⟨2128, 16, 4096⟩
def IDC_CMB_INFO_SQ_RINGS : Fld := ⟨2120, 8, 64⟩
def IDC_CMB_INFO_CQ_RINGS : Fld := ⟨2112, 8, 64⟩
-- IDC_CMB_RING (file 05)
def IDC_CMB_RING_MAX_LOG2 : Fld := ⟨2171, 5, 16⟩
def IDC_CMB_RING_MIN_LOG2 : Fld := ⟨2166, 5, 4⟩
def IDC_CMB_RING_DESC_B : Fld := ⟨2152, 8, 128⟩
def IDC_CMB_RING_CPL_B : Fld := ⟨2144, 8, 32⟩
-- IDC_CMB_OPS (file 05)
def IDC_CMB_OPS_OPS : Fld := ⟨2176, 32, 1023⟩
-- IDC_CMB_RATE (file 05)
def IDC_CMB_RATE_ROW_GBPS : Fld := ⟨2224, 16, 1536⟩
def IDC_CMB_RATE_ARRAY_B : Fld := ⟨2208, 16, 512⟩
-- IDC_CMB_LIMITS (file 05)
def IDC_CMB_LIMITS_MAX_NP : Fld := ⟨2256, 16, 4096⟩
def IDC_CMB_LIMITS_OCS_JOBS : Fld := ⟨2240, 16, 64⟩
-- IDC_CAP2_HDR0 (file 01)
def IDC_CAP2_HDR0_CAP_ID : Fld := ⟨2576, 16, 0⟩
def IDC_CAP2_HDR0_CAP_VER : Fld := ⟨2572, 4, 0⟩
def IDC_CAP2_HDR0_BODY_DW : Fld := ⟨2560, 12, 0⟩
-- IDC_CAP2_HDR1 (file 01)
def IDC_CAP2_HDR1_NEXT : Fld := ⟨2592, 24, 0⟩
-- IDC_LRC_INFO (file 04)
def IDC_LRC_INFO_MAX_N : Fld := ⟨2648, 8, 44⟩
def IDC_LRC_INFO_MAX_K : Fld := ⟨2640, 8, 32⟩
def IDC_LRC_INFO_MAX_L : Fld := ⟨2636, 4, 4⟩
def IDC_LRC_INFO_MAX_M : Fld := ⟨2632, 4, 8⟩
def IDC_LRC_INFO_MAX_OUT : Fld := ⟨2628, 4, 12⟩
def IDC_LRC_INFO_GROUP_RULE : Fld := ⟨2624, 4, 1⟩
-- IDC_LRC_ORDER (file 04)
def IDC_LRC_ORDER_Y_BASE : Fld := ⟨2680, 8, 16⟩
def IDC_LRC_ORDER_FIRST_GLOBAL_ROW : Fld := ⟨2672, 8, 1⟩
def IDC_LRC_ORDER_LOCAL_FIRST : Fld := ⟨2656, 1, 1⟩
-- IDC_CAP3_HDR0 (file 01)
def IDC_CAP3_HDR0_CAP_ID : Fld := ⟨3088, 16, 0⟩
def IDC_CAP3_HDR0_CAP_VER : Fld := ⟨3084, 4, 0⟩
def IDC_CAP3_HDR0_BODY_DW : Fld := ⟨3072, 12, 0⟩
-- IDC_CAP3_HDR1 (file 01)
def IDC_CAP3_HDR1_NEXT : Fld := ⟨3104, 24, 0⟩
-- IDC_SEAL_INFO (file 09)
def IDC_SEAL_INFO_KEY_SLOTS : Fld := ⟨3156, 12, 1024⟩
def IDC_SEAL_INFO_MAX_BUDGET : Fld := ⟨3144, 6, 0⟩
def IDC_SEAL_INFO_BUDGET : Fld := ⟨3136, 6, 0⟩
-- IDC_SEAL_ALG (file 09)
def IDC_SEAL_ALG_TAG_BITS : Fld := ⟨3192, 8, 64⟩
def IDC_SEAL_ALG_MINOR_BITS : Fld := ⟨3184, 8, 7⟩
def IDC_SEAL_ALG_ARITY : Fld := ⟨3176, 8, 8⟩
def IDC_SEAL_ALG_SRAM_LEVELS : Fld := ⟨3172, 4, 3⟩
def IDC_SEAL_ALG_STACK_LEVELS : Fld := ⟨3168, 4, 3⟩
-- IDC_SEAL_IDE (file 09)
def IDC_SEAL_IDE_SEL_STREAMS : Fld := ⟨3204, 4, 4⟩
def IDC_SEAL_IDE_CXL_SKID : Fld := ⟨3203, 1, 1⟩
def IDC_SEAL_IDE_CXL_CONTAIN : Fld := ⟨3202, 1, 1⟩
def IDC_SEAL_IDE_PCIE_SEL : Fld := ⟨3201, 1, 1⟩
def IDC_SEAL_IDE_PCIE_LINK : Fld := ⟨3200, 1, 1⟩
-- IDC_CAP4_HDR0 (file 01)
def IDC_CAP4_HDR0_CAP_ID : Fld := ⟨3600, 16, 0⟩
def IDC_CAP4_HDR0_CAP_VER : Fld := ⟨3596, 4, 0⟩
def IDC_CAP4_HDR0_BODY_DW : Fld := ⟨3584, 12, 0⟩
-- IDC_CAP4_HDR1 (file 01)
def IDC_CAP4_HDR1_NEXT : Fld := ⟨3616, 24, 0⟩
-- IDC_ROWL_INFO (file 02)
def IDC_ROWL_INFO_ROW_CLK_MHZ : Fld := ⟨3668, 12, 375⟩
def IDC_ROWL_INFO_LANE_GBPS : Fld := ⟨3656, 12, 384⟩
def IDC_ROWL_INFO_IN_SERVICE : Fld := ⟨3652, 4, 0⟩
def IDC_ROWL_INFO_BUILT : Fld := ⟨3648, 4, 15⟩
-- IDC_ROWL_DIEMAP (file 02)
def IDC_ROWL_DIEMAP_LANE_OF_DIE : Fld := ⟨3680, 24, 0⟩
-- IDC_ROWL_RET_DIE (file 02)
def IDC_ROWL_RET_DIE_DIES : Fld := ⟨3712, 12, 0⟩
-- IDC_ROWL_RET_CH_LO (file 02)
def IDC_ROWL_RET_CH_LO_CH : Fld := ⟨3744, 32, 0⟩
-- IDC_ROWL_RET_CH_HI (file 02)
def IDC_ROWL_RET_CH_HI_CH : Fld := ⟨3776, 16, 0⟩
-- IDC_ROWL_SPARE_MIN (file 02)
def IDC_ROWL_SPARE_MIN_LANE3 : Fld := ⟨3832, 8, 0⟩
def IDC_ROWL_SPARE_MIN_LANE2 : Fld := ⟨3824, 8, 0⟩
def IDC_ROWL_SPARE_MIN_LANE1 : Fld := ⟨3816, 8, 0⟩
def IDC_ROWL_SPARE_MIN_LANE0 : Fld := ⟨3808, 8, 0⟩
-- IDC_ROWL_COL_SPARE (file 02)
def IDC_ROWL_COL_SPARE_CH_NONE_LEFT : Fld := ⟨3856, 8, 0⟩
def IDC_ROWL_COL_SPARE_CH_ONE_LEFT : Fld := ⟨3848, 8, 0⟩
def IDC_ROWL_COL_SPARE_CH_TWO_LEFT : Fld := ⟨3840, 8, 0⟩
-- IDC_CAP5_HDR0 (file 01)
def IDC_CAP5_HDR0_CAP_ID : Fld := ⟨4112, 16, 0⟩
def IDC_CAP5_HDR0_CAP_VER : Fld := ⟨4108, 4, 0⟩
def IDC_CAP5_HDR0_BODY_DW : Fld := ⟨4096, 12, 0⟩
-- IDC_CAP5_HDR1 (file 01)
def IDC_CAP5_HDR1_NEXT : Fld := ⟨4128, 24, 0⟩
-- IDC_HEAD_INFO (file 11)
def IDC_HEAD_INFO_FENCE_DEF_MS : Fld := ⟨4176, 16, 100⟩
def IDC_HEAD_INFO_PARTITIONS : Fld := ⟨4168, 8, 64⟩
def IDC_HEAD_INFO_LANES_B : Fld := ⟨4164, 4, 8⟩
def IDC_HEAD_INFO_LANES_A : Fld := ⟨4160, 4, 8⟩
-- IDC_HEAD_STATE (file 11)
def IDC_HEAD_STATE_B_ADOPTED : Fld := ⟨4203, 1, 0⟩
def IDC_HEAD_STATE_B_STATE : Fld := ⟨4200, 3, 0⟩
def IDC_HEAD_STATE_A_ADOPTED : Fld := ⟨4195, 1, 0⟩
def IDC_HEAD_STATE_A_STATE : Fld := ⟨4192, 3, 0⟩
-- IDC_CAP6_HDR0 (file 01)
def IDC_CAP6_HDR0_CAP_ID : Fld := ⟨4624, 16, 0⟩
def IDC_CAP6_HDR0_CAP_VER : Fld := ⟨4620, 4, 0⟩
def IDC_CAP6_HDR0_BODY_DW : Fld := ⟨4608, 12, 0⟩
-- IDC_CAP6_HDR1 (file 01)
def IDC_CAP6_HDR1_NEXT : Fld := ⟨4640, 24, 0⟩
-- IDC_TIME_INFO (file 11)
def IDC_TIME_INFO_BEAT_NS : Fld := ⟨4692, 12, 3900⟩
def IDC_TIME_INFO_HOLD_MS : Fld := ⟨4680, 8, 10⟩
def IDC_TIME_INFO_CLASSES : Fld := ⟨4672, 8, 8⟩
-- IDC_TIME_STATE (file 11)
def IDC_TIME_STATE_STATUS : Fld := ⟨4704, 32, 0⟩
-- IDC_CAP7_HDR0 (file 01)
def IDC_CAP7_HDR0_CAP_ID : Fld := ⟨5136, 16, 0⟩
def IDC_CAP7_HDR0_CAP_VER : Fld := ⟨5132, 4, 0⟩
def IDC_CAP7_HDR0_BODY_DW : Fld := ⟨5120, 12, 0⟩
-- IDC_CAP7_HDR1 (file 01)
def IDC_CAP7_HDR1_NEXT : Fld := ⟨5152, 24, 0⟩
-- IDC_COMPAT (file 01)
def IDC_COMPAT_ERRN_LATCH : Fld := ⟨5185, 1, 0⟩
def IDC_COMPAT_CLK_COAST : Fld := ⟨5184, 1, 0⟩
-- CLK_STATUS (file 15)
def CLK_STATUS_CORE_REF : Fld := ⟨524318, 2, 0⟩
def CLK_STATUS_COAST : Fld := ⟨524317, 1, 0⟩
def CLK_STATUS_CORE_LOCK : Fld := ⟨524316, 1, 0⟩
def CLK_STATUS_ROW_LOCK : Fld := ⟨524315, 1, 0⟩
def CLK_STATUS_PHYA_LOCK : Fld := ⟨524314, 1, 0⟩
def CLK_STATUS_PHYB_LOCK : Fld := ⟨524313, 1, 0⟩
def CLK_STATUS_TRIMMED : Fld := ⟨524312, 1, 0⟩
-- CLK_MON_A (file 15)
def CLK_MON_A_QUALIFIED : Fld := ⟨524447, 1, 0⟩
def CLK_MON_A_FAILED : Fld := ⟨524446, 1, 0⟩
def CLK_MON_A_COUNT : Fld := ⟨524432, 10, 0⟩
def CLK_MON_A_FAILS : Fld := ⟨524416, 16, 0⟩
-- CLK_MON_B (file 15)
def CLK_MON_B_QUALIFIED : Fld := ⟨524479, 1, 0⟩
def CLK_MON_B_FAILED : Fld := ⟨524478, 1, 0⟩
def CLK_MON_B_COUNT : Fld := ⟨524464, 10, 0⟩
def CLK_MON_B_FAILS : Fld := ⟨524448, 16, 0⟩
-- CLK_GATE_EN (file 15)
def CLK_GATE_EN_EN : Fld := ⟨526336, 18, 262143⟩
-- CLK_GATE_STAT (file 15)
def CLK_GATE_STAT_OPEN : Fld := ⟨526368, 18, 262143⟩
-- CLK_GATE_POL (file 15)
def CLK_GATE_POL_HOLD_OPEN : Fld := ⟨526431, 1, 0⟩
def CLK_GATE_POL_IDLE_US : Fld := ⟨526400, 16, 100⟩
-- CLK_GATED_ACC_CNT (file 15)
def CLK_GATED_ACC_CNT_EVENTS : Fld := ⟨526448, 16, 0⟩
def CLK_GATED_ACC_CNT_ACCESSES : Fld := ⟨526432, 16, 0⟩
-- RST_CTL (file 15)
def RST_CTL_KEY : Fld := ⟨1048600, 8, 0⟩
def RST_CTL_WARM : Fld := ⟨1048576, 1, 0⟩
-- RST_BOOT_STATUS (file 15)
def RST_BOOT_STATUS_STEP : Fld := ⟨1048732, 4, 0⟩
def RST_BOOT_STATUS_PHASE : Fld := ⟨1048728, 4, 0⟩
def RST_BOOT_STATUS_CAUSE : Fld := ⟨1048720, 8, 0⟩
def RST_BOOT_STATUS_ATTEMPTS : Fld := ⟨1048704, 16, 0⟩
-- RST_BOOT_INFO (file 15)
def RST_BOOT_INFO_ORIGIN : Fld := ⟨1048764, 4, 0⟩
def RST_BOOT_INFO_IMG_A : Fld := ⟨1048760, 4, 0⟩
def RST_BOOT_INFO_IMG_B : Fld := ⟨1048756, 4, 0⟩
def RST_BOOT_INFO_FUSE_MARGINAL : Fld := ⟨1048755, 1, 0⟩
def RST_BOOT_INFO_FALLBACK : Fld := ⟨1048754, 1, 0⟩
def RST_BOOT_INFO_KEPT : Fld := ⟨1048753, 1, 0⟩
def RST_BOOT_INFO_TORN : Fld := ⟨1048752, 1, 0⟩
def RST_BOOT_INFO_LAST_MS : Fld := ⟨1048736, 16, 0⟩
-- RST_QUIESCE (file 15)
def RST_QUIESCE_FORCED : Fld := ⟨1048863, 1, 0⟩
def RST_QUIESCE_TORN : Fld := ⟨1048848, 13, 0⟩
def RST_QUIESCE_TIME_US : Fld := ⟨1048832, 16, 0⟩
-- FUS_STATUS (file 16)
def FUS_STATUS_LC_STATE : Fld := ⟨1572893, 3, 0⟩
def FUS_STATUS_BUSY : Fld := ⟨1572892, 1, 0⟩
def FUS_STATUS_MARGINAL : Fld := ⟨1572880, 8, 0⟩
def FUS_STATUS_MIN_SVN : Fld := ⟨1572864, 7, 0⟩
-- FUS_REGION_STAT (file 16)
def FUS_REGION_STAT_REPAIR : Fld := ⟨1572904, 2, 0⟩
def FUS_REGION_STAT_CAL : Fld := ⟨1572902, 2, 0⟩
def FUS_REGION_STAT_CONFIG : Fld := ⟨1572900, 2, 0⟩
def FUS_REGION_STAT_KEY : Fld := ⟨1572898, 2, 0⟩
def FUS_REGION_STAT_SECURITY : Fld := ⟨1572896, 2, 0⟩
-- FUS_LOCK (file 16)
def FUS_LOCK_FUSED : Fld := ⟨1572936, 5, 0⟩
def FUS_LOCK_LOCKED : Fld := ⟨1572928, 5, 0⟩
-- FUS_MARGINAL (file 16)
def FUS_MARGINAL_VALID (n : Nat) : Fld := ⟨1573023 + 32 * n, 1, 0⟩
def FUS_MARGINAL_CLASS (n : Nat) : Fld := ⟨1573020 + 32 * n, 3, 0⟩
def FUS_MARGINAL_ADDR (n : Nat) : Fld := ⟨1572992 + 32 * n, 11, 0⟩
-- CAL_CFG (file 16)
def CAL_CFG_HOLD : Fld := ⟨2097160, 1, 0⟩
def CAL_CFG_DELTA_C : Fld := ⟨2097152, 5, 8⟩
-- CAL_STATUS (file 16)
def CAL_STATUS_BUSY : Fld := ⟨2097215, 1, 0⟩
def CAL_STATUS_DIE : Fld := ⟨2097208, 4, 0⟩
def CAL_STATUS_QUEUED : Fld := ⟨2097184, 12, 0⟩
-- CAL_DIE (file 16)
def CAL_DIE_T_CAL (n : Nat) : Fld := ⟨2099216 + 32 * n, 16, 0⟩
def CAL_DIE_RAIL (n : Nat) : Fld := ⟨2099215 + 32 * n, 1, 0⟩
def CAL_DIE_SOURCE (n : Nat) : Fld := ⟨2099212 + 32 * n, 3, 0⟩
def CAL_DIE_COUNT (n : Nat) : Fld := ⟨2099200 + 32 * n, 12, 0⟩
-- BST_CTL (file 16)
def BST_CTL_START : Fld := ⟨2621471, 1, 0⟩
def BST_CTL_TARGET : Fld := ⟨2621440, 8, 0⟩
-- BST_STATUS (file 16)
def BST_STATUS_BUSY : Fld := ⟨2621503, 1, 0⟩
def BST_STATUS_PASS : Fld := ⟨2621502, 1, 0⟩
def BST_STATUS_FAIL : Fld := ⟨2621501, 1, 0⟩
def BST_STATUS_SKIPPED : Fld := ⟨2621488, 8, 0⟩
def BST_STATUS_REPAIRS : Fld := ⟨2621472, 16, 0⟩
-- THM_CFG (file 14)
def THM_CFG_GRACE : Fld := ⟨3145751, 9, 20⟩
def THM_CFG_RELEASE_MS : Fld := ⟨3145744, 7, 10⟩
def THM_CFG_HYST_C : Fld := ⟨3145740, 4, 3⟩
def THM_CFG_GUARD_C : Fld := ⟨3145736, 4, 3⟩
def THM_CFG_DISTRUST_C : Fld := ⟨3145732, 4, 6⟩
-- THM_STATUS (file 14)
def THM_STATUS_STAGE : Fld := ⟨3145789, 3, 0⟩
def THM_STATUS_POWER_DOWN : Fld := ⟨3145788, 1, 0⟩
def THM_STATUS_CAUSE : Fld := ⟨3145784, 4, 0⟩
def THM_STATUS_DISTRUSTED : Fld := ⟨3145760, 12, 0⟩
-- THM_IRQ (file 14)
def THM_IRQ_B_IEN : Fld := ⟨3145807, 1, 0⟩
def THM_IRQ_B_VECTOR : Fld := ⟨3145800, 6, 0⟩
def THM_IRQ_A_IEN : Fld := ⟨3145799, 1, 0⟩
def THM_IRQ_A_VECTOR : Fld := ⟨3145792, 6, 0⟩
-- THM_SHUT_DROP_CNT (file 14)
def THM_SHUT_DROP_CNT_B_DROPS : Fld := ⟨3145840, 16, 0⟩
def THM_SHUT_DROP_CNT_A_DROPS : Fld := ⟨3145824, 16, 0⟩
-- THM_DIE (file 14)
def THM_DIE_GOVERN (n : Nat) : Fld := ⟨3147824 + 64 * n, 16, 0⟩
def THM_DIE_MODEL (n : Nat) : Fld := ⟨3147808 + 64 * n, 16, 0⟩
def THM_DIE_SENSOR_MAX (n : Nat) : Fld := ⟨3147792 + 64 * n, 16, 0⟩
def THM_DIE_FEEDS_OPEN (n : Nat) : Fld := ⟨3147785 + 64 * n, 1, 0⟩
def THM_DIE_SRC (n : Nat) : Fld := ⟨3147784 + 64 * n, 1, 0⟩
def THM_DIE_TRUSTED (n : Nat) : Fld := ⟨3147776 + 64 * n, 8, 0⟩
-- THM_BASE (file 14)
def THM_BASE_FOOT_MAX : Fld := ⟨3148816, 16, 0⟩
def THM_BASE_SHELF_MAX : Fld := ⟨3148800, 16, 0⟩
-- THM_SENS (file 14)
def THM_SENS_VALID (n : Nat) : Fld := ⟨3149855 + 32 * n, 1, 0⟩
def THM_SENS_TRIMMED (n : Nat) : Fld := ⟨3149854 + 32 * n, 1, 0⟩
def THM_SENS_TRUSTED (n : Nat) : Fld := ⟨3149853 + 32 * n, 1, 0⟩
def THM_SENS_READING (n : Nat) : Fld := ⟨3149824 + 32 * n, 16, 0⟩
-- THM_CANARY (file 14)
def THM_CANARY_CANARY_TEMP (n : Nat) : Fld := ⟨3153936 + 32 * n, 16, 0⟩
def THM_CANARY_FAILS (n : Nat) : Fld := ⟨3153920 + 32 * n, 8, 0⟩
-- PWR_CFG (file 14)
def PWR_CFG_CEILING_W : Fld := ⟨3670016, 8, 95⟩
-- PWR_STATUS (file 14)
def PWR_STATUS_DUTY : Fld := ⟨3670073, 7, 64⟩
def PWR_STATUS_FLOOR : Fld := ⟨3670072, 1, 0⟩
def PWR_STATUS_ACT_CAP : Fld := ⟨3670064, 8, 0⟩
def PWR_STATUS_AVG_POWER : Fld := ⟨3670048, 16, 0⟩
-- PWR_DIE (file 14)
def PWR_DIE_VPP_MA (n : Nat) : Fld := ⟨3672096 + 64 * n, 16, 0⟩
def PWR_DIE_VDDQ_MA (n : Nat) : Fld := ⟨3672080 + 64 * n, 16, 0⟩
def PWR_DIE_VDD_MA (n : Nat) : Fld := ⟨3672064 + 64 * n, 16, 0⟩
-- PWR_INPUT (file 14)
def PWR_INPUT_VPP : Fld := ⟨3674160, 16, 0⟩
def PWR_INPUT_VDD_PHY : Fld := ⟨3674144, 16, 0⟩
def PWR_INPUT_VDD_LOGIC : Fld := ⟨3674128, 16, 0⟩
def PWR_INPUT_VIN_IVR : Fld := ⟨3674112, 16, 0⟩
-- PWR_REG_STAT (file 14)
def PWR_REG_STAT_SPARE_USED : Fld := ⟨3676176, 12, 0⟩
def PWR_REG_STAT_SHORT : Fld := ⟨3676160, 12, 0⟩
-- FLT_STATUS (file 17)
def FLT_STATUS_ERRN : Fld := ⟨4194335, 1, 0⟩
def FLT_STATUS_DEVRST_SUPP : Fld := ⟨4194334, 1, 0⟩
def FLT_STATUS_CLASS_PEND : Fld := ⟨4194304, 25, 0⟩
-- FLT_IRQ (file 17)
def FLT_IRQ_B_IEN : Fld := ⟨4194351, 1, 0⟩
def FLT_IRQ_B_VECTOR : Fld := ⟨4194344, 6, 0⟩
def FLT_IRQ_A_IEN : Fld := ⟨4194343, 1, 0⟩
def FLT_IRQ_A_VECTOR : Fld := ⟨4194336, 6, 0⟩
-- FLT_ERRN (file 17)
def FLT_ERRN_RELEASE : Fld := ⟨4194399, 1, 0⟩
def FLT_ERRN_HOLD : Fld := ⟨4194398, 1, 0⟩
def FLT_ERRN_PULSE_US : Fld := ⟨4194368, 10, 10⟩
-- FLT_ESC_CNT (file 17)
def FLT_ESC_CNT_ESCALATED : Fld := ⟨4194400, 32, 0⟩
-- FLT_SEV_REACT (file 17)
def FLT_SEV_REACT_REACT (n : Nat) : Fld := ⟨4194432 + 32 * n, 5, (sevReactReset n)⟩
-- FLT_LOG_SEQ (file 17)
def FLT_LOG_SEQ_NEXT : Fld := ⟨4194560, 32, 0⟩
-- FLT_PEND (file 17)
def FLT_PEND_PEND (n : Nat) : Fld := ⟨4196352 + 32 * n, 32, 0⟩
-- FLT_SRC_CFG (file 17)
def FLT_SRC_CFG_CLASS (n : Nat) : Fld := ⟨4227096 + 32 * n, 5, (fltClass n)⟩
def FLT_SRC_CFG_AER (n : Nat) : Fld := ⟨4227087 + 32 * n, 1, (fltAer n)⟩
def FLT_SRC_CFG_RECORD (n : Nat) : Fld := ⟨4227086 + 32 * n, 1, (fltRecord n)⟩
def FLT_SRC_CFG_REACT (n : Nat) : Fld := ⟨4227076 + 32 * n, 5, (fltReact n)⟩
def FLT_SRC_CFG_SEVERITY (n : Nat) : Fld := ⟨4227072 + 32 * n, 2, (fltSev n)⟩
-- FLT_SRC_CNT (file 17)
def FLT_SRC_CNT_COUNT (n : Nat) : Fld := ⟨4259840 + 32 * n, 16, 0⟩
-- TIM_CFG (file 11)
def TIM_CFG_PREFER : Fld := ⟨4718600, 1, 0⟩
def TIM_CFG_PTM_PERIOD : Fld := ⟨4718592, 8, 64⟩
-- TIM_CMD (file 11)
def TIM_CMD_SWITCH : Fld := ⟨4718624, 1, 0⟩
-- TIM_STATUS (file 11)
def TIM_STATUS_TIME_UNTRUSTED : Fld := ⟨4718687, 1, 1⟩
def TIM_STATUS_HOLDOVER : Fld := ⟨4718686, 1, 0⟩
def TIM_STATUS_OFFSET_VALID : Fld := ⟨4718685, 1, 0⟩
def TIM_STATUS_SOURCE : Fld := ⟨4718680, 2, 2⟩
def TIM_STATUS_B_LOCKED : Fld := ⟨4718673, 1, 0⟩
def TIM_STATUS_A_LOCKED : Fld := ⟨4718672, 1, 0⟩
-- TIM_NOW (file 11)
def TIM_NOW_VALUE : Fld := ⟨4718720, 64, 0⟩
-- TIM_BEAT_CNT (file 11)
def TIM_BEAT_CNT_VALUE : Fld := ⟨4718784, 64, 0⟩
-- TIM_OFFSET (file 11)
def TIM_OFFSET_VALUE : Fld := ⟨4718848, 64, 0⟩
-- TIM_STEP_CNT (file 11)
def TIM_STEP_CNT_STEPS : Fld := ⟨4718912, 32, 0⟩
-- TIM_LAST_STEP (file 11)
def TIM_LAST_STEP_VALUE : Fld := ⟨4718976, 64, 0⟩
-- TIM_TS_SET (file 11)
def TIM_TS_SET_VALUE : Fld := ⟨4719040, 64, 0⟩
-- QOS_CLASS_COMMIT (file 10)
def QOS_CLASS_COMMIT_CAUSE : Fld := ⟨5242884, 4, 0⟩
def QOS_CLASS_COMMIT_PENDING : Fld := ⟨5242882, 1, 0⟩
def QOS_CLASS_COMMIT_REJECT : Fld := ⟨5242881, 1, 0⟩
def QOS_CLASS_COMMIT_COMMIT : Fld := ⟨5242880, 1, 0⟩
-- QOS_SQUEEZE (file 10)
def QOS_SQUEEZE_LANE : Fld := ⟨5242928, 9, 16⟩
def QOS_SQUEEZE_CH : Fld := ⟨5242912, 8, 8⟩
-- QOS_SUSTAIN (file 10)
def QOS_SUSTAIN_A_GBPS : Fld := ⟨5242960, 16, 0⟩
def QOS_SUSTAIN_S_GBPS : Fld := ⟨5242944, 16, 0⟩
-- QOS_OVERCOMMIT (file 10)
def QOS_OVERCOMMIT_ACTIVE : Fld := ⟨5243007, 1, 0⟩
def QOS_OVERCOMMIT_CONF_TOTAL : Fld := ⟨5242976, 16, 0⟩
-- QOS_CLASS_CFG (file 10)
def QOS_CLASS_CFG_RESERVE (n : Nat) : Fld := ⟨5244948 + 32 * n, 12, 0⟩
def QOS_CLASS_CFG_LANE_LIMIT (n : Nat) : Fld := ⟨5244936 + 32 * n, 9, 256⟩
def QOS_CLASS_CFG_LIMIT (n : Nat) : Fld := ⟨5244928 + 32 * n, 8, 128⟩
-- QOS_CLASS_CFG_SH (file 10)
def QOS_CLASS_CFG_SH_RESERVE (n : Nat) : Fld := ⟨5245204 + 32 * n, 12, 0⟩
def QOS_CLASS_CFG_SH_LANE_LIMIT (n : Nat) : Fld := ⟨5245192 + 32 * n, 9, 256⟩
def QOS_CLASS_CFG_SH_LIMIT (n : Nat) : Fld := ⟨5245184 + 32 * n, 8, 128⟩
-- QOS_HEAD_CLASS (file 10)
def QOS_HEAD_CLASS_B_CLASS : Fld := ⟨5245444, 3, 3⟩
def QOS_HEAD_CLASS_A_CLASS : Fld := ⟨5245440, 3, 3⟩
-- QOS_HEAD_CLASS_SH (file 10)
def QOS_HEAD_CLASS_SH_B_CLASS : Fld := ⟨5245476, 3, 3⟩
def QOS_HEAD_CLASS_SH_A_CLASS : Fld := ⟨5245472, 3, 3⟩
-- QOS_WIN_LO (file 10)
def QOS_WIN_LO_EN (n m : Nat) : Fld := ⟨5247007 + 512 * n + 64 * m, 1, 0⟩
def QOS_WIN_LO_CLASS (n m : Nat) : Fld := ⟨5246992 + 512 * n + 64 * m, 3, 0⟩
def QOS_WIN_LO_BASE_MIB (n m : Nat) : Fld := ⟨5246976 + 512 * n + 64 * m, 16, 0⟩
-- QOS_WIN_HI (file 10)
def QOS_WIN_HI_SIZE_MIB (n m : Nat) : Fld := ⟨5247008 + 512 * n + 64 * m, 16, 0⟩
-- QOS_WIN_SH_LO (file 10)
def QOS_WIN_SH_LO_EN (n m : Nat) : Fld := ⟨5249055 + 512 * n + 64 * m, 1, 0⟩
def QOS_WIN_SH_LO_CLASS (n m : Nat) : Fld := ⟨5249040 + 512 * n + 64 * m, 3, 0⟩
def QOS_WIN_SH_LO_BASE_MIB (n m : Nat) : Fld := ⟨5249024 + 512 * n + 64 * m, 16, 0⟩
-- QOS_WIN_SH_HI (file 10)
def QOS_WIN_SH_HI_SIZE_MIB (n m : Nat) : Fld := ⟨5249056 + 512 * n + 64 * m, 16, 0⟩
-- QOS_CLASS_STAT (file 10)
def QOS_CLASS_STAT_EFF_RES (n : Nat) : Fld := ⟨5251092 + 32 * n, 12, 0⟩
def QOS_CLASS_STAT_SHORT (n : Nat) : Fld := ⟨5251091 + 32 * n, 1, 0⟩
def QOS_CLASS_STAT_SQUEEZED (n : Nat) : Fld := ⟨5251090 + 32 * n, 1, 0⟩
def QOS_CLASS_STAT_BLOCKED_WAIT (n : Nat) : Fld := ⟨5251089 + 32 * n, 1, 0⟩
def QOS_CLASS_STAT_WAITING (n : Nat) : Fld := ⟨5251072 + 32 * n, 16, 0⟩
-- QOS_LATE_JOB_CNT (file 10)
def QOS_LATE_JOB_CNT_JOBS (n : Nat) : Fld := ⟨5252096 + 32 * n, 32, 0⟩
-- QOS_BW_RD (file 10)
def QOS_BW_RD_BYTES (n : Nat) : Fld := ⟨5253120 + 128 * n, 64, 0⟩
-- QOS_BW_WR (file 10)
def QOS_BW_WR_BYTES (n : Nat) : Fld := ⟨5253184 + 128 * n, 64, 0⟩
-- QOS_BW_META (file 10)
def QOS_BW_META_BYTES : Fld := ⟨5254144, 64, 0⟩
-- QOS_BW_FRG (file 10)
def QOS_BW_FRG_BYTES : Fld := ⟨5254208, 64, 0⟩
-- QOS_BW_SNAP_CTL (file 10)
def QOS_BW_SNAP_CTL_DONE : Fld := ⟨5255169, 1, 0⟩
def QOS_BW_SNAP_CTL_TAKE : Fld := ⟨5255168, 1, 0⟩
-- QOS_BW_SNAP_TIME (file 10)
def QOS_BW_SNAP_TIME_TIME : Fld := ⟨5255232, 64, 0⟩
-- QOS_BW_SRD (file 10)
def QOS_BW_SRD_BYTES (n : Nat) : Fld := ⟨5257216 + 128 * n, 64, 0⟩
-- QOS_BW_SWR (file 10)
def QOS_BW_SWR_BYTES (n : Nat) : Fld := ⟨5257280 + 128 * n, 64, 0⟩
-- QOS_SCHED_COMMIT (file 07)
def QOS_SCHED_COMMIT_PENDING : Fld := ⟨5259266, 1, 0⟩
def QOS_SCHED_COMMIT_REJECT : Fld := ⟨5259265, 1, 0⟩
def QOS_SCHED_COMMIT_COMMIT : Fld := ⟨5259264, 1, 0⟩
-- QOS_AGE_LIMIT (file 07)
def QOS_AGE_LIMIT_LIMIT (n : Nat) : Fld := ⟨5259392 + 32 * n, 16, (ageLimitReset n)⟩
-- QOS_PORT_LAT (file 07)
def QOS_PORT_LAT_RAMP (n : Nat) : Fld := ⟨5259792 + 32 * n, 16, (portRampReset n)⟩
def QOS_PORT_LAT_TARGET (n : Nat) : Fld := ⟨5259776 + 32 * n, 16, (portTargetReset n)⟩
-- QOS_PORT_LAT_SH (file 07)
def QOS_PORT_LAT_SH_RAMP (n : Nat) : Fld := ⟨5260048 + 32 * n, 16, (portRampReset n)⟩
def QOS_PORT_LAT_SH_TARGET (n : Nat) : Fld := ⟨5260032 + 32 * n, 16, (portTargetReset n)⟩
-- QOS_INGEST_CFG (file 07)
def QOS_INGEST_CFG_PANIC_OFF : Fld := ⟨5260304, 13, 2048⟩
def QOS_INGEST_CFG_PANIC_ON : Fld := ⟨5260288, 13, 3072⟩
-- QOS_INGEST_CFG_SH (file 07)
def QOS_INGEST_CFG_SH_PANIC_OFF : Fld := ⟨5260336, 13, 2048⟩
def QOS_INGEST_CFG_SH_PANIC_ON : Fld := ⟨5260320, 13, 3072⟩
-- QOS_INGEST_STAT (file 07)
def QOS_INGEST_STAT_PANIC : Fld := ⟨5260383, 1, 0⟩
def QOS_INGEST_STAT_PEAK : Fld := ⟨5260368, 13, 0⟩
def QOS_INGEST_STAT_FILL : Fld := ⟨5260352, 13, 0⟩
-- QOS_INGEST_PANIC_CNT (file 07)
def QOS_INGEST_PANIC_CNT_RISES : Fld := ⟨5260384, 32, 0⟩
-- HD_STATE (file 11)
def HD_STATE_STATE (n : Nat) : Fld := ⟨5767197 + 524288 * n, 3, 0⟩
def HD_STATE_LINK_UP (n : Nat) : Fld := ⟨5767196 + 524288 * n, 1, 0⟩
def HD_STATE_ADOPTED (n : Nat) : Fld := ⟨5767195 + 524288 * n, 1, 0⟩
def HD_STATE_FENCE_CAUSE (n : Nat) : Fld := ⟨5767184 + 524288 * n, 8, 0⟩
def HD_STATE_DOWN_MS (n : Nat) : Fld := ⟨5767168 + 524288 * n, 16, 0⟩
-- HD_FENCE_CFG (file 11)
def HD_FENCE_CFG_TIMEOUT_MS (n : Nat) : Fld := ⟨5767200 + 524288 * n, 16, 100⟩
-- HD_FENCE_TIME (file 11)
def HD_FENCE_TIME_TIME (n : Nat) : Fld := ⟨5767232 + 524288 * n, 64, 0⟩
-- HD_FENCED_DROP_CNT (file 11)
def HD_FENCED_DROP_CNT_DROPS (n : Nat) : Fld := ⟨5767296 + 524288 * n, 32, 0⟩
-- HD_HELD_CPL (file 11)
def HD_HELD_CPL_HELD (n : Nat) : Fld := ⟨5767328 + 524288 * n, 13, 0⟩
-- PHYC_CFG (file 12)
def PHYC_CFG_FOM_LOW : Fld := ⟨6815768, 7, 16⟩
def PHYC_CFG_FREEZE_B : Fld := ⟨6815745, 1, 0⟩
def PHYC_CFG_FREEZE_A : Fld := ⟨6815744, 1, 0⟩
-- PHYC_LOOP (file 12)
def PHYC_LOOP_START : Fld := ⟨6815903, 1, 0⟩
def PHYC_LOOP_ACTIVE : Fld := ⟨6815902, 1, 0⟩
def PHYC_LOOP_REFUSED : Fld := ⟨6815901, 1, 0⟩
def PHYC_LOOP_MODE : Fld := ⟨6815899, 2, 0⟩
def PHYC_LOOP_RATE : Fld := ⟨6815896, 3, 0⟩
def PHYC_LOOP_PATTERN : Fld := ⟨6815894, 2, 0⟩
def PHYC_LOOP_DROPS : Fld := ⟨6815888, 6, 0⟩
def PHYC_LOOP_LANE_MASK : Fld := ⟨6815872, 16, 0⟩
-- PHYL_STATUS (file 12)
def PHYL_STATUS_RATE (n : Nat) : Fld := ⟨7340061 + 32768 * n, 3, 0⟩
def PHYL_STATUS_IN_LINK (n : Nat) : Fld := ⟨7340060 + 32768 * n, 1, 0⟩
def PHYL_STATUS_REVERSED (n : Nat) : Fld := ⟨7340059 + 32768 * n, 1, 0⟩
def PHYL_STATUS_POL_INV (n : Nat) : Fld := ⟨7340058 + 32768 * n, 1, 0⟩
def PHYL_STATUS_LOOP (n : Nat) : Fld := ⟨7340056 + 32768 * n, 2, 0⟩
def PHYL_STATUS_RX_TERM (n : Nat) : Fld := ⟨7340055 + 32768 * n, 1, 0⟩
def PHYL_STATUS_TX_IDLE (n : Nat) : Fld := ⟨7340054 + 32768 * n, 1, 1⟩
def PHYL_STATUS_DFE_SAT (n : Nat) : Fld := ⟨7340053 + 32768 * n, 1, 0⟩
def PHYL_STATUS_LOGICAL (n : Nat) : Fld := ⟨7340048 + 32768 * n, 4, 0⟩
def PHYL_STATUS_CTLE (n : Nat) : Fld := ⟨7340040 + 32768 * n, 4, 0⟩
def PHYL_STATUS_GAIN (n : Nat) : Fld := ⟨7340032 + 32768 * n, 8, 0⟩
-- PHYL_FOM (file 12)
def PHYL_FOM_VALID (n : Nat) : Fld := ⟨7340095 + 32768 * n, 1, 0⟩
def PHYL_FOM_FOM (n : Nat) : Fld := ⟨7340088 + 32768 * n, 7, 0⟩
def PHYL_FOM_EYE_UPPER (n : Nat) : Fld := ⟨7340080 + 32768 * n, 7, 0⟩
def PHYL_FOM_EYE_MIDDLE (n : Nat) : Fld := ⟨7340072 + 32768 * n, 7, 0⟩
def PHYL_FOM_EYE_LOWER (n : Nat) : Fld := ⟨7340064 + 32768 * n, 7, 0⟩
-- PHYL_FOM_DEF (file 12)
def PHYL_FOM_DEF_DEFICIT (n : Nat) : Fld := ⟨7340096 + 32768 * n, 7, 0⟩
-- PHYL_DFE (file 12)
def PHYL_DFE_TAP3 (n m : Nat) : Fld := ⟨7340184 + 32768 * n + 32 * m, 8, 0⟩
def PHYL_DFE_TAP2 (n m : Nat) : Fld := ⟨7340176 + 32768 * n + 32 * m, 8, 0⟩
def PHYL_DFE_TAP1 (n m : Nat) : Fld := ⟨7340168 + 32768 * n + 32 * m, 8, 0⟩
def PHYL_DFE_TAP0 (n m : Nat) : Fld := ⟨7340160 + 32768 * n + 32 * m, 8, 0⟩
-- PHYL_DFE_FLT (file 12)
def PHYL_DFE_FLT_F1_VAL (n : Nat) : Fld := ⟨7340280 + 32768 * n, 8, 0⟩
def PHYL_DFE_FLT_F1_POS (n : Nat) : Fld := ⟨7340272 + 32768 * n, 8, 0⟩
def PHYL_DFE_FLT_F0_VAL (n : Nat) : Fld := ⟨7340264 + 32768 * n, 8, 0⟩
def PHYL_DFE_FLT_F0_POS (n : Nat) : Fld := ⟨7340256 + 32768 * n, 8, 0⟩
-- PHYL_FEC_CNT (file 12)
def PHYL_FEC_CNT_COUNT (n : Nat) : Fld := ⟨7340288 + 32768 * n, 32, 0⟩
-- PHYL_PRBS_ERR (file 12)
def PHYL_PRBS_ERR_COUNT (n : Nat) : Fld := ⟨7340320 + 32768 * n, 32, 0⟩
-- PHYL_SCAN_CTL (file 12)
def PHYL_SCAN_CTL_START (n : Nat) : Fld := ⟨7340447 + 32768 * n, 1, 0⟩
def PHYL_SCAN_CTL_BUSY (n : Nat) : Fld := ⟨7340446 + 32768 * n, 1, 0⟩
def PHYL_SCAN_CTL_DONE (n : Nat) : Fld := ⟨7340445 + 32768 * n, 1, 0⟩
def PHYL_SCAN_CTL_PAUSED (n : Nat) : Fld := ⟨7340444 + 32768 * n, 1, 0⟩
def PHYL_SCAN_CTL_ABORTED (n : Nat) : Fld := ⟨7340443 + 32768 * n, 1, 0⟩
def PHYL_SCAN_CTL_REFUSED (n : Nat) : Fld := ⟨7340442 + 32768 * n, 1, 0⟩
def PHYL_SCAN_CTL_DWELL (n : Nat) : Fld := ⟨7340432 + 32768 * n, 5, 16⟩
-- PHYL_SCAN_IDX (file 12)
def PHYL_SCAN_IDX_IDX (n : Nat) : Fld := ⟨7340448 + 32768 * n, 13, 0⟩
-- PHYL_SCAN_DATA (file 12)
def PHYL_SCAN_DATA_DATA (n : Nat) : Fld := ⟨7340480 + 32768 * n, 32, 0⟩
-- CMB_JOB_SAT_CNT (file 05)
def CMB_JOB_SAT_CNT_PAUSES : Fld := ⟨8389120, 32, 0⟩
-- CMB_JOBS_INFLIGHT (file 05)
def CMB_JOBS_INFLIGHT_OCS_JOBS : Fld := ⟨8389168, 13, 0⟩
def CMB_JOBS_INFLIGHT_SLOTS : Fld := ⟨8389152, 13, 0⟩
-- CMB_DMC_HIT_CNT (file 04)
def CMB_DMC_HIT_CNT_HITS : Fld := ⟨8400896, 64, 0⟩
-- CMB_DMC_MISS_CNT (file 04)
def CMB_DMC_MISS_CNT_MISSES : Fld := ⟨8400960, 64, 0⟩
-- CMB_DMC_STAT (file 04)
def CMB_DMC_STAT_PINNED : Fld := ⟨8401040, 13, 0⟩
def CMB_DMC_STAT_VALID : Fld := ⟨8401024, 13, 0⟩
-- CMB_DMC_WAIT_CNT (file 04)
def CMB_DMC_WAIT_CNT_WAITS : Fld := ⟨8401056, 32, 0⟩
-- CMB_INV_FAIL_CNT (file 04)
def CMB_INV_FAIL_CNT_FAILS : Fld := ⟨8401088, 16, 0⟩
-- CMB_DMC_FLUSH (file 04)
def CMB_DMC_FLUSH_FLUSH_BUSY : Fld := ⟨8401121, 1, 0⟩
def CMB_DMC_FLUSH_FLUSH : Fld := ⟨8401120, 1, 0⟩
-- JRG_FETCH_CFG (file 05)
def JRG_FETCH_CFG_BURST : Fld := ⟨8912896, 7, 8⟩
-- JRG_OWNER_SQ (file 05)
def JRG_OWNER_SQ_OWNER : Fld := ⟨8912960, 64, 0⟩
-- JRG_OWNER_CQ (file 05)
def JRG_OWNER_CQ_OWNER : Fld := ⟨8913024, 64, 0⟩
-- JRG_FOREIGN_DROP_CNT (file 05)
def JRG_FOREIGN_DROP_CNT_B_DROPS : Fld := ⟨8913104, 16, 0⟩
def JRG_FOREIGN_DROP_CNT_A_DROPS : Fld := ⟨8913088, 16, 0⟩
-- JRG_CQ_FULL_CNT (file 05)
def JRG_CQ_FULL_CNT_WAITS : Fld := ⟨8913120, 32, 0⟩
-- JRG_ABORT (file 05)
def JRG_ABORT_SQ : Fld := ⟨8913176, 6, 0⟩
def JRG_ABORT_CID : Fld := ⟨8913152, 16, 0⟩
-- JRG_SQ_BASE (file 05)
def JRG_SQ_BASE_BASE (n : Nat) : Fld := ⟨8945676 + 512 * n, 52, 0⟩
-- JRG_SQ_CFG (file 05)
def JRG_SQ_CFG_ENABLE (n : Nat) : Fld := ⟨8945759 + 512 * n, 1, 0⟩
def JRG_SQ_CFG_ERR (n : Nat) : Fld := ⟨8945758 + 512 * n, 1, 0⟩
def JRG_SQ_CFG_CQ (n : Nat) : Fld := ⟨8945745 + 512 * n, 6, 0⟩
def JRG_SQ_CFG_SIZE (n : Nat) : Fld := ⟨8945728 + 512 * n, 17, 0⟩
-- JRG_SQ_STATUS (file 05)
def JRG_SQ_STATUS_DRAINED (n : Nat) : Fld := ⟨8945791 + 512 * n, 1, 1⟩
def JRG_SQ_STATUS_FETCH_ERR (n : Nat) : Fld := ⟨8945790 + 512 * n, 1, 0⟩
def JRG_SQ_STATUS_IN_FLIGHT (n : Nat) : Fld := ⟨8945776 + 512 * n, 13, 0⟩
def JRG_SQ_STATUS_HEAD (n : Nat) : Fld := ⟨8945760 + 512 * n, 16, 0⟩
-- JRG_CQ_BASE (file 05)
def JRG_CQ_BASE_BASE (n : Nat) : Fld := ⟨8978444 + 512 * n, 52, 0⟩
-- JRG_CQ_CFG (file 05)
def JRG_CQ_CFG_ENABLE (n : Nat) : Fld := ⟨8978527 + 512 * n, 1, 0⟩
def JRG_CQ_CFG_ERR (n : Nat) : Fld := ⟨8978526 + 512 * n, 1, 0⟩
def JRG_CQ_CFG_VECTOR (n : Nat) : Fld := ⟨8978520 + 512 * n, 6, 0⟩
def JRG_CQ_CFG_IEN (n : Nat) : Fld := ⟨8978519 + 512 * n, 1, 0⟩
def JRG_CQ_CFG_SIZE (n : Nat) : Fld := ⟨8978496 + 512 * n, 17, 0⟩
-- JRG_CQ_STATUS (file 05)
def JRG_CQ_STATUS_FULL (n : Nat) : Fld := ⟨8978559 + 512 * n, 1, 0⟩
def JRG_CQ_STATUS_WRITE_ERR (n : Nat) : Fld := ⟨8978558 + 512 * n, 1, 0⟩
def JRG_CQ_STATUS_PHASE (n : Nat) : Fld := ⟨8978544 + 512 * n, 1, 1⟩
def JRG_CQ_STATUS_TAIL (n : Nat) : Fld := ⟨8978528 + 512 * n, 16, 0⟩
-- JRG_CQ_IRQ (file 05)
def JRG_CQ_IRQ_COAL_US (n : Nat) : Fld := ⟨8978576 + 512 * n, 16, 0⟩
def JRG_CQ_IRQ_COAL_CNT (n : Nat) : Fld := ⟨8978560 + 512 * n, 16, 1⟩
-- STX_CFG (file 06)
def STX_CFG_LOW_WATER : Fld := ⟨9437184, 23, 65536⟩
-- STX_FREE_CNT (file 06)
def STX_FREE_CNT_FREE : Fld := ⟨9437216, 23, 0⟩
-- STX_CACHE_STAT (file 06)
def STX_CACHE_STAT_DIRTY : Fld := ⟨9437263, 17, 0⟩
def STX_CACHE_STAT_PINNED : Fld := ⟨9437248, 15, 0⟩
-- STX_HIT_CNT (file 06)
def STX_HIT_CNT_COUNT : Fld := ⟨9437312, 64, 0⟩
-- STX_MISS_CNT (file 06)
def STX_MISS_CNT_COUNT : Fld := ⟨9437376, 64, 0⟩
-- STX_WAIT_CNT (file 06)
def STX_WAIT_CNT_WAITS : Fld := ⟨9437440, 32, 0⟩
-- STX_ADOPT (file 06)
def STX_ADOPT_ACTIVE : Fld := ⟨9437503, 1, 0⟩
def STX_ADOPT_FROM : Fld := ⟨9437496, 1, 0⟩
def STX_ADOPT_DONE : Fld := ⟨9437472, 23, 0⟩
-- STX_LOST_CNT (file 06)
def STX_LOST_CNT_LOST : Fld := ⟨9437504, 32, 0⟩
-- STX_WIN_CTL (file 06)
def STX_WIN_CTL_BUSY (n : Nat) : Fld := ⟨9438239 + 1099511627776 * n, 1, 0⟩
def STX_WIN_CTL_ERR (n : Nat) : Fld := ⟨9438238 + 1099511627776 * n, 1, 0⟩
def STX_WIN_CTL_CMD (n : Nat) : Fld := ⟨9438232 + 1099511627776 * n, 2, 0⟩
def STX_WIN_CTL_INDEX (n : Nat) : Fld := ⟨9438208 + 1099511627776 * n, 22, 0⟩
-- STX_WIN_DATA (file 06)
def STX_WIN_DATA_DATA (n m : Nat) : Fld := ⟨9439232 + 1099511627776 * n + 32 * m, 32, 0⟩
-- SEA_CFG (file 09)
def SEA_CFG_REQUIRE_IDE : Fld := ⟨9961472, 1, 0⟩
-- SEA_STATUS (file 09)
def SEA_STATUS_FLUSH_BUSY : Fld := ⟨9961535, 1, 0⟩
def SEA_STATUS_UNV_NODES : Fld := ⟨9961520, 9, 0⟩
def SEA_STATUS_KEYS_LIVE : Fld := ⟨9961504, 11, 0⟩
-- SEA_DIRTY_MAP (file 09)
def SEA_DIRTY_MAP_DIRTY : Fld := ⟨9961536, 64, 0⟩
-- SEA_TAG_FAIL_CNT (file 09)
def SEA_TAG_FAIL_CNT_FAILS : Fld := ⟨9961600, 32, 0⟩
-- SEA_ALARM (file 09)
def SEA_ALARM_CAUSE : Fld := ⟨9961724, 4, 0⟩
def SEA_ALARM_LINE : Fld := ⟨9961670, 30, 0⟩
-- SEA_REENC_CNT (file 09)
def SEA_REENC_CNT_COUNT : Fld := ⟨9961728, 64, 0⟩
-- SEA_DENY_CNT (file 09)
def SEA_DENY_CNT_B_DENIED : Fld := ⟨9961808, 16, 0⟩
def SEA_DENY_CNT_A_DENIED : Fld := ⟨9961792, 16, 0⟩
-- SEA_GRAN (file 09)
def SEA_GRAN_STATE (n : Nat) : Fld := ⟨9963549 + 32 * n, 3, 0⟩
def SEA_GRAN_KEY_SLOT (n : Nat) : Fld := ⟨9963536 + 32 * n, 10, 0⟩
def SEA_GRAN_EPOCH (n : Nat) : Fld := ⟨9963520 + 32 * n, 16, 0⟩
-- SEA_KEY_STAT (file 09)
def SEA_KEY_STAT_LIVE (n : Nat) : Fld := ⟨9994271 + 32 * n, 1, 0⟩
def SEA_KEY_STAT_OWNER (n : Nat) : Fld := ⟨9994270 + 32 * n, 1, 0⟩
def SEA_KEY_STAT_CXL_MASK (n : Nat) : Fld := ⟨9994268 + 32 * n, 2, 0⟩
def SEA_KEY_STAT_GEN (n : Nat) : Fld := ⟨9994262 + 32 * n, 6, 0⟩
def SEA_KEY_STAT_EPOCH (n : Nat) : Fld := ⟨9994240 + 32 * n, 16, 0⟩
-- FRG_CFG (file 08)
def FRG_CFG_LINES_PER_BEAT : Fld := ⟨10485760, 11, 256⟩
-- FRG_STATUS (file 08)
def FRG_STATUS_BUSY : Fld := ⟨10485823, 1, 0⟩
def FRG_STATUS_SOURCE : Fld := ⟨10485821, 2, 0⟩
def FRG_STATUS_QUEUED : Fld := ⟨10485792, 13, 0⟩
-- FRG_POS (file 08)
def FRG_POS_ADDR : Fld := ⟨10485824, 64, 0⟩
-- ECC_MODE (file 08)
def ECC_MODE_HEAVY : Fld := ⟨11010048, 12, 0⟩
-- ECC_RET_CFG (file 08)
def ECC_RET_CFG_CE_THRESH : Fld := ⟨11010192, 16, 256⟩
def ECC_RET_CFG_UE_THRESH : Fld := ⟨11010184, 8, 64⟩
def ECC_RET_CFG_WINDOW : Fld := ⟨11010179, 5, 16⟩
def ECC_RET_CFG_MIG_CLASS : Fld := ⟨11010176, 3, 7⟩
-- ECC_PARTIAL_DROP_CNT (file 08)
def ECC_PARTIAL_DROP_CNT_DROPS : Fld := ⟨11010304, 32, 0⟩
-- ECC_HEALTH (file 08)
def ECC_HEALTH_STATE : Fld := ⟨11010462, 2, 0⟩
def ECC_HEALTH_REASON : Fld := ⟨11010448, 8, 0⟩
def ECC_HEALTH_GRAN_REMOVED : Fld := ⟨11010440, 8, 0⟩
def ECC_HEALTH_LOSSES : Fld := ⟨11010436, 4, 0⟩
def ECC_HEALTH_LANES_RETIRED : Fld := ⟨11010432, 4, 0⟩
-- ECC_MIRE_STAT (file 08)
def ECC_MIRE_STAT_DROPS : Fld := ⟨11010576, 16, 0⟩
def ECC_MIRE_STAT_STAGED : Fld := ⟨11010560, 10, 0⟩
-- ECC_MIRE_SEQ (file 08)
def ECC_MIRE_SEQ_NEXT : Fld := ⟨11010592, 32, 0⟩
-- ECC_MIG (file 08)
def ECC_MIG_ACTIVE : Fld := ⟨11010719, 1, 0⟩
def ECC_MIG_KIND : Fld := ⟨11010717, 2, 0⟩
def ECC_MIG_UNIT : Fld := ⟨11010688, 6, 0⟩
-- ECC_MIG_FRONT (file 08)
def ECC_MIG_FRONT_FRONT : Fld := ⟨11010720, 32, 0⟩
-- ECC_CE_SCORE (file 08)
def ECC_CE_SCORE_COUNT (n : Nat) : Fld := ⟨11012096 + 32 * n, 32, 0⟩
-- ECC_UE_CNT (file 08)
def ECC_UE_CNT_COUNT (n : Nat) : Fld := ⟨11012608 + 32 * n, 32, 0⟩
-- ECC_CE_CNT (file 08)
def ECC_CE_CNT_LINES (n : Nat) : Fld := ⟨11014144 + 64 * n, 64, 0⟩
-- MAP_LIN_CFG (file 03)
def MAP_LIN_CFG_RECORD : Fld := ⟨11534344, 1, 0⟩
def MAP_LIN_CFG_TIER_SHIFT : Fld := ⟨11534336, 3, 0⟩
-- MAP_LANE_XOR0 (file 03)
def MAP_LANE_XOR0_MASK : Fld := ⟨11534464, 16, 65⟩
-- MAP_LANE_XOR1 (file 03)
def MAP_LANE_XOR1_MASK : Fld := ⟨11534496, 16, 130⟩
-- MAP_CH_XOR0 (file 03)
def MAP_CH_XOR0_MASK : Fld := ⟨11534528, 16, 260⟩
-- MAP_CH_XOR1 (file 03)
def MAP_CH_XOR1_MASK : Fld := ⟨11534560, 16, 520⟩
-- MAP_BG_XOR0 (file 03)
def MAP_BG_XOR0_MASK : Fld := ⟨11534592, 16, 1040⟩
-- MAP_BG_XOR1 (file 03)
def MAP_BG_XOR1_MASK : Fld := ⟨11534624, 16, 2080⟩
-- MAP_BANK_XOR0 (file 03)
def MAP_BANK_XOR0_MASK : Fld := ⟨11534656, 16, 4097⟩
-- MAP_BANK_XOR1 (file 03)
def MAP_BANK_XOR1_MASK : Fld := ⟨11534688, 16, 8194⟩
-- MAP_TIER_XOR (file 03)
def MAP_TIER_XOR_MASK : Fld := ⟨11534720, 16, 0x4004⟩
-- MAP_LAYOUT (file 03)
def MAP_LAYOUT_RES_BOUND : Fld := ⟨11534879, 1, 0⟩
def MAP_LAYOUT_RES_DIE : Fld := ⟨11534872, 4, 0⟩
def MAP_LAYOUT_SEAL_BUDGET : Fld := ⟨11534864, 6, 0⟩
def MAP_LAYOUT_RES_ROW_BASE : Fld := ⟨11534848, 16, 0⟩
-- MAP_TAG_BASE (file 03)
def MAP_TAG_BASE_GRAN : Fld := ⟨11534976, 20, 0⟩
-- MAP_CTR_BASE (file 03)
def MAP_CTR_BASE_GRAN : Fld := ⟨11535008, 20, 0⟩
-- MAP_TREE_BASE (file 03)
def MAP_TREE_BASE_GRAN : Fld := ⟨11535040, 20, 0⟩
-- MAP_STX_BASE (file 03)
def MAP_STX_BASE_GRAN : Fld := ⟨11535072, 20, 0⟩
-- MAP_KPR_BASE (file 03)
def MAP_KPR_BASE_GRAN : Fld := ⟨11535104, 20, 0⟩
-- MAP_SLACK_BASE (file 03)
def MAP_SLACK_BASE_GRAN : Fld := ⟨11535136, 20, 0⟩
-- MAP_MAPPED_END (file 03)
def MAP_MAPPED_END_GRAN : Fld := ⟨11535168, 20, 0⟩
-- MAP_COMMIT (file 03)
def MAP_COMMIT_PENDING : Fld := ⟨11535362, 1, 0⟩
def MAP_COMMIT_REJECT : Fld := ⟨11535361, 1, 0⟩
def MAP_COMMIT_COMMIT : Fld := ⟨11535360, 1, 0⟩
-- MAP_COMB_LO (file 03)
def MAP_COMB_LO_EN (n : Nat) : Fld := ⟨11536415 + 64 * n, 1, 0⟩
def MAP_COMB_LO_BASE_BAND (n : Nat) : Fld := ⟨11536384 + 64 * n, 16, 0⟩
-- MAP_COMB_HI (file 03)
def MAP_COMB_HI_BANDS (n : Nat) : Fld := ⟨11536416 + 64 * n, 16, 0⟩
-- MAP_COMB_SH_LO (file 03)
def MAP_COMB_SH_LO_EN (n : Nat) : Fld := ⟨11537439 + 64 * n, 1, 0⟩
def MAP_COMB_SH_LO_BASE_BAND (n : Nat) : Fld := ⟨11537408 + 64 * n, 16, 0⟩
-- MAP_COMB_SH_HI (file 03)
def MAP_COMB_SH_HI_BANDS (n : Nat) : Fld := ⟨11537440 + 64 * n, 16, 0⟩
-- MAP_GRAN (file 03)
def MAP_GRAN_PRESENT (n : Nat) : Fld := ⟨11538463 + 32 * n, 1, 0⟩
def MAP_GRAN_LOST (n : Nat) : Fld := ⟨11538462 + 32 * n, 1, 0⟩
def MAP_GRAN_SEALED (n : Nat) : Fld := ⟨11538461 + 32 * n, 1, 0⟩
def MAP_GRAN_SEAL_SLOT (n : Nat) : Fld := ⟨11538452 + 32 * n, 6, 0⟩
def MAP_GRAN_SIZE_MIB (n : Nat) : Fld := ⟨11538440 + 32 * n, 11, 0⟩
def MAP_GRAN_ASSIGNED (n : Nat) : Fld := ⟨11538439 + 32 * n, 1, 0⟩
def MAP_GRAN_PART (n : Nat) : Fld := ⟨11538432 + 32 * n, 6, 0⟩
-- MAP_PART_OWNER_LO (file 03)
def MAP_PART_OWNER_LO_OWNER : Fld := ⟨11540480, 32, 0⟩
-- MAP_PART_OWNER_HI (file 03)
def MAP_PART_OWNER_HI_OWNER : Fld := ⟨11540512, 32, 0⟩
-- DMC_QSTAT (file 07)
def DMC_QSTAT_OVERDUE (n : Nat) : Fld := ⟨16777232 + 131072 * n, 8, 0⟩
def DMC_QSTAT_PROMOTED (n : Nat) : Fld := ⟨16777224 + 131072 * n, 8, 0⟩
def DMC_QSTAT_OCCUPANCY (n : Nat) : Fld := ⟨16777216 + 131072 * n, 8, 0⟩
-- DMC_REF_STAT (file 07)
def DMC_REF_STAT_DOUBLE (n : Nat) : Fld := ⟨16777279 + 131072 * n, 1, 0⟩
def DMC_REF_STAT_IN_SR (n : Nat) : Fld := ⟨16777278 + 131072 * n, 1, 0⟩
def DMC_REF_STAT_POINTER (n : Nat) : Fld := ⟨16777248 + 131072 * n, 13, 0⟩
-- DMC_ACT_CNT (file 07)
def DMC_ACT_CNT_COUNT (n : Nat) : Fld := ⟨16777344 + 131072 * n, 64, 0⟩
-- DMC_NREF_CNT (file 07)
def DMC_NREF_CNT_COUNT (n : Nat) : Fld := ⟨16777408 + 131072 * n, 64, 0⟩
-- DMC_PROMOTE_CNT (file 07)
def DMC_PROMOTE_CNT_COUNT (n : Nat) : Fld := ⟨16777472 + 131072 * n, 32, 0⟩
-- DMC_LATE_CNT (file 07)
def DMC_LATE_CNT_COUNT (n : Nat) : Fld := ⟨16777504 + 131072 * n, 32, 0⟩
-- ROWL_STATUS (file 02)
def ROWL_STATUS_LANE3 : Fld := ⟨25165830, 2, 0⟩
def ROWL_STATUS_LANE2 : Fld := ⟨25165828, 2, 0⟩
def ROWL_STATUS_LANE1 : Fld := ⟨25165826, 2, 0⟩
def ROWL_STATUS_LANE0 : Fld := ⟨25165824, 2, 0⟩
-- ROWL_XFER_CNT (file 02)
def ROWL_XFER_CNT_ROWS (n : Nat) : Fld := ⟨25167872 + 64 * n, 64, 0⟩
-- ROWL_GRP_STATUS (file 02)
def ROWL_GRP_STATUS_INSVC_REP (n m : Nat) : Fld := ⟨25169944 + 256 * n + 32 * m, 5, 0⟩
def ROWL_GRP_STATUS_SOFT_REP (n m : Nat) : Fld := ⟨25169936 + 256 * n + 32 * m, 5, 0⟩
def ROWL_GRP_STATUS_FUSE_REP (n m : Nat) : Fld := ⟨25169928 + 256 * n + 32 * m, 5, 0⟩
def ROWL_GRP_STATUS_SPARES_LEFT (n m : Nat) : Fld := ⟨25169920 + 256 * n + 32 * m, 5, 0⟩
-- ROWL_ARB_STAT (file 07)
def ROWL_ARB_STAT_DIR (n : Nat) : Fld := ⟨25171992 + 32 * n, 1, 0⟩
def ROWL_ARB_STAT_RUN (n : Nat) : Fld := ⟨25171984 + 32 * n, 6, 0⟩
def ROWL_ARB_STAT_PENDING (n : Nat) : Fld := ⟨25171968 + 32 * n, 9, 0⟩
-- TSV_REPAIR_CFG (file 02)
def TSV_REPAIR_CFG_WINDOW_BEATS : Fld := ⟨25690256, 16, 4096⟩
def TSV_REPAIR_CFG_COUNT : Fld := ⟨25690240, 8, 64⟩
-- TSV_CH_REPAIR (file 02)
def TSV_CH_REPAIR_SRC1 (n : Nat) : Fld := ⟨25692182 + 32 * n, 2, 0⟩
def TSV_CH_REPAIR_SRC0 (n : Nat) : Fld := ⟨25692180 + 32 * n, 2, 0⟩
def TSV_CH_REPAIR_SPARES_LEFT (n : Nat) : Fld := ⟨25692176 + 32 * n, 2, 0⟩
def TSV_CH_REPAIR_SKIP1 (n : Nat) : Fld := ⟨25692168 + 32 * n, 6, 0⟩
def TSV_CH_REPAIR_SKIP0 (n : Nat) : Fld := ⟨25692160 + 32 * n, 6, 0⟩
-- STK_COMMIT (file 02)
def STK_COMMIT_REJECT : Fld := ⟨26214529, 1, 0⟩
def STK_COMMIT_COMMIT : Fld := ⟨26214528, 1, 0⟩
-- STK_ACT_CFG (file 02)
def STK_ACT_CFG_FUSED_MAX : Fld := ⟨26216472, 8, 0⟩
def STK_ACT_CFG_ROW_SHARE : Fld := ⟨26216464, 8, 20⟩
def STK_ACT_CFG_ACT_MAX : Fld := ⟨26216456, 8, 24⟩
def STK_ACT_CFG_EFFECTIVE_MAX : Fld := ⟨26216448, 8, 0⟩
-- STK_ACT_CFG_SH (file 02)
def STK_ACT_CFG_SH_ROW_SHARE : Fld := ⟨26216496, 8, 20⟩
def STK_ACT_CFG_SH_ACT_MAX : Fld := ⟨26216488, 8, 24⟩
-- STK_ACT_STALL (file 02)
def STK_ACT_STALL_STALLS (n : Nat) : Fld := ⟨26216960 + 32 * n, 32, 0⟩
-- STK_NREF_CFG (file 07)
def STK_NREF_CFG_RADIUS : Fld := ⟨26218504, 2, 1⟩
def STK_NREF_CFG_P : Fld := ⟨26218496, 4, 9⟩
-- STK_REF_RATE (file 07)
def STK_REF_RATE_MODEL : Fld := ⟨26218544, 12, 0⟩
def STK_REF_RATE_DOUBLE : Fld := ⟨26218528, 12, 0⟩
-- STK_PASR_MASK (file 07)
def STK_PASR_MASK_EFFECTIVE : Fld := ⟨26218640, 8, 255⟩
def STK_PASR_MASK_FORCED : Fld := ⟨26218632, 8, 0⟩
def STK_PASR_MASK_KEEP : Fld := ⟨26218624, 8, 255⟩
-- STK_SR_STAT (file 07)
def STK_SR_STAT_DROPPED : Fld := ⟨26218672, 8, 0⟩
def STK_SR_STAT_IN_SR : Fld := ⟨26218656, 12, 0⟩
-- SBP_STATUS (file 18)
def SBP_STATUS_RELEASES : Fld := ⟨33554448, 16, 0⟩
-- the address with SBA 0, which the model takes at its own reset (DESIGN CHOICE, notes/assumptions/151.md)
def SBP_STATUS_ADDRESS : Fld := ⟨33554432, 7, 0x58⟩
-- SBP_SCRATCH (file 18)
def SBP_SCRATCH_DATA (n : Nat) : Fld := ⟨33556480 + 32 * n, 32, 0⟩
-- SPI_STATUS (file 20)
def SPI_STATUS_BUSY : Fld := ⟨34078751, 1, 0⟩
def SPI_STATUS_WP_HIGH : Fld := ⟨34078750, 1, 0⟩
def SPI_STATUS_MODE : Fld := ⟨34078749, 1, 0⟩
def SPI_STATUS_CAP_LOG2 : Fld := ⟨34078744, 5, 0⟩
def SPI_STATUS_JEDEC_ID : Fld := ⟨34078720, 24, 0⟩
-- SPI_RECORDS (file 20)
def SPI_RECORDS_USABLE : Fld := ⟨34078752, 8, 0⟩
-- SB_HEAD_STATE (file 18)
def SB_HEAD_STATE_B_STATE : Fld := ⟨134218045, 3, 0⟩
def SB_HEAD_STATE_B_LINK_UP : Fld := ⟨134218044, 1, 0⟩
def SB_HEAD_STATE_B_ADOPTED : Fld := ⟨134218043, 1, 0⟩
def SB_HEAD_STATE_A_STATE : Fld := ⟨134218029, 3, 0⟩
def SB_HEAD_STATE_A_LINK_UP : Fld := ⟨134218028, 1, 0⟩
def SB_HEAD_STATE_A_ADOPTED : Fld := ⟨134218027, 1, 0⟩
-- SB_TRIP (file 18)
def SB_TRIP_TRIPPED : Fld := ⟨134218527, 1, 0⟩
def SB_TRIP_DIE : Fld := ⟨134218520, 4, 0⟩
def SB_TRIP_MODEL : Fld := ⟨134218519, 1, 0⟩
def SB_TRIP_HOTTEST : Fld := ⟨134218496, 16, 0⟩

end Sys2Proof.Machine.R
end

