-- ==== Sys2Proof/Machine/RegTable.lean ====
section
/-! DEFINITION. The register map of BAR0: one row per register (or array of registers) of the spec, each with its
offset, strides and fields (R404, and the register tables of the chapters). -/

namespace Sys2Proof.Machine

/-- Rows 0 to 29 of the register map, by offset. -/
def regRows0 : List RegRow :=
  [⟨0x0, 4, 0, 1, 0, 1, false, fun _ _ => [⟨R.IDC_CAP0_HDR0_CAP_ID, .ro, false⟩, ⟨R.IDC_CAP0_HDR0_CAP_VER, .ro, false⟩, ⟨R.IDC_CAP0_HDR0_BODY_DW, .ro, false⟩]⟩,
   ⟨0x4, 4, 0, 1, 0, 1, false, fun _ _ => [⟨R.IDC_CAP0_HDR1_NEXT, .ro, false⟩]⟩,
   ⟨0x8, 4, 0, 1, 0, 1, false, fun _ _ => [⟨R.IDC_CORE_INFO_REGMAP_VER, .ro, false⟩, ⟨R.IDC_CORE_INFO_BAR0_MIB, .ro, false⟩, ⟨R.IDC_CORE_INFO_BAR2_KIB, .ro, false⟩]⟩,
   ⟨0x10, 4, 0, 1, 0, 1, false, fun _ _ => [⟨R.IDC_STACK_GEOM_ROW_BITS, .ro, false⟩, ⟨R.IDC_STACK_GEOM_ROW_LANES, .ro, false⟩, ⟨R.IDC_STACK_GEOM_CH_PER_DIE, .ro, false⟩, ⟨R.IDC_STACK_GEOM_BANKS_PER_CH, .ro, false⟩, ⟨R.IDC_STACK_GEOM_BANK_GROUPS, .ro, false⟩, ⟨R.IDC_STACK_GEOM_DIES, .ro, false⟩]⟩,
   ⟨0x14, 4, 0, 1, 0, 1, false, fun _ _ => [⟨R.IDC_USER_MIB_USER_MIB, .ro, true⟩]⟩,
   ⟨0x40, 4, 0, 1, 0, 1, false, fun _ _ => [⟨R.IDC_PART_ID_PART_NUMBER, .ro, false⟩, ⟨R.IDC_PART_ID_STEP_LETTER, .ro, false⟩, ⟨R.IDC_PART_ID_STEP_DIGIT, .ro, false⟩, ⟨R.IDC_PART_ID_COMPAT_1604, .ro, true⟩]⟩,
   ⟨0x50, 4, 0, 1, 0, 1, false, fun _ _ => [⟨R.IDC_CTRL_LEVEL_B_LOCK, .ro, true⟩, ⟨R.IDC_CTRL_LEVEL_B_EXPERT, .ro, true⟩, ⟨R.IDC_CTRL_LEVEL_A_LOCK, .ro, true⟩, ⟨R.IDC_CTRL_LEVEL_A_EXPERT, .ro, true⟩]⟩,
   ⟨0x54, 4, 0, 1, 0, 1, false, fun _ _ => [⟨R.IDC_LEVEL_DROP_CNT_B_DROPS, .rc, false⟩, ⟨R.IDC_LEVEL_DROP_CNT_A_DROPS, .rc, false⟩]⟩,
   ⟨0x58, 4, 0, 1, 0, 1, false, fun _ _ => [⟨R.IDC_CLAIM_DROP_CNT_LAST_BLOCK, .ro, false⟩, ⟨R.IDC_CLAIM_DROP_CNT_COUNT, .rc, false⟩]⟩,
   ⟨0x60, 4, 0, 1, 0, 1, false, fun _ _ => [⟨R.IDC_FW_VER_MAJOR, .ro, false⟩, ⟨R.IDC_FW_VER_MINOR, .ro, false⟩, ⟨R.IDC_FW_VER_PATCH, .ro, false⟩]⟩,
   ⟨0x64, 4, 0, 1, 0, 1, false, fun _ _ => [⟨R.IDC_FW_STAT_READY, .ro, false⟩, ⟨R.IDC_FW_STAT_STATE, .ro, false⟩, ⟨R.IDC_FW_STAT_RUNNING, .ro, false⟩, ⟨R.IDC_FW_STAT_OTHER_VALID, .ro, false⟩, ⟨R.IDC_FW_STAT_HELD, .ro, false⟩, ⟨R.IDC_FW_STAT_MIN_SVN, .ro, false⟩, ⟨R.IDC_FW_STAT_SVN, .ro, false⟩]⟩,
   ⟨0x68, 4, 0, 1, 0, 1, false, fun _ _ => [⟨R.IDC_KPR_STAT_PARKED, .ro, false⟩, ⟨R.IDC_KPR_STAT_RESTARTS, .ro, true⟩]⟩,
   ⟨0x6c, 4, 0, 1, 0, 1, false, fun _ _ => [⟨R.IDC_PARK_DROP_CNT_B_DROPS, .rc, false⟩, ⟨R.IDC_PARK_DROP_CNT_A_DROPS, .rc, false⟩]⟩,
   ⟨0x70, 4, 4, 4, 0, 1, false, fun n _ => [⟨R.IDC_UNIQUE_ID_ID n, .ro, true⟩]⟩,
   ⟨0x80, 4, 0, 1, 0, 1, false, fun _ _ => [⟨R.IDC_OTP_ID_LC_STATE, .ro, true⟩, ⟨R.IDC_OTP_ID_DIVISION, .ro, true⟩, ⟨R.IDC_OTP_ID_FROM_STRAP, .ro, true⟩, ⟨R.IDC_OTP_ID_SEAL_KEYS, .ro, true⟩, ⟨R.IDC_OTP_ID_FUSED_MAX, .ro, false⟩, ⟨R.IDC_OTP_ID_MIN_SVN, .ro, true⟩]⟩,
   ⟨0x100, 4, 0, 1, 0, 1, false, fun _ _ => [⟨R.IDC_CAP1_HDR0_CAP_ID, .ro, false⟩, ⟨R.IDC_CAP1_HDR0_CAP_VER, .ro, false⟩, ⟨R.IDC_CAP1_HDR0_BODY_DW, .ro, false⟩]⟩,
   ⟨0x104, 4, 0, 1, 0, 1, false, fun _ _ => [⟨R.IDC_CAP1_HDR1_NEXT, .ro, false⟩]⟩,
   ⟨0x108, 4, 0, 1, 0, 1, false, fun _ _ => [⟨R.IDC_CMB_INFO_JOB_SLOTS, .ro, false⟩, ⟨R.IDC_CMB_INFO_SQ_RINGS, .ro, false⟩, ⟨R.IDC_CMB_INFO_CQ_RINGS, .ro, false⟩]⟩,
   ⟨0x10c, 4, 0, 1, 0, 1, false, fun _ _ => [⟨R.IDC_CMB_RING_MAX_LOG2, .ro, false⟩, ⟨R.IDC_CMB_RING_MIN_LOG2, .ro, false⟩, ⟨R.IDC_CMB_RING_DESC_B, .ro, false⟩, ⟨R.IDC_CMB_RING_CPL_B, .ro, false⟩]⟩,
   ⟨0x110, 4, 0, 1, 0, 1, false, fun _ _ => [⟨R.IDC_CMB_OPS_OPS, .ro, false⟩]⟩,
   ⟨0x114, 4, 0, 1, 0, 1, false, fun _ _ => [⟨R.IDC_CMB_RATE_ROW_GBPS, .ro, false⟩, ⟨R.IDC_CMB_RATE_ARRAY_B, .ro, false⟩]⟩,
   ⟨0x118, 4, 0, 1, 0, 1, false, fun _ _ => [⟨R.IDC_CMB_LIMITS_MAX_NP, .ro, false⟩, ⟨R.IDC_CMB_LIMITS_OCS_JOBS, .ro, false⟩]⟩,
   ⟨0x140, 4, 0, 1, 0, 1, false, fun _ _ => [⟨R.IDC_CAP2_HDR0_CAP_ID, .ro, false⟩, ⟨R.IDC_CAP2_HDR0_CAP_VER, .ro, false⟩, ⟨R.IDC_CAP2_HDR0_BODY_DW, .ro, false⟩]⟩,
   ⟨0x144, 4, 0, 1, 0, 1, false, fun _ _ => [⟨R.IDC_CAP2_HDR1_NEXT, .ro, false⟩]⟩,
   ⟨0x148, 4, 0, 1, 0, 1, false, fun _ _ => [⟨R.IDC_LRC_INFO_MAX_N, .ro, false⟩, ⟨R.IDC_LRC_INFO_MAX_K, .ro, false⟩, ⟨R.IDC_LRC_INFO_MAX_L, .ro, false⟩, ⟨R.IDC_LRC_INFO_MAX_M, .ro, false⟩, ⟨R.IDC_LRC_INFO_MAX_OUT, .ro, false⟩, ⟨R.IDC_LRC_INFO_GROUP_RULE, .ro, false⟩]⟩,
   ⟨0x14c, 4, 0, 1, 0, 1, false, fun _ _ => [⟨R.IDC_LRC_ORDER_Y_BASE, .ro, false⟩, ⟨R.IDC_LRC_ORDER_FIRST_GLOBAL_ROW, .ro, false⟩, ⟨R.IDC_LRC_ORDER_LOCAL_FIRST, .ro, false⟩]⟩,
   ⟨0x180, 4, 0, 1, 0, 1, false, fun _ _ => [⟨R.IDC_CAP3_HDR0_CAP_ID, .ro, false⟩, ⟨R.IDC_CAP3_HDR0_CAP_VER, .ro, false⟩, ⟨R.IDC_CAP3_HDR0_BODY_DW, .ro, false⟩]⟩,
   ⟨0x184, 4, 0, 1, 0, 1, false, fun _ _ => [⟨R.IDC_CAP3_HDR1_NEXT, .ro, false⟩]⟩,
   ⟨0x188, 4, 0, 1, 0, 1, false, fun _ _ => [⟨R.IDC_SEAL_INFO_KEY_SLOTS, .ro, true⟩, ⟨R.IDC_SEAL_INFO_MAX_BUDGET, .ro, true⟩, ⟨R.IDC_SEAL_INFO_BUDGET, .ro, true⟩]⟩,
   ⟨0x18c, 4, 0, 1, 0, 1, false, fun _ _ => [⟨R.IDC_SEAL_ALG_TAG_BITS, .ro, false⟩, ⟨R.IDC_SEAL_ALG_MINOR_BITS, .ro, false⟩, ⟨R.IDC_SEAL_ALG_ARITY, .ro, false⟩, ⟨R.IDC_SEAL_ALG_SRAM_LEVELS, .ro, false⟩, ⟨R.IDC_SEAL_ALG_STACK_LEVELS, .ro, false⟩]⟩]

/-- Rows 30 to 59 of the register map, by offset. -/
def regRows1 : List RegRow :=
  [⟨0x190, 4, 0, 1, 0, 1, false, fun _ _ => [⟨R.IDC_SEAL_IDE_SEL_STREAMS, .ro, false⟩, ⟨R.IDC_SEAL_IDE_CXL_SKID, .ro, false⟩, ⟨R.IDC_SEAL_IDE_CXL_CONTAIN, .ro, false⟩, ⟨R.IDC_SEAL_IDE_PCIE_SEL, .ro, false⟩, ⟨R.IDC_SEAL_IDE_PCIE_LINK, .ro, false⟩]⟩,
   ⟨0x1c0, 4, 0, 1, 0, 1, false, fun _ _ => [⟨R.IDC_CAP4_HDR0_CAP_ID, .ro, false⟩, ⟨R.IDC_CAP4_HDR0_CAP_VER, .ro, false⟩, ⟨R.IDC_CAP4_HDR0_BODY_DW, .ro, false⟩]⟩,
   ⟨0x1c4, 4, 0, 1, 0, 1, false, fun _ _ => [⟨R.IDC_CAP4_HDR1_NEXT, .ro, false⟩]⟩,
   ⟨0x1c8, 4, 0, 1, 0, 1, false, fun _ _ => [⟨R.IDC_ROWL_INFO_ROW_CLK_MHZ, .ro, false⟩, ⟨R.IDC_ROWL_INFO_LANE_GBPS, .ro, false⟩, ⟨R.IDC_ROWL_INFO_IN_SERVICE, .ro, false⟩, ⟨R.IDC_ROWL_INFO_BUILT, .ro, false⟩]⟩,
   ⟨0x1cc, 4, 0, 1, 0, 1, false, fun _ _ => [⟨R.IDC_ROWL_DIEMAP_LANE_OF_DIE, .ro, false⟩]⟩,
   ⟨0x1d0, 4, 0, 1, 0, 1, false, fun _ _ => [⟨R.IDC_ROWL_RET_DIE_DIES, .ro, true⟩]⟩,
   ⟨0x1d4, 4, 0, 1, 0, 1, false, fun _ _ => [⟨R.IDC_ROWL_RET_CH_LO_CH, .ro, true⟩]⟩,
   ⟨0x1d8, 4, 0, 1, 0, 1, false, fun _ _ => [⟨R.IDC_ROWL_RET_CH_HI_CH, .ro, true⟩]⟩,
   ⟨0x1dc, 4, 0, 1, 0, 1, false, fun _ _ => [⟨R.IDC_ROWL_SPARE_MIN_LANE3, .ro, true⟩, ⟨R.IDC_ROWL_SPARE_MIN_LANE2, .ro, true⟩, ⟨R.IDC_ROWL_SPARE_MIN_LANE1, .ro, true⟩, ⟨R.IDC_ROWL_SPARE_MIN_LANE0, .ro, true⟩]⟩,
   ⟨0x1e0, 4, 0, 1, 0, 1, false, fun _ _ => [⟨R.IDC_ROWL_COL_SPARE_CH_NONE_LEFT, .ro, true⟩, ⟨R.IDC_ROWL_COL_SPARE_CH_ONE_LEFT, .ro, true⟩, ⟨R.IDC_ROWL_COL_SPARE_CH_TWO_LEFT, .ro, true⟩]⟩,
   ⟨0x200, 4, 0, 1, 0, 1, false, fun _ _ => [⟨R.IDC_CAP5_HDR0_CAP_ID, .ro, false⟩, ⟨R.IDC_CAP5_HDR0_CAP_VER, .ro, false⟩, ⟨R.IDC_CAP5_HDR0_BODY_DW, .ro, false⟩]⟩,
   ⟨0x204, 4, 0, 1, 0, 1, false, fun _ _ => [⟨R.IDC_CAP5_HDR1_NEXT, .ro, false⟩]⟩,
   ⟨0x208, 4, 0, 1, 0, 1, false, fun _ _ => [⟨R.IDC_HEAD_INFO_FENCE_DEF_MS, .ro, false⟩, ⟨R.IDC_HEAD_INFO_PARTITIONS, .ro, false⟩, ⟨R.IDC_HEAD_INFO_LANES_B, .ro, false⟩, ⟨R.IDC_HEAD_INFO_LANES_A, .ro, false⟩]⟩,
   ⟨0x20c, 4, 0, 1, 0, 1, false, fun _ _ => [⟨R.IDC_HEAD_STATE_B_ADOPTED, .ro, false⟩, ⟨R.IDC_HEAD_STATE_B_STATE, .ro, false⟩, ⟨R.IDC_HEAD_STATE_A_ADOPTED, .ro, false⟩, ⟨R.IDC_HEAD_STATE_A_STATE, .ro, false⟩]⟩,
   ⟨0x240, 4, 0, 1, 0, 1, false, fun _ _ => [⟨R.IDC_CAP6_HDR0_CAP_ID, .ro, false⟩, ⟨R.IDC_CAP6_HDR0_CAP_VER, .ro, false⟩, ⟨R.IDC_CAP6_HDR0_BODY_DW, .ro, false⟩]⟩,
   ⟨0x244, 4, 0, 1, 0, 1, false, fun _ _ => [⟨R.IDC_CAP6_HDR1_NEXT, .ro, false⟩]⟩,
   ⟨0x248, 4, 0, 1, 0, 1, false, fun _ _ => [⟨R.IDC_TIME_INFO_BEAT_NS, .ro, false⟩, ⟨R.IDC_TIME_INFO_HOLD_MS, .ro, false⟩, ⟨R.IDC_TIME_INFO_CLASSES, .ro, false⟩]⟩,
   ⟨0x24c, 4, 0, 1, 0, 1, false, fun _ _ => [⟨R.IDC_TIME_STATE_STATUS, .ro, false⟩]⟩,
   ⟨0x280, 4, 0, 1, 0, 1, false, fun _ _ => [⟨R.IDC_CAP7_HDR0_CAP_ID, .ro, false⟩, ⟨R.IDC_CAP7_HDR0_CAP_VER, .ro, false⟩, ⟨R.IDC_CAP7_HDR0_BODY_DW, .ro, false⟩]⟩,
   ⟨0x284, 4, 0, 1, 0, 1, false, fun _ _ => [⟨R.IDC_CAP7_HDR1_NEXT, .ro, false⟩]⟩,
   ⟨0x288, 4, 0, 1, 0, 1, false, fun _ _ => [⟨R.IDC_COMPAT_ERRN_LATCH, .ro, false⟩, ⟨R.IDC_COMPAT_CLK_COAST, .ro, false⟩]⟩,
   ⟨0x10000, 4, 0, 1, 0, 1, false, fun _ _ => [⟨R.CLK_STATUS_CORE_REF, .ro, false⟩, ⟨R.CLK_STATUS_COAST, .ro, false⟩, ⟨R.CLK_STATUS_CORE_LOCK, .ro, false⟩, ⟨R.CLK_STATUS_ROW_LOCK, .ro, false⟩, ⟨R.CLK_STATUS_PHYA_LOCK, .ro, false⟩, ⟨R.CLK_STATUS_PHYB_LOCK, .ro, false⟩, ⟨R.CLK_STATUS_TRIMMED, .ro, false⟩]⟩,
   ⟨0x10010, 4, 0, 1, 0, 1, false, fun _ _ => [⟨R.CLK_MON_A_QUALIFIED, .ro, false⟩, ⟨R.CLK_MON_A_FAILED, .ro, false⟩, ⟨R.CLK_MON_A_COUNT, .ro, false⟩, ⟨R.CLK_MON_A_FAILS, .rc, false⟩]⟩,
   ⟨0x10014, 4, 0, 1, 0, 1, false, fun _ _ => [⟨R.CLK_MON_B_QUALIFIED, .ro, false⟩, ⟨R.CLK_MON_B_FAILED, .ro, false⟩, ⟨R.CLK_MON_B_COUNT, .ro, false⟩, ⟨R.CLK_MON_B_FAILS, .rc, false⟩]⟩,
   ⟨0x10100, 4, 0, 1, 0, 1, false, fun _ _ => [⟨R.CLK_GATE_EN_EN, .ro, false⟩]⟩,
   ⟨0x10104, 4, 0, 1, 0, 1, false, fun _ _ => [⟨R.CLK_GATE_STAT_OPEN, .ro, false⟩]⟩,
   ⟨0x10108, 4, 0, 1, 0, 1, false, fun _ _ => [⟨R.CLK_GATE_POL_HOLD_OPEN, .rw, true⟩, ⟨R.CLK_GATE_POL_IDLE_US, .rw, true⟩]⟩,
   ⟨0x1010c, 4, 0, 1, 0, 1, false, fun _ _ => [⟨R.CLK_GATED_ACC_CNT_EVENTS, .rc, false⟩, ⟨R.CLK_GATED_ACC_CNT_ACCESSES, .rc, false⟩]⟩,
   ⟨0x20000, 4, 0, 1, 0, 1, false, fun _ _ => [⟨R.RST_CTL_KEY, .wo, false⟩, ⟨R.RST_CTL_WARM, .wo, false⟩]⟩,
   ⟨0x20010, 4, 0, 1, 0, 1, false, fun _ _ => [⟨R.RST_BOOT_STATUS_STEP, .ro, false⟩, ⟨R.RST_BOOT_STATUS_PHASE, .ro, false⟩, ⟨R.RST_BOOT_STATUS_CAUSE, .ro, false⟩, ⟨R.RST_BOOT_STATUS_ATTEMPTS, .ro, false⟩]⟩]

/-- Rows 60 to 89 of the register map, by offset. -/
def regRows2 : List RegRow :=
  [⟨0x20014, 4, 0, 1, 0, 1, false, fun _ _ => [⟨R.RST_BOOT_INFO_ORIGIN, .ro, false⟩, ⟨R.RST_BOOT_INFO_IMG_A, .ro, false⟩, ⟨R.RST_BOOT_INFO_IMG_B, .ro, false⟩, ⟨R.RST_BOOT_INFO_FUSE_MARGINAL, .ro, false⟩, ⟨R.RST_BOOT_INFO_FALLBACK, .ro, false⟩, ⟨R.RST_BOOT_INFO_KEPT, .ro, false⟩, ⟨R.RST_BOOT_INFO_TORN, .ro, false⟩, ⟨R.RST_BOOT_INFO_LAST_MS, .ro, false⟩]⟩,
   ⟨0x20020, 4, 0, 1, 0, 1, false, fun _ _ => [⟨R.RST_QUIESCE_FORCED, .ro, true⟩, ⟨R.RST_QUIESCE_TORN, .ro, true⟩, ⟨R.RST_QUIESCE_TIME_US, .ro, true⟩]⟩,
   ⟨0x30000, 4, 0, 1, 0, 1, false, fun _ _ => [⟨R.FUS_STATUS_LC_STATE, .ro, true⟩, ⟨R.FUS_STATUS_BUSY, .ro, false⟩, ⟨R.FUS_STATUS_MARGINAL, .ro, true⟩, ⟨R.FUS_STATUS_MIN_SVN, .ro, true⟩]⟩,
   ⟨0x30004, 4, 0, 1, 0, 1, false, fun _ _ => [⟨R.FUS_REGION_STAT_REPAIR, .ro, true⟩, ⟨R.FUS_REGION_STAT_CAL, .ro, true⟩, ⟨R.FUS_REGION_STAT_CONFIG, .ro, true⟩, ⟨R.FUS_REGION_STAT_KEY, .ro, true⟩, ⟨R.FUS_REGION_STAT_SECURITY, .ro, true⟩]⟩,
   ⟨0x30008, 4, 0, 1, 0, 1, false, fun _ _ => [⟨R.FUS_LOCK_FUSED, .ro, false⟩, ⟨R.FUS_LOCK_LOCKED, .w1s, false⟩]⟩,
   ⟨0x30010, 4, 4, 16, 0, 1, false, fun n _ => [⟨R.FUS_MARGINAL_VALID n, .ro, true⟩, ⟨R.FUS_MARGINAL_CLASS n, .ro, true⟩, ⟨R.FUS_MARGINAL_ADDR n, .ro, true⟩]⟩,
   ⟨0x40000, 4, 0, 1, 0, 1, false, fun _ _ => [⟨R.CAL_CFG_HOLD, .rw, true⟩, ⟨R.CAL_CFG_DELTA_C, .rw, true⟩]⟩,
   ⟨0x40004, 4, 0, 1, 0, 1, false, fun _ _ => [⟨R.CAL_STATUS_BUSY, .ro, false⟩, ⟨R.CAL_STATUS_DIE, .ro, false⟩, ⟨R.CAL_STATUS_QUEUED, .ro, false⟩]⟩,
   ⟨0x40100, 4, 4, 12, 0, 1, false, fun n _ => [⟨R.CAL_DIE_T_CAL n, .ro, true⟩, ⟨R.CAL_DIE_RAIL n, .ro, true⟩, ⟨R.CAL_DIE_SOURCE n, .ro, true⟩, ⟨R.CAL_DIE_COUNT n, .ro, true⟩]⟩,
   ⟨0x50000, 4, 0, 1, 0, 1, false, fun _ _ => [⟨R.BST_CTL_START, .wo, false⟩, ⟨R.BST_CTL_TARGET, .rw, false⟩]⟩,
   ⟨0x50004, 4, 0, 1, 0, 1, false, fun _ _ => [⟨R.BST_STATUS_BUSY, .ro, false⟩, ⟨R.BST_STATUS_PASS, .ro, false⟩, ⟨R.BST_STATUS_FAIL, .ro, false⟩, ⟨R.BST_STATUS_SKIPPED, .ro, false⟩, ⟨R.BST_STATUS_REPAIRS, .ro, false⟩]⟩,
   ⟨0x60000, 4, 0, 1, 0, 1, false, fun _ _ => [⟨R.THM_CFG_GRACE, .rw, true⟩, ⟨R.THM_CFG_RELEASE_MS, .rw, true⟩, ⟨R.THM_CFG_HYST_C, .rw, true⟩, ⟨R.THM_CFG_GUARD_C, .rw, true⟩, ⟨R.THM_CFG_DISTRUST_C, .rw, true⟩]⟩,
   ⟨0x60004, 4, 0, 1, 0, 1, false, fun _ _ => [⟨R.THM_STATUS_STAGE, .ro, true⟩, ⟨R.THM_STATUS_POWER_DOWN, .ro, true⟩, ⟨R.THM_STATUS_CAUSE, .ro, true⟩, ⟨R.THM_STATUS_DISTRUSTED, .ro, true⟩]⟩,
   ⟨0x60008, 4, 0, 1, 0, 1, false, fun _ _ => [⟨R.THM_IRQ_B_IEN, .rw, true⟩, ⟨R.THM_IRQ_B_VECTOR, .rw, true⟩, ⟨R.THM_IRQ_A_IEN, .rw, true⟩, ⟨R.THM_IRQ_A_VECTOR, .rw, true⟩]⟩,
   ⟨0x6000c, 4, 0, 1, 0, 1, false, fun _ _ => [⟨R.THM_SHUT_DROP_CNT_B_DROPS, .rc, false⟩, ⟨R.THM_SHUT_DROP_CNT_A_DROPS, .rc, false⟩]⟩,
   ⟨0x60100, 8, 8, 12, 0, 1, false, fun n _ => [⟨R.THM_DIE_GOVERN n, .ro, false⟩, ⟨R.THM_DIE_MODEL n, .ro, false⟩, ⟨R.THM_DIE_SENSOR_MAX n, .ro, false⟩, ⟨R.THM_DIE_FEEDS_OPEN n, .ro, false⟩, ⟨R.THM_DIE_SRC n, .ro, false⟩, ⟨R.THM_DIE_TRUSTED n, .ro, false⟩]⟩,
   ⟨0x60180, 4, 0, 1, 0, 1, false, fun _ _ => [⟨R.THM_BASE_FOOT_MAX, .ro, false⟩, ⟨R.THM_BASE_SHELF_MAX, .ro, false⟩]⟩,
   ⟨0x60200, 4, 4, 128, 0, 1, false, fun n _ => [⟨R.THM_SENS_VALID n, .ro, false⟩, ⟨R.THM_SENS_TRIMMED n, .ro, false⟩, ⟨R.THM_SENS_TRUSTED n, .ro, false⟩, ⟨R.THM_SENS_READING n, .ro, false⟩]⟩,
   ⟨0x60400, 4, 4, 12, 0, 1, false, fun n _ => [⟨R.THM_CANARY_CANARY_TEMP n, .ro, false⟩, ⟨R.THM_CANARY_FAILS n, .rc, false⟩]⟩,
   ⟨0x70000, 4, 0, 1, 0, 1, false, fun _ _ => [⟨R.PWR_CFG_CEILING_W, .rw, true⟩]⟩,
   ⟨0x70004, 4, 0, 1, 0, 1, false, fun _ _ => [⟨R.PWR_STATUS_DUTY, .ro, false⟩, ⟨R.PWR_STATUS_FLOOR, .ro, false⟩, ⟨R.PWR_STATUS_ACT_CAP, .ro, false⟩, ⟨R.PWR_STATUS_AVG_POWER, .ro, false⟩]⟩,
   ⟨0x70100, 8, 8, 12, 0, 1, false, fun n _ => [⟨R.PWR_DIE_VPP_MA n, .ro, false⟩, ⟨R.PWR_DIE_VDDQ_MA n, .ro, false⟩, ⟨R.PWR_DIE_VDD_MA n, .ro, false⟩]⟩,
   ⟨0x70200, 8, 0, 1, 0, 1, false, fun _ _ => [⟨R.PWR_INPUT_VPP, .ro, false⟩, ⟨R.PWR_INPUT_VDD_PHY, .ro, false⟩, ⟨R.PWR_INPUT_VDD_LOGIC, .ro, false⟩, ⟨R.PWR_INPUT_VIN_IVR, .ro, false⟩]⟩,
   ⟨0x70300, 4, 0, 1, 0, 1, false, fun _ _ => [⟨R.PWR_REG_STAT_SPARE_USED, .ro, true⟩, ⟨R.PWR_REG_STAT_SHORT, .ro, true⟩]⟩,
   ⟨0x80000, 4, 0, 1, 0, 1, false, fun _ _ => [⟨R.FLT_STATUS_ERRN, .ro, true⟩, ⟨R.FLT_STATUS_DEVRST_SUPP, .ro, true⟩, ⟨R.FLT_STATUS_CLASS_PEND, .ro, true⟩]⟩,
   ⟨0x80004, 4, 0, 1, 0, 1, false, fun _ _ => [⟨R.FLT_IRQ_B_IEN, .rw, true⟩, ⟨R.FLT_IRQ_B_VECTOR, .rw, true⟩, ⟨R.FLT_IRQ_A_IEN, .rw, true⟩, ⟨R.FLT_IRQ_A_VECTOR, .rw, true⟩]⟩,
   ⟨0x80008, 4, 0, 1, 0, 1, false, fun _ _ => [⟨R.FLT_ERRN_RELEASE, .wo, false⟩, ⟨R.FLT_ERRN_HOLD, .rw, true⟩, ⟨R.FLT_ERRN_PULSE_US, .rw, true⟩]⟩,
   ⟨0x8000c, 4, 0, 1, 0, 1, false, fun _ _ => [⟨R.FLT_ESC_CNT_ESCALATED, .rc, true⟩]⟩,
   ⟨0x80010, 4, 4, 4, 0, 1, false, fun n _ => [⟨R.FLT_SEV_REACT_REACT n, .rw, true⟩]⟩,
   ⟨0x80020, 4, 0, 1, 0, 1, false, fun _ _ => [⟨R.FLT_LOG_SEQ_NEXT, .ro, true⟩]⟩]

/-- Rows 90 to 119 of the register map, by offset. -/
def regRows3 : List RegRow :=
  [⟨0x80100, 4, 4, 20, 0, 1, false, fun n _ => [⟨R.FLT_PEND_PEND n, .w1c, true⟩]⟩,
   ⟨0x81000, 4, 4, 640, 0, 1, false, fun n _ => [⟨R.FLT_SRC_CFG_CLASS n, .ro, false⟩, ⟨R.FLT_SRC_CFG_AER n, .rw, true⟩, ⟨R.FLT_SRC_CFG_RECORD n, .rw, true⟩, ⟨R.FLT_SRC_CFG_REACT n, .rw, true⟩, ⟨R.FLT_SRC_CFG_SEVERITY n, .rw, true⟩]⟩,
   ⟨0x82000, 4, 4, 640, 0, 1, false, fun n _ => [⟨R.FLT_SRC_CNT_COUNT n, .rc, true⟩]⟩,
   ⟨0x90000, 4, 0, 1, 0, 1, false, fun _ _ => [⟨R.TIM_CFG_PREFER, .rw, true⟩, ⟨R.TIM_CFG_PTM_PERIOD, .rw, true⟩]⟩,
   ⟨0x90004, 4, 0, 1, 0, 1, false, fun _ _ => [⟨R.TIM_CMD_SWITCH, .wo, false⟩]⟩,
   ⟨0x90008, 4, 0, 1, 0, 1, false, fun _ _ => [⟨R.TIM_STATUS_TIME_UNTRUSTED, .ro, true⟩, ⟨R.TIM_STATUS_HOLDOVER, .ro, false⟩, ⟨R.TIM_STATUS_OFFSET_VALID, .ro, false⟩, ⟨R.TIM_STATUS_SOURCE, .ro, true⟩, ⟨R.TIM_STATUS_B_LOCKED, .ro, false⟩, ⟨R.TIM_STATUS_A_LOCKED, .ro, false⟩]⟩,
   ⟨0x90010, 8, 0, 1, 0, 1, false, fun _ _ => [⟨R.TIM_NOW_VALUE, .ro, true⟩]⟩,
   ⟨0x90018, 8, 0, 1, 0, 1, false, fun _ _ => [⟨R.TIM_BEAT_CNT_VALUE, .ro, true⟩]⟩,
   ⟨0x90020, 8, 0, 1, 0, 1, false, fun _ _ => [⟨R.TIM_OFFSET_VALUE, .ro, false⟩]⟩,
   ⟨0x90028, 4, 0, 1, 0, 1, false, fun _ _ => [⟨R.TIM_STEP_CNT_STEPS, .rc, false⟩]⟩,
   ⟨0x90030, 8, 0, 1, 0, 1, false, fun _ _ => [⟨R.TIM_LAST_STEP_VALUE, .ro, false⟩]⟩,
   ⟨0x90038, 8, 0, 1, 0, 1, false, fun _ _ => [⟨R.TIM_TS_SET_VALUE, .ro, false⟩]⟩,
   ⟨0xa0000, 4, 0, 1, 0, 1, false, fun _ _ => [⟨R.QOS_CLASS_COMMIT_CAUSE, .ro, false⟩, ⟨R.QOS_CLASS_COMMIT_PENDING, .ro, false⟩, ⟨R.QOS_CLASS_COMMIT_REJECT, .w1c, false⟩, ⟨R.QOS_CLASS_COMMIT_COMMIT, .wo, false⟩]⟩,
   ⟨0xa0004, 4, 0, 1, 0, 1, false, fun _ _ => [⟨R.QOS_SQUEEZE_LANE, .rw, true⟩, ⟨R.QOS_SQUEEZE_CH, .rw, true⟩]⟩,
   ⟨0xa0008, 4, 0, 1, 0, 1, false, fun _ _ => [⟨R.QOS_SUSTAIN_A_GBPS, .ro, false⟩, ⟨R.QOS_SUSTAIN_S_GBPS, .ro, false⟩]⟩,
   ⟨0xa000c, 4, 0, 1, 0, 1, false, fun _ _ => [⟨R.QOS_OVERCOMMIT_ACTIVE, .ro, false⟩, ⟨R.QOS_OVERCOMMIT_CONF_TOTAL, .ro, true⟩]⟩,
   ⟨0xa0100, 4, 4, 8, 0, 1, false, fun n _ => [⟨R.QOS_CLASS_CFG_RESERVE n, .ro, true⟩, ⟨R.QOS_CLASS_CFG_LANE_LIMIT n, .ro, true⟩, ⟨R.QOS_CLASS_CFG_LIMIT n, .ro, true⟩]⟩,
   ⟨0xa0120, 4, 4, 8, 0, 1, false, fun n _ => [⟨R.QOS_CLASS_CFG_SH_RESERVE n, .rw, true⟩, ⟨R.QOS_CLASS_CFG_SH_LANE_LIMIT n, .rw, true⟩, ⟨R.QOS_CLASS_CFG_SH_LIMIT n, .rw, true⟩]⟩,
   ⟨0xa0140, 4, 0, 1, 0, 1, false, fun _ _ => [⟨R.QOS_HEAD_CLASS_B_CLASS, .ro, true⟩, ⟨R.QOS_HEAD_CLASS_A_CLASS, .ro, true⟩]⟩,
   ⟨0xa0144, 4, 0, 1, 0, 1, false, fun _ _ => [⟨R.QOS_HEAD_CLASS_SH_B_CLASS, .rw, true⟩, ⟨R.QOS_HEAD_CLASS_SH_A_CLASS, .rw, true⟩]⟩,
   ⟨0xa0200, 4, 64, 2, 8, 8, false, fun n m => [⟨R.QOS_WIN_LO_EN n m, .ro, true⟩, ⟨R.QOS_WIN_LO_CLASS n m, .ro, true⟩, ⟨R.QOS_WIN_LO_BASE_MIB n m, .ro, true⟩]⟩,
   ⟨0xa0204, 4, 64, 2, 8, 8, false, fun n m => [⟨R.QOS_WIN_HI_SIZE_MIB n m, .ro, true⟩]⟩,
   ⟨0xa0300, 4, 64, 2, 8, 8, false, fun n m => [⟨R.QOS_WIN_SH_LO_EN n m, .rw, true⟩, ⟨R.QOS_WIN_SH_LO_CLASS n m, .rw, true⟩, ⟨R.QOS_WIN_SH_LO_BASE_MIB n m, .rw, true⟩]⟩,
   ⟨0xa0304, 4, 64, 2, 8, 8, false, fun n m => [⟨R.QOS_WIN_SH_HI_SIZE_MIB n m, .rw, true⟩]⟩,
   ⟨0xa0400, 4, 4, 8, 0, 1, false, fun n _ => [⟨R.QOS_CLASS_STAT_EFF_RES n, .ro, true⟩, ⟨R.QOS_CLASS_STAT_SHORT n, .ro, false⟩, ⟨R.QOS_CLASS_STAT_SQUEEZED n, .ro, false⟩, ⟨R.QOS_CLASS_STAT_BLOCKED_WAIT n, .ro, false⟩, ⟨R.QOS_CLASS_STAT_WAITING n, .ro, false⟩]⟩,
   ⟨0xa0480, 4, 4, 8, 0, 1, false, fun n _ => [⟨R.QOS_LATE_JOB_CNT_JOBS n, .rc, false⟩]⟩,
   ⟨0xa0500, 8, 16, 8, 0, 1, false, fun n _ => [⟨R.QOS_BW_RD_BYTES n, .ro, true⟩]⟩,
   ⟨0xa0508, 8, 16, 8, 0, 1, false, fun n _ => [⟨R.QOS_BW_WR_BYTES n, .ro, true⟩]⟩,
   ⟨0xa0580, 8, 0, 1, 0, 1, false, fun _ _ => [⟨R.QOS_BW_META_BYTES, .ro, true⟩]⟩,
   ⟨0xa0588, 8, 0, 1, 0, 1, false, fun _ _ => [⟨R.QOS_BW_FRG_BYTES, .ro, true⟩]⟩]

/-- Rows 120 to 149 of the register map, by offset. -/
def regRows4 : List RegRow :=
  [⟨0xa0600, 4, 0, 1, 0, 1, false, fun _ _ => [⟨R.QOS_BW_SNAP_CTL_DONE, .ro, false⟩, ⟨R.QOS_BW_SNAP_CTL_TAKE, .wo, false⟩]⟩,
   ⟨0xa0608, 8, 0, 1, 0, 1, false, fun _ _ => [⟨R.QOS_BW_SNAP_TIME_TIME, .ro, false⟩]⟩,
   ⟨0xa0700, 8, 16, 8, 0, 1, false, fun n _ => [⟨R.QOS_BW_SRD_BYTES n, .ro, false⟩]⟩,
   ⟨0xa0708, 8, 16, 8, 0, 1, false, fun n _ => [⟨R.QOS_BW_SWR_BYTES n, .ro, false⟩]⟩,
   ⟨0xa0800, 4, 0, 1, 0, 1, false, fun _ _ => [⟨R.QOS_SCHED_COMMIT_PENDING, .ro, false⟩, ⟨R.QOS_SCHED_COMMIT_REJECT, .w1c, false⟩, ⟨R.QOS_SCHED_COMMIT_COMMIT, .wo, false⟩]⟩,
   ⟨0xa0810, 4, 4, 8, 0, 1, false, fun n _ => [⟨R.QOS_AGE_LIMIT_LIMIT n, .rw, true⟩]⟩,
   ⟨0xa0840, 4, 4, 5, 0, 1, false, fun n _ => [⟨R.QOS_PORT_LAT_RAMP n, .ro, true⟩, ⟨R.QOS_PORT_LAT_TARGET n, .ro, true⟩]⟩,
   ⟨0xa0860, 4, 4, 5, 0, 1, false, fun n _ => [⟨R.QOS_PORT_LAT_SH_RAMP n, .rw, true⟩, ⟨R.QOS_PORT_LAT_SH_TARGET n, .rw, true⟩]⟩,
   ⟨0xa0880, 4, 0, 1, 0, 1, false, fun _ _ => [⟨R.QOS_INGEST_CFG_PANIC_OFF, .ro, true⟩, ⟨R.QOS_INGEST_CFG_PANIC_ON, .ro, true⟩]⟩,
   ⟨0xa0884, 4, 0, 1, 0, 1, false, fun _ _ => [⟨R.QOS_INGEST_CFG_SH_PANIC_OFF, .rw, true⟩, ⟨R.QOS_INGEST_CFG_SH_PANIC_ON, .rw, true⟩]⟩,
   ⟨0xa0888, 4, 0, 1, 0, 1, false, fun _ _ => [⟨R.QOS_INGEST_STAT_PANIC, .ro, false⟩, ⟨R.QOS_INGEST_STAT_PEAK, .rc, false⟩, ⟨R.QOS_INGEST_STAT_FILL, .ro, false⟩]⟩,
   ⟨0xa088c, 4, 0, 1, 0, 1, false, fun _ _ => [⟨R.QOS_INGEST_PANIC_CNT_RISES, .rc, false⟩]⟩,
   ⟨0xb0000, 4, 65536, 2, 0, 1, false, fun n _ => [⟨R.HD_STATE_STATE n, .ro, true⟩, ⟨R.HD_STATE_LINK_UP n, .ro, false⟩, ⟨R.HD_STATE_ADOPTED n, .ro, true⟩, ⟨R.HD_STATE_FENCE_CAUSE n, .ro, true⟩, ⟨R.HD_STATE_DOWN_MS n, .ro, false⟩]⟩,
   ⟨0xb0004, 4, 65536, 2, 0, 1, false, fun n _ => [⟨R.HD_FENCE_CFG_TIMEOUT_MS n, .rw, true⟩]⟩,
   ⟨0xb0008, 8, 65536, 2, 0, 1, false, fun n _ => [⟨R.HD_FENCE_TIME_TIME n, .ro, true⟩]⟩,
   ⟨0xb0010, 4, 65536, 2, 0, 1, false, fun n _ => [⟨R.HD_FENCED_DROP_CNT_DROPS n, .rc, false⟩]⟩,
   ⟨0xb0014, 4, 65536, 2, 0, 1, false, fun n _ => [⟨R.HD_HELD_CPL_HELD n, .ro, false⟩]⟩,
   ⟨0xd0000, 4, 0, 1, 0, 1, false, fun _ _ => [⟨R.PHYC_CFG_FOM_LOW, .rw, true⟩, ⟨R.PHYC_CFG_FREEZE_B, .rw, true⟩, ⟨R.PHYC_CFG_FREEZE_A, .rw, true⟩]⟩,
   ⟨0xd0010, 4, 0, 1, 0, 1, false, fun _ _ => [⟨R.PHYC_LOOP_START, .rw, false⟩, ⟨R.PHYC_LOOP_ACTIVE, .ro, false⟩, ⟨R.PHYC_LOOP_REFUSED, .w1c, false⟩, ⟨R.PHYC_LOOP_MODE, .rw, false⟩, ⟨R.PHYC_LOOP_RATE, .rw, false⟩, ⟨R.PHYC_LOOP_PATTERN, .rw, false⟩, ⟨R.PHYC_LOOP_DROPS, .rc, false⟩, ⟨R.PHYC_LOOP_LANE_MASK, .rw, false⟩]⟩,
   ⟨0xe0000, 4, 4096, 16, 0, 1, false, fun n _ => [⟨R.PHYL_STATUS_RATE n, .ro, false⟩, ⟨R.PHYL_STATUS_IN_LINK n, .ro, false⟩, ⟨R.PHYL_STATUS_REVERSED n, .ro, false⟩, ⟨R.PHYL_STATUS_POL_INV n, .ro, false⟩, ⟨R.PHYL_STATUS_LOOP n, .ro, false⟩, ⟨R.PHYL_STATUS_RX_TERM n, .ro, false⟩, ⟨R.PHYL_STATUS_TX_IDLE n, .ro, false⟩, ⟨R.PHYL_STATUS_DFE_SAT n, .ro, false⟩, ⟨R.PHYL_STATUS_LOGICAL n, .ro, false⟩, ⟨R.PHYL_STATUS_CTLE n, .ro, false⟩, ⟨R.PHYL_STATUS_GAIN n, .ro, false⟩]⟩,
   ⟨0xe0004, 4, 4096, 16, 0, 1, false, fun n _ => [⟨R.PHYL_FOM_VALID n, .ro, false⟩, ⟨R.PHYL_FOM_FOM n, .ro, false⟩, ⟨R.PHYL_FOM_EYE_UPPER n, .ro, false⟩, ⟨R.PHYL_FOM_EYE_MIDDLE n, .ro, false⟩, ⟨R.PHYL_FOM_EYE_LOWER n, .ro, false⟩]⟩,
   ⟨0xe0008, 4, 4096, 16, 0, 1, false, fun n _ => [⟨R.PHYL_FOM_DEF_DEFICIT n, .rc, false⟩]⟩,
   ⟨0xe0010, 4, 4096, 16, 4, 3, false, fun n m => [⟨R.PHYL_DFE_TAP3 n m, .ro, false⟩, ⟨R.PHYL_DFE_TAP2 n m, .ro, false⟩, ⟨R.PHYL_DFE_TAP1 n m, .ro, false⟩, ⟨R.PHYL_DFE_TAP0 n m, .ro, false⟩]⟩,
   ⟨0xe001c, 4, 4096, 16, 0, 1, false, fun n _ => [⟨R.PHYL_DFE_FLT_F1_VAL n, .ro, false⟩, ⟨R.PHYL_DFE_FLT_F1_POS n, .ro, false⟩, ⟨R.PHYL_DFE_FLT_F0_VAL n, .ro, false⟩, ⟨R.PHYL_DFE_FLT_F0_POS n, .ro, false⟩]⟩,
   ⟨0xe0020, 4, 4096, 16, 0, 1, false, fun n _ => [⟨R.PHYL_FEC_CNT_COUNT n, .rc, false⟩]⟩,
   ⟨0xe0024, 4, 4096, 16, 0, 1, false, fun n _ => [⟨R.PHYL_PRBS_ERR_COUNT n, .rc, false⟩]⟩,
   ⟨0xe0030, 4, 4096, 16, 0, 1, false, fun n _ => [⟨R.PHYL_SCAN_CTL_START n, .wo, false⟩, ⟨R.PHYL_SCAN_CTL_BUSY n, .ro, false⟩, ⟨R.PHYL_SCAN_CTL_DONE n, .ro, false⟩, ⟨R.PHYL_SCAN_CTL_PAUSED n, .ro, false⟩, ⟨R.PHYL_SCAN_CTL_ABORTED n, .ro, false⟩, ⟨R.PHYL_SCAN_CTL_REFUSED n, .w1c, false⟩, ⟨R.PHYL_SCAN_CTL_DWELL n, .rw, false⟩]⟩,
   ⟨0xe0034, 4, 4096, 16, 0, 1, false, fun n _ => [⟨R.PHYL_SCAN_IDX_IDX n, .rw, false⟩]⟩,
   ⟨0xe0038, 4, 4096, 16, 0, 1, false, fun n _ => [⟨R.PHYL_SCAN_DATA_DATA n, .ro, false⟩]⟩,
   ⟨0x100040, 4, 0, 1, 0, 1, false, fun _ _ => [⟨R.CMB_JOB_SAT_CNT_PAUSES, .rc, false⟩]⟩]

/-- Rows 150 to 179 of the register map, by offset. -/
def regRows5 : List RegRow :=
  [⟨0x100044, 4, 0, 1, 0, 1, false, fun _ _ => [⟨R.CMB_JOBS_INFLIGHT_OCS_JOBS, .ro, false⟩, ⟨R.CMB_JOBS_INFLIGHT_SLOTS, .ro, false⟩]⟩,
   ⟨0x100600, 8, 0, 1, 0, 1, false, fun _ _ => [⟨R.CMB_DMC_HIT_CNT_HITS, .ro, false⟩]⟩,
   ⟨0x100608, 8, 0, 1, 0, 1, false, fun _ _ => [⟨R.CMB_DMC_MISS_CNT_MISSES, .ro, false⟩]⟩,
   ⟨0x100610, 4, 0, 1, 0, 1, false, fun _ _ => [⟨R.CMB_DMC_STAT_PINNED, .ro, false⟩, ⟨R.CMB_DMC_STAT_VALID, .ro, false⟩]⟩,
   ⟨0x100614, 4, 0, 1, 0, 1, false, fun _ _ => [⟨R.CMB_DMC_WAIT_CNT_WAITS, .rc, false⟩]⟩,
   ⟨0x100618, 4, 0, 1, 0, 1, false, fun _ _ => [⟨R.CMB_INV_FAIL_CNT_FAILS, .rc, false⟩]⟩,
   ⟨0x10061c, 4, 0, 1, 0, 1, false, fun _ _ => [⟨R.CMB_DMC_FLUSH_FLUSH_BUSY, .ro, false⟩, ⟨R.CMB_DMC_FLUSH_FLUSH, .wo, false⟩]⟩,
   ⟨0x110000, 4, 0, 1, 0, 1, false, fun _ _ => [⟨R.JRG_FETCH_CFG_BURST, .rw, false⟩]⟩,
   ⟨0x110008, 8, 0, 1, 0, 1, false, fun _ _ => [⟨R.JRG_OWNER_SQ_OWNER, .ro, true⟩]⟩,
   ⟨0x110010, 8, 0, 1, 0, 1, false, fun _ _ => [⟨R.JRG_OWNER_CQ_OWNER, .ro, true⟩]⟩,
   ⟨0x110018, 4, 0, 1, 0, 1, false, fun _ _ => [⟨R.JRG_FOREIGN_DROP_CNT_B_DROPS, .rc, false⟩, ⟨R.JRG_FOREIGN_DROP_CNT_A_DROPS, .rc, false⟩]⟩,
   ⟨0x11001c, 4, 0, 1, 0, 1, false, fun _ _ => [⟨R.JRG_CQ_FULL_CNT_WAITS, .rc, false⟩]⟩,
   ⟨0x110020, 4, 0, 1, 0, 1, false, fun _ _ => [⟨R.JRG_ABORT_SQ, .wo, false⟩, ⟨R.JRG_ABORT_CID, .wo, false⟩]⟩,
   ⟨0x111000, 8, 64, 64, 0, 1, false, fun n _ => [⟨R.JRG_SQ_BASE_BASE n, .rw, true⟩]⟩,
   ⟨0x111008, 4, 64, 64, 0, 1, false, fun n _ => [⟨R.JRG_SQ_CFG_ENABLE n, .rw, true⟩, ⟨R.JRG_SQ_CFG_ERR n, .w1c, false⟩, ⟨R.JRG_SQ_CFG_CQ n, .rw, true⟩, ⟨R.JRG_SQ_CFG_SIZE n, .rw, true⟩]⟩,
   ⟨0x11100c, 4, 64, 64, 0, 1, false, fun n _ => [⟨R.JRG_SQ_STATUS_DRAINED n, .ro, false⟩, ⟨R.JRG_SQ_STATUS_FETCH_ERR n, .ro, false⟩, ⟨R.JRG_SQ_STATUS_IN_FLIGHT n, .ro, false⟩, ⟨R.JRG_SQ_STATUS_HEAD n, .ro, true⟩]⟩,
   ⟨0x112000, 8, 64, 64, 0, 1, false, fun n _ => [⟨R.JRG_CQ_BASE_BASE n, .rw, true⟩]⟩,
   ⟨0x112008, 4, 64, 64, 0, 1, false, fun n _ => [⟨R.JRG_CQ_CFG_ENABLE n, .rw, true⟩, ⟨R.JRG_CQ_CFG_ERR n, .w1c, false⟩, ⟨R.JRG_CQ_CFG_VECTOR n, .rw, true⟩, ⟨R.JRG_CQ_CFG_IEN n, .rw, true⟩, ⟨R.JRG_CQ_CFG_SIZE n, .rw, true⟩]⟩,
   ⟨0x11200c, 4, 64, 64, 0, 1, false, fun n _ => [⟨R.JRG_CQ_STATUS_FULL n, .ro, false⟩, ⟨R.JRG_CQ_STATUS_WRITE_ERR n, .ro, false⟩, ⟨R.JRG_CQ_STATUS_PHASE n, .ro, true⟩, ⟨R.JRG_CQ_STATUS_TAIL n, .ro, true⟩]⟩,
   ⟨0x112010, 4, 64, 64, 0, 1, false, fun n _ => [⟨R.JRG_CQ_IRQ_COAL_US n, .rw, true⟩, ⟨R.JRG_CQ_IRQ_COAL_CNT n, .rw, true⟩]⟩,
   ⟨0x120000, 4, 0, 1, 0, 1, false, fun _ _ => [⟨R.STX_CFG_LOW_WATER, .rw, true⟩]⟩,
   ⟨0x120004, 4, 0, 1, 0, 1, false, fun _ _ => [⟨R.STX_FREE_CNT_FREE, .ro, true⟩]⟩,
   ⟨0x120008, 4, 0, 1, 0, 1, false, fun _ _ => [⟨R.STX_CACHE_STAT_DIRTY, .ro, false⟩, ⟨R.STX_CACHE_STAT_PINNED, .ro, false⟩]⟩,
   ⟨0x120010, 8, 0, 1, 0, 1, false, fun _ _ => [⟨R.STX_HIT_CNT_COUNT, .ro, false⟩]⟩,
   ⟨0x120018, 8, 0, 1, 0, 1, false, fun _ _ => [⟨R.STX_MISS_CNT_COUNT, .ro, false⟩]⟩,
   ⟨0x120020, 4, 0, 1, 0, 1, false, fun _ _ => [⟨R.STX_WAIT_CNT_WAITS, .rc, false⟩]⟩,
   ⟨0x120024, 4, 0, 1, 0, 1, false, fun _ _ => [⟨R.STX_ADOPT_ACTIVE, .ro, true⟩, ⟨R.STX_ADOPT_FROM, .ro, true⟩, ⟨R.STX_ADOPT_DONE, .ro, false⟩]⟩,
   ⟨0x120028, 4, 0, 1, 0, 1, false, fun _ _ => [⟨R.STX_LOST_CNT_LOST, .rc, false⟩]⟩,
   ⟨0x120080, 4, 0, 1, 0, 1, true, fun n _ => [⟨R.STX_WIN_CTL_BUSY n, .ro, false⟩, ⟨R.STX_WIN_CTL_ERR n, .w1c, false⟩, ⟨R.STX_WIN_CTL_CMD n, .wo, false⟩, ⟨R.STX_WIN_CTL_INDEX n, .rw, false⟩]⟩,
   ⟨0x120100, 4, 0, 1, 4, 16, true, fun n m => [⟨R.STX_WIN_DATA_DATA n m, .rw, false⟩]⟩]

/-- Rows 180 to 209 of the register map, by offset. -/
def regRows6 : List RegRow :=
  [⟨0x130000, 4, 0, 1, 0, 1, false, fun _ _ => [⟨R.SEA_CFG_REQUIRE_IDE, .rw, true⟩]⟩,
   ⟨0x130004, 4, 0, 1, 0, 1, false, fun _ _ => [⟨R.SEA_STATUS_FLUSH_BUSY, .ro, false⟩, ⟨R.SEA_STATUS_UNV_NODES, .ro, true⟩, ⟨R.SEA_STATUS_KEYS_LIVE, .ro, true⟩]⟩,
   ⟨0x130008, 8, 0, 1, 0, 1, false, fun _ _ => [⟨R.SEA_DIRTY_MAP_DIRTY, .ro, true⟩]⟩,
   ⟨0x130010, 4, 0, 1, 0, 1, false, fun _ _ => [⟨R.SEA_TAG_FAIL_CNT_FAILS, .rc, true⟩]⟩,
   ⟨0x130018, 8, 0, 1, 0, 1, false, fun _ _ => [⟨R.SEA_ALARM_CAUSE, .ro, true⟩, ⟨R.SEA_ALARM_LINE, .ro, true⟩]⟩,
   ⟨0x130020, 8, 0, 1, 0, 1, false, fun _ _ => [⟨R.SEA_REENC_CNT_COUNT, .ro, true⟩]⟩,
   ⟨0x130028, 4, 0, 1, 0, 1, false, fun _ _ => [⟨R.SEA_DENY_CNT_B_DENIED, .rc, false⟩, ⟨R.SEA_DENY_CNT_A_DENIED, .rc, false⟩]⟩,
   ⟨0x130100, 4, 4, 64, 0, 1, false, fun n _ => [⟨R.SEA_GRAN_STATE n, .ro, true⟩, ⟨R.SEA_GRAN_KEY_SLOT n, .ro, true⟩, ⟨R.SEA_GRAN_EPOCH n, .ro, true⟩]⟩,
   ⟨0x131000, 4, 4, 1024, 0, 1, false, fun n _ => [⟨R.SEA_KEY_STAT_LIVE n, .ro, true⟩, ⟨R.SEA_KEY_STAT_OWNER n, .ro, true⟩, ⟨R.SEA_KEY_STAT_CXL_MASK n, .ro, true⟩, ⟨R.SEA_KEY_STAT_GEN n, .ro, true⟩, ⟨R.SEA_KEY_STAT_EPOCH n, .ro, true⟩]⟩,
   ⟨0x140000, 4, 0, 1, 0, 1, false, fun _ _ => [⟨R.FRG_CFG_LINES_PER_BEAT, .rw, true⟩]⟩,
   ⟨0x140004, 4, 0, 1, 0, 1, false, fun _ _ => [⟨R.FRG_STATUS_BUSY, .ro, false⟩, ⟨R.FRG_STATUS_SOURCE, .ro, false⟩, ⟨R.FRG_STATUS_QUEUED, .ro, false⟩]⟩,
   ⟨0x140008, 8, 0, 1, 0, 1, false, fun _ _ => [⟨R.FRG_POS_ADDR, .ro, false⟩]⟩,
   ⟨0x150000, 4, 0, 1, 0, 1, false, fun _ _ => [⟨R.ECC_MODE_HEAVY, .rw, true⟩]⟩,
   ⟨0x150010, 4, 0, 1, 0, 1, false, fun _ _ => [⟨R.ECC_RET_CFG_CE_THRESH, .rw, true⟩, ⟨R.ECC_RET_CFG_UE_THRESH, .rw, true⟩, ⟨R.ECC_RET_CFG_WINDOW, .rw, true⟩, ⟨R.ECC_RET_CFG_MIG_CLASS, .rw, true⟩]⟩,
   ⟨0x150020, 4, 0, 1, 0, 1, false, fun _ _ => [⟨R.ECC_PARTIAL_DROP_CNT_DROPS, .rc, false⟩]⟩,
   ⟨0x150030, 4, 0, 1, 0, 1, false, fun _ _ => [⟨R.ECC_HEALTH_STATE, .ro, true⟩, ⟨R.ECC_HEALTH_REASON, .ro, true⟩, ⟨R.ECC_HEALTH_GRAN_REMOVED, .ro, true⟩, ⟨R.ECC_HEALTH_LOSSES, .ro, true⟩, ⟨R.ECC_HEALTH_LANES_RETIRED, .ro, true⟩]⟩,
   ⟨0x150040, 4, 0, 1, 0, 1, false, fun _ _ => [⟨R.ECC_MIRE_STAT_DROPS, .rc, true⟩, ⟨R.ECC_MIRE_STAT_STAGED, .ro, true⟩]⟩,
   ⟨0x150044, 4, 0, 1, 0, 1, false, fun _ _ => [⟨R.ECC_MIRE_SEQ_NEXT, .ro, true⟩]⟩,
   ⟨0x150050, 4, 0, 1, 0, 1, false, fun _ _ => [⟨R.ECC_MIG_ACTIVE, .ro, true⟩, ⟨R.ECC_MIG_KIND, .ro, true⟩, ⟨R.ECC_MIG_UNIT, .ro, true⟩]⟩,
   ⟨0x150054, 4, 0, 1, 0, 1, false, fun _ _ => [⟨R.ECC_MIG_FRONT_FRONT, .ro, true⟩]⟩,
   ⟨0x150100, 4, 4, 12, 0, 1, false, fun n _ => [⟨R.ECC_CE_SCORE_COUNT n, .ro, false⟩]⟩,
   ⟨0x150140, 4, 4, 12, 0, 1, false, fun n _ => [⟨R.ECC_UE_CNT_COUNT n, .ro, false⟩]⟩,
   ⟨0x150200, 8, 8, 12, 0, 1, false, fun n _ => [⟨R.ECC_CE_CNT_LINES n, .ro, true⟩]⟩,
   ⟨0x160000, 4, 0, 1, 0, 1, false, fun _ _ => [⟨R.MAP_LIN_CFG_RECORD, .ro, true⟩, ⟨R.MAP_LIN_CFG_TIER_SHIFT, .ro, true⟩]⟩,
   ⟨0x160010, 4, 0, 1, 0, 1, false, fun _ _ => [⟨R.MAP_LANE_XOR0_MASK, .ro, true⟩]⟩,
   ⟨0x160014, 4, 0, 1, 0, 1, false, fun _ _ => [⟨R.MAP_LANE_XOR1_MASK, .ro, true⟩]⟩,
   ⟨0x160018, 4, 0, 1, 0, 1, false, fun _ _ => [⟨R.MAP_CH_XOR0_MASK, .ro, true⟩]⟩,
   ⟨0x16001c, 4, 0, 1, 0, 1, false, fun _ _ => [⟨R.MAP_CH_XOR1_MASK, .ro, true⟩]⟩,
   ⟨0x160020, 4, 0, 1, 0, 1, false, fun _ _ => [⟨R.MAP_BG_XOR0_MASK, .ro, true⟩]⟩,
   ⟨0x160024, 4, 0, 1, 0, 1, false, fun _ _ => [⟨R.MAP_BG_XOR1_MASK, .ro, true⟩]⟩]

/-- Rows 210 to 239 of the register map, by offset. -/
def regRows7 : List RegRow :=
  [⟨0x160028, 4, 0, 1, 0, 1, false, fun _ _ => [⟨R.MAP_BANK_XOR0_MASK, .ro, true⟩]⟩,
   ⟨0x16002c, 4, 0, 1, 0, 1, false, fun _ _ => [⟨R.MAP_BANK_XOR1_MASK, .ro, true⟩]⟩,
   ⟨0x160030, 4, 0, 1, 0, 1, false, fun _ _ => [⟨R.MAP_TIER_XOR_MASK, .ro, true⟩]⟩,
   ⟨0x160040, 4, 0, 1, 0, 1, false, fun _ _ => [⟨R.MAP_LAYOUT_RES_BOUND, .ro, true⟩, ⟨R.MAP_LAYOUT_RES_DIE, .ro, true⟩, ⟨R.MAP_LAYOUT_SEAL_BUDGET, .ro, true⟩, ⟨R.MAP_LAYOUT_RES_ROW_BASE, .ro, false⟩]⟩,
   ⟨0x160050, 4, 0, 1, 0, 1, false, fun _ _ => [⟨R.MAP_TAG_BASE_GRAN, .ro, true⟩]⟩,
   ⟨0x160054, 4, 0, 1, 0, 1, false, fun _ _ => [⟨R.MAP_CTR_BASE_GRAN, .ro, true⟩]⟩,
   ⟨0x160058, 4, 0, 1, 0, 1, false, fun _ _ => [⟨R.MAP_TREE_BASE_GRAN, .ro, true⟩]⟩,
   ⟨0x16005c, 4, 0, 1, 0, 1, false, fun _ _ => [⟨R.MAP_STX_BASE_GRAN, .ro, true⟩]⟩,
   ⟨0x160060, 4, 0, 1, 0, 1, false, fun _ _ => [⟨R.MAP_KPR_BASE_GRAN, .ro, true⟩]⟩,
   ⟨0x160064, 4, 0, 1, 0, 1, false, fun _ _ => [⟨R.MAP_SLACK_BASE_GRAN, .ro, true⟩]⟩,
   ⟨0x160068, 4, 0, 1, 0, 1, false, fun _ _ => [⟨R.MAP_MAPPED_END_GRAN, .ro, true⟩]⟩,
   ⟨0x160080, 4, 0, 1, 0, 1, false, fun _ _ => [⟨R.MAP_COMMIT_PENDING, .ro, false⟩, ⟨R.MAP_COMMIT_REJECT, .w1c, false⟩, ⟨R.MAP_COMMIT_COMMIT, .wo, false⟩]⟩,
   ⟨0x160100, 4, 8, 16, 0, 1, false, fun n _ => [⟨R.MAP_COMB_LO_EN n, .ro, true⟩, ⟨R.MAP_COMB_LO_BASE_BAND n, .ro, true⟩]⟩,
   ⟨0x160104, 4, 8, 16, 0, 1, false, fun n _ => [⟨R.MAP_COMB_HI_BANDS n, .ro, true⟩]⟩,
   ⟨0x160180, 4, 8, 16, 0, 1, false, fun n _ => [⟨R.MAP_COMB_SH_LO_EN n, .rw, true⟩, ⟨R.MAP_COMB_SH_LO_BASE_BAND n, .rw, true⟩]⟩,
   ⟨0x160184, 4, 8, 16, 0, 1, false, fun n _ => [⟨R.MAP_COMB_SH_HI_BANDS n, .rw, true⟩]⟩,
   ⟨0x160200, 4, 4, 64, 0, 1, false, fun n _ => [⟨R.MAP_GRAN_PRESENT n, .ro, true⟩, ⟨R.MAP_GRAN_LOST n, .ro, true⟩, ⟨R.MAP_GRAN_SEALED n, .ro, true⟩, ⟨R.MAP_GRAN_SEAL_SLOT n, .ro, true⟩, ⟨R.MAP_GRAN_SIZE_MIB n, .ro, true⟩, ⟨R.MAP_GRAN_ASSIGNED n, .ro, true⟩, ⟨R.MAP_GRAN_PART n, .ro, true⟩]⟩,
   ⟨0x160300, 4, 0, 1, 0, 1, false, fun _ _ => [⟨R.MAP_PART_OWNER_LO_OWNER, .ro, true⟩]⟩,
   ⟨0x160304, 4, 0, 1, 0, 1, false, fun _ _ => [⟨R.MAP_PART_OWNER_HI_OWNER, .ro, true⟩]⟩,
   ⟨0x200000, 4, 16384, 48, 0, 1, false, fun n _ => [⟨R.DMC_QSTAT_OVERDUE n, .ro, false⟩, ⟨R.DMC_QSTAT_PROMOTED n, .ro, false⟩, ⟨R.DMC_QSTAT_OCCUPANCY n, .ro, false⟩]⟩,
   ⟨0x200004, 4, 16384, 48, 0, 1, false, fun n _ => [⟨R.DMC_REF_STAT_DOUBLE n, .ro, true⟩, ⟨R.DMC_REF_STAT_IN_SR n, .ro, false⟩, ⟨R.DMC_REF_STAT_POINTER n, .ro, true⟩]⟩,
   ⟨0x200010, 8, 16384, 48, 0, 1, false, fun n _ => [⟨R.DMC_ACT_CNT_COUNT n, .ro, true⟩]⟩,
   ⟨0x200018, 8, 16384, 48, 0, 1, false, fun n _ => [⟨R.DMC_NREF_CNT_COUNT n, .ro, true⟩]⟩,
   ⟨0x200020, 4, 16384, 48, 0, 1, false, fun n _ => [⟨R.DMC_PROMOTE_CNT_COUNT n, .rc, false⟩]⟩,
   ⟨0x200024, 4, 16384, 48, 0, 1, false, fun n _ => [⟨R.DMC_LATE_CNT_COUNT n, .rc, false⟩]⟩,
   ⟨0x300000, 4, 0, 1, 0, 1, false, fun _ _ => [⟨R.ROWL_STATUS_LANE3, .ro, true⟩, ⟨R.ROWL_STATUS_LANE2, .ro, true⟩, ⟨R.ROWL_STATUS_LANE1, .ro, true⟩, ⟨R.ROWL_STATUS_LANE0, .ro, true⟩]⟩,
   ⟨0x300100, 8, 8, 4, 0, 1, false, fun n _ => [⟨R.ROWL_XFER_CNT_ROWS n, .ro, true⟩]⟩,
   ⟨0x300200, 4, 32, 4, 4, 8, false, fun n m => [⟨R.ROWL_GRP_STATUS_INSVC_REP n m, .ro, true⟩, ⟨R.ROWL_GRP_STATUS_SOFT_REP n m, .ro, true⟩, ⟨R.ROWL_GRP_STATUS_FUSE_REP n m, .ro, false⟩, ⟨R.ROWL_GRP_STATUS_SPARES_LEFT n m, .ro, true⟩]⟩,
   ⟨0x300300, 4, 4, 4, 0, 1, false, fun n _ => [⟨R.ROWL_ARB_STAT_DIR n, .ro, false⟩, ⟨R.ROWL_ARB_STAT_RUN n, .ro, false⟩, ⟨R.ROWL_ARB_STAT_PENDING n, .ro, false⟩]⟩,
   ⟨0x310010, 4, 0, 1, 0, 1, false, fun _ _ => [⟨R.TSV_REPAIR_CFG_WINDOW_BEATS, .rw, false⟩, ⟨R.TSV_REPAIR_CFG_COUNT, .rw, false⟩]⟩]

/-- Rows 240 to 252 of the register map, by offset. -/
def regRows8 : List RegRow :=
  [⟨0x310100, 4, 4, 48, 0, 1, false, fun n _ => [⟨R.TSV_CH_REPAIR_SRC1 n, .ro, true⟩, ⟨R.TSV_CH_REPAIR_SRC0 n, .ro, true⟩, ⟨R.TSV_CH_REPAIR_SPARES_LEFT n, .ro, true⟩, ⟨R.TSV_CH_REPAIR_SKIP1 n, .ro, true⟩, ⟨R.TSV_CH_REPAIR_SKIP0 n, .ro, true⟩]⟩,
   ⟨0x320010, 4, 0, 1, 0, 1, false, fun _ _ => [⟨R.STK_COMMIT_REJECT, .w1c, false⟩, ⟨R.STK_COMMIT_COMMIT, .wo, false⟩]⟩,
   ⟨0x320100, 4, 0, 1, 0, 1, false, fun _ _ => [⟨R.STK_ACT_CFG_FUSED_MAX, .ro, false⟩, ⟨R.STK_ACT_CFG_ROW_SHARE, .ro, false⟩, ⟨R.STK_ACT_CFG_ACT_MAX, .ro, false⟩, ⟨R.STK_ACT_CFG_EFFECTIVE_MAX, .ro, false⟩]⟩,
   ⟨0x320104, 4, 0, 1, 0, 1, false, fun _ _ => [⟨R.STK_ACT_CFG_SH_ROW_SHARE, .rw, false⟩, ⟨R.STK_ACT_CFG_SH_ACT_MAX, .rw, false⟩]⟩,
   ⟨0x320140, 4, 4, 12, 0, 1, false, fun n _ => [⟨R.STK_ACT_STALL_STALLS n, .rc, false⟩]⟩,
   ⟨0x320200, 4, 0, 1, 0, 1, false, fun _ _ => [⟨R.STK_NREF_CFG_RADIUS, .rw, false⟩, ⟨R.STK_NREF_CFG_P, .rw, false⟩]⟩,
   ⟨0x320204, 4, 0, 1, 0, 1, false, fun _ _ => [⟨R.STK_REF_RATE_MODEL, .ro, true⟩, ⟨R.STK_REF_RATE_DOUBLE, .ro, true⟩]⟩,
   ⟨0x320210, 4, 0, 1, 0, 1, false, fun _ _ => [⟨R.STK_PASR_MASK_EFFECTIVE, .ro, false⟩, ⟨R.STK_PASR_MASK_FORCED, .ro, false⟩, ⟨R.STK_PASR_MASK_KEEP, .rw, true⟩]⟩,
   ⟨0x320214, 4, 0, 1, 0, 1, false, fun _ _ => [⟨R.STK_SR_STAT_DROPPED, .ro, true⟩, ⟨R.STK_SR_STAT_IN_SR, .ro, false⟩]⟩,
   ⟨0x400000, 4, 0, 1, 0, 1, false, fun _ _ => [⟨R.SBP_STATUS_RELEASES, .rc, false⟩, ⟨R.SBP_STATUS_ADDRESS, .ro, false⟩]⟩,
   ⟨0x400100, 4, 4, 8, 0, 1, false, fun n _ => [⟨R.SBP_SCRATCH_DATA n, .rw, false⟩]⟩,
   ⟨0x410000, 4, 0, 1, 0, 1, false, fun _ _ => [⟨R.SPI_STATUS_BUSY, .ro, false⟩, ⟨R.SPI_STATUS_WP_HIGH, .ro, false⟩, ⟨R.SPI_STATUS_MODE, .ro, false⟩, ⟨R.SPI_STATUS_CAP_LOG2, .ro, false⟩, ⟨R.SPI_STATUS_JEDEC_ID, .ro, false⟩]⟩,
   ⟨0x410004, 4, 0, 1, 0, 1, false, fun _ _ => [⟨R.SPI_RECORDS_USABLE, .ro, false⟩]⟩]

/-- The whole register map of BAR0, in the order of its offsets. -/
def regRows : List RegRow :=
  regRows0 ++ regRows1 ++ regRows2 ++ regRows3 ++ regRows4 ++ regRows5 ++ regRows6 ++ regRows7 ++ regRows8

end Sys2Proof.Machine
end

