-- ==== Sys2Proof/Machine/State.lean ====
section
/-! DEFINITION. The state of the device as plain data: every register field, buffer, queue, timer and mode the spec
names, and the queue of commands that wait; the reasons a command can have no next state; and the state after
reset. -/

namespace Sys2Proof.Machine

/-- The part, fixed by manufacture (R1, R2). -/
inductive Part where
  | rc4812
  | rc3208
  deriving DecidableEq, Repr

/-- Why a line is mired, or a line's other states: never written (a read of it is a host error, R15), good, or
mired with the cause code of R178. -/
inductive LineStatus where
  | neverWritten
  | good
  | mired (cause : Nat)
  deriving DecidableEq, Repr

/-- One CXL event record (R264, R379): the log it went to is the list that holds it. `code` is the vendor code of
R265, R309 and the other chapters (0x1000 + source for a fault), `kind` the record type of R379. -/
structure EventRec where
  handle : Nat
  kind : Nat
  code : Nat
  headNo : Nat
  time : Nat
  info : Nat
  flags : Nat
  deriving DecidableEq, Repr

/-- One of the four event logs of a head (R264): records oldest first, overflow count and overflow times. -/
structure EventLog where
  recs : List EventRec := []
  nextHandle : Nat := 1
  overflow : Nat := 0
  firstOverflow : Nat := 0
  lastOverflow : Nat := 0
  policy : Nat := 0
  deriving DecidableEq, Repr

/-- What a mailbox command in progress waits for. -/
inductive Wait where
  | boundary
  | hold
  | flash
  | fence
  | slot
  | job
  | commit
  | fuse
  | abort
  | reset
  | zeroise
  deriving DecidableEq, Repr

/-- A mailbox command in progress (R293): its opcode, input payload, what it waits for and a number whose meaning
the command gives (a job handle, entries applied, the clock of its doorbell). -/
structure PendCmd where
  op : Nat
  payload : Bytes
  wait : Wait
  aux : Nat
  deriving DecidableEq, Repr

/-- A background command (R294). -/
structure BgCmd where
  op : Nat
  payload : Bytes
  percent : Nat
  aux : Nat
  deriving DecidableEq, Repr

/-- The completion of a mailbox command: opcode, Return Code number, OCS code (R291) and output payload. -/
structure Completion where
  op : Nat
  rc : Nat
  ocs : Nat
  out : Bytes
  deriving DecidableEq, Repr

/-- The Primary Mailbox of one head (R290 to R295). `waitBlocks` are the block windows that its command in progress needs claims of, while
it waits for one (R20, R293). -/
structure Mailbox where
  pend : Option PendCmd := none
  waitBlocks : List Nat := []
  bg : Option BgCmd := none
  bgTracked : Bool := true
  bgLast : Option Completion := none
  last : Option Completion := none
  doorbellIrq : Bool := false
  bgIrq : Bool := false
  deriving DecidableEq, Repr

/-- One committed or uncommitted HDM decoder of a head (R62). -/
structure HdmDecoder where
  base : Nat := 0
  dpa : Nat := 0
  ways : Nat := 1
  gran : Nat := 256
  size : Nat := 0
  skip : Nat := 0
  committed : Bool := false
  errNotCommitted : Bool := false
  locked : Bool := false
  lockOnCommit : Bool := false
  deriving DecidableEq, Repr

/-- A transaction that waits for its head's link or for its Bus Master Enable (R246): a completion write or an
MSI-X message. -/
inductive LinkTx where
  | cqe (addr : Nat) (data : Bytes)
  | msix (vector : Nat)
  deriving DecidableEq, Repr

/-- A stream of IDE on CXL.io (R219): 0 off, 1 secure, 2 insecure; a selective one with its two address-association blocks, each an
address and its end. -/
structure IoStream where
  state : Nat := 0
  blocks : List (Nat × Nat) := []
  deriving DecidableEq, Repr

/-- An event kept for a head until its link trains (R188, R318, R341): its log, code, information and flags. -/
structure OwedEvent where
  log : Nat
  code : Nat
  info : Nat
  flags : Nat := 0
  deriving DecidableEq, Repr

/-- What the device keeps for one head beside its registers (chapter 11, and the standard structures of R242): `bar0` and `bar2` are
the addresses of its windows, `msixTable` the written entries of the MSI-X table (vector, address, data), `aerCor` and `aerUnc` the
statuses of Advanced Error Reporting, `aerFirst` the first-error pointer and `aerHeader` the header log; `ioStreams` holds the link
stream of IDE and then the four selective ones; `unlockAt` is the clock at which its PTM lock was lost (R258), `flit` the mode of its
link (R273), `credits` the CXL.mem credits that its host held when it last came to have as many requests outstanding as stop their return
(R317). -/
structure HeadSt where
  partner : Bool := false
  admitted : Bool := false
  perst : Bool := false
  bme : Bool := false
  d3hot : Bool := false
  ptmEn : Bool := false
  ptmMiss : Nat := 0
  ptmOut : Bool := false
  ideUp : Bool := false
  ideInsecure : Bool := false
  cxlIdeSkid : Bool := false
  ioStreams : List IoStream := [{}, {}, {}, {}, {}]
  bar0 : Nat := 0
  bar2 : Nat := 0
  extendedTag : Bool := false
  tenBitTag : Bool := false
  aerCor : Nat := 0
  aerUnc : Nat := 0
  aerFirst : Option Nat := none
  aerHeader : Nat := 0
  msixTable : List (Nat × Nat × Nat) := []
  spdm : Bool := false
  poisonAt : Option (Nat × Nat × Nat) := none
  msixEn : Bool := false
  msixMask : List Nat := List.range 64
  funcMask : Bool := false
  msixPend : List Nat := []
  uncFatal : Bool := true
  mps : Nat := 128
  mrrs : Nat := 512
  relaxed : Bool := false
  downAt : Nat := 0
  fenceAt : Nat := 0
  fenceOwed : Bool := false
  detectHold : Bool := false
  unlockAt : Nat := 0
  linkRate : Nat := 0
  flit : Bool := false
  l0p : Bool := false
  ptmDue : Bool := false
  onTrain : List OwedEvent := []
  waiting : List LinkTx := []
  logs : List EventLog := [{}, {}, {}, {}]
  mbox : Mailbox := {}
  hdm : List HdmDecoder := [{}, {}, {}, {}]
  credits : Nat := 2048
  deriving DecidableEq, Repr

/-- A record of the fault log (R381). -/
structure FltRec where
  seq : Nat
  source : Nat
  sev : Nat
  escalated : Bool
  react : Nat
  info : Nat
  time : Nat
  deriving DecidableEq, Repr

/-- The fault collector beside its registers (chapter 17): `held` tells that the ERR_N pulse ended with HOLD 1, so the pin waits for
RELEASE (R377). -/
structure FltSt where
  log : List FltRec := []
  mirror : List FltRec := []
  routed : List (Nat × Nat) := []
  errnBy : List Nat := []
  pulseEnd : Option Nat := none
  released : Bool := false
  held : Bool := false
  tripHold : Bool := false
  devResets : List Nat := []
  deriving DecidableEq, Repr

/-- The Keeper (R287 to R289, R305, R306) beside the registers. `phase`: 0 reset before the ROM has run, 1 ROM running, 2 an
image is loaded and not yet READY, 3 READY, 4 held in reset. `bootNext` is the slot that the ROM boots at a Keeper restart and
the state it boots in; `loadAt` the clock of the load under way, `firstAt` that of the first load of the attempt, `readyAt` that
of the last READY; `restarted` and `rolled`: KEEPER_RESTARTED and FW_ROLLED_BACK are due at READY; `xferHead` the head whose
firmware transfer is in progress, with its slot, its data so far and the clock of its last part; `idKey` the private half of the device
identity key that the ROM derived at this start (R307). -/
structure KprSt where
  phase : Nat := 0
  slotA : ImgSlot := {}
  slotB : ImgSlot := {}
  flashSel : Bool := false
  bootNext : Option (Nat × Nat) := none
  loadAt : Nat := 0
  firstAt : Option Nat := none
  readyAt : Nat := 0
  restarted : Bool := false
  rolled : Bool := false
  restartTimes : List Nat := []
  nmiHeld : Bool := false
  idKey : Option Nat := none
  xferHead : Option Head := none
  xferSlot : Nat := 0
  xferData : Bytes := []
  xferAt : Nat := 0
  deriving DecidableEq, Repr

/-- The spaces of a descriptor (R96) as a number 0 stack, 1 link; a fragment is where its byte 0 lies. -/
structure Frag where
  addr : Nat
  space : Nat
  deriving DecidableEq, Repr

/-- Where a job stands (R85, R118): its fragment list outstanding, its context line outstanding, judged and waiting
to start, running, ended with its completion unwritten, or held for a fenced head (R249). -/
inductive JobPhase where
  | listWait
  | ready
  | ctxWait
  | running
  | ended
  deriving DecidableEq, Repr

/-- A line of a job that came from, or goes to, the link. -/
structure LinkLine where
  addr : Nat
  poison : Bool
  data : Bytes
  deriving DecidableEq, Repr

/-- Why a DMA read was issued. -/
inductive DmaUse where
  | data
  | list
  | digest
  deriving DecidableEq, Repr

/-- A DMA read a job still has to issue: what it is for, input fragment, offset in its fragment, buffer or list, bus
address and length. -/
structure ReadReq where
  use : DmaUse
  frag : Nat
  offset : Nat
  addr : Nat
  len : Nat
  deriving DecidableEq, Repr

/-- Output lines bound for the link that wait to fill a write (R110, R401): the output range by its ERR_FRAG and rank,
the bus address and offset of the first byte, and the bytes. -/
structure OutBuf where
  frag : Nat
  rank : Nat
  addr : Nat
  offset : Nat
  data : Bytes
  deriving DecidableEq, Repr

/-- One job slot (R85): the descriptor and everything the device keeps for it until its completion is written. `code`,
`flen` and `emask` are the code, F and the merged erasure mask it runs with; `crcs` running CRC registers by fragment;
`toRead` DMA reads not yet issued, and `readSeq` their place in the order of arrival (R226); `packBuf` packed output lines bound for the stack; `outBuf` output lines
that wait to fill a write; `computed`: every output of the job has been produced; `adopted`: it was adopted before its
fragment list arrived (R253); `held`: its completion is held for that fenced head (R249). -/
structure Job where
  slot : Nat
  owner : Head
  ocs : Bool := false
  handle : Option Nat := none
  sq : Nat := 0
  sqHead : Nat := 0
  seq : Nat := 0
  desc : Bytes := []
  phase : JobPhase := .ready
  deadline : Option Nat := none
  frags : List Frag := []
  mode : Nat := 0
  pos : Nat := 0
  ingested : List LinkLine := []
  stop : Option Nat := none
  status : Nat := 0
  result0 : Nat := 0
  result1 : Nat := 0
  errOffset : Nat := 0
  errFrag : Nat := 0xFFFF
  cause : Nat := 0
  poisonLines : Nat := 0
  ctxUpdated : Bool := false
  waitCounted : Bool := false
  aborter : Option Head := none
  code : Nat := 0
  flen : Nat := 0
  emask : Nat := 0
  crcs : List (Nat × Nat) := []
  acked : Nat := 0
  toRead : List ReadReq := []
  packBuf : List LinkLine := []
  outBuf : List OutBuf := []
  computed : Bool := false
  adopted : Bool := false
  wrote : Nat := 0
  late : Bool := false
  readSeq : Nat := 0
  held : Option Head := none
  deriving DecidableEq, Repr

/-- A read or write of the device outstanding on a head's link (R110, R401). -/
structure DmaReq where
  tag : Nat
  head : Head
  slot : Nat
  addr : Nat
  len : Nat
  write : Bool
  use : DmaUse
  frag : Nat
  offset : Nat
  deriving DecidableEq, Repr

/-- One submission or completion ring beside its registers (R88 to R94). -/
structure RingSt where
  sqTail : Nat := 0
  cqHead : Nat := 0
  unsignalled : Nat := 0
  firstUnsig : Nat := 0
  deriving DecidableEq, Repr

/-- Job submission (chapter 5). `fetches` are descriptor reads outstanding: ring and entry, oldest first; `passWin` the window of 64 core
cycles in which the array last issued a pass, and the passes in it (R325). -/
structure JobSt where
  jobs : List Job := []
  fetches : List (Nat × Nat) := []
  rings : List (Nat × RingSt) := []
  turn : Nat := 0
  seq : Nat := 0
  paused : Bool := false
  dma : List DmaReq := []
  tag : Nat := 0
  handleA : Nat := 0
  handleB : Nat := 0
  doneA : List (Nat × Bytes) := []
  doneB : List (Nat × Bytes) := []
  slotWaiters : List Head := []
  stopped : Bool := false
  stopAt : Nat := 0
  passWin : Nat × Nat := (0, 0)
  readSeq : Nat := 0
  deriving DecidableEq, Repr

/-- A thing the device sends out, newest first in `Ctl.outbox` (the model's own record, not a register). -/
inductive Out where
  | regValue (h : Head) (offset width value : Nat)
  | memRead (h : Head) (dpa : Nat) (poison : Bool) (data : Bytes)
  | memWriteDone (h : Head) (dpa : Nat)
  | dmaRead (h : Head) (tag addr len : Nat)
  | dmaWrite (h : Head) (tag addr : Nat) (poison noSnoop relaxed : Bool) (data : Bytes)
  | cqWrite (h : Head) (addr : Nat) (data : Bytes)
  | msix (h : Head) (vector : Nat)
  | mailbox (h : Head) (c : Completion)
  | background (h : Head) (c : Completion)
  | doe (h : Head) (object : Nat) (data : Bytes := [])
  | aer (h : Head) (uncorrectable fatal : Bool)
  | errN (asserted : Bool)
  | link (h : Head) (what : Nat)
  | margin (h : Head) (lane : Nat) (answer : MarginParams)
  | ptmRequest (h : Head)
  | sideband (addr : Nat) (data : Bytes)
  | clockSource (ref : Nat)
  | nmi
  deriving DecidableEq, Repr

/-- A main entry of the stripe table (R128): the fields of its layout; `state` is 1 OPEN, 2 SEALED, 3 DEGRADED or
4 RETIRED; bit i of `unavail` is UNAVAIL bit 20 + i; `chk` holds CHK[0] to CHK[43]. -/
structure CtxMain where
  state : Nat
  owner : Head
  chkValid : Bool
  kind : Nat
  firstCh : Nat
  unavail : Nat
  spec : Nat
  fragLen : Nat
  base : Nat
  chk : List Nat
  deriving DecidableEq, Repr

/-- An entry of the stripe table (R127): free, main, extension (R130) or LOST. -/
inductive CtxEntry where
  | free
  | main (m : CtxMain)
  | ext (owner : Head) (next : Nat) (words : List Nat)
  | lost
  deriving DecidableEq, Repr

/-- The stripe table, its cache, the dirty-section map and the adoption rewrite (chapter 6). An entry that is not
listed is free. `cache` holds the cached entry numbers, most recently used first; `dirty` those not yet written
back, oldest first; `pins` the entries each slot pins; `reserved` the extension entries a TRANSCODE holds; `winHold` the window
writes held: head, clock, entry and data. -/
structure StxSt where
  entries : List (Nat × CtxEntry) := []
  cache : List Nat := []
  dirty : List Nat := []
  sections : List Nat := []
  pins : List (Nat × Nat) := []
  reserved : List (Nat × Nat) := []
  waiters : List Nat := []
  heldCtx : List (Nat × Head) := []
  winHold : List (Head × Nat × Nat × Bytes) := []
  deriving DecidableEq, Repr

/-- The entries of a queue that a request can hold: one of those open to all, of those for e = 0, or of those for seal metadata (R154). -/
inductive Entry where
  | general
  | urgent
  | metadata
  deriving DecidableEq, Repr

/-- A request for one line at a channel controller (R154, R155): kind, class, arrival and effective deadline in
platform time, direction, the bank, row and line it names, and its place in the order in which requests and transfers have reached the
controllers and arbiters (R31). -/
structure Req where
  kind : ReqKind
  cls : Nat
  arrival : Nat
  deadline : Nat
  write : Bool
  bank : Nat
  row : Nat
  line : Nat
  promoted : Bool := false
  stalled : Bool := false
  seq : Nat := 0
  sa : Nat := 0
  entry : Entry := .general
  deriving DecidableEq, Repr

/-- One bank of a channel: the open row, and the instants in ps that bound its next command (R28). `nref` is the
neighbour refresh pending on it, in rows to cover (R165), `band` the rank group and effective class of the request that the open row
last served (R158). -/
structure BankSt where
  openRow : Option Nat := none
  actAt : Option Nat := none
  preAt : Option Nat := none
  wrEnd : Option Nat := none
  busyUntil : Nat := 0
  nref : Nat := 0
  hits : Nat := 0
  band : Nat := 0
  deriving DecidableEq, Repr

/-- A data transfer that its command has started and that ends at its bank at an instant in ps (R237), with its bytes. -/
structure Flight where
  ends : Nat
  req : Req
  bytes : Nat
  deriving DecidableEq, Repr

/-- One channel controller (chapter 7): queue, requests waiting at their ports, data transfers under way, banks, recent activates and
column commands in ps, the refresh window that is open, and the starts in ns of those the beat has still to open. -/
structure ChanSt where
  queue : List Req := []
  waiting : List Req := []
  banks : List (Nat × BankSt) := []
  acts : List (Nat × Nat) := []
  cols : List (Nat × Nat) := []
  flight : List Flight := []
  window : Option Nat := none
  nextBank : Nat := 0
  starts : List Nat := []
  closed : Bool := false
  deriving DecidableEq, Repr

/-- A transfer at a row lane (R160), with its job and the job's row step, none for the Keeper's, and its place in the order of R31. -/
structure Xfer where
  chan : Nat
  bank : Nat
  row : Nat
  write : Bool
  cls : Nat
  port : Nat
  arrival : Nat
  deadline : Nat
  stalled : Bool := false
  job : Option (Nat × Nat) := none
  seq : Nat := 0
  deriving DecidableEq, Repr

/-- One row lane (R30, R160): pending transfers and those that wait, the direction, the rows moved in the run, whether the run's
direction has been taken, the rows on their way to a comb cell with the instant in ps of their landing, and of every 64 lane cycles those
gone by and the job transfers carried in them (R325). -/
structure LaneSt where
  pending : List Xfer := []
  waiting : List Xfer := []
  write : Bool := false
  run : Nat := 0
  chosen : Bool := false
  landing : List (Nat × Xfer) := []
  cycles : Nat := 0
  jobRows : Nat := 0
  deriving DecidableEq, Repr

/-- An in-service TSV repair (R39, R40). `unit` is a channel, or 48 + 8 * lane + group; `step` 0 waiting for its
window, 1 in its window. -/
structure RepairSt where
  unit : Nat
  pos : Nat
  step : Nat
  due : Nat
  deriving DecidableEq, Repr

/-- What a CXL.mem request asks. -/
inductive MemKind where
  | read
  | write (poison : Bool) (data : Bytes)
  | partialWrite (data : List (Nat × BitVec 8))
  deriving DecidableEq, Repr

/-- A CXL.mem request that the mapper has admitted: its head, its DPA, and its class (R225). -/
structure MemReq where
  head : Head
  dpa : Nat
  cls : Nat
  kind : MemKind
  old : Option (Bool × Bytes) := none
  deriving DecidableEq, Repr

/-- The stack side: channels, lanes, activates of each die in the last 64 ns (ps, lane?), the beats of the corrected
lines that implicated each TSV position (R38), repairs in service, positions marked failing, the soft repairs of the lane groups and every position of a lane group that is steered
round, those whose steering a window had switched when a warm reset came (R42), comb cells held by job slot (4,096 the Keeper), open
feeds, the count behind the order of R31, the channels whose canary row the next refresh of its place leaves out (R163),
the CXL.mem requests that wait while their class is blocked (R230), and the head, line and class of those that have passed the mapper and
are not yet at a controller (R225). -/
structure StkSt where
  chans : List (Nat × ChanSt) := []
  lanes : List (Nat × LaneSt) := []
  dieActs : List (Nat × List (Nat × Bool)) := []
  tsvHits : List ((Nat × Nat) × List Nat) := []
  repairs : List RepairSt := []
  failing : List (Nat × Nat) := []
  lanePos : List (Nat × Nat) := []
  laneBad : List (Nat × Nat) := []
  switched : List (Nat × Nat) := []
  cells : List (Nat × Nat) := []
  order : Nat := 0
  feedsOpen : List Nat := []
  selfRef : Nat := 0
  srcPark : Nat := 0
  ingest : List (Nat × Nat) := []
  wasFull : Bool := false
  memWait : List MemReq := []
  canarySkip : List Nat := []
  passed : List (Head × Nat × Nat) := []
  deriving DecidableEq, Repr

/-- A mire record (R177): sequence number, WHERE, CAUSE, SOURCE and platform time. -/
structure MireRec where
  seq : Nat
  where_ : Nat
  cause : Nat
  source : Nat
  time : Nat
  deriving DecidableEq, Repr

/-- An entry of the retirement record in flash (R186, R395): kind 0 die, 1 channel; `second` 0 a first loss, 1 a
loss placed under R189, 2 a loss not absorbed; and the mask of granules it removed. -/
structure RetEntry where
  kind : Nat
  unit : Nat
  second : Nat
  mask : Nat
  deriving DecidableEq, Repr

/-- A retirement that waits for the next beat boundary (R183): reason, kind (0 die, 1 channel, 2 lane), unit, and
whether the unit failed abruptly. -/
structure RetCause where
  reason : Nat
  kind : Nat
  unit : Nat
  abrupt : Bool
  deriving DecidableEq, Repr

/-- A move of a unit's rows (R183, R189): the KIND it shows in ECC_MIG (0 die, 1 channel, 2 second loss, 3 abrupt fill), whether the
unit is a channel, the unit, whether it is a second or further loss, and the channels of the die, by bit, whose rows an earlier retirement
has carried already (R59). -/
structure Move where
  mode : Nat
  isChan : Bool
  unit : Nat
  second : Bool
  carried : Nat
  deriving DecidableEq, Repr

/-- A second or further loss placed in removed granules (R189), with the channels out of service and the registers of the views when it was
placed, so that its placement table stays as it was made. -/
structure Placed where
  entry : RetEntry
  retLo : Nat
  retHi : Nat
  view : List (Nat × Nat)
  deriving DecidableEq, Repr

/-- The remap of R59 and the placement of R189 as they stand at a moment: the bound die, the retired channels, the moves under way
with their fronts, and the losses placed. -/
structure Remap where
  bound : Option Nat
  retLo : Nat
  retHi : Nat
  moves : List (Move × Nat)
  placed : List Placed
  deriving DecidableEq, Repr

/-- An abrupt loss of a die (R185): the die, and the remap as it stood at that moment, so that a row is judged by
where it stood. -/
structure LossRec where
  die : Nat
  map : Remap
  deriving DecidableEq, Repr

/-- A partial write that waits for its merge (R174): the line, the bytes by offset, the class of the write (R225), and its head. -/
structure Merge where
  sa : Nat
  data : List (Nat × BitVec 8)
  cls : Nat
  head : Head
  deriving DecidableEq, Repr

/-- Line ECC, the mire log, thresholds and retirement (chapter 8) beside the registers. `moveChan`, `moveSecond` and `moveCarried` say of the move
that ECC_MIG shows whether its unit is a channel, whether it is a second loss's, and which channels it leaves out; `moves` wait for its end, oldest first. `losses` are the abrupt
losses of dies, `voids` the stack ranges whose view a commit changed (R57), `dropped` the
ones a park has dropped with the number of losses before (R167), `filled` the granules
that a fill of R195 has written whole, each with the number of losses before it, `unplaced` the units (kind, unit) whose rows no granule could take (R190), `placed` the second
losses placed in removed granules (R189), `merges` the partial writes that wait for their merge (R174). -/
structure EccSt where
  staging : List MireRec := []
  log : List MireRec := []
  causes : List RetCause := []
  moveChan : Bool := false
  moveSecond : Bool := false
  moveCarried : Nat := 0
  moves : List Move := []
  placed : List Placed := []
  entries : List RetEntry := []
  unplaced : List (Nat × Nat) := []
  losses : List LossRec := []
  voids : List (Nat × Nat) := []
  dropped : List (Nat × Nat × Nat) := []
  filled : List (Nat × Nat) := []
  merges : List Merge := []
  ceThresh : Nat := 0x100
  ueThresh : Nat := 0x40
  window : Nat := 0x10
  crossed : List Nat := []
  deriving DecidableEq, Repr

/-- A pass of the Forager (R179 to R181): a SCRUB job's slot, or a metadata pass of a head with its bus address. -/
structure Pass where
  slot : Option Nat
  head : Head
  bus : Nat
  pos : Nat
  stop : Nat
  issued : List Nat := []
  linesRead : Nat := 0
  corrected : Nat := 0
  mired : Nat := 0
  tagFails : Nat := 0
  newMired : Nat := 0
  maxSym : Nat := 0
  flags : Nat := 0
  firstAt : Option Nat := none
  lastAt : Nat := 0
  dieCorr : List Nat := [0, 0, 0, 0, 0, 0, 0, 0, 0, 0, 0, 0]
  dieMired : List Nat := [0, 0, 0, 0, 0, 0, 0, 0, 0, 0, 0, 0]
  deriving DecidableEq, Repr

/-- The Forager: the passes, the running one first (R179). -/
structure FrgSt where
  passes : List Pass := []
  deriving DecidableEq, Repr

/-- A node of the freshness tree or a counter block on the list of R215: level (0 a counter block), granule, index
within the granule, and whether it got there by a failed MAC (R214). -/
structure UnvNode where
  level : Nat
  gran : Nat
  index : Nat
  tamper : Bool
  deriving DecidableEq, Repr

/-- A seal or reseal in progress (R195). `step` 0 waits for the boundary at which the granule enters SEALING, 1 fills,
2 waits for the boundary at which it becomes SEALED. `bg` is the head whose background command it is, `gen` the
generation of its key. -/
structure SealJob where
  gran : Nat
  slot : Nat
  step : Nat
  bg : Option Head
  gen : Nat
  deriving DecidableEq, Repr

/-- Sealed memory beside its registers (chapter 9). `keys` lists slot, draw number of K_enc, draw number of K_mac;
`ctrs` lists, per 4 KiB page of a sealed granule by stack address over 4,096, the major counter and the 64 minors; a
page not listed has all counters 0; `dirty` lists dirty cached metadata lines (level, granule, index), oldest
first; `covers` the counters that the MACs of a node cover, by level, granule and index, a node not listed as the fill of R195 wrote
it; `cached` the lines in the metadata cache, most recently used first; `tags` the stored tags that differ from the one computed when
their line was written; `erasing` the slots whose KEY_ERASE is accepted; `erased` those whose granules turn ERASED at the next
boundary; `unseals` granules that turn PLAIN, and `toUnv` those that turn UNVERIFIABLE, at the next boundary; `reenc` the
pages whose re-encryption is under way; `dropUnv` granules whose data a park has dropped and whose key is gone, which turn UNVERIFIABLE
at the next boundary (R167, R194); `gens` the generation of the key that each granule is bound to; `under` the data that a line of a sealed granule had as it became mired, which
its stored tag is still the tag of (R400). -/
structure SealSt where
  keys : List (Nat × Nat × Nat) := []
  draws : Nat := 0
  kTree : Nat := 0
  covers : List ((Nat × Nat × Nat) × List (Nat × Nat × List Nat)) := []
  cached : List (Nat × Nat × Nat) := []
  tags : List (Nat × Bytes) := []
  ctrs : List (Nat × Nat × List Nat) := []
  unv : List UnvNode := []
  dirty : List (Nat × Nat × Nat) := []
  sealing : List SealJob := []
  erasing : List (Nat × Head) := []
  erased : List Nat := []
  unseals : List Nat := []
  toUnv : List Nat := []
  reenc : List Nat := []
  dropUnv : List Nat := []
  holdGran : List (Nat × Head) := []
  gens : List (Nat × Nat) := []
  under : List (Nat × Bytes) := []
  deriving DecidableEq, Repr

/-- Class bookkeeping (R230 to R237): bytes served per class in the beat under way, and the total cut at the last judgement. -/
structure QosSt where
  beatBytes : List (Nat × Nat) := []
  cut : Nat := 0
  deriving DecidableEq, Repr

/-- One entry of the decode-matrix cache (R78): its key, its matrix rows once computed, the slots that pin it, and
whether its inversion has failed once, and whether
a flush has doomed it (R82). -/
structure DmcEntry where
  set : Nat
  key : List Nat
  rows : Option (List (List Nat))
  used : Nat
  failed : Bool
  doomed : Bool
  deriving DecidableEq, Repr

/-- The decode-matrix cache and the inverter (R78 to R82). `wants` lists slot and key of each job that pins or waits;
`wayWait` the slots that wait for a way; `queue` keys that wait for the inverter, the one being inverted first. -/
structure DecSt where
  entries : List DmcEntry := []
  wants : List (Nat × List Nat) := []
  wayWait : List Nat := []
  queue : List (List Nat) := []
  tick : Nat := 0
  deriving DecidableEq, Repr

/-- Start, reset and quiesce (chapter 15) beside the registers. `awaiting` is the start event that must come next:
0 rails, 1 oscillator, 2 PLL lock, 3 fuse sensing, 4 image, 5 Keeper READY, 6 TSV training, 7 bring-up, 8 none (the
start is complete), 9 a retry wait, 10 stopped. `warmReq` is the ORIGIN of a warm reset that will begin at `warmAt`, `heldReq`
one that a start holds back (R338); `quiesce` 0 none, 1 under way, 2 forced; `torn` the torn-line log after a forced quiesce:
first stack address and number of lines of each entry (R340); `tripped`: the fault of a hard trip is still due; `railsOut` the rails out of
tolerance; `coolDie` the CAUSE of the thermal shutdown that a power-on start resumes from; `fails` the consecutive failed attempts; `startedAt` and `vauxAt` the clock at the start's beginning and at the
rise of VAUX. -/
structure RstSt where
  awaiting : Nat := 1
  warm : Bool := false
  warmReq : Option Nat := none
  warmAt : Nat := 0
  heldReq : Option Nat := none
  quiesce : Nat := 0
  quiesceAt : Nat := 0
  torn : List (Nat × Nat) := []
  startedAt : Nat := 0
  tripped : Bool := false
  railsOut : List Nat := []
  vaux : Bool := true
  vauxAt : Nat := 0
  oscStable : Bool := false
  retryDue : Nat := 0
  fails : Nat := 0
  coolDie : Nat := 0xF
  deriving DecidableEq, Repr

/-- Clocks and gates (chapter 15): good and bad windows in a row of each REFCLK, whether the monitor runs, and the gates
that wait for their bus to go idle (R335). -/
structure ClkSt where
  goodA : Nat := 0
  badA : Nat := 0
  goodB : Nat := 0
  badB : Nat := 0
  monitor : Bool := false
  closing : List Nat := []
  deriving DecidableEq, Repr

/-- Fuses (chapter 16). `words` lists the OTP words in which a bit is blown, by address: a part in the state DEPLOYED, with
every region locked and passing its check, FUSED_MAX 24, the digest of a firmware key whose point is the curve's base point, and nothing
else stated in it (notes/assumptions/30.md); `shadow` the
always-on copies, and `marginal` the words whose two readings differed at the last sensing. -/
structure FusSt where
  words : List (Nat × Nat) := [(0x000, 0xFFFF), (0x010, 0xB14D9DA1), (0x011, 0xEB82B571), (0x012, 0xCFB05280), (0x013, 0x78E155E5),
    (0x014, 0xD122AA94), (0x015, 0x0977A9C8), (0x016, 0xD87D6950), (0x017, 0xFAD296F7), (0x018, 0x6AA5F04B),
    (0x019, 0xB70600D8), (0x01A, 0x19E108EA), (0x01B, 0x654B811F), (0x03F, 0x836ED2F3), (0x04F, 0x5A0B0531), (0x051, 24), (0x05F, 0x71CE2FCC),
    (0x1FF, 0xE63277AA), (0x7EF, 0xF915AC75), (0x7F0, 0x1F)]
  shadow : List (Nat × Nat) := []
  marginal : List Nat := []
  deriving DecidableEq, Repr

/-- Calibration and the test engine (chapter 16). `queue` holds the dies that wait for a measurement, `current` the one
being measured, `windows` its calibration windows so far and `pair` whether the quiet-beat pair under way is one more (R363); `sel` the
selections in force by die that a record or a measurement has given, `legs` the PHY legs of the base record (R396), `todo` the
corrections measured and not yet in force by die (R364), `written` when a die's flash record was last written; `sramFuse` and
`sramSoft` the faults of base-die SRAM macros repaired from the fuses and soft (R366, R369); `test` the BIST target that runs and
whose command it is. -/
structure CalSt where
  queue : List Nat := []
  current : Option Nat := none
  windows : Nat := 0
  pair : Bool := false
  sel : List (Nat × List CalItem) := []
  legs : List CalItem := []
  todo : List (Nat × List CalItem) := []
  written : List (Nat × Nat) := []
  sramFuse : List (Nat × Nat) := []
  sramSoft : List (Nat × Nat) := []
  testMode : Bool := false
  test : Option (Nat × Option Head) := none
  deriving DecidableEq, Repr

/-- Thermal management and power (chapter 14) beside the registers: the model's estimates in C and its loaded parameters
(die and item of R396), runs of missing conversions, of low, of calm and of cool samples, distrusted sensors, samples left of a
canary floor, sums of rail currents in mA and of input power in 1/16 W since the last sample, timers (clock instants), the
step of an orderly shutdown (0 begun, 1 jobs aborted, 2 parked, 3 powered down), and AVG_POWER in W. -/
structure ThmSt where
  t : List (Nat × Rat) := []
  params : List ((Nat × Nat) × Int) := []
  missed : List (Nat × Nat) := []
  low : List (Nat × Nat) := []
  calm : List (Nat × Nat) := []
  cool : List (Nat × Nat) := []
  distrusted : List Nat := []
  floor : List (Nat × Nat) := []
  rails : List (Nat × (Nat × Nat × Nat)) := []
  inputs : Nat := 0
  updates : Nat := 0
  sampleDue : Bool := false
  graceDue : Option Nat := none
  escalDue : Option Nat := none
  releaseDue : Option Nat := none
  resumeSince : Option Nat := none
  shutAt : Option Nat := none
  shutStep : Nat := 0
  avg : Rat := 0
  spares : List (Nat × Nat) := []
  deriving DecidableEq, Repr

/-- The serial lanes (chapter 12) beside the registers: eye scans running (lane, points left), scan memory, FOM
sweeps waiting to write, margining in progress, lanes whose sweep may start, and how many updates in a row each tap of a
lane has stood at a limit, and lanes whose adaptation in a retraining has still to land (R276). -/
structure PhySt where
  scans : List (Nat × Nat) := []
  scanMem : List ((Nat × Nat) × Nat) := []
  fomPend : List (Nat × Nat) := []
  sweeping : List Nat := []
  margin : List Nat := []
  fomDue : List Nat := []
  satRuns : List ((Nat × Nat) × Nat) := []
  retrained : List Nat := []
  deriving DecidableEq, Repr

/-- A record the Keeper keeps in flash (R394): the place it stands at (1 to 7 as the kinds, 8 the base calibration record, 16 + d that of
die d), the fields of its header, and its body. -/
structure FlashRec where
  kind : Nat
  body : Bytes
  hdrKind : Nat
  version : Nat
  length : Nat
  uid : Nat
  part : Nat
  check : Nat
  deriving DecidableEq, Repr

/-- A flash record write in progress or waiting (R302): the head whose command it is, if any; with `from_`, the body is the old one with
`body` put in from that offset on (R398). -/
structure FlashWrite where
  kind : Nat
  body : Bytes
  by_ : Option Head
  erase : Bool := false
  from_ : Option Nat := none
  deriving DecidableEq, Repr

/-- Sideband and flash (chapter 18): the pointer; the bytes of the fuse window that differ from 0, by offset; the hard-trip
record SB_TRIP; the words the mirrors had when their source went into reset, by offset; the copy of the FRU body, and whether
it is still due (R397); flash records; writes waiting, the one in progress first; and whether the map record was written since
this start. -/
structure SbpSt where
  pointer : Nat := 0
  win : List (Nat × Nat) := []
  trip : Nat := 0
  mirror : List (Nat × Nat) := []
  fru : Bytes := []
  fruDue : Bool := true
  recs : List FlashRec := []
  writes : List FlashWrite := []
  mapSince : Bool := false
  deriving DecidableEq, Repr

/-- Everything the device holds but the stack's bytes, the status of its lines and the commands that wait. `regs`
lists the register fields that differ from their reset value, by the bit address of `Fld`; `eff` is the copy of it
that the last beat boundary took, through which a field that takes effect at a beat boundary acts; `snap` the
snapshots of R12, by requester and offset; `clock` the device's local count in ns, which no time step moves; `timeBase` what
the time head's PTM time has more than platform time, `slew` the error still to be slewed out and `slewAcc` the ns counted
towards its next ns (R260); `rate` the ns that platform time gains in 10^9 of the clock, as measured over the last exchanges, and
`rateAcc` its part of a ns so far, in ns of 10^-9, and `lastRead` the head, the clock and the time of the last reading (R257). -/
structure Ctl where
  part : Part := .rc4812
  regs : List (Nat × Nat) := []
  eff : List (Nat × Nat) := []
  snap : List (Nat × Nat) := []
  claims : List (Nat × Head) := []
  clock : Nat := 1000000
  lastBeat : Nat := 0
  lastBeatNo : Nat := 0
  stepped : Bool := false
  holdDue : Option Nat := none
  preferDue : Option Nat := none
  timeBase : Int := 0
  slew : Int := 0
  slewAcc : Nat := 0
  rate : Int := 0
  rateAcc : Int := 0
  lastRead : Option (Nat × Nat × Int) := none
  headsStrap : Bool := true
  stkPend : Bool := false
  snapPend : Bool := false
  free : Nat := 0
  outbox : List Out := []
  hdA : HeadSt := {}
  hdB : HeadSt := {}
  flt : FltSt := {}
  kpr : KprSt := {}
  job : JobSt := {}
  dec : DecSt := {}
  stx : StxSt := {}
  stk : StkSt := {}
  ecc : EccSt := {}
  frg : FrgSt := {}
  sea : SealSt := {}
  qos : QosSt := {}
  rst : RstSt := {}
  clk : ClkSt := {}
  fus : FusSt := {}
  cal : CalSt := {}
  thm : ThmSt := {}
  phy : PhySt := {}
  sbp : SbpSt := {}
  deriving DecidableEq, Repr

/-- The machine: everything of `Ctl`, the bytes of the stack by stack address, the status of its lines by stack
address over 64, and the commands that wait, first in, first out. -/
structure State where
  ctl : Ctl
  mem : List Host.Cell
  lines : List (Nat × LineStatus)
  pending : List Instr
  deriving DecidableEq, Repr

/-- A command never faults in this model: the device has no exception, and every error the spec describes is an
effect on State. -/
inductive Fault where
  /-- Raised by no command; kept so that the interface has a fault to name. Safe. -/
  | none
  deriving DecidableEq, Repr

/-- Why a command has no next state. -/
inductive Refusal where
  /-- Raised by the dispatch for a command whose meaning is not written. Safe. -/
  | notModelled (mnemonic : String)
  deriving DecidableEq, Repr

/-- The device when power-on reset is released with VAUX already up and the oscillator stable count running, before
step 2 of the start sequence (R342): every register field at its reset value, nothing written. -/
def State.reset : State := { ctl := {}, mem := [], lines := [], pending := [] }

end Sys2Proof.Machine
end

