-- ==== Sys2Proof/Machine/Ops.lean ====
section
/-! DEFINITION. The named operations every command shares: sparse maps, register fields, counters, the clock, the
outbox, the stack's bytes and lines, and the address views of chapter 3. -/

namespace Sys2Proof.Machine

/-! ## Sparse maps -/

/-- The value listed for a key, if any. -/
def mapGet {κ ν : Type} [DecidableEq κ] (l : List (κ × ν)) (k : κ) : Option ν :=
  match l with
  | [] => none
  | (k', v) :: t => if k = k' then some v else mapGet t k

/-- The map without a key. -/
def mapDel {κ ν : Type} [DecidableEq κ] (l : List (κ × ν)) (k : κ) : List (κ × ν) :=
  l.filter fun e => decide (e.1 ≠ k)

/-- The map with one key set. -/
def mapPut {κ ν : Type} [DecidableEq κ] (l : List (κ × ν)) (k : κ) (v : ν) : List (κ × ν) :=
  (k, v) :: mapDel l k

/-- Sorted insertion by a Nat key, replacing the entry of an equal key: the canonical form of memory. -/
def sortedPut {ν : Type} (l : List (Nat × ν)) (k : Nat) (v : ν) : List (Nat × ν) :=
  match l with
  | [] => [(k, v)]
  | (k', v') :: t =>
    if k < k' then (k, v) :: (k', v') :: t
    else if k = k' then (k, v) :: t
    else (k', v') :: sortedPut t k v

/-- Keys strictly rising. -/
def sortedKeys {ν : Type} : List (Nat × ν) → Bool
  | [] => true
  | [_] => true
  | (k, _) :: (k', v') :: t => decide (k < k') && sortedKeys ((k', v') :: t)

/-! ## Register fields and counters -/

/-- The value of a register field: the listed one, else its reset value (R8). -/
def Ctl.get (c : Ctl) (f : Fld) : Nat := (mapGet c.regs f.key).getD f.reset

/-- A register field set, truncated to its width. -/
def Ctl.set (c : Ctl) (f : Fld) (v : Nat) : Ctl := { c with regs := mapPut c.regs f.key (v % 2 ^ f.width) }

/-- The value of a field that takes effect at a beat boundary, as the last boundary took it. -/
def Ctl.geff (c : Ctl) (f : Fld) : Nat := (mapGet c.eff f.key).getD f.reset

/-- A counter raised by `n`, saturating at all ones. -/
def Ctl.bump (c : Ctl) (f : Fld) (n : Nat := 1) : Ctl := c.set f (min (c.get f + n) (2 ^ f.width - 1))

/-- A one-bit field as a truth value. -/
def Ctl.flag (c : Ctl) (f : Fld) : Bool := decide (c.get f ≠ 0)

/-- A number for a truth value. -/
def bit (b : Bool) : Nat := if b then 1 else 0

/-- Bit `i` of a number. -/
def tb (n i : Nat) : Bool := n.testBit i

/-- A number with bit `i` set. -/
def setBit (n i : Nat) : Nat := if n.testBit i then n else n + 2 ^ i

/-- A number with bit `i` cleared. -/
def clrBit (n i : Nat) : Nat := if n.testBit i then n - 2 ^ i else n

/-- How many of the bits 0 to `w` - 1 of a number are set. -/
def popCount (w n : Nat) : Nat := ((List.range w).filter fun i => n.testBit i).length

/-! ## Time, free values, output -/

/-- Platform time in ns (TIM_NOW). -/
def Ctl.now (c : Ctl) : Nat := c.get R.TIM_NOW_VALUE

/-- How much of the slew a time of `dt` ns carries out, at 100 ppm (R260). -/
def Ctl.slewStep (c : Ctl) (dt : Nat) : Nat := min c.slew.natAbs ((c.slewAcc + dt) / 10000)

/-- Time passes: the local clock advances by `dt` ns, and platform time by as much at the rate last measured and by the slew under way
(R257, R258, R260). -/
def Ctl.pass (c : Ctl) (dt : Nat) : Ctl :=
  let k := c.slewStep dt
  let up := decide (0 ≤ c.slew)
  let gain := c.rateAcc + dt * c.rate
  ({ c with
    clock := c.clock + dt
    slew := if up then c.slew - k else c.slew + k
    slewAcc := if c.slew.natAbs = k then 0 else c.slewAcc + dt - 10000 * k
    rateAcc := gain % 1000000000 }).set R.TIM_NOW_VALUE
    ((c.now : Int) + dt + (if up then (k : Int) else -k) + gain / 1000000000).toNat

/-- Time passes until the local clock reads at least `t`. -/
def Ctl.passTo (c : Ctl) (t : Nat) : Ctl := c.pass (t - c.clock)

/-- The next free value (notes/assumptions/1.md) and the state that has used it. -/
def Ctl.fresh (c : Ctl) : Nat × Ctl := (Config.freeNat c.free, { c with free := c.free + 1 })

/-- The next measured quantity the spec does not compute, and the state that has used it. -/
def Ctl.measure (c : Ctl) : Nat × Ctl := (Config.measured c.free, { c with free := c.free + 1 })

/-- Something the device sends out. -/
def Ctl.emit (c : Ctl) (o : Out) : Ctl := { c with outbox := o :: c.outbox }

/-! ## Heads -/

/-- A vector of a head is masked, by its own mask or by the Function Mask (R244). -/
def HeadSt.masks (x : HeadSt) (v : Nat) : Bool := x.funcMask || x.msixMask.contains v

/-- What the device keeps for a head. -/
def Ctl.hd (c : Ctl) : Head → HeadSt
  | .a => c.hdA
  | .b => c.hdB

/-- What the device keeps for a head, replaced. -/
def Ctl.setHd (c : Ctl) (h : Head) (x : HeadSt) : Ctl := match h with
  | .a => { c with hdA := x }
  | .b => { c with hdB := x }

/-- What the device keeps for a head, changed. -/
def Ctl.modHd (c : Ctl) (h : Head) (f : HeadSt → HeadSt) : Ctl := c.setHd h (f (c.hd h))

/-- STATE of HDx_STATE (R245): 0 ABSENT, 1 TRAINING, 2 UP, 3 DOWN, 4 FENCING, 5 FENCED, 6 NOT_BUILT. -/
def Ctl.hstate (c : Ctl) (h : Head) : Nat := c.get (R.HD_STATE_STATE h.num)

/-- A head is FENCING or FENCED (R248). -/
def Ctl.fenced (c : Ctl) (h : Head) : Bool := decide (c.hstate h = 4) || decide (c.hstate h = 5)

/-- The two-head division is in force (R239). -/
def Ctl.twoHeads (c : Ctl) : Bool := decide (c.get R.IDC_OTP_ID_DIVISION = 2)

/-- A head that exists and is not fenced (R378, R264): it takes records and messages. -/
def Ctl.live (c : Ctl) (h : Head) : Bool := !c.fenced h && decide (c.hstate h ≠ 6)

/-- The link of a head carries its requests: UP, Bus Master Enable 1, not in D3hot (R246). -/
def Ctl.linkReady (c : Ctl) (h : Head) : Bool :=
  decide (c.hstate h = 2) && (c.hd h).bme && !(c.hd h).d3hot

/-- Expert level is on for a head (R18). -/
def Ctl.expert (c : Ctl) : Head → Bool
  | .a => c.flag R.IDC_CTRL_LEVEL_A_EXPERT
  | .b => c.flag R.IDC_CTRL_LEVEL_B_EXPERT

/-- The built heads. -/
def bothHeads : List Head := [.a, .b]

/-- Do something for each head. -/
def Ctl.forHeads (c : Ctl) (f : Head → Ctl → Ctl) : Ctl := f .b (f .a c)

/-! ## Geometry -/

/-- Dies built. -/
def Ctl.nd (c : Ctl) : Nat := match c.part with
  | .rc4812 => 12
  | .rc3208 => 8

/-- Channels built. -/
def Ctl.nch (c : Ctl) : Nat := 4 * c.nd

/-- First reserve row (R48). -/
def Ctl.resRowBase (c : Ctl) : Nat := match c.part with
  | .rc4812 => 60074
  | .rc3208 => 57344

/-- Largest seal budget (R49). -/
def Ctl.maxBudget (c : Ctl) : Nat := match c.part with
  | .rc4812 => 38
  | .rc3208 => 24

/-- One MiB and one GiB. -/
def MiB : Nat := 1048576
def GiB : Nat := 1073741824

/-- End of the user region (MAP_TAG_BASE), in bytes. -/
def Ctl.userEnd (c : Ctl) : Nat := c.get R.MAP_TAG_BASE_GRAN * 65536

/-- Granule of a stack address in the user region. -/
def granOf (sa : Nat) : Nat := sa / GiB

/-- Granule n is present and not lost (R61). -/
def Ctl.granUsable (c : Ctl) (n : Nat) : Bool :=
  decide (n < 64) && c.flag (R.MAP_GRAN_PRESENT n) && !c.flag (R.MAP_GRAN_LOST n)

/-- Owner of a partition (MAP_PART_OWNER). -/
def Ctl.partOwner (c : Ctl) (p : Nat) : Head :=
  Head.ofNum (if p < 32 then bit (tb (c.get R.MAP_PART_OWNER_LO_OWNER) p)
    else bit (tb (c.get R.MAP_PART_OWNER_HI_OWNER) (p - 32)))

/-- A partition given to a head. -/
def Ctl.setPartOwner (c : Ctl) (p : Nat) (h : Head) : Ctl :=
  let upd := fun (w i : Nat) => match h with
    | .a => clrBit w i
    | .b => setBit w i
  if p < 32 then c.set R.MAP_PART_OWNER_LO_OWNER (upd (c.get R.MAP_PART_OWNER_LO_OWNER) p)
  else c.set R.MAP_PART_OWNER_HI_OWNER (upd (c.get R.MAP_PART_OWNER_HI_OWNER) (p - 32))

/-- The head whose partition holds a granule, if it is assigned. -/
def Ctl.granOwner (c : Ctl) (n : Nat) : Option Head :=
  if c.flag (R.MAP_GRAN_ASSIGNED n) then some (c.partOwner (c.get (R.MAP_GRAN_PART n))) else none

/-- R61: an access of a head to a stack address of the user region proceeds. -/
def Ctl.mayReach (c : Ctl) (h : Head) (sa : Nat) : Bool :=
  decide (sa < c.userEnd) && c.granUsable (granOf sa) && decide (c.granOwner (granOf sa) = some h)

/-- Every line of a stack range may be reached (R61); an empty range may. -/
def Ctl.mayReachRange (c : Ctl) (h : Head) (sa len : Nat) : Bool :=
  decide (len = 0) ||
    (decide (sa + len ≤ c.userEnd) &&
      (List.range (granOf (sa + len - 1) - granOf sa + 1)).all fun i =>
        c.granUsable (granOf sa + i) && decide (c.granOwner (granOf sa + i) = some h))

/-! ## Address views (R52 to R55, R59) -/

/-- Parity of a number of 16 bits. -/
def par (x : Nat) : Nat := popCount 16 x % 2

/-- A place in the stack: channel, bank, row and line. -/
structure Place where
  chan : Nat
  bank : Nat
  row : Nat
  line : Nat
  deriving DecidableEq, Repr

/-- The linear map of R52 and R53. -/
def Ctl.linPlace (c : Ctl) (sa : Nat) : Place :=
  let s := c.get R.MAP_LIN_CFG_TIER_SHIFT
  let g := sa / 65536
  let low := g % 2 ^ s
  let gl := match c.part with
    | .rc4812 => ((g / 2 ^ s) / 3) * 2 ^ s + low
    | .rc3208 => (g / 2 ^ (s + 1)) * 2 ^ s + low
  let row := gl / 4
  let p := fun (f : Fld) => par (c.get f &&& row)
  let tier := match c.part with
    | .rc4812 => (g / 2 ^ s) % 3
    | .rc3208 => ((g / 2 ^ s) % 2) ^^^ p R.MAP_TIER_XOR_MASK
  let lane := ((sa / 16384) % 4) ^^^ (2 * p R.MAP_LANE_XOR1_MASK) ^^^ p R.MAP_LANE_XOR0_MASK
  let cid := ((sa / 1024) % 4) ^^^ (2 * p R.MAP_CH_XOR1_MASK) ^^^ p R.MAP_CH_XOR0_MASK
  let bg := ((sa / 4096) % 4) ^^^ (2 * p R.MAP_BG_XOR1_MASK) ^^^ p R.MAP_BG_XOR0_MASK
  let bk := (gl % 4) ^^^ (2 * p R.MAP_BANK_XOR1_MASK) ^^^ p R.MAP_BANK_XOR0_MASK
  ⟨4 * (4 * tier + lane) + cid, 4 * bg + bk, row, (sa / 64) % 16⟩

/-- Bytes of a band (R55). -/
def Ctl.bandBytes (c : Ctl) : Nat := match c.part with
  | .rc4812 => 3145728
  | .rc3208 => 2097152

/-- Comb region n is enabled (R55). -/
def Ctl.combOn (c : Ctl) (n : Nat) : Bool := c.flag (R.MAP_COMB_LO_EN n) && c.flag (R.MAP_COMB_HI_BANDS n)

/-- First byte and end of comb region n. -/
def Ctl.combRange (c : Ctl) (n : Nat) : Nat × Nat :=
  (c.get (R.MAP_COMB_LO_BASE_BAND n) * c.bandBytes,
   (c.get (R.MAP_COMB_LO_BASE_BAND n) + c.get (R.MAP_COMB_HI_BANDS n)) * c.bandBytes)

/-- The enabled comb region that holds a stack address, if any. -/
def Ctl.combRegion (c : Ctl) (sa : Nat) : Option Nat :=
  (List.range 16).find? fun n =>
    c.combOn n && decide ((c.combRange n).1 ≤ sa) && decide (sa < (c.combRange n).2)

/-- The comb map of R55 within a region that starts at `base` (a multiple of the band size). -/
def Ctl.combPlace (c : Ctl) (base sa : Nat) : Place :=
  let ca := sa - base
  let u := ca / 1024
  let j := u / c.nch
  ⟨u % c.nch, j % 16, 4 * (base / c.bandBytes) + j / 16, (ca / 64) % 16⟩

/-- The view of a stack address, before the remap of R59. -/
def Ctl.viewPlace (c : Ctl) (sa : Nat) : Place := match c.combRegion sa with
  | some n => c.combPlace (c.combRange n).1 sa
  | none => c.linPlace sa

/-- The index i of a row of one die (R59). -/
def rowIndex (p : Place) : Nat := p.row * 64 + (p.chan % 4) * 16 + p.bank

/-- The reserve place of a row of the bound die `dr` (R59). -/
def Ctl.reservePlace (c : Ctl) (dr : Nat) (p : Place) : Place :=
  let i := rowIndex p
  let k := i % (c.nd - 1)
  let td := if dr ≤ k then k + 1 else k
  let j := i / (c.nd - 1)
  ⟨4 * td + j % 4, (j / 4) % 16, c.resRowBase + j / 64, p.line⟩

/-- Channel `ch` is retired (IDC_ROWL_RET_CH_LO and _HI). -/
def Ctl.chanRetired (c : Ctl) (ch : Nat) : Bool :=
  if ch < 32 then tb (c.get R.IDC_ROWL_RET_CH_LO_CH) ch else tb (c.get R.IDC_ROWL_RET_CH_HI_CH) (ch - 32)

/-- Die `d` is retired. -/
def Ctl.dieRetired (c : Ctl) (d : Nat) : Bool := tb (c.get R.IDC_ROWL_RET_DIE_DIES) d

/-- A place lies on a unit: a channel, or a die. -/
def onUnit (isChan : Bool) (unit : Nat) (p : Place) : Bool := if isChan then decide (p.chan = unit) else decide (p.chan / 4 = unit)

/-- Rows below RES_ROW_BASE of a unit. -/
def Ctl.unitRows (c : Ctl) (isChan : Bool) : Nat := if isChan then 16 * c.resRowBase else 64 * c.resRowBase

/-- How many reserve rows of die `td` the reserve of the bound die `dr` takes (R59). -/
def Ctl.reserveCount (c : Ctl) (dr td : Nat) : Nat :=
  let k := if dr < td then td - 1 else td
  if td = dr then 0 else (64 * c.resRowBase + (c.nd - 2) - k) / (c.nd - 1)

/-- Reserve rows of a unit that the bound die's data can lie in (R189; notes/assumptions/104.md). -/
def Ctl.reserveRowsOn (c : Ctl) (bound : Option Nat) (isChan : Bool) (unit : Nat) : Nat := match bound with
  | none => 0
  | some dr => if isChan then (c.reserveCount dr (unit / 4) + 3 - unit % 4) / 4 else c.reserveCount dr unit

/-- The place of a row among the rows of its unit that a move takes, in ascending index i of R59: those below RES_ROW_BASE, then the
reserve rows that the bound die's data can lie in. -/
def Ctl.rowRank (c : Ctl) (bound : Option Nat) (isChan : Bool) (p : Place) : Nat :=
  if p.row < c.resRowBase then (if isChan then p.row * 16 + p.bank else rowIndex p)
  else
    let n := match bound with
      | some dr => c.reserveCount dr (p.chan / 4)
      | none => 0
    let g := p.row - c.resRowBase
    let before := if isChan then (List.range p.bank).filter fun b => decide (64 * g + b * 4 + p.chan % 4 < n)
      else (List.range (p.chan % 4 * 16 + p.bank)).filter fun x => decide (64 * g + x % 16 * 4 + x / 16 < n)
    c.unitRows isChan + (if isChan then 16 * g else 64 * g) + before.length

/-- A row of a unit that a move has not yet reached, of a channel that it takes. -/
def Ctl.unmoved (c : Ctl) (bound : Option Nat) (m : Move × Nat) (p : Place) : Bool :=
  onUnit m.1.isChan m.1.unit p && !m.1.carried.testBit (p.chan % 4) && decide (m.2 ≤ c.rowRank bound m.1.isChan p)

/-- A channel is in a pair of retired masks. -/
def inMasks (lo hi ch : Nat) : Bool := if ch < 32 then lo.testBit ch else hi.testBit (ch - 32)

/-- The remap of R59 as a moment's state held it. -/
def Ctl.reserveRemap (c : Ctl) (m : Remap) (p : Place) : Place := match m.bound with
  | some dr =>
    if inMasks m.retLo m.retHi p.chan && decide (p.chan / 4 = dr) &&
        !(m.moves.any fun v => !v.1.second && c.unmoved m.bound v p) then c.reservePlace dr p else p
  | none => p

/-- The registers of the address views (R48 to R59), and the device as it mapped addresses under some of them. -/
def Ctl.viewRegs (c : Ctl) : List (Nat × Nat) := c.regs.filter fun e => decide (0x160000 * 8 ≤ e.1) && decide (e.1 < 0x170000 * 8)
def Ctl.viewedAs (c : Ctl) (l : List (Nat × Nat)) : Ctl := { c with regs := l, eff := l }

/-- The rows of the removed granules that lie on channels in service when the loss was placed and off the lost unit, in ascending
stack address: the places that R189 gives its rows. -/
def Ctl.spareRows (c : Ctl) (e : Placed) : List Place :=
  (((List.range 64).filter fun g => e.entry.mask.testBit g).flatMap fun g =>
    (List.range (min 1048576 ((c.userEnd - g * GiB) / 1024))).map fun r => (c.viewedAs e.view).viewPlace (g * GiB + r * 1024)).filter
      fun p =>
      !inMasks e.retLo e.retHi p.chan && !onUnit (decide (e.entry.kind = 1)) e.entry.unit p

/-- One placed loss applied to a place: a row of the unit that its move has reached lies in its row of the removed granules. -/
def Ctl.placeOne (c : Ctl) (m : Remap) (p : Place) (e : Placed) : Place :=
  let isChan := decide (e.entry.kind = 1)
  if !onUnit isChan e.entry.unit p then p
  else if m.moves.any fun v => v.1.second && decide (v.1.isChan = isChan) && decide (v.1.unit = e.entry.unit) &&
      c.unmoved m.bound v p then p
  else match (c.spareRows e)[c.rowRank m.bound isChan p]? with
    | some q => { q with line := p.line }
    | none => p

/-- Where the view's place of an address is served: after the remap of R59 and the placement table of R189. -/
def Ctl.placeBy (c : Ctl) (m : Remap) (p : Place) : Place := m.placed.foldl (c.placeOne m) (c.reserveRemap m p)

/-- The move that ECC_MIG shows, with its front. -/
def Ctl.moveNow (c : Ctl) : Option (Move × Nat) :=
  if c.flag R.ECC_MIG_ACTIVE then
    let k := c.get R.ECC_MIG_KIND
    some (⟨k, decide (k = 1) || (decide (k ≠ 0) && c.ecc.moveChan), c.get R.ECC_MIG_UNIT, decide (k = 2) ||
      (decide (k = 3) && c.ecc.moveSecond), c.ecc.moveCarried⟩, c.get R.ECC_MIG_FRONT_FRONT)
  else none

/-- The remap and the placement in force (R59, R184, R189): a move that waits has its front at 0. -/
def Ctl.remapNow (c : Ctl) : Remap :=
  ⟨if c.flag R.MAP_LAYOUT_RES_BOUND then some (c.get R.MAP_LAYOUT_RES_DIE) else none, c.get R.IDC_ROWL_RET_CH_LO_CH,
   c.get R.IDC_ROWL_RET_CH_HI_CH, c.moveNow.toList ++ c.ecc.moves.map fun m => (m, 0), c.ecc.placed⟩

/-- Where a stack address is served. -/
def Ctl.place (c : Ctl) (sa : Nat) : Place := c.placeBy c.remapNow (c.viewPlace sa)

/-- The rows of a channel are still being moved, or wait to be (R162, R184). -/
def Ctl.chanMoving (c : Ctl) (ch : Nat) : Bool :=
  c.remapNow.moves.any fun m => onUnit m.1.isChan m.1.unit ⟨ch, 0, 0, 0⟩

/-- The place that a stack address had before a move of its unit, as that move takes its rows: of the view for a first loss, after
R59 for a second. -/
def Ctl.oldPlace (c : Ctl) (m : Move) (sa : Nat) : Place :=
  if m.second then c.reserveRemap c.remapNow (c.viewPlace sa) else c.viewPlace sa

/-- The die that holds a line. -/
def Ctl.dieOf (c : Ctl) (sa : Nat) : Nat := (c.place sa).chan / 4

/-! ## The stack's bytes and lines -/

/-- What an unlisted stack byte reads as (notes/assumptions/2.md): 0, observable only where the line counts as
written. -/
def memDefault : BitVec 8 := 0

/-- One byte of the stack. -/
def memGet (m : List Host.Cell) (a : Nat) : BitVec 8 := (mapGet m a).getD memDefault

/-- One byte of the stack written; the canonical form lists no byte equal to what an unlisted one reads as. -/
def memPut (m : List Host.Cell) (a : Nat) (v : BitVec 8) : List Host.Cell :=
  if v = memDefault then mapDel m a else sortedPut m a v

/-- The canonical form of memory: addresses strictly rising, no entry equal to the default. -/
def Memory.wf (m : List Host.Cell) : Bool := sortedKeys m && m.all fun e => decide (e.2 ≠ memDefault)

/-- A string of bytes written from an address on. -/
def memWrite (m : List Host.Cell) (a : Nat) : Bytes → List Host.Cell
  | [] => m
  | b :: t => memWrite (memPut m a b) (a + 1) t

/-- `n` bytes read from an address on. -/
def memRead (m : List Host.Cell) (a n : Nat) : Bytes := (List.range n).map fun i => memGet m (a + i)

/-- The bytes of a range [lo, hi) forgotten: they read as the default. -/
def memDrop (m : List Host.Cell) (lo hi : Nat) : List Host.Cell :=
  m.filter fun e => !(decide (lo ≤ e.1) && decide (e.1 < hi))

/-- The seal state of the granule of a user address (R194); 0 PLAIN outside the user region. -/
def Ctl.sealState (c : Ctl) (sa : Nat) : Nat :=
  if sa < c.userEnd then c.get (R.SEA_GRAN_STATE (granOf sa)) else 0

/-- The row of a stack address lies on a unit that no granule could take (R190): reads of it return poison and writes
are discarded. -/
def Ctl.rowUnplaced (c : Ctl) (sa : Nat) : Bool :=
  c.ecc.unplaced.any fun u => onUnit (decide (u.1 = 1)) u.2 (c.place sa)

/-- The metadata line at a stack address: its level (10 a tag line), granule and index; none elsewhere. -/
def Ctl.metaAt (c : Ctl) (sa : Nat) : Option (Nat × Nat × Nat) :=
  let b := fun (f : Fld) => c.get f * 65536
  let holder := fun (v : Nat) => (List.range 64).find? fun g =>
    decide (c.get (R.SEA_GRAN_STATE g) ≠ 0) && decide (c.get (R.MAP_GRAN_SEAL_SLOT g) = v)
  if sa < b R.MAP_TAG_BASE_GRAN then none
  else if sa < b R.MAP_CTR_BASE_GRAN then
    let o := sa - b R.MAP_TAG_BASE_GRAN
    (holder (o / (128 * MiB))).map fun g => (10, g, o % (128 * MiB) / 64)
  else if sa < b R.MAP_TREE_BASE_GRAN then
    let o := sa - b R.MAP_CTR_BASE_GRAN
    (holder (o / (16 * MiB))).map fun g => (0, g, o % (16 * MiB) / 64)
  else if sa < b R.MAP_STX_BASE_GRAN then
    let o := sa - b R.MAP_TREE_BASE_GRAN
    let r := o % (2336 * 1024)
    (holder (o / (2336 * 1024))).map fun g =>
      if r < 2 * MiB then (1, g, r / 64) else if r < 2304 * 1024 then (2, g, (r - 2 * MiB) / 64) else (3, g, (r - 2304 * 1024) / 64)
  else none

/-- The abrupt losses since the granule of a stack address was last filled whole, with its metadata lines (R195), or its segment dropped in a
park (R167). -/
def Ctl.lossesSince (c : Ctl) (sa : Nat) : List LossRec :=
  if sa < c.userEnd then
    let fill := (mapGet c.ecc.filled (granOf sa)).getD 0
    let drop := ((c.ecc.dropped.find? fun v => decide (v.1 ≤ sa) && decide (sa < v.2.1)).map fun v => v.2.2).getD 0
    c.ecc.losses.take (c.ecc.losses.length - max fill drop)
  else match c.metaAt sa with
    | some (_, g, _) => c.ecc.losses.take (c.ecc.losses.length - (mapGet c.ecc.filled g).getD 0)
    | none => c.ecc.losses

/-- The row of a stack address stood on a die when that die failed abruptly (R185, R147). -/
def Ctl.rowLost (c : Ctl) (sa : Nat) : Bool :=
  (c.lossesSince sa).any fun l => decide ((c.placeBy l.map (c.viewPlace sa)).chan / 4 = l.die)

/-- A list of ranges without what lies in [lo, hi). -/
def cutRange (l : List (Nat × Nat)) (lo hi : Nat) : List (Nat × Nat) :=
  l.flatMap fun v => [(v.1, min v.2 lo), (max v.1 hi, v.2)].filter fun w => decide (w.1 < w.2)

/-- The status of a line that no access has changed: lost with its die, without defined data since a commit changed
its view (R57), written by the fill of R195 in a granule that
is not PLAIN, written by the device outside the user region (R178), else never written. -/
def Ctl.defaultStatus (c : Ctl) (ln : Nat) : LineStatus :=
  if c.rowLost (ln * 64) then .mired 0x10
  else if c.ecc.voids.any fun v => decide (v.1 ≤ ln * 64) && decide (ln * 64 < v.2) then .neverWritten
  else if ln * 64 < c.userEnd then
    (if c.sealState (ln * 64) = 0 then .neverWritten else .good)
  else .good

/-- The status of the line of a stack address. -/
def State.status (s : State) (sa : Nat) : LineStatus :=
  if s.ctl.rowUnplaced sa then .mired 0x10
  else (mapGet s.lines (sa / 64)).getD (s.ctl.defaultStatus (sa / 64))

/-- A line's status set. -/
def State.setStatus (s : State) (sa : Nat) (st : LineStatus) : State :=
  { s with lines := mapPut s.lines (sa / 64) st }

/-- A line written whole with good data: the stored bytes, and the line good again (R176); a write to an unplaced row
is discarded (R190). -/
def State.storeLine (s : State) (sa : Nat) (data : Bytes) : State :=
  if s.ctl.rowUnplaced sa then s else { s with mem := memWrite s.mem (sa / 64 * 64) (data.take 64), lines := mapPut s.lines (sa / 64) .good }

/-- A line stored with the mire word (R175): all data bytes zero, and mired with its cause. -/
def State.storeMired (s : State) (sa cause : Nat) : State :=
  if s.ctl.rowUnplaced sa then s else { s with mem := memDrop s.mem (sa / 64 * 64) (sa / 64 * 64 + 64), lines := mapPut s.lines (sa / 64) (.mired cause) }

/-- The 64 bytes of a line as stored. -/
def State.lineBytes (s : State) (sa : Nat) : Bytes := memRead s.mem (sa / 64 * 64) 64

/-- A range of the stack forgotten: its lines hold no defined data (R57, R167, R196). -/
def State.forget (s : State) (lo hi : Nat) : State :=
  { s with
    mem := memDrop s.mem lo hi
    lines := s.lines.filter fun e => !(decide (lo ≤ e.1 * 64) && decide (e.1 * 64 < hi)) }

/-- A change of everything but the stack, its lines and the queue. -/
def State.mapCtl (s : State) (f : Ctl → Ctl) : State := { s with ctl := f s.ctl }

/-- A line of the stack as a reader gets it: poison and 64 bytes. A never-written line reads as a free value. -/
def State.readLine (s : State) (sa : Nat) : Bool × Bytes × State := match s.status sa with
  | .good => (false, s.lineBytes sa, s)
  | .mired _ => (true, List.replicate 64 0, s)
  | .neverWritten =>
    (false, (List.range 64).map fun i => Config.neverWritten s.ctl.free (sa / 64 * 64) i,
     s.mapCtl fun c => { c with free := c.free + 1 })

/-- The instant now in ps. -/
def Ctl.ps (c : Ctl) : Nat := c.clock * 1000

/-! ## The ingest buffer (R159) -/

/-- The lines that the ingest buffer holds: at most 4,096. Those behind them, of reads that were outstanding when it filled, stall on the link
(DEDUCED, notes/assumptions/123.md). -/
def Ctl.inIngest (c : Ctl) : List (Nat × Nat) := c.stk.ingest.take 4096

/-- The ingest buffer is full. -/
def Ctl.ingestFull (c : Ctl) : Bool := decide (4096 ≤ c.stk.ingest.length)

end Sys2Proof.Machine
end

