-- ==== Sys2Proof/Machine/Operands.lean ====
section
/-! DEFINITION. Operand forms: little-endian fields of payloads and descriptors (R7), and the return codes of R291. -/

namespace Sys2Proof.Machine

/-- The number spelled by bytes, least significant first. -/
def leNat : Bytes → Nat
  | [] => 0
  | b :: t => b.toNat + 256 * leNat t

/-- The little-endian field of `n` bytes at byte offset `off`; bytes beyond the end count as 0. -/
def le (p : Bytes) (off n : Nat) : Nat := leNat ((p.drop off).take n)

/-- `n` bytes of a number, least significant first. -/
def toLE : Nat → Nat → Bytes
  | 0, _ => []
  | n + 1, v => BitVec.ofNat 8 v :: toLE n (v / 256)

/-- A string cut or padded with zeros to `n` bytes. -/
def padTo (n : Nat) (p : Bytes) : Bytes := (p ++ List.replicate n 0).take n

/-- n bits of a reflected CRC register. -/
def crcBits (poly : Nat) : Nat → Nat → Nat
  | 0, x => x
  | n + 1, x => crcBits poly n (if x % 2 = 1 then (x / 2) ^^^ poly else x / 2)

/-- A reflected CRC over bytes from a register value. -/
def crcReg (poly : Nat) : Nat → Bytes → Nat
  | x, [] => x
  | x, b :: t => crcReg poly (crcBits poly 8 (x ^^^ b.toNat)) t

/-- The CRC-32 of R394. -/
def crc32 (p : Bytes) : Nat := crcReg 0xEDB88320 0xFFFFFFFF p ^^^ 0xFFFFFFFF

/-- Owner of an SQ, or of a CQ (R87). -/
def Ctl.sqOwner (c : Ctl) (q : Nat) : Head := Head.ofNum (bit (tb (c.get R.JRG_OWNER_SQ_OWNER) q))
def Ctl.cqOwner (c : Ctl) (q : Nat) : Head := Head.ofNum (bit (tb (c.get R.JRG_OWNER_CQ_OWNER) q))

/-- The CXL.io stream of a request to an address (R219): a selective one that is on and associated with it, else the link stream. -/
def HeadSt.streamAt (x : HeadSt) (a : Nat) : IoStream :=
  match (x.ioStreams.drop 1).find? fun y => decide (y.state ≠ 0) && y.blocks.any fun b => decide (b.1 ≤ a) && decide (a < b.2) with
  | some y => y
  | none => x.ioStreams.headD {}

/-- A request of a head to an address is on a stream in the insecure state, and is refused (R219; notes/assumptions/121.md). -/
def Ctl.ioRefused (c : Ctl) (h : Head) (a : Nat) : Bool := decide (((c.hd h).streamAt a).state = 2)

/-- OCS codes of R291. -/
inductive Ocs where
  | ok
  | invalidParameter
  | unsupported
  | busy
  | resourceExhausted
  | invalidHandle
  | fenced
  | keeperDown
  | keeperRestart
  | flashError
  | fwRejected
  deriving DecidableEq, Repr

/-- The number of an OCS code. -/
def Ocs.num : Ocs → Nat
  | .ok => 0
  | .invalidParameter => 1
  | .unsupported => 2
  | .busy => 3
  | .resourceExhausted => 4
  | .invalidHandle => 5
  | .fenced => 6
  | .keeperDown => 7
  | .keeperRestart => 8
  | .flashError => 9
  | .fwRejected => 10

/-- The Return Code of the CXL specification that R291 pairs with an OCS code, by the standard's numbers: 0 Success,
1 Background Command Started, 2 Invalid Input, 3 Unsupported, 4 Internal Error, 6 Busy, 0xA the image was refused
(PRESUMED from the CXL specification; notes/assumptions/9.md). -/
def Ocs.rc : Ocs → Nat
  | .ok => 0
  | .invalidParameter => 2
  | .unsupported => 3
  | .busy => 6
  | .resourceExhausted => 2
  | .invalidHandle => 2
  | .fenced => 3
  | .keeperDown => 6
  | .keeperRestart => 4
  | .flashError => 4
  | .fwRejected => 10

end Sys2Proof.Machine
end

