-- ==== Sys2Proof/Machine/Galois.lean ====
section
/-! DEFINITION. GF(2^8) of R64 and R65: its arithmetic, vectors over it, and elimination, which the fragment codes of chapter 4
and the line code of chapter 8 share. -/

namespace Sys2Proof.Machine

/-! ## The field (R64, R65) -/

/-- Addition and subtraction. -/
def gfAdd (a b : Nat) : Nat := a ^^^ b

/-- Multiplication by x, reduced by 0x11D. -/
def gfDouble (a : Nat) : Nat := if a < 128 then 2 * a else (2 * a) ^^^ 0x11D

/-- n bits of b multiplied into a. -/
def gfMulBits : Nat → Nat → Nat → Nat
  | 0, _, _ => 0
  | n + 1, a, b => (if b % 2 = 1 then a else 0) ^^^ gfMulBits n (gfDouble a) (b / 2)

/-- Multiplication. -/
def gfMul (a b : Nat) : Nat := gfMulBits 8 a b

/-- The n-th power. -/
def gfPow (a : Nat) : Nat → Nat
  | 0 => 1
  | n + 1 => gfMul a (gfPow a n)

/-- The inverse, as the 254th power: a^2 a^4 ... a^128. -/
def gfInv (a : Nat) : Nat :=
  let a2 := gfMul a a
  let a4 := gfMul a2 a2
  let a8 := gfMul a4 a4
  let a16 := gfMul a8 a8
  let a32 := gfMul a16 a16
  let a64 := gfMul a32 a32
  let a128 := gfMul a64 a64
  gfMul a2 (gfMul a4 (gfMul a8 (gfMul a16 (gfMul a32 (gfMul a64 a128)))))

/-! ## Vectors and elimination -/

/-- Vectors over the field. -/
def vAdd (a b : List Nat) : List Nat := List.zipWith gfAdd a b
def vScale (k : Nat) (a : List Nat) : List Nat := a.map (gfMul k)

/-- The zero vector. -/
def vZero (n : Nat) : List Nat := List.replicate n 0

/-- One column of Gauss-Jordan elimination on (rows done, rows left). -/
def gaussColumn (st : List (List Nat) × List (List Nat)) (col : Nat) : List (List Nat) × List (List Nat) :=
  match st.2.find? fun r => decide (r.getD col 0 ≠ 0) with
  | none => st
  | some r =>
    let p := vScale (gfInv (r.getD col 0)) r
    let clear := fun (x : List Nat) => vAdd x (vScale (x.getD col 0) p)
    (st.1.map clear ++ [p], (st.2.erase r).map clear)

end Sys2Proof.Machine
end

