-- ==== Sys2Proof/Machine/Cipher.lean ====
section
/-! DEFINITION. The standard functions that the spec names and does not restate: SHA-256 and HMAC (R83, R207), AES-256 and
GHASH (R202, R203). Bytes of a block or digest are in the order of the standards, byte 0 first. -/

namespace Sys2Proof.Machine

/-! ## Byte strings -/

/-- A number of n bytes, most significant first. -/
def toBE (n v : Nat) : Bytes := (toLE n v).reverse

/-- The number that bytes spell, most significant first. -/
def ofBE (p : Bytes) : Nat := p.foldl (fun a b => a * 256 + b.toNat) 0

/-- Sixteen bytes as one block, byte 0 most significant, as AES and GHASH take them. -/
def toBlock (p : Bytes) : BitVec 128 := BitVec.ofNat 128 (ofBE p)

/-- Byte i of a block. -/
def blockByte (b : BitVec 128) (i : Nat) : BitVec 8 := BitVec.ofNat 8 (b.toNat / 256 ^ (15 - i))

/-- The blocks of a byte string. -/
def toBlocks (p : Bytes) (n : Nat) : List (BitVec 128) := (List.range n).map fun i => toBlock ((p.drop (16 * i)).take 16)

/-! ## SHA-256 (FIPS 180-4) -/

/-- The largest x below acc + 2^n with x^k at most v, found bit by bit from acc. -/
def rootBits (k v : Nat) : Nat → Nat → Nat
  | 0, acc => acc
  | n + 1, acc => rootBits k v n (if (acc + 2 ^ n) ^ k ≤ v then acc + 2 ^ n else acc)

/-- The first w bits of the fractional part of the k-th root of p. -/
def rootFraction (w k p : Nat) : Nat := rootBits k (p * 2 ^ (w * k)) (w + 5) 0 % 2 ^ w

/-- The primes below n. -/
def primesBelow (n : Nat) : List Nat :=
  (List.range n).filter fun p => decide (2 ≤ p) && (List.range p).all fun d => decide (d < 2) || decide (p % d ≠ 0)

/-- What the functions of one word size share: the bits of a word, the round constants, the two functions of the message schedule
(rotations and a shift), and the rotations of the functions of a and of e. -/
structure ShaForm where
  bits : Nat
  k : List Nat
  lo : List Nat × Nat
  hi : List Nat × Nat
  ofA : List Nat
  ofE : List Nat

/-- The 64 round constants of SHA-256: from the cube roots of the first 64 primes. -/
def shaK : List Nat := (primesBelow 312).map (rootFraction 32 3)

/-- The initial hash value of SHA-256: from the square roots of the first 8 primes. -/
def shaInit : List Nat := (primesBelow 20).map (rootFraction 32 2)

/-- The sum of rotations of a word to the right, by each amount. -/
def rotations (bits : Nat) (amounts : List Nat) (x : Nat) : Nat :=
  amounts.foldl (fun acc n => acc ^^^ (x / 2 ^ n + x % 2 ^ n * 2 ^ (bits - n))) 0

/-- n more words of the message schedule, newest first. -/
def shaSchedule (f : ShaForm) : Nat → List Nat → List Nat
  | 0, w => w
  | n + 1, w =>
    let lo := rotations f.bits f.lo.1 (w.getD 14 0) ^^^ (w.getD 14 0 / 2 ^ f.lo.2)
    let hi := rotations f.bits f.hi.1 (w.getD 1 0) ^^^ (w.getD 1 0 / 2 ^ f.hi.2)
    shaSchedule f n ((hi + w.getD 6 0 + lo + w.getD 15 0) % 2 ^ f.bits :: w)

/-- One round, on the last four values of the working variables a and e, newest first; `kw` is the round constant plus the
word of the schedule. -/
def shaRound (f : ShaForm) (v : List Nat × List Nat) (kw : Nat) : List Nat × List Nat :=
  let x := fun i => v.1.getD i 0
  let y := fun i => v.2.getD i 0
  let choice := (y 0 &&& y 1) ^^^ (((2 ^ f.bits - 1) ^^^ y 0) &&& y 2)
  let majority := (x 0 &&& x 1) ^^^ (x 2 &&& (x 0 ^^^ x 1))
  let t := y 3 + rotations f.bits f.ofE (y 0) + choice + kw
  ((t + rotations f.bits f.ofA (x 0) + majority) % 2 ^ f.bits :: v.1.take 3, (x 3 + t) % 2 ^ f.bits :: v.2.take 3)

/-- A hash value taken through one block of 16 words. -/
def shaBlock (f : ShaForm) (hash : List Nat) (block : Bytes) : List Nat :=
  let words := (List.range 16).map fun i => ofBE ((block.drop (f.bits / 8 * i)).take (f.bits / 8))
  let v := (List.zipWith Nat.add f.k (shaSchedule f (f.k.length - 16) words.reverse).reverse).foldl (shaRound f)
    (hash.take 4, hash.drop 4)
  List.zipWith (fun a b => (a + b) % 2 ^ f.bits) hash (v.1 ++ v.2)

/-- The whole hash value of a byte string, padded to blocks of 16 words. -/
def shaHash (f : ShaForm) (init : List Nat) (p : Bytes) : Bytes :=
  let block := 2 * f.bits
  let tail := f.bits / 4
  let whole := p ++ [0x80] ++ List.replicate ((2 * block - 1 - tail - p.length % block) % block) 0 ++ toBE tail (8 * p.length)
  ((List.range (whole.length / block)).foldl (fun h i => shaBlock f h ((whole.drop (block * i)).take block)) init).flatMap
    (toBE (f.bits / 8))

/-- SHA-256 of a byte string. -/
def sha256 (p : Bytes) : Bytes :=
  shaHash ⟨32, shaK, ([7, 18], 3), ([17, 19], 10), [2, 13, 22], [6, 11, 25]⟩ shaInit p

/-- A key of 32 bytes laid over a block of one repeated byte (FIPS 198-1). -/
def hmacPad (key : Bytes) (b : BitVec 8) : Bytes := (key.take 64 ++ List.replicate (64 - key.length) 0).map (b ^^^ ·)

/-- HMAC-SHA-256 (FIPS 198-1) under a key of at most 64 bytes. -/
def hmacSha256 (key msg : Bytes) : Bytes := sha256 (hmacPad key 0x5C ++ sha256 (hmacPad key 0x36 ++ msg))

/-! ## AES-256 (FIPS 197) -/

/-- Multiplication of n bits of b into a, in the field of AES (modulus 0x11B). -/
def aesMulBits : Nat → Nat → Nat → Nat
  | 0, _, _ => 0
  | n + 1, a, b =>
    (if b % 2 = 1 then a else 0) ^^^ aesMulBits n (if a < 128 then 2 * a else (2 * a) ^^^ 0x11B) (b / 2)

/-- Multiplication in the field of AES. -/
def aesMul (a b : Nat) : Nat := aesMulBits 8 a b

/-- The inverse in the field of AES, 0 for 0: the 254th power, by six squarings that keep the running product. -/
def aesInv (a : Nat) : Nat :=
  let step := fun (s : Nat × Nat) (_ : Nat) => (aesMul s.1 s.1, aesMul s.2 (aesMul s.1 s.1))
  ((List.range 6).foldl step (aesMul a a, aesMul a a)).2

/-- The substitution of a byte: its inverse under the affine map. -/
def aesSub (a : Nat) : Nat :=
  let i := aesInv a
  (List.range 5).foldl (fun acc n => acc ^^^ (i * 2 ^ n % 256 + i * 2 ^ n / 256)) 0x63

/-- n more words of the key schedule after the first 8, each of 4 bytes, newest first. -/
def aesExpand : Nat → List (List Nat) → List (List Nat)
  | 0, w => w
  | n + 1, w =>
    let i := w.length
    let last := w.getD 0 []
    let turned := if i % 8 = 0 then (last.drop 1 ++ last.take 1).map aesSub
      else if i % 8 = 4 then last.map aesSub else last
    let mixed := List.zipWith (· ^^^ ·) (w.getD 7 []) turned
    aesExpand n ((if i % 8 = 0 then mixed.set 0 (mixed.getD 0 0 ^^^ 2 ^ (i / 8 - 1)) else mixed) :: w)

/-- The 15 round keys of a key, of 16 bytes each. -/
def aesKeys (k : BitVec 256) : List (List Nat) :=
  let byte := fun i => k.toNat / 256 ^ (31 - i) % 256
  let w := (aesExpand 52 ((List.range 8).map fun j => (List.range 4).map fun b => byte (4 * j + b)).reverse).reverse
  (List.range 15).map fun r => (List.range 4).flatMap fun j => w.getD (4 * r + j) []

/-- Bytes substituted and rows shifted: row r of column j comes from column j + r. -/
def aesShift (s : List Nat) : List Nat := (List.range 16).map fun i => aesSub (s.getD ((i + i % 4 * 4) % 16) 0)

/-- Columns mixed. -/
def aesMix (s : List Nat) : List Nat :=
  (List.range 16).map fun i =>
    let at_ := fun r => s.getD (i / 4 * 4 + (i + r) % 4) 0
    aesMul 2 (at_ 0) ^^^ aesMul 3 (at_ 1) ^^^ at_ 2 ^^^ at_ 3

/-- AES-256 of one block. -/
def aes256 (k : BitVec 256) (x : BitVec 128) : BitVec 128 :=
  let keys := aesKeys k
  let add := fun (s : List Nat) (r : Nat) => List.zipWith (· ^^^ ·) s (keys.getD r [])
  let start := add ((List.range 16).map fun i => (blockByte x i).toNat) 0
  let inner := (List.range 13).foldl (fun s r => add (aesMix (aesShift s)) (r + 1)) start
  toBlock ((add (aesShift inner) 14).map (BitVec.ofNat 8))

/-! ## GHASH (NIST SP 800-38D) -/

/-- n steps of the product of x by v in the field of GHASH, from bit i of x on, bit 0 leftmost. -/
def ghashMul (x : BitVec 128) : Nat → Nat → BitVec 128 → BitVec 128
  | 0, _, _ => 0
  | n + 1, i, v =>
    (if x.getMsbD i then v else 0) ^^^
      ghashMul x n (i + 1) (if v.getLsbD 0 then (v >>> 1) ^^^ (0xE1#128 <<< 120) else v >>> 1)

/-- GHASH of a list of blocks under a hash key. -/
def ghash (h : BitVec 128) (blocks : List (BitVec 128)) : BitVec 128 :=
  blocks.foldl (fun y b => ghashMul (y ^^^ b) 128 0 h) 0

end Sys2Proof.Machine
end

