-- ==== Sys2Proof/Machine/LineCode.lean ====
section
/-! DEFINITION. The line code (R170 to R172): the Reed-Solomon code RS(72,64) of a line, its check symbols, the test for a
codeword, the decoder, and the TSV positions that carry a symbol. Symbols are numbered as R170 numbers them: 0 to 63 the data
bytes, 64 to 71 the check symbols. -/

namespace Sys2Proof.Machine

/-- Symbols of a line, and its check symbols. -/
def lineSymbols : Nat := 72
def lineChecks : Nat := 8

/-! ## Encoding (R170) -/

/-- The coefficients of g(x) = (x + 1)(x + 2) ... (x + 2^7), from x^8 down. -/
def lineGenerator : List Nat :=
  (List.range lineChecks).foldl (fun g j => vAdd (g ++ [0]) (0 :: vScale (gfPow 2 j) g)) [1]

/-- One more data symbol taken into the remainder. -/
def checkStep (r : List Nat) (d : Nat) : List Nat :=
  vAdd (r.drop 1 ++ [0]) (vScale (gfAdd d (r.getD 0 0)) (lineGenerator.drop 1))

/-- The eight check symbols of a line's data: the remainder of the division by g(x). -/
def checkSymbols (data : Bytes) : List Nat :=
  (data.map BitVec.toNat).foldl checkStep (List.replicate lineChecks 0)

/-- The codeword of a line's data. -/
def lineCodeword (data : Bytes) : List Nat := (padTo 64 data).map BitVec.toNat ++ checkSymbols (padTo 64 data)

/-- The value of a word at x, the first symbol that of the highest power. -/
def lineValue (w : List Nat) (x : Nat) : Nat := w.foldl (fun a s => gfAdd (gfMul a x) s) 0

/-- The syndromes of a word: its values at 2^0 to 2^7. -/
def syndromes (w : List Nat) : List Nat := (List.range lineChecks).map fun j => lineValue w (gfPow 2 j)

/-- A word is a codeword exactly when it is 0 at 2^0 to 2^7. -/
def isCodeword (w : List Nat) : Bool := decide (w.length = lineSymbols) && (syndromes w).all fun s => decide (s = 0)

/-! ## Errors -/

/-- What flips of symbols add up to: each symbol in error, with the bits that are wrong in it. -/
def errorPattern (flips : List (Nat × Byte)) : List (Nat × Nat) :=
  ((List.range lineSymbols).map fun t =>
    (t, (flips.filter fun e => decide (e.1 = t)).foldl (fun a e => a ^^^ e.2.toNat) 0)).filter fun e => decide (e.2 ≠ 0)

/-- A pattern as a word. -/
def patternWord (l : List (Nat × Nat)) : List Nat := l.foldl (fun w e => w.set e.1 (w.getD e.1 0 ^^^ e.2)) (vZero lineSymbols)

/-- Line data with a pattern's data symbols added. -/
def addPattern (data : Bytes) (l : List (Nat × Nat)) : Bytes :=
  (List.range 64).map fun t => data.getD t 0 ^^^ BitVec.ofNat 8 ((patternWord l).getD t 0)

/-! ## Decoding (R172) -/

/-- A square system solved: each row is its coefficients followed by its right side; none when it is singular. -/
def solveSquare (n : Nat) (rows : List (List Nat)) : Option (List Nat) :=
  let done := ((List.range n).foldl gaussColumn ([], rows)).1
  if done.length < n then none else some (done.map fun r => r.getD n 0)

/-- The locator of symbol t. -/
def locator (t : Nat) : Nat := gfPow 2 (lineSymbols - 1 - t)

/-- The pattern of exactly n symbols that has these syndromes, if there is one. -/
def patternOf (s : List Nat) (n : Nat) : Option (List (Nat × Nat)) :=
  let at_ := fun i => s.getD i 0
  match solveSquare n ((List.range n).map fun j => (List.range n).map (fun i => at_ (j + n - 1 - i)) ++ [at_ (j + n)]) with
  | none => none
  | some lambda =>
    let roots := (List.range lineSymbols).filter fun t => decide (lineValue (1 :: lambda) (locator t) = 0)
    if roots.length ≠ n then none
    else match solveSquare n ((List.range n).map fun j => roots.map (fun t => gfPow (locator t) j) ++ [at_ j]) with
      | none => none
      | some values =>
        let l := roots.zip values
        if syndromes (patternWord l) = s ∧ l.all (fun e => decide (e.2 ≠ 0)) then some l else none

/-- The pattern of the fewest symbols, at most `most`, that has these syndromes: what a decoder corrects. -/
def decodePattern (most : Nat) (s : List Nat) : Option (List (Nat × Nat)) :=
  (List.range most).findSome? fun n => patternOf s (n + 1)

/-! ## TSV positions (R171) -/

/-- The logical column position that carries a symbol. -/
def columnPosition (t : Nat) : Nat := if t < 64 then t / 2 else 32 + (t - 64) / 2

/-- The logical lane positions of its group that carry a symbol of line `line` of the row, one for each of its bits (R171: R38
counts all of them for a corrected symbol). -/
def lanePositions (line : Nat) (e : Nat × Nat) : List Nat :=
  (List.range 8).map fun i => line % 2 * 576 + 8 * e.1 + i

/-- The physical position of a logical one among `total`, after the steering round the failed ones (R36). -/
def physicalPosition (total : Nat) (failed : List Nat) (p : Nat) : Nat :=
  ((List.range total).filter fun q => !failed.contains q).getD p p

/-- The list without repeats, the last of each kept. -/
def noRepeats : List Nat → List Nat
  | [] => []
  | a :: t => if t.contains a then noRepeats t else a :: noRepeats t

end Sys2Proof.Machine
end

