-- ==== Sys2Proof/Machine/Flags.lean ====
section
/-! DEFINITION. The flags and reports every block shares: MSI-X messages, event records (R264), mailbox completions
(R291), the fault collector's handling of one occurrence (R373 to R381), and a Keeper restart (R288, R289). -/

namespace Sys2Proof.Machine

/-! ## MSI-X and event records -/

/-- A message of a vector would be sent, left pending in a masked vector, or kept for the link (R244, R246). -/
def Ctl.msixTakes (c : Ctl) (h : Head) (v : Nat) : Bool :=
  (c.hd h).msixEn && ((c.hd h).masks v || c.linkReady h || decide (c.hstate h = 2) || decide (c.hstate h = 3))

/-- An MSI-X message on a head's vector: sent, left pending when masked, or kept while the head is DOWN or its Bus
Master Enable is 0 (R244, R246). -/
def Ctl.msix (c : Ctl) (h : Head) (v : Nat) : Ctl :=
  let x := c.hd h
  if !x.msixEn then c
  else if x.masks v then
    (if x.msixPend.contains v then c else c.setHd h { x with msixPend := v :: x.msixPend })
  else if c.linkReady h then c.emit (.msix h v)
  else if c.hstate h = 2 ∨ c.hstate h = 3 then c.setHd h { x with waiting := x.waiting ++ [.msix v] }
  else c

/-- Record types of R379: vendor specific, general media, memory module. -/
def kindVendor : Nat := 0
def kindMedia : Nat := 1
def kindModule : Nat := 2

/-- The logs of R264. -/
def logInfo : Nat := 0
def logWarn : Nat := 1
def logFail : Nat := 2
def logFatal : Nat := 3

/-- A log with one more record, or, at 128 records, with one more overflow (R264). -/
def EventLog.add (l : EventLog) (kind code headNo time info flags : Nat) : EventLog :=
  if l.recs.length < 128 then
    { l with recs := l.recs ++ [⟨l.nextHandle, kind, code, headNo, time, info, flags⟩], nextHandle := l.nextHandle + 1 }
  else
    { l with
      overflow := min (l.overflow + 1) 0xFFFF
      firstOverflow := if l.overflow = 0 then time else l.firstOverflow
      lastOverflow := time }

/-- One event record in one log of one head, with the interrupt its policy asks for; a fenced head's logs take none
(R248, R264). -/
def Ctl.event (c : Ctl) (h : Head) (log kind code headNo info flags : Nat) : Ctl :=
  if c.live h then
    match (c.hd h).logs[log]? with
    | none => c
    | some l =>
      let c1 := c.modHd h fun x =>
        { x with logs := x.logs.set log (l.add kind code headNo c.now info flags) }
      if l.policy % 4 = 1 then c1.msix h (l.policy / 16) else c1
  else c

/-- A vendor event on every head that is not fenced (R264). -/
def Ctl.eventAll (c : Ctl) (log code headNo info : Nat) : Ctl :=
  c.forHeads fun h c => c.event h log kindVendor code headNo info 0

/-- A vendor event about a head, on the other head (R245). -/
def Ctl.eventOther (c : Ctl) (h : Head) (log code : Nat) : Ctl :=
  c.event h.other log kindVendor code h.num 0 0

/-! ## Mailbox completions -/

/-- A mailbox command completes with a Return Code and an OCS code (R291): its completion stands in the mailbox, its claims end
(R20), and the doorbell interrupt is raised when enabled (R290). A background command's claims are kept 256 above the block's
number, and end with it. -/
def Ctl.finishAs (c : Ctl) (h : Head) (op rc ocs : Nat) (out : Bytes) : Ctl :=
  let k : Completion := ⟨op, rc, ocs, out⟩
  let c1 := (c.modHd h fun x => { x with mbox := { x.mbox with pend := none, last := some k } }).emit (.mailbox h k)
  let c2 := { c1 with claims := c1.claims.filter fun e => decide (e.2 ≠ h) || decide (256 ≤ e.1) }
  if (c2.hd h).mbox.doorbellIrq then c2.msix h 0 else c2

/-- An OCS command completes with an OCS code and the Return Code R291 pairs with it. -/
def Ctl.finish (c : Ctl) (h : Head) (op : Nat) (o : Ocs) (out : Bytes) : Ctl := c.finishAs h op o.rc o.num out

/-- A mailbox command goes on and waits (R293). -/
def Ctl.await (c : Ctl) (h : Head) (op : Nat) (p : Bytes) (w : Wait) (aux : Nat) (blocks : List Nat := []) : Ctl :=
  c.modHd h fun x => { x with mbox := { x.mbox with pend := some ⟨op, p, w, aux⟩, waitBlocks := blocks } }

/-- A background command starts (R294): the command completes with Background Command Started. -/
def Ctl.startBg (c : Ctl) (h : Head) (op : Nat) (p : Bytes) (aux : Nat) : Ctl :=
  let k : Completion := ⟨op, 1, 0, []⟩
  let c0 := { c with claims := c.claims.map fun (e : Nat × Head) => if e.2 = h ∧ e.1 < 256 then (e.1 + 256, e.2) else e }
  let c1 := (c0.modHd h fun x => { x with mbox := { x.mbox with
    pend := none, last := some k, bg := some ⟨op, p, 0, aux⟩, bgTracked := true } }).emit (.mailbox h k)
  if (c1.hd h).mbox.doorbellIrq then c1.msix h 0 else c1

/-- A background command ends (R294): its final codes appear in Background Command Status, and the interrupt of R290
is raised when enabled; a Function Level Reset has ended the tracking when `bgTracked` is false. -/
def Ctl.finishBg (c : Ctl) (h : Head) (o : Ocs) : Ctl :=
  match (c.hd h).mbox.bg with
  | none => c
  | some g =>
    let k : Completion := ⟨g.op, o.rc, o.num, []⟩
    let tracked := (c.hd h).mbox.bgTracked
    let c0 := { c with claims := c.claims.filter fun e => decide (e.2 ≠ h) || decide (e.1 < 256) }
    let c1 := c0.modHd h fun x => { x with mbox := { x.mbox with
      bg := none, bgLast := if tracked then some k else x.mbox.bgLast } }
    if tracked then
      let c2 := c1.emit (.background h k)
      if (c2.hd h).mbox.bgIrq then c2.msix h 0 else c2
    else c1

/-! ## Keeper restart -/

/-- The part's unique identity (IDC_UNIQUE_ID). -/
def Ctl.uniqueId (c : Ctl) : Nat := (List.range 4).foldl (fun a i => a + c.get (R.IDC_UNIQUE_ID_ID i) * 2 ^ (32 * i)) 0

/-- IDC_PART_ID with bit 0 zero, as record headers carry it (R394). -/
def Ctl.partCode (c : Ctl) : Nat :=
  c.get R.IDC_PART_ID_PART_NUMBER * 65536 + c.get R.IDC_PART_ID_STEP_LETTER * 4096 + c.get R.IDC_PART_ID_STEP_DIGIT * 256

/-- The KIND of the record that belongs at a place (R393, R394). -/
def recordKind (place : Nat) : Nat := min place 8

/-- A body length suits a place (R394, R395): that of its layout. -/
def recordFits (place n : Nat) : Bool := match recordKind place with
  | 1 => decide (n = 8)
  | 2 => decide (n = 1)
  | 3 => decide (n = 21)
  | 4 => decide (n = 1)
  | 5 => decide (4 ≤ n) && decide (n ≤ 4 + 16 * 64) && decide (n % 16 = 4)
  | 6 => decide (n ≤ 16384)
  | 7 => decide (n ≤ 1024)
  | _ => decide (4 ≤ n) && decide (n ≤ 4 + 4 * 8192) && decide (n % 4 = 0)

/-- The header of a record but for its CHECK, as it stands in flash (R394). -/
def FlashRec.head (r : FlashRec) : Bytes := toLE 2 r.hdrKind ++ toLE 2 r.version ++ toLE 4 r.length ++ toLE 16 r.uid ++ toLE 4 r.part

/-- The CHECK of a record that holds whole: CRC-32 over header and body (R394). -/
def FlashRec.crc (r : FlashRec) : Nat := crc32 (r.head ++ r.body)

/-- A record as this part writes it (R394): its own identity in the header, zero in the FRU record. A record cut short fails its check:
what then stands as CHECK nothing else reads. -/
def Ctl.flashRec (c : Ctl) (kind : Nat) (body : Bytes) (bad : Bool) : FlashRec :=
  let r : FlashRec := ⟨kind, body, recordKind kind, 1, body.length, if kind = 7 then 0 else c.uniqueId, c.partCode, 0⟩
  { r with check := r.crc ^^^ bit bad }

/-- A record is usable (R394): its CHECK matches, its KIND and LENGTH suit its place, its PART matches, and it carries this part's identity,
the FRU record apart. -/
def Ctl.usable (c : Ctl) (r : FlashRec) : Bool :=
  decide (r.check = r.crc) && decide (r.hdrKind = recordKind r.kind) && decide (r.length = r.body.length) &&
    recordFits r.kind r.length && decide (r.part = c.partCode) && (decide (r.kind = 7) || decide (r.uid = c.uniqueId))

/-- The usable record of a kind (R394). Kinds 1 to 8 are those of R394, 8 that of the base die; 16 + d is the calibration
record of die d. -/
def Ctl.record (c : Ctl) (kind : Nat) : Option Bytes :=
  match c.sbp.recs.find? fun r => decide (r.kind = kind) with
  | some r => if c.usable r then some r.body else none
  | none => none

/-- A body with bytes replaced from an offset on, longer when that is needed (R398). -/
def fruBody (old : Bytes) (off : Nat) (data : Bytes) : Bytes :=
  let n := max old.length (off + data.length)
  let b := padTo n old
  b.take off ++ data ++ b.drop (off + data.length)

/-- The body that a write puts into flash: it is formed when the record is written, so what writes before it left stays (R398). -/
def Ctl.writeBody (c : Ctl) (w : FlashWrite) : Bytes := match w.from_ with
  | some off => fruBody ((c.record w.kind).getD []) off w.body
  | none => w.body

/-- SB_FRU reads zero while no FRU record is usable (R397). -/
def Ctl.judgeFru (c : Ctl) : Ctl := if (c.record 7).isSome then c else { c with sbp.fru := [] }

/-- The flash record being written at a Keeper reset fails its check word or holds the new value whole, and the spec
does not say which (R289): a free choice. Later writes that waited are dropped with their commands. -/
def Ctl.cutFlashWrite (c : Ctl) : Ctl :=
  match c.sbp.writes with
  | [] => c
  | w :: _ =>
    let (v, c1) := c.fresh
    let others := c1.sbp.recs.filter fun r => decide (r.kind ≠ w.kind)
    let r : List FlashRec := [c1.flashRec w.kind (c1.writeBody w) (decide (v % 2 = 0))]
    let gone := w.erase && decide (v % 2 = 1)
    let c2 : Ctl := { c1 with
      sbp.writes := (c1.sbp.writes.drop 1).filter fun x => x.by_.isNone
      sbp.mapSince := c1.sbp.mapSince || (decide (w.kind = 3) && (gone || (!w.erase && decide (v % 2 = 1))))
      sbp.recs := if gone then others else r ++ others }
    if w.kind = 7 then c2.judgeFru else c2

/-- A flash record write requested (R394): the Keeper writes one record at a time, in order; the command of a head, if
any, waits for it. -/
def Ctl.writeRecord (c : Ctl) (kind : Nat) (body : Bytes) (by_ : Option Head) (erase : Bool := false) (from_ : Option Nat := none) : Ctl :=
  { c with sbp.writes := c.sbp.writes ++ [⟨kind, body, by_, erase, from_⟩] }

/-- The image-select record (R395): SELECTED, the states of A and B (0 invalid, 1 on trial, 2 confirmed), the last confirmed
image. -/
structure SelRec where
  selected : Nat
  stateA : Nat
  stateB : Nat
  confirmed : Nat
  deriving DecidableEq, Repr

/-- The select record in force; without a valid one image A is the candidate (R305) and counts as confirmed. -/
def Ctl.selRec (c : Ctl) : SelRec := match c.record 1 with
  | some p => ⟨le p 0 1 % 2, le p 1 1, le p 2 1, le p 3 1 % 2⟩
  | none => ⟨0, 2, 0, 0⟩

/-- The body of a select record. -/
def SelRec.body (r : SelRec) : Bytes := toLE 1 r.selected ++ toLE 1 r.stateA ++ toLE 1 r.stateB ++ toLE 1 r.confirmed ++ toLE 4 0

/-- An image slot by number: 0 A, 1 B. -/
def Ctl.slot (c : Ctl) (i : Nat) : ImgSlot := if i = 0 then c.kpr.slotA else c.kpr.slotB
def Ctl.setSlot (c : Ctl) (i : Nat) (x : ImgSlot) : Ctl :=
  if i = 0 then { c with kpr.slotA := x } else { c with kpr.slotB := x }

/-- A head's mailbox at a Keeper restart (R288): the command in progress and the background command are completed by
hardware with KEEPER_RESTART. -/
def Ctl.cutMailbox (h : Head) (c : Ctl) : Ctl :=
  let c1 := match (c.hd h).mbox.pend with
    | some p => c.finish h p.op .keeperRestart []
    | none => c
  c1.finishBg h .keeperRestart

/-- Every gate domain of R334 but that of a head not built. -/
def Ctl.allGates (c : Ctl) : Nat := if c.hstate .b = 6 then 0x1FFFF else 0x3FFFF

/-- A gate domain is open for work (R334, R335): its bit is set and its clock runs. On the RC-3208 no work meets a closed gate (R333). Work for a closed
one waits. -/
def Ctl.domainOpen (c : Ctl) (d : Nat) : Bool :=
  decide (c.part = .rc3208) || (tb (c.get R.CLK_GATE_EN_EN) d && tb (c.get R.CLK_GATE_STAT_OPEN) d)

/-- Some slice of the comb array is open. -/
def Ctl.combOpen (c : Ctl) : Bool := (List.range 8).any c.domainOpen

/-- An access to a sealed granule waits for a seal pipeline. -/
def Ctl.sealGated (c : Ctl) (sa : Nat) : Bool :=
  decide (c.get (R.SEA_GRAN_STATE (sa / 2 ^ 30)) ≠ 0) && !(c.domainOpen 10 || c.domainOpen 11)

/-- The gates of R334 held open by hardware while the Keeper is not running. -/
def Ctl.openGates (c : Ctl) : Ctl := match c.part with
  | .rc4812 => ({ c with clk.closing := [] }.set R.CLK_GATE_EN_EN c.allGates).set R.CLK_GATE_STAT_OPEN c.allGates
  | .rc3208 => c

/-- What a reset of the Keeper ends (R288, R289, R365): READY clears, claims end, commands in progress complete with
KEEPER_RESTART, holds are released, OCS handles are void, metadata passes and the firmware transfer end, and a calibration
measurement is abandoned. A seal whose granule is not yet SEALING is dropped; one whose granule is SEALING starts over. A window write
whose hold is released is not made: BUSY clears and ERR sets (DESIGN CHOICE, notes/assumptions/128.md). -/
def Ctl.cutKeeper (c : Ctl) : Ctl :=
  let c1 := c.set R.IDC_FW_STAT_READY 0
  let c2 := c1.forHeads Ctl.cutMailbox
  let c3 := c2.cutFlashWrite
  let c4 := { c3 with
    claims := []
    stx.heldCtx := []
    stx.winHold := []
    sea.holdGran := []
    sea.sealing := (c3.sea.sealing.filter fun (j : SealJob) => j.bg.isNone ||
      decide (c3.get (R.SEA_GRAN_STATE j.gran) = 1)).map fun (j : SealJob) =>
        { j with bg := none, step := 0 }
    job := { c3.job with
      jobs := c3.job.jobs.map fun (j : Job) => if j.ocs then { j with handle := none } else j
      doneA := [], doneB := [], slotWaiters := [] }
    frg.passes := c3.frg.passes.filter fun p => p.slot.isSome
    cal := { c3.cal with current := none, pair := false }
    kpr := { c3.kpr with xferHead := none, xferData := [] } }
  let c5 := if c3.kpr.xferHead.isSome then c4.setSlot c3.kpr.xferSlot {} else c4
  let c6 := c5.forHeads fun h c =>
    if c.flag (R.STX_WIN_CTL_BUSY h.num) then (c.set (R.STX_WIN_CTL_BUSY h.num) 0).set (R.STX_WIN_CTL_ERR h.num) 1 else c
  (c6.set R.CAL_STATUS_BUSY 0).openGates

/-- The Keeper is reset and the ROM runs again, to boot a slot in a state. -/
def Ctl.rebootKeeper (c : Ctl) (slot state : Nat) : Ctl :=
  let c1 := c.cutKeeper
  { c1 with kpr := { c1.kpr with phase := 1, bootNext := some (slot, state), restarted := true } }

/-- A warm reset asked for, to begin at a clock instant, causes a reset of its own (R337, R338): it does not merge with one in progress,
with one that begins no later, or with one that is held for the end of a power-on start. -/
def Ctl.takesWarm (c : Ctl) (at_ : Nat) : Bool :=
  decide (c.rst.quiesce = 0) &&
    (if c.rst.awaiting = 8 then c.rst.warmReq.isNone || decide (at_ < c.rst.warmAt)
     else !c.rst.warm && decide (c.rst.awaiting < 9) && c.rst.heldReq.isNone)

/-- A warm reset is asked for, to begin at a clock instant (R337, R338): during a power-on start it is held until the start completes; one
that is due later merges with it. -/
def Ctl.askWarm (c : Ctl) (origin at_ : Nat) : Ctl :=
  if c.takesWarm at_ = false then c
  else if c.rst.awaiting = 8 then { c with rst.warmReq := some origin, rst.warmAt := at_ }
  else { c with rst.heldReq := some origin }

/-- The Keeper is restarted (R287 to R289, R305). An image on trial is rolled back: the ROM boots the last confirmed image in
state FALLBACK and writes the select record back to it, and the restart counts among those that follow. Any other image boots again, and
the fourth restart within 60 s holds it in reset. In test mode any reset is that of the device, as a power-on reset (R367), with the ORIGIN
of the collector. -/
def Ctl.keeperRestart (c : Ctl) : Ctl :=
  if c.cal.testMode then { c.cutKeeper with kpr.phase := 0 }.askWarm 2 c.clock
  else if c.kpr.phase = 2 ∨ c.kpr.phase = 3 then
    let r := c.selRec
    let run := c.get R.IDC_FW_STAT_RUNNING
    let times := (c.clock :: c.kpr.restartTimes).filter fun t => decide (c.clock < t + 60000000000)
    if c.get R.IDC_FW_STAT_STATE = 1 then
      let back := if r.confirmed = run then 1 - run else r.confirmed
      { c.rebootKeeper back 2 with kpr.restartTimes := times }.writeRecord 1 (SelRec.body { r with selected := back }) none
    else
      let c1 := c.rebootKeeper run (c.get R.IDC_FW_STAT_STATE)
      let c2 := { c1 with kpr.restartTimes := times }
      if 4 ≤ times.length then { c2 with kpr.phase := 4, kpr.restarted := false }.set R.IDC_FW_STAT_HELD 1 else c2
  else c

/-! ## The fault collector -/

/-- Which heads a fault is reported to (R378). -/
inductive FaultTo where
  | everyone
  | only (h : Head)
  deriving DecidableEq, Repr

/-- The fault is reported to a head (R378): it is live, and the fault concerns it. -/
def Ctl.faultReaches (c : Ctl) (w : FaultTo) (h : Head) : Bool := c.live h && match w with
  | .everyone => true
  | .only h' => decide (h = h')

/-- PEND of a source. -/
def Ctl.srcPending (c : Ctl) (n : Nat) : Bool := tb (c.get (R.FLT_PEND_PEND (n / 32))) (n % 32)

/-- A class is pending while any of its sources is (R376). -/
def Ctl.classPending (c : Ctl) (k : Nat) : Bool :=
  faultRows.any fun r => decide (r.cls = k) &&
    (List.range (r.hi - r.lo + 1)).any fun i => c.srcPending (r.lo + i)

/-- PULSE_US in ns, with its limits (FLT_ERRN). -/
def Ctl.pulseNs (c : Ctl) : Nat := 1000 * min 1000 (max 10 (c.get R.FLT_ERRN_PULSE_US))

/-- ERR_N is asserted, or its pulse extended (R377). -/
def Ctl.assertErrN (c : Ctl) (src : Nat) : Ctl :=
  let c1 := { c with flt := { c.flt with
    pulseEnd := some (max (c.clock + c.pulseNs) (c.flt.pulseEnd.getD 0))
    errnBy := if c.flt.errnBy.contains src then c.flt.errnBy else src :: c.flt.errnBy } }
  if c1.flag R.FLT_STATUS_ERRN then c1 else (c1.set R.FLT_STATUS_ERRN 1).emit (.errN true)

/-- A Keeper NMI, held until READY while the Keeper is not running (R374). -/
def Ctl.raiseNmi (c : Ctl) : Ctl :=
  if c.kpr.phase = 3 then c.emit .nmi else { c with kpr.nmiHeld := true }

/-- Block reset of the comb engine (R375): dispatch stops, running jobs but SCRUB end at their next line boundary with
ENGINE_FAULT, the decode-matrix cache empties and the comb cells are released. -/
def Ctl.resetComb (c : Ctl) : Ctl :=
  ({ c with
    job := { c.job with
      stopped := true
      stopAt := c.clock
      jobs := c.job.jobs.map fun (j : Job) =>
        if j.phase = .running ∧ le j.desc 0 1 ≠ 9 ∧ j.stop = none then { j with stop := some 0x0C } else j }
    dec := { c.dec with entries := [], wants := [], wayWait := [], queue := [] }
    stk.cells := [] } : Ctl).set R.CMB_DMC_FLUSH_FLUSH_BUSY 0

/-- The head that a lane serves (R239). -/
def Ctl.headOfLane (c : Ctl) (n : Nat) : Head := if c.twoHeads && decide (8 ≤ n) then .b else .a

/-- Adaptation of a lane restarts from the presets, and its runs at a limit from none (R275). -/
def Ctl.restartAdaptation (c0 : Ctl) (n : Nat) : Ctl :=
  let c := { c0 with phy.satRuns := c0.phy.satRuns.filter fun e => decide (e.1.1 ≠ n) }
  let c1 := (List.range 3).foldl (fun c w =>
    (((c.set (R.PHYL_DFE_TAP0 n w) 0).set (R.PHYL_DFE_TAP1 n w) 0).set (R.PHYL_DFE_TAP2 n w) 0).set
      (R.PHYL_DFE_TAP3 n w) 0) c
  ((((((c1.set (R.PHYL_DFE_FLT_F0_POS n) 0).set (R.PHYL_DFE_FLT_F0_VAL n) 0).set (R.PHYL_DFE_FLT_F1_POS n) 0).set
    (R.PHYL_DFE_FLT_F1_VAL n) 0).set (R.PHYL_STATUS_CTLE n) 0).set (R.PHYL_STATUS_GAIN n) 0).set (R.PHYL_STATUS_DFE_SAT n) 0

/-- Block reset of a PHY lane (R375): its head's link enters Recovery, and adaptation restarts from the presets. -/
def Ctl.resetLane (c : Ctl) (src : Nat) : Ctl :=
  let n := (src - 388) % 16
  (c.restartAdaptation n).emit (.link (c.headOfLane n) 2)

/-- Block reset of the block of a source (R375). -/
def Ctl.blockReset (c : Ctl) (src : Nat) : Ctl :=
  if 564 ≤ src ∧ src ≤ 567 then c.resetComb
  else if 388 ≤ src ∧ src ≤ 419 then c.resetLane src
  else c.keeperRestart

/-- The device-reset reaction (R374, R377): a warm reset is requested with ORIGIN 2; the third that the collector causes within 10 s
suppresses those that follow. A request that merges with another reset causes none and does not count. -/
def Ctl.collectorReset (c : Ctl) : Ctl :=
  if c.takesWarm c.clock = false then c
  else
    let times := (c.clock :: c.flt.devResets).filter fun t => decide (c.clock < t + 10000000000)
    let c1 := { c with flt.devResets := times }.askWarm 2 c.clock
    if 3 ≤ times.length then c1.set R.FLT_STATUS_DEVRST_SUPP 1 else c1

/-- Sources whose faults concern one head, by R372: link lanes, the rings a head owns, IDE, the partition violations and the REFCLKs. The
faults of class 17 concern the device as a whole (R378). -/
def Ctl.faultHead (c : Ctl) (src : Nat) : Option Head :=
  if 388 ≤ src ∧ src ≤ 419 then some (c.headOfLane ((src - 388) % 16))
  else if 420 ≤ src ∧ src ≤ 483 then some (c.sqOwner (src - 420))
  else if 484 ≤ src ∧ src ≤ 547 then some (c.cqOwner (src - 484))
  else if src = 554 ∨ src = 576 ∨ src = 616 then some .a
  else if src = 555 ∨ src = 577 ∨ src = 617 then some .b
  else none

/-- What one occurrence carries out (R373, R374, R377): effective severity, whether it was escalated, and the reactions
selected, in the bit layout of R381. -/
structure FaultPlan where
  sev : Nat
  escalated : Bool
  react : Nat
  deriving DecidableEq, Repr

/-- The severity and reactions of an occurrence of a source (R373, R376, R377). -/
def Ctl.faultPlan (c : Ctl) (src : Nat) : FaultPlan :=
  let esc := c.classPending (fltClass src)
  let cfg := c.get (R.FLT_SRC_CFG_SEVERITY src)
  let base := if 548 ≤ src ∧ src ≤ 550 then max 1 cfg else cfg
  let sev := min 3 (base + bit esc)
  let own := c.get (R.FLT_SRC_CFG_REACT src) ||| (if src = 620 ∨ src = 621 then 4 else 0)
  let r := own ||| c.get (R.FLT_SEV_REACT_REACT sev)
  let r := if hasBlockReset src then r else r &&& 27
  if tb r 3 && c.flag R.FLT_STATUS_DEVRST_SUPP then
    let r3 := (own ||| c.get (R.FLT_SEV_REACT_REACT 3)) &&& 23
    ⟨3, esc, if hasBlockReset src then r3 else r3 &&& 27⟩
  else ⟨sev, esc, r⟩

/-- The MSI-X reaction on one head (R374): FLT_IRQ's vector, while IEN is 1. -/
def Ctl.faultMsix (c : Ctl) (h : Head) : Ctl := match h with
  | .a => if c.flag R.FLT_IRQ_A_IEN then c.msix .a (c.get R.FLT_IRQ_A_VECTOR) else c
  | .b => if c.flag R.FLT_IRQ_B_IEN then c.msix .b (c.get R.FLT_IRQ_B_VECTOR) else c

/-- The MSI-X reaction takes effect on a head. -/
def Ctl.faultMsixTakes (c : Ctl) (w : FaultTo) (h : Head) : Bool :=
  c.faultReaches w h && match h with
    | .a => c.flag R.FLT_IRQ_A_IEN && c.msixTakes .a (c.get R.FLT_IRQ_A_VECTOR)
    | .b => c.flag R.FLT_IRQ_B_IEN && c.msixTakes .b (c.get R.FLT_IRQ_B_VECTOR)

/-- The record type and information of an occurrence's event record (R379): media records for classes 1 and 2 in the
user region, with the line's stack address; memory-module records for classes 5, 6 and 19; vendor records otherwise. -/
def Ctl.faultKind (c : Ctl) (src info : Nat) : Nat :=
  let k := fltClass src
  if (k = 1 ∨ k = 2) ∧ info * 64 < c.userEnd then kindMedia
  else if k = 5 ∨ k = 6 ∨ k = 19 then kindModule
  else kindVendor

/-- A correctable or uncorrectable error, by its bit, in the Advanced Error Reporting of a head (R242): its status bit, and for the first
uncorrectable one the first-error pointer and the header log, whose content for an error with a header is a free value. The bits are
those of PCI Express (PRESUMED, notes/assumptions/9.md). -/
def Ctl.aerError (c : Ctl) (h : Head) (uncorrectable : Bool) (n : Nat) (header : Bool) : Ctl :=
  if uncorrectable then
    let (v, c1) := c.fresh
    (if header then c1 else c).modHd h fun x => { x with
      aerUnc := setBit x.aerUnc n
      aerFirst := some (x.aerFirst.getD n)
      aerHeader := if x.aerFirst.isNone then (if header then v else 0) else x.aerHeader }
  else c.modHd h fun x => { x with aerCor := setBit x.aerCor n }

/-- An uncorrectable error of a head's own link or request reported (R266), at the severity that PCI Express gives it, non-fatal
(PRESUMED, notes/assumptions/9.md). -/
def Ctl.aerReport (c : Ctl) (h : Head) (n : Nat) : Ctl := (c.aerError h true n true).emit (.aer h true false)

/-- The report that a failed read of a head makes, for those failures that PCI Express reports at the requester: a completion timeout and
a poisoned TLP (PRESUMED, notes/assumptions/9.md). -/
def Ctl.aerOf (c : Ctl) (h : Head) : LinkErr → Ctl
  | .timeout => c.aerReport h 14
  | .ep => c.aerReport h 12
  | .ur => c
  | .ca => c

/-- A Corrected or an Uncorrectable Internal Error reported (R380). -/
def Ctl.aerInternal (c : Ctl) (h : Head) (uncorrectable : Bool) : Ctl :=
  (c.aerError h uncorrectable (if uncorrectable then 22 else 14) false).emit
    (.aer h uncorrectable (uncorrectable && (c.hd h).uncFatal))

/-- The record and the AER report of an occurrence on one head (R379, R380). -/
def Ctl.faultReport (c : Ctl) (src info : Nat) (p : FaultPlan) (w : FaultTo) (h : Head) : Ctl :=
  if c.faultReaches w h then
    let headNo := match w, c.faultHead src with
      | .only x, _ => x.num
      | .everyone, some x => x.num
      | .everyone, none => 0xFFFF
    let rec1 := c.flag (R.FLT_SRC_CFG_RECORD src) || (decide (548 ≤ src) && decide (src ≤ 550))
    let c1 := if rec1 then
        c.event h p.sev (c.faultKind src info) (0x1000 + src) headNo info
          (c.get (R.FLT_SRC_CFG_SEVERITY src) + 4 * bit p.escalated)
      else c
    if c1.flag (R.FLT_SRC_CFG_AER src) then
      c1.aerInternal h (decide (2 ≤ p.sev))
    else c1
  else c

/-- The occurrence's record in the fault log and its mirror (R381). -/
def Ctl.logFault (c : Ctl) (src info carried : Nat) (p : FaultPlan) : Ctl :=
  let r : FltRec := ⟨c.get R.FLT_LOG_SEQ_NEXT, src, p.sev, p.escalated, carried, info % 2 ^ 32, c.now⟩
  { c with flt := { c.flt with log := (r :: c.flt.log).take 1024, mirror := (r :: c.flt.mirror).take 16 } }.set
    R.FLT_LOG_SEQ_NEXT (c.get R.FLT_LOG_SEQ_NEXT + 1)

/-- A source is that of a core reference failing in RC-1604 compatibility mode, or of the coast that follows: no NMI (R332). -/
def Ctl.coasts (c : Ctl) (src : Nat) : Bool :=
  c.flag R.IDC_PART_ID_COMPAT_1604 && (decide (src = 618) ||
    (decide (src = 616 ∨ src = 617) && decide (c.get R.CLK_STATUS_CORE_REF = src - 615)))

/-- The reactions of a plan carried out, but for the resets, which come last (R374). -/
def Ctl.faultReact (c : Ctl) (src : Nat) (p : FaultPlan) (w : FaultTo) : Ctl :=
  let c1 := if tb p.react 0 then
      c.forHeads fun h c => if c.faultReaches w h then c.faultMsix h else c
    else c
  let c2 := if tb p.react 1 && !c1.coasts src then c1.raiseNmi else c1
  if tb p.react 4 then c2.assertErrN src else c2

/-- The reactions of a plan that take effect, in the bits of R381: a block reset of a Keeper that is not running, an NMI of a coast, a
device reset that merges with another and a message that no head can take have none. -/
def Ctl.faultCarried (c : Ctl) (src : Nat) (p : FaultPlan) (w : FaultTo) : Nat :=
  let keeper := !(decide (564 ≤ src) && decide (src ≤ 567)) && !(decide (388 ≤ src) && decide (src ≤ 419))
  bit (tb p.react 0 && (c.faultMsixTakes w .a || c.faultMsixTakes w .b)) + 2 * bit (tb p.react 1 && !c.coasts src) +
    4 * bit (tb p.react 2 && (!keeper || decide (c.kpr.phase = 2) || decide (c.kpr.phase = 3))) +
    8 * bit (tb p.react 3 && c.takesWarm c.clock) + 16 * bit (tb p.react 4)

/-- One occurrence of a fault (R373 to R381), but for the hold it may put the Keeper in: escalation, reactions, the pending bit, the counters, the log record, the
event records and the AER reports; the resets among its reactions last. A reserved source never occurs (R372). -/
def Ctl.faultOnce (c : Ctl) (src info : Nat) (w : FaultTo := .everyone) : Ctl :=
  if (faultRow src).isNone then c else
  let p := c.faultPlan src
  let carried := c.faultCarried src p w
  let c1 := c.faultReact src p w
  let c2 := c1.set (R.FLT_PEND_PEND (src / 32)) (setBit (c1.get (R.FLT_PEND_PEND (src / 32))) (src % 32))
  let c3 := c2.bump (R.FLT_SRC_CNT_COUNT src)
  let c4 := if p.escalated then c3.bump R.FLT_ESC_CNT_ESCALATED else c3
  let c5 := c4.logFault src info carried p
  let routed := bit (c.faultReaches w .a) + 2 * bit (c.faultReaches w .b)
  let c6 := { c5 with flt.routed := mapPut c5.flt.routed src routed }
  let c7 := c6.forHeads fun h c => c.faultReport src info p w h
  let c8 := if tb p.react 2 then c7.blockReset src else c7
  if tb p.react 3 then c8.collectorReset else c8

/-- One occurrence of a fault (R373 to R381); where its block reset holds the Keeper in reset, source 622 follows (R305). -/
def Ctl.fault (c : Ctl) (src info : Nat) (w : FaultTo := .everyone) : Ctl :=
  let c1 := c.faultOnce src info w
  if decide (c.kpr.phase ≠ 4) && decide (c1.kpr.phase = 4) then c1.faultOnce 622 0 else c1

/-- A fault about a user line (R378): to the owner of its partition, or to every head for any other line. -/
def Ctl.lineFault (c : Ctl) (src sa : Nat) : Ctl :=
  let w := if sa < c.userEnd then
      (match c.granOwner (granOf sa) with
        | some h => FaultTo.only h
        | none => .everyone)
    else .everyone
  c.fault src (sa / 64) w

/-! ## Comb cells (R109) -/

/-- Comb cells held, and cells taken or given up by a slot (4,096 the Keeper). -/
def Ctl.cellsHeld (c : Ctl) : Nat := (c.stk.cells.map Prod.snd).sum
def Ctl.takeCells (c : Ctl) (slot n : Nat) : Ctl := { c with stk.cells := mapPut c.stk.cells slot ((mapGet c.stk.cells slot).getD 0 + n) }
def Ctl.freeCells (c : Ctl) (slot n : Nat) : Ctl :=
  let left := (mapGet c.stk.cells slot).getD 0 - n
  { c with stk.cells := if left = 0 then mapDel c.stk.cells slot else mapPut c.stk.cells slot left }

def Ctl.endCells (c : Ctl) (slot : Nat) : Ctl := { c with stk.cells := mapDel c.stk.cells slot }

/-- The slot whose cells a transfer takes. -/
def Xfer.slot (x : Xfer) : Nat := (x.job.map Prod.fst).getD 4096

/-- The comb cells of write transfers that are dropped are free. -/
def Ctl.releaseCells (c : Ctl) (l : List Xfer) : Ctl := (l.filter fun x => x.write).foldl (fun c x => c.freeCells x.slot 1) c

end Sys2Proof.Machine
end

