-- ==== Sys2Proof/Machine/Regs.lean ====
section
/-! DEFINITION. Register access in BAR0 (R8 to R12, R404 to R406): the fields that mirror other state, the reads with
their side effects and snapshots, and the writes field by field with the checks made before them (R19, R20, R87, R270,
R285, R334). What a write of a command bit starts stands in Machine/RegWrite.lean. -/

namespace Sys2Proof.Machine

/-! ## Derived values -/

/-- Slots held by jobs fetched from an SQ (JRG_SQ_STATUS.IN_FLIGHT). -/
def Ctl.sqInFlight (c : Ctl) (q : Nat) : Nat := (c.job.jobs.filter fun j => !j.ocs && decide (j.sq = q)).length

/-- Slots held by OCS jobs. -/
def Ctl.ocsSlots (c : Ctl) : Nat := (c.job.jobs.filter fun j => j.ocs).length

/-- Slots held in all (R85). -/
def Ctl.slotsHeld (c : Ctl) : Nat := c.job.jobs.length

/-- The ring of BAR2 and its descriptors beside the registers. -/
def Ctl.ring (c : Ctl) (q : Nat) : RingSt := (mapGet c.job.rings q).getD {}

/-- A ring's record changed. -/
def Ctl.setRing (c : Ctl) (q : Nat) (r : RingSt) : Ctl := { c with job.rings := mapPut c.job.rings q r }

/-- The CQ of a job's completion: the one its SQ names. -/
def Ctl.jobCq (c : Ctl) (j : Job) : Nat := c.get (R.JRG_SQ_CFG_CQ j.sq)

/-- Entries of a CQ that hold completions the host has not returned. -/
def Ctl.cqUsed (c : Ctl) (q : Nat) : Nat :=
  let size := c.get (R.JRG_CQ_CFG_SIZE q)
  if size = 0 then 0 else (c.get (R.JRG_CQ_STATUS_TAIL q) + size - (c.ring q).cqHead) % size

/-- A CQ has no free entry: one entry stays free, so that a full ring and an empty one differ (R91). -/
def Ctl.cqFull (c : Ctl) (q : Nat) : Bool := decide (c.get (R.JRG_CQ_CFG_SIZE q) ≤ c.cqUsed q + 1)

/-- A completion waits for a CQ (JRG_CQ_STATUS.FULL). -/
def Ctl.cqWaits (c : Ctl) (q : Nat) : Bool :=
  c.cqFull q && c.job.jobs.any fun j => !j.ocs && decide (c.jobCq j = q) && j.waitCounted

/-- Completions of a fenced head that its slots still hold, until they are written, by whichever head then owns them (HDx_HELD_CPL, R249,
R253, R255). -/
def Ctl.heldCpl (c : Ctl) (h : Head) : Nat :=
  (c.job.jobs.filter fun j => decide (j.held = some h) && decide (j.phase = .ended)).length

/-- Lane `l` as ROWL_STATUS reports it: 0b01 reads 0b00 while ROW_SHARE is 0. -/
def Ctl.laneState (c : Ctl) (l : Nat) : Nat :=
  let v := c.get (match l with
    | 0 => R.ROWL_STATUS_LANE0
    | 1 => R.ROWL_STATUS_LANE1
    | 2 => R.ROWL_STATUS_LANE2
    | _ => R.ROWL_STATUS_LANE3)
  if v = 1 ∧ c.get R.STK_ACT_CFG_ROW_SHARE = 0 then 0 else v

/-- A lane's state set. -/
def Ctl.setLaneState (c : Ctl) (l v : Nat) : Ctl :=
  c.set (match l with
    | 0 => R.ROWL_STATUS_LANE0
    | 1 => R.ROWL_STATUS_LANE1
    | 2 => R.ROWL_STATUS_LANE2
    | _ => R.ROWL_STATUS_LANE3) v

/-- A lane is in service (R35). -/
def Ctl.laneUp (c : Ctl) (l : Nat) : Bool := decide (c.laneState l = 1)

/-- A number with one bit per index below `n` at which `f` holds. -/
def maskOf (n : Nat) (f : Nat → Bool) : Nat := (List.range n).foldl (fun a i => if f i then a + 2 ^ i else a) 0

/-- EFFECTIVE_MAX of R33: the least of ACT_MAX, FUSED_MAX and the cap of the power ceiling. -/
def Ctl.effectiveMax (c : Ctl) : Nat :=
  min (c.get R.STK_ACT_CFG_ACT_MAX) (min (c.get R.STK_ACT_CFG_FUSED_MAX) (c.get R.PWR_STATUS_ACT_CAP))

/-- Channels in service with `n` spares left (R47). -/
def Ctl.colSpare (c : Ctl) (n : Nat) : Nat :=
  ((List.range c.nch).filter fun ch => !c.chanRetired ch && decide (c.get (R.TSV_CH_REPAIR_SPARES_LEFT ch) = n)).length

/-- Fewest spares left in any group of a lane. -/
def Ctl.laneSpareMin (c : Ctl) (l : Nat) : Nat :=
  (List.range 8).foldl (fun a g => min a (c.get (R.ROWL_GRP_STATUS_SPARES_LEFT l g))) 16

/-- Channel record of a controller, and its change. -/
def Ctl.chan (c : Ctl) (n : Nat) : ChanSt := (mapGet c.stk.chans n).getD {}
def Ctl.setChan (c : Ctl) (n : Nat) (x : ChanSt) : Ctl := { c with stk.chans := mapPut c.stk.chans n x }

/-- Lane record, and its change. -/
def Ctl.lane (c : Ctl) (n : Nat) : LaneSt := (mapGet c.stk.lanes n).getD {}
def Ctl.setLane (c : Ctl) (n : Nat) (x : LaneSt) : Ctl := { c with stk.lanes := mapPut c.stk.lanes n x }

/-- The age limit of a class is reached (R156). -/
def Ctl.aged (c : Ctl) (cls arrival : Nat) : Bool :=
  let lim := c.geff (R.QOS_AGE_LIMIT_LIMIT cls)
  decide (cls ≠ 0) && decide (lim ≠ 0) && decide (lim * 64 ≤ c.now - arrival)

/-- Live key slots. -/
def Ctl.keysLive (c : Ctl) : Nat := (c.sea.keys.filter fun e => c.flag (R.SEA_KEY_STAT_LIVE e.1)).length

/-- Total of the live reservations in GB/s. -/
def Ctl.confTotal (c : Ctl) : Nat := (List.range 8).foldl (fun a k => a + c.get (R.QOS_CLASS_CFG_RESERVE k)) 0

/-- Segments kept at a host park (R167): KEEP or FORCED. -/
def Ctl.pasrKept (c : Ctl) : Nat := c.get R.STK_PASR_MASK_KEEP ||| c.get R.STK_PASR_MASK_FORCED

/-- Milliseconds since DL_Down while DOWN (HDx_STATE.DOWN_MS). -/
def Ctl.downMs (c : Ctl) (h : Head) : Nat :=
  if c.hstate h = 3 then min 0xFFFF ((c.clock - (c.hd h).downAt) / 1000000) else 0

/-- The TIM_STATUS word. -/
def Ctl.timStatus (c : Ctl) : Nat :=
  c.get R.TIM_STATUS_TIME_UNTRUSTED * 2 ^ 31 + c.get R.TIM_STATUS_HOLDOVER * 2 ^ 30 +
    c.get R.TIM_STATUS_OFFSET_VALID * 2 ^ 29 + c.get R.TIM_STATUS_SOURCE * 2 ^ 24 +
    c.get R.TIM_STATUS_B_LOCKED * 2 ^ 17 + c.get R.TIM_STATUS_A_LOCKED * 2 ^ 16

/-- A gate domain has work pending (R333, R334). -/
def Ctl.domainBusy (c : Ctl) (d : Nat) : Bool :=
  let runs := fun (hash : Bool) => c.job.jobs.any fun j => decide (j.phase = .running) &&
    (if hash then decide (le j.desc 0 1 = 6) else decide (le j.desc 0 1 ≠ 6) && decide (le j.desc 0 1 ≠ 9))
  if d < 8 then runs false
  else if d = 8 then !c.dec.queue.isEmpty
  else if d = 9 then runs true
  else if d < 12 then !c.sea.sealing.isEmpty ||
    (c.stk.memWait.any fun r => decide (c.get (R.SEA_GRAN_STATE (r.dpa / 2 ^ 30)) ≠ 0)) ||
    c.ecc.merges.any fun m => decide (c.get (R.SEA_GRAN_STATE (m.sa / 2 ^ 30)) ≠ 0)
  else if d = 12 then !c.frg.passes.isEmpty
  else if d < 17 then !(c.lane (d - 13)).pending.isEmpty || !(c.lane (d - 13)).waiting.isEmpty || !(c.lane (d - 13)).landing.isEmpty
  else c.flag (R.HD_STATE_LINK_UP 1)

/-- Bytes of transfers that have completed at their banks and are not in the counters yet (R237). -/
def Ctl.landed (c : Ctl) (f : Req → Bool) : Nat :=
  (c.stk.chans.map fun e => ((e.2.flight.filter fun x => decide (x.ends ≤ c.clock * 1000) && f x.req).map Flight.bytes).sum).sum

/-- A request counts in the bandwidth counter of a class and a direction. -/
def Req.inClass (k : Nat) (write : Bool) (r : Req) : Bool := r.kind.port?.isSome && decide (r.cls = k) && decide (r.write = write)

/-- Fields that mirror or count other state, one register each: bit address and value. -/
def scalarViews : List (Nat × (Ctl → Nat)) :=
  [(R.IDC_PART_ID_PART_NUMBER.key, fun c => if c.part = .rc4812 then 0x4812 else 0x3208),
   (R.IDC_STACK_GEOM_DIES.key, fun c => c.nd),
   (R.MAP_LAYOUT_RES_ROW_BASE.key, fun c => c.resRowBase),
   (R.IDC_SEAL_INFO_MAX_BUDGET.key, fun c => c.maxBudget),
   (R.IDC_SEAL_INFO_BUDGET.key, fun c => c.get R.MAP_LAYOUT_SEAL_BUDGET),
   (R.IDC_ROWL_INFO_IN_SERVICE.key, fun c => maskOf 4 c.laneUp),
   (R.IDC_ROWL_DIEMAP_LANE_OF_DIE.key, fun c => if c.part = .rc4812 then 0xE4E4E4 else 0xE4E4),
   (R.ROWL_STATUS_LANE0.key, fun c => c.laneState 0), (R.ROWL_STATUS_LANE1.key, fun c => c.laneState 1),
   (R.ROWL_STATUS_LANE2.key, fun c => c.laneState 2), (R.ROWL_STATUS_LANE3.key, fun c => c.laneState 3),
   (R.IDC_ROWL_SPARE_MIN_LANE0.key, fun c => c.laneSpareMin 0), (R.IDC_ROWL_SPARE_MIN_LANE1.key, fun c => c.laneSpareMin 1),
   (R.IDC_ROWL_SPARE_MIN_LANE2.key, fun c => c.laneSpareMin 2), (R.IDC_ROWL_SPARE_MIN_LANE3.key, fun c => c.laneSpareMin 3),
   (R.IDC_ROWL_COL_SPARE_CH_NONE_LEFT.key, fun c => c.colSpare 0), (R.IDC_ROWL_COL_SPARE_CH_ONE_LEFT.key, fun c => c.colSpare 1),
   (R.IDC_ROWL_COL_SPARE_CH_TWO_LEFT.key, fun c => c.colSpare 2),
   (R.STK_ACT_CFG_EFFECTIVE_MAX.key, fun c => c.effectiveMax),
   (R.CLK_GATE_STAT_OPEN.key, fun c => if c.part = .rc4812 then c.get R.CLK_GATE_STAT_OPEN else maskOf 18 c.domainBusy),
   (R.IDC_HEAD_STATE_A_STATE.key, fun c => c.hstate .a), (R.IDC_HEAD_STATE_B_STATE.key, fun c => c.hstate .b),
   (R.IDC_HEAD_STATE_A_ADOPTED.key, fun c => c.get (R.HD_STATE_ADOPTED 0)),
   (R.IDC_HEAD_STATE_B_ADOPTED.key, fun c => c.get (R.HD_STATE_ADOPTED 1)),
   (R.IDC_TIME_STATE_STATUS.key, Ctl.timStatus),
   (R.IDC_OTP_ID_LC_STATE.key, fun c => c.get R.FUS_STATUS_LC_STATE),
   (R.IDC_OTP_ID_MIN_SVN.key, fun c => c.get R.FUS_STATUS_MIN_SVN),
   (R.IDC_OTP_ID_FUSED_MAX.key, fun c => c.get R.STK_ACT_CFG_FUSED_MAX),
   (R.IDC_FW_STAT_MIN_SVN.key, fun c => c.get R.FUS_STATUS_MIN_SVN),
   (R.CMB_JOBS_INFLIGHT_SLOTS.key, Ctl.slotsHeld), (R.CMB_JOBS_INFLIGHT_OCS_JOBS.key, Ctl.ocsSlots),
   -- an entry that is being computed counts in PINNED and not in VALID (DESIGN CHOICE, notes/assumptions/114.md)
   (R.CMB_DMC_STAT_VALID.key, fun c => (c.dec.entries.filter fun e => e.rows.isSome).length),
   (R.CMB_DMC_STAT_PINNED.key, fun c => (c.dec.entries.filter fun e => c.dec.wants.any fun w => decide (w.2 = e.key)).length),
   (R.MAP_TIER_XOR_MASK.key, fun c => if c.part = .rc4812 then 0 else c.get R.MAP_TIER_XOR_MASK),
   (R.STX_CACHE_STAT_DIRTY.key, fun c => min 0x1FFFF c.stx.dirty.length),
   (R.STX_CACHE_STAT_PINNED.key, fun c => min 0x7FFF ((c.stx.pins.map Prod.snd).eraseDups).length),
   (R.STK_PASR_MASK_EFFECTIVE.key, Ctl.pasrKept),
   (R.ECC_MIRE_STAT_STAGED.key, fun c => c.ecc.staging.length),
   (R.FRG_STATUS_BUSY.key, fun c => bit (!c.frg.passes.isEmpty)),
   (R.FRG_STATUS_SOURCE.key, fun c => match c.frg.passes with
     | p :: _ => if p.slot.isSome then 0 else 1
     | [] => 0),
   (R.FRG_STATUS_QUEUED.key, fun c => c.frg.passes.length - 1),
   (R.FRG_POS_ADDR.key, fun c => match c.frg.passes with
     | p :: _ => p.pos
     | [] => 0),
   (R.SEA_STATUS_FLUSH_BUSY.key, fun c => bit (!c.sea.dirty.isEmpty)),
   (R.SEA_STATUS_UNV_NODES.key, fun c => c.sea.unv.length), (R.SEA_STATUS_KEYS_LIVE.key, Ctl.keysLive),
   (R.FLT_STATUS_CLASS_PEND.key, fun c => maskOf 25 c.classPending),
   (R.QOS_OVERCOMMIT_CONF_TOTAL.key, Ctl.confTotal),
   (R.QOS_BW_META_BYTES.key, fun c => min (2 ^ 64 - 1) (c.get R.QOS_BW_META_BYTES +
     c.landed fun r => decide (r.kind = .correction) || decide (r.kind = .sealMeta))),
   (R.QOS_BW_FRG_BYTES.key, fun c => min (2 ^ 64 - 1) (c.get R.QOS_BW_FRG_BYTES + c.landed fun r => decide (r.kind = .forager))),
   (R.QOS_INGEST_STAT_FILL.key, fun c => c.inIngest.length),
   (R.CAL_STATUS_BUSY.key, fun c => bit c.cal.current.isSome), (R.CAL_STATUS_DIE.key, fun c => c.cal.current.getD 0),
   (R.CAL_STATUS_QUEUED.key, fun c => maskOf 12 fun d => c.cal.queue.contains d),
   (R.SPI_STATUS_BUSY.key, fun c => bit (!c.sbp.writes.isEmpty && decide (c.kpr.phase = 3))),
   (R.SPI_STATUS_WP_HIGH.key, fun c => bit (!c.sbp.writes.isEmpty && decide (c.kpr.phase = 3))),
   (R.SPI_RECORDS_USABLE.key, fun c => maskOf 8 fun r => (c.record (r + 1)).isSome)]

/-- Arrays of such fields: first bit address, stride in bits, count, value by index. -/
def arrayViews : List (Nat × Nat × Nat × (Ctl → Nat → Nat)) :=
  [((R.JRG_SQ_STATUS_IN_FLIGHT 0).key, 0x200, 64, Ctl.sqInFlight),
   ((R.JRG_SQ_STATUS_DRAINED 0).key, 0x200, 64, fun c q => bit (decide (c.sqInFlight q = 0))),
   ((R.JRG_CQ_STATUS_FULL 0).key, 0x200, 64, fun c q => bit (c.cqWaits q)),
   ((R.HD_HELD_CPL_HELD 0).key, 0x80000, 2, fun c n => c.heldCpl (Head.ofNum n)),
   ((R.HD_STATE_DOWN_MS 0).key, 0x80000, 2, fun c n => c.downMs (Head.ofNum n)),
   ((R.MAP_GRAN_SEALED 0).key, 32, 64, fun c n => bit (decide (c.get (R.SEA_GRAN_STATE n) ≠ 0))),
   ((R.DMC_QSTAT_OCCUPANCY 0).key, 0x20000, 48, fun c n => (c.chan n).queue.length),
   ((R.DMC_QSTAT_PROMOTED 0).key, 0x20000, 48, fun c n =>
     ((c.chan n).queue.filter fun r => r.kind.port?.isSome && c.aged r.cls r.arrival).length),
   ((R.DMC_QSTAT_OVERDUE 0).key, 0x20000, 48, fun c n =>
     ((c.chan n).queue.filter fun r => decide (r.deadline < c.now) && decide (r.kind ≠ .correction) &&
       decide (r.kind ≠ .sealMeta) && decide (r.kind ≠ .forager)).length),
   ((R.DMC_REF_STAT_DOUBLE 0).key, 0x20000, 48, fun c n => bit (tb (c.get R.STK_REF_RATE_DOUBLE) (n / 4))),
   ((R.DMC_REF_STAT_IN_SR 0).key, 0x20000, 48, fun c n => bit (tb (c.get R.STK_SR_STAT_IN_SR) (n / 4))),
   ((R.QOS_CLASS_STAT_WAITING 0).key, 32, 8, fun c k =>
     min 0xFFFF ((c.stk.chans.map fun e => (e.2.waiting.filter fun r => decide (r.cls = k) && decide (r.kind ≠ .correction) &&
       decide (r.kind ≠ .sealMeta) && decide (r.kind ≠ .forager)).length).sum +
       (c.stk.lanes.map fun e => (e.2.waiting.filter fun x => decide (x.cls = k)).length).sum +
       (c.stk.memWait.filter fun r => decide (r.cls = k)).length)),
   ((R.QOS_BW_RD_BYTES 0).key, 128, 8, fun c k => min (2 ^ 64 - 1) (c.get (R.QOS_BW_RD_BYTES k) + c.landed (Req.inClass k false))),
   ((R.QOS_BW_WR_BYTES 0).key, 128, 8, fun c k => min (2 ^ 64 - 1) (c.get (R.QOS_BW_WR_BYTES k) + c.landed (Req.inClass k true))),
   ((R.ROWL_ARB_STAT_PENDING 0).key, 32, 4, fun c n => (c.lane n).pending.length),
   ((R.ROWL_ARB_STAT_RUN 0).key, 32, 4, fun c n => (c.lane n).run),
   ((R.ROWL_ARB_STAT_DIR 0).key, 32, 4, fun c n => bit (c.lane n).write)]

/-- What a read of a field returns: the field's own value, or the state it mirrors. -/
def Ctl.view (c : Ctl) (f : Fld) : Nat :=
  match scalarViews.find? fun e => decide (e.1 = f.key) with
  | some e => e.2 c % 2 ^ f.width
  | none =>
    match arrayViews.find? fun e => decide (e.1 ≤ f.key) && decide ((f.key - e.1) % e.2.1 = 0) &&
        decide ((f.key - e.1) / e.2.1 < e.2.2.1) with
    | some e => e.2.2.2 c ((f.key - e.1) / e.2.1) % 2 ^ f.width
    | none => c.get f

/-! ## Finding a register -/

/-- A register found at an offset: its row, its indices, its first byte and the word of it named. -/
structure RegAt where
  row : RegRow
  i : Nat
  j : Nat
  base : Nat
  word : Nat

/-- A row of the map holds an offset. -/
def RegRow.at? (r : RegRow) (off : Nat) : Option RegAt :=
  if off < r.base then none else
  let d := off - r.base
  let i := if r.s1 = 0 then 0 else d / r.s1
  let e := if r.s1 = 0 then d else d % r.s1
  let j := if r.s2 = 0 then 0 else e / r.s2
  let k := if r.s2 = 0 then e else e % r.s2
  if i < r.n1 ∧ j < r.n2 ∧ k < r.size then some ⟨r, i, j, off - k, k / 4⟩ else none

/-- The register at an offset of BAR0, none in a hole (R405). -/
def findReg (off : Nat) : Option RegAt := regRows.findSome? fun r => r.at? off

/-- The fields of a register as a head reaches them: the window registers of R406 are the head's own copy. -/
def RegAt.fieldsOf (a : RegAt) (h : Head) : List FieldRow :=
  if a.row.perHead then a.row.fields h.num a.j else a.row.fields a.i a.j

/-- The bit address of a register's first bit, for a head's copy where the register is head-specific. -/
def RegAt.key0 (a : RegAt) (h : Head) : Nat := a.base * 8 + (if a.row.perHead then h.num * 2 ^ 40 else 0)

/-- The registers that read zero on the RC-3208 and take no write: those of dies D8 to D11, of channels CH32 to CH47,
and the gating registers (R46, R333). -/
def Ctl.hiddenReg (c : Ctl) (off : Nat) : Bool :=
  let inArr := fun (base stride lo hi : Nat) => decide (base + stride * lo ≤ off) && decide (off < base + stride * hi)
  decide (c.part = .rc3208) &&
    (decide (off = 0x10100) || decide (off = 0x10108) || inArr 0x320140 4 8 12 || inArr 0x150100 4 8 12 ||
      inArr 0x150140 4 8 12 || inArr 0x150200 8 8 12 || inArr 0x60100 8 8 12 || inArr 0x60200 4 64 96 || inArr 0x60400 4 8 12 ||
      inArr 0x70100 8 8 12 || inArr 0x40100 4 8 12 || inArr 0x310100 4 32 48 || inArr 0x200000 0x4000 32 48)

/-- The window of an offset has its gate closed (R334): CMB while slices, inverter and hash units are all closed, FRG
with the Forager's gate. -/
def Ctl.gateClosed (c : Ctl) (off : Nat) : Bool :=
  decide (c.part = .rc4812) &&
    ((decide (off / 65536 = 0x10) && decide (c.get R.CLK_GATE_EN_EN % 1024 = 0)) ||
      (decide (off / 65536 = 0x14) && !tb (c.get R.CLK_GATE_EN_EN) 12))

/-! ## Reading -/

/-- The whole value of a register; write-only fields read zero (R9). -/
def Ctl.regValue (c : Ctl) (a : RegAt) (h : Head) : Nat :=
  (a.fieldsOf h).foldl (fun v r =>
    if r.acc = .wo then v else v + c.view r.fld * 2 ^ (r.fld.key - a.key0 h)) 0

/-- A read clears the RC fields of the word read (R9, R10). -/
def Ctl.clearRc (c : Ctl) (a : RegAt) (h : Head) : Ctl :=
  (a.fieldsOf h).foldl (fun c r =>
    if r.acc = .rc ∧ (r.fld.key - a.key0 h) / 32 = a.word then c.set r.fld 0 else c) c

/-- The number a requester has in the snapshot table: the heads, and each CFG_READ command (R12). -/
inductive Requester where
  | head (h : Head)
  | command (h : Head)
  deriving DecidableEq, Repr

/-- The head a requester acts for. -/
def Requester.of : Requester → Head
  | .head h => h
  | .command h => h

/-- The key of a requester's snapshot of the register at a byte offset. -/
def Requester.snapKey (r : Requester) (base : Nat) : Nat := match r with
  | .head h => base + h.num * 2 ^ 32
  | .command h => base + (2 + h.num) * 2 ^ 32

/-- A read of one 32-bit word of BAR0 (R12, R405): holes and closed windows read zero, a low word of a 64-bit register
takes the requester's snapshot, a high word serves from it, and the RC fields of the word clear. -/
def Ctl.readWord (c : Ctl) (q : Requester) (off : Nat) : Nat × Ctl :=
  match findReg off with
  | none => (0, c)
  | some a =>
    if c.gateClosed off then (0, c.bump R.CLK_GATED_ACC_CNT_ACCESSES) else
    if c.hiddenReg off then (0, c) else
    let v := c.regValue a q.of
    if a.row.size = 8 then
      if a.word = 0 then (v % 2 ^ 32, { c with snap := mapPut c.snap (q.snapKey a.base) v })
      else ((((mapGet c.snap (q.snapKey a.base)).getD v) / 2 ^ 32) % 2 ^ 32, c)
    else (v % 2 ^ 32, c.clearRc a q.of)

/-- An aligned 64-bit read of BAR0: both halves of one new snapshot of a 64-bit register, or two words (R12); one access to a closed
window (R334). -/
def Ctl.readWide (c : Ctl) (q : Requester) (off : Nat) : Nat × Ctl :=
  if c.gateClosed off && ((findReg off).isSome || (findReg (off + 4)).isSome) then (0, c.bump R.CLK_GATED_ACC_CNT_ACCESSES) else
  let (lo, c1) := c.readWord q off
  let (hi, c2) := c1.readWord q (off + 4)
  (lo + hi * 2 ^ 32, c2)

/-! ## Writing -/

/-- A field after a write of one word: `pos` is its place in its register, `w` the word written, `v` its value. A field
wholly outside the word keeps its value. -/
def mergeField (old width pos w v : Nat) : Nat :=
  let whole := old * 2 ^ pos
  let low := whole % 2 ^ (32 * w)
  let high := whole / 2 ^ (32 * w + 32)
  ((low + (v % 2 ^ 32) * 2 ^ (32 * w) + high * 2 ^ (32 * w + 32)) / 2 ^ pos) % 2 ^ width

/-- A field shares a bit with the word written. -/
def inWord (pos width w : Nat) : Bool := decide (pos < 32 * w + 32) && decide (32 * w < pos + width)

/-- What a write does to one field by its access type (R9). `configOk` is false for a write that R20 keeps from the
configuration fields. -/
def Ctl.writeField (c : Ctl) (r : FieldRow) (pos w v : Nat) (configOk : Bool) : Ctl :=
  if inWord pos r.fld.width w then
    let bits := mergeField 0 r.fld.width pos w v
    match r.acc with
    | .rw => if configOk then c.set r.fld (mergeField (c.get r.fld) r.fld.width pos w v) else c
    | .w1c => c.set r.fld (c.get r.fld - (c.get r.fld &&& bits))
    | .w1s => if configOk then c.set r.fld (c.get r.fld ||| bits) else c
    | .wo => c
    | .ro => c
    | .rc => c
  else c

/-- Every field of the word written by its access type. -/
def Ctl.writeFields (c : Ctl) (a : RegAt) (h : Head) (v : Nat) (configOk : Bool) : Ctl :=
  (a.fieldsOf h).foldl (fun c r => c.writeField r (r.fld.key - a.key0 h) a.word v configOk) c

/-- Writing `v` to the word is a configuration write, which R20 protects: the word has an RW field or a WO one of several bits, whose
0 names something too, or the write sets a bit of a WO or W1S one. -/
def RegAt.hasConfig (a : RegAt) (h : Head) (v : Nat) : Bool :=
  (a.fieldsOf h).any fun r =>
    let k := r.fld.key - a.key0 h
    inWord k r.fld.width a.word && (decide (r.acc = .rw) || (decide (r.acc = .wo) && decide (1 < r.fld.width)) ||
      ((decide (r.acc = .wo) || decide (r.acc = .w1s)) &&
      decide (v / 2 ^ (k - 32 * a.word) % 2 ^ r.fld.width ≠ 0)))

/-- What some fields hold whatever is written: the fixed bits of FLT_SRC_CFG_n (R374, R375, R379, R380) the bits of
ECC_MODE that the RC-3208 has no die for, and the low bits of PHYL_SCAN_IDX_n, which a write ignores (R285). -/
def Ctl.fixFields (c : Ctl) (off : Nat) : Ctl :=
  if 0x81000 ≤ off ∧ off < 0x81A00 then
    let n := (off - 0x81000) / 4
    if (faultRow n).isNone then
      (((c.set (R.FLT_SRC_CFG_AER n) 0).set (R.FLT_SRC_CFG_RECORD n) 0).set (R.FLT_SRC_CFG_REACT n) 0).set
        (R.FLT_SRC_CFG_SEVERITY n) 0
    else
      let c1 := if 584 ≤ n ∧ n ≤ 599 then c.set (R.FLT_SRC_CFG_AER n) 0 else c
      let c2 := if 548 ≤ n ∧ n ≤ 550 then
          (c1.set (R.FLT_SRC_CFG_RECORD n) 1).set (R.FLT_SRC_CFG_SEVERITY n) (max 1 (c1.get (R.FLT_SRC_CFG_SEVERITY n)))
        else c1
      let r := c2.get (R.FLT_SRC_CFG_REACT n)
      if n = 620 ∨ n = 621 then c2.set (R.FLT_SRC_CFG_REACT n) (r ||| 4)
      else if hasBlockReset n then c2 else c2.set (R.FLT_SRC_CFG_REACT n) (r &&& 27)
  else if off = 0x150000 ∧ c.part = .rc3208 then c.set R.ECC_MODE_HEAVY (c.get R.ECC_MODE_HEAVY % 256)
  else if 0xE0000 ≤ off ∧ off < 0xF0000 ∧ off % 0x1000 = 0x34 then
    let f := R.PHYL_SCAN_IDX_IDX ((off - 0xE0000) / 0x1000)
    c.set f (c.get f / 4 * 4)
  else c

/-- The block window an offset lies in, by its first 64 KiB (R404): the channel controllers share one. -/
def blockOf (off : Nat) : Nat := if 0x20 ≤ off / 65536 ∧ off / 65536 ≤ 0x2B then 0x20 else off / 65536

/-- A block window is claimed for a command of some head (R20). -/
def Ctl.claimed (c : Ctl) (block : Nat) : Bool := c.claims.any fun e => decide (e.1 % 256 = block)

/-- The ring whose registers hold an offset: is it an SQ, and its number. -/
def ringAt (off : Nat) : Option (Bool × Nat) :=
  if 0x111000 ≤ off ∧ off < 0x112000 then some (true, (off - 0x111000) / 0x40)
  else if 0x112000 ≤ off ∧ off < 0x113000 then some (false, (off - 0x112000) / 0x40)
  else none

/-- Why a head's write is not performed by the ownership rules of its register: 0 none, 1 a foreign ring (R87, R123),
2 the other head's fence timeout (R270), 3 a lane of the other head (R285). -/
def Ctl.foreign (c : Ctl) (h : Head) (off v : Nat) : Nat :=
  match ringAt off with
  | some (sq, q) => if (if sq then c.sqOwner q else c.cqOwner q) = h then 0 else 1
  | none =>
    if off = 0x110020 then (if c.sqOwner (v / 2 ^ 24 % 64) = h then 0 else 1)
    else if off = 0xB0004 then (if h = .a then 0 else 2)
    else if off = 0xC0004 then (if h = .b then 0 else 2)
    else if 0xE0000 ≤ off ∧ off < 0xF0000 then (if c.headOfLane ((off - 0xE0000) / 0x1000) = h then 0 else 3)
    else 0

/-- A count of a head's discarded writes in a register with one count per head. -/
def Ctl.dropCount (c : Ctl) (h : Head) (fa fb : Fld) : Ctl := match h with
  | .a => c.bump fa
  | .b => c.bump fb

/-- What becomes of a head's own write to BAR0 (R248, R19, R334, R20, R87, R123, R270, R285): performed on every field,
performed on the status fields alone, or discarded with its count. -/
inductive WriteFate where
  | perform
  | statusOnly
  | discard
  deriving DecidableEq, Repr

/-- The checks before a head's write, in the order fence, stream, hole, level, gate, ownership, claim. A write to a hole counts in no
register, whatever the level (R19, R405; DESIGN CHOICE, notes/assumptions/106.md). -/
def Ctl.judgeWrite (c : Ctl) (h : Head) (off v : Nat) : WriteFate × Ctl :=
  if c.fenced h || c.ioRefused h ((c.hd h).bar0 + off) || (findReg off).isNone then (.discard, c)
  else if !c.expert h && decide (65536 ≤ off) then
    (.discard, c.dropCount h R.IDC_LEVEL_DROP_CNT_A_DROPS R.IDC_LEVEL_DROP_CNT_B_DROPS)
  else if c.gateClosed off then (.discard, c.bump R.CLK_GATED_ACC_CNT_ACCESSES)
  else if c.foreign h off v = 1 then
    (.discard, c.dropCount h R.JRG_FOREIGN_DROP_CNT_A_DROPS R.JRG_FOREIGN_DROP_CNT_B_DROPS)
  else if c.foreign h off v = 2 then
    (.discard, c.dropCount h R.IDC_LEVEL_DROP_CNT_A_DROPS R.IDC_LEVEL_DROP_CNT_B_DROPS)
  else if c.foreign h off v = 3 then (.discard, c.bump R.PHYC_LOOP_DROPS)
  else if c.claimed (blockOf off) then
    match findReg off with
    | some a => if a.hasConfig h v then
        (.statusOnly, (c.bump R.IDC_CLAIM_DROP_CNT_COUNT).set R.IDC_CLAIM_DROP_CNT_LAST_BLOCK (off / 65536))
      else (.perform, c)
    | none => (.perform, c)
  else (.perform, c)

/-- The shadows of a block that a claim discards: they read the live values again (R20). -/
def Ctl.dropShadows (c : Ctl) (block : Nat) : Ctl :=
  let cp := fun (c : Ctl) (live sh : Fld) => c.set sh (c.get live)
  if block = 0x16 then (List.range 16).foldl (fun c n =>
      cp (cp (cp c (R.MAP_COMB_LO_EN n) (R.MAP_COMB_SH_LO_EN n)) (R.MAP_COMB_LO_BASE_BAND n) (R.MAP_COMB_SH_LO_BASE_BAND n))
        (R.MAP_COMB_HI_BANDS n) (R.MAP_COMB_SH_HI_BANDS n)) c
  else if block = 0x32 then
    cp (cp c R.STK_ACT_CFG_ROW_SHARE R.STK_ACT_CFG_SH_ROW_SHARE) R.STK_ACT_CFG_ACT_MAX R.STK_ACT_CFG_SH_ACT_MAX
  else if block = 0xA then
    let c1 := (List.range 8).foldl (fun c k =>
      cp (cp (cp c (R.QOS_CLASS_CFG_RESERVE k) (R.QOS_CLASS_CFG_SH_RESERVE k)) (R.QOS_CLASS_CFG_LANE_LIMIT k)
        (R.QOS_CLASS_CFG_SH_LANE_LIMIT k)) (R.QOS_CLASS_CFG_LIMIT k) (R.QOS_CLASS_CFG_SH_LIMIT k)) c
    let c2 := cp (cp c1 R.QOS_HEAD_CLASS_A_CLASS R.QOS_HEAD_CLASS_SH_A_CLASS) R.QOS_HEAD_CLASS_B_CLASS R.QOS_HEAD_CLASS_SH_B_CLASS
    let c3 := (List.range 16).foldl (fun c i =>
      let h := i / 8
      let w := i % 8
      cp (cp (cp (cp c (R.QOS_WIN_LO_EN h w) (R.QOS_WIN_SH_LO_EN h w)) (R.QOS_WIN_LO_CLASS h w) (R.QOS_WIN_SH_LO_CLASS h w))
        (R.QOS_WIN_LO_BASE_MIB h w) (R.QOS_WIN_SH_LO_BASE_MIB h w)) (R.QOS_WIN_HI_SIZE_MIB h w) (R.QOS_WIN_SH_HI_SIZE_MIB h w)) c2
    let c4 := (List.range 5).foldl (fun c p =>
      cp (cp c (R.QOS_PORT_LAT_RAMP p) (R.QOS_PORT_LAT_SH_RAMP p)) (R.QOS_PORT_LAT_TARGET p) (R.QOS_PORT_LAT_SH_TARGET p)) c3
    cp (cp c4 R.QOS_INGEST_CFG_PANIC_ON R.QOS_INGEST_CFG_SH_PANIC_ON) R.QOS_INGEST_CFG_PANIC_OFF R.QOS_INGEST_CFG_SH_PANIC_OFF
  else c

/-- A claim taken on a block for a head's command (R20, R293). -/
def Ctl.claim (c : Ctl) (h : Head) (block : Nat) : Ctl :=
  let c1 := c.dropShadows block
  { c1 with claims := (block, h) :: c1.claims }

/-- A block is claimed for the other head's command, or that command waits for a claim of it (R293). -/
def Ctl.claimedByOther (c : Ctl) (h : Head) (block : Nat) : Bool :=
  (c.claims.any fun e => decide (e.1 % 256 = block) && decide (e.2 = h.other)) ||
    match (c.hd h.other).mbox.pend with
    | some q => decide (q.wait = .slot) && (c.hd h.other).mbox.waitBlocks.contains block
    | none => false

/-! ## Readings of the sensors (R311, R313) -/

/-- A signed value of `w` bits. -/
def signedOf (w n : Nat) : Int := if n < 2 ^ (w - 1) then (n : Int) else (n : Int) - 2 ^ w

/-- A signed value as a 16-bit field holds it. -/
def toS16 (v : Int) : Nat := (v % 65536).toNat

/-- A reading as every comparison takes it (R311): 8 C more for a sensor that is not trimmed; units of 0.25 C. -/
def Ctl.sensTemp (c : Ctl) (n : Nat) : Int :=
  signedOf 16 (c.get (R.THM_SENS_READING n)) + (if c.flag (R.THM_SENS_TRIMMED n) then 0 else 32)

/-- The greatest of a list, none when it is empty. -/
def maxOf : List Int → Option Int
  | [] => none
  | a :: t => match maxOf t with
    | some b => some (max a b)
    | none => some a

/-- Valid sensors of the base die from `lo` on, below `hi`. -/
def Ctl.baseTemps (c : Ctl) (lo hi : Nat) : List Int :=
  (((List.range (hi - lo)).map fun i => lo + i).filter fun n => c.flag (R.THM_SENS_VALID n)).map c.sensTemp

/-- The governing temperature of the base die: its hottest valid sensor, if any. -/
def Ctl.governBase (c : Ctl) : Option Int := maxOf (c.baseTemps 96 128)

end Sys2Proof.Machine
end

