-- ==== Sys2Proof/Machine/Ecc.lean ====
section
/-! DEFINITION. Line ECC, the mire log, error thresholds, retirement, migration and the Forager (chapter 8), and the
in-service TSV repairs and die feeds that lead to retirement (chapter 2). -/

namespace Sys2Proof.Machine

/-! ## Stripe-table lines -/

/-- Stack address of entry x of the stripe table (R127). -/
def Ctl.ctxAddr (c : Ctl) (x : Nat) : Nat := c.get R.MAP_STX_BASE_GRAN * 65536 + 64 * x

/-- Number of entries of the stripe table. -/
def ctxCount : Nat := 4194304

/-- A stack address lies in the stripe table. -/
def Ctl.inStripeTable (c : Ctl) (sa : Nat) : Bool :=
  decide (c.ctxAddr 0 ≤ sa) && decide (sa < c.ctxAddr ctxCount) && c.flag R.MAP_STX_BASE_GRAN

/-- An entry as it stands: the listed one; an unlisted one is FREE, or LOST when its row was lost with its die (R127,
R147). -/
def Ctl.ctxEntry (c : Ctl) (x : Nat) : CtxEntry :=
  (mapGet c.stx.entries x).getD (if c.rowLost (c.ctxAddr x) then .lost else .free)

/-- An entry is free: one that a TRANSCODE reserves is not. -/
def Ctl.entryFree (c : Ctl) (x : Nat) : Bool :=
  decide (c.ctxEntry x = .free) && !(c.stx.reserved.any fun r => decide (r.2 = x))

/-- The count of free entries changed, and the table-low event of R148, source 573, once per crossing. -/
def Ctl.freeChange (c : Ctl) (x : Nat) (new : Nat) : Ctl :=
  let low := c.get R.STX_CFG_LOW_WATER
  let c1 := c.set R.STX_FREE_CNT_FREE new
  if low ≤ c.get R.STX_FREE_CNT_FREE ∧ new < low then c1.fault 573 x else c1

/-- Entries that are no longer dirty; a section's bit clears with its last dirty entry (R145). -/
def Ctl.ctxClean (c : Ctl) (gone : Nat → Bool) : Ctl :=
  let d := c.stx.dirty.filter fun y => !gone y
  { c with stx := { c.stx with
    dirty := d
    sections := c.stx.sections.filter fun t =>
      !(c.stx.dirty.any fun y => gone y && decide (y / 1024 = t)) || d.any fun y => decide (y / 1024 = t) } }

/-- An entry made LOST by an error of its line (R131, R147). -/
def Ctl.loseCtx (c : Ctl) (x : Nat) : Ctl :=
  if c.ctxEntry x = .lost then c else
  let c1 := if c.entryFree x then c.freeChange x (c.get R.STX_FREE_CNT_FREE - 1) else c
  { c1.ctxClean (fun y => decide (y = x)) with stx.entries := mapPut c1.stx.entries x .lost }.bump R.STX_LOST_CNT_LOST

/-! ## Mire -/

/-- A mire record (R177): staged with the next sequence number, or dropped and counted when the staging buffer is
full. -/
def Ctl.mireRecord (c : Ctl) (wh cause source : Nat) : Ctl :=
  if c.ecc.staging.length < 512 then
    { c with ecc.staging := c.ecc.staging ++ [MireRec.mk (c.get R.ECC_MIRE_SEQ_NEXT) wh cause source c.now] }.set
      R.ECC_MIRE_SEQ_NEXT (c.get R.ECC_MIRE_SEQ_NEXT + 1)
  else c.bump R.ECC_MIRE_STAT_DROPS

/-- The Memory Module Event record of the health state (R188, R189), with a mask of removed granules and their number. What a start
finds is announced when the links train. -/
def Ctl.healthEvent (c : Ctl) (reason mask number : Nat) : Ctl :=
  let st := c.get R.ECC_HEALTH_STATE
  if c.rst.awaiting = 8 then
    c.forHeads fun h c => c.event h (if st = 1 then logWarn else if st = 2 then logFail else logFatal) kindModule reason 0xFFFF mask
      number
  else c

/-- ECC_HEALTH raised (R188): the state never falls, REASON is the latest; a rise or a new reason raises a Memory
Module Event record, and with it the MSI-X interrupt its log asks for, on every head that is not fenced. -/
def Ctl.raiseHealth (c : Ctl) (state reason : Nat) : Ctl :=
  let old := c.get R.ECC_HEALTH_STATE
  let new := max old state
  let c1 := (c.set R.ECC_HEALTH_STATE new).set R.ECC_HEALTH_REASON reason
  if old < new ∨ c.get R.ECC_HEALTH_REASON ≠ reason then c1.healthEvent reason 0 0 else c1

/-- The reserve is unbound or bound to a die (R182, R183). -/
def Ctl.reserveFor (c : Ctl) (d : Nat) : Bool :=
  !c.flag R.MAP_LAYOUT_RES_BOUND || decide (c.get R.MAP_LAYOUT_RES_DIE = d)

/-- A cause of retirement kept until the next beat boundary (R183); an abrupt failure takes the place of another cause of its unit. -/
def Ctl.addCause (c : Ctl) (k : RetCause) : Ctl :=
  if c.ecc.causes.any fun e => decide (e.kind = k.kind) && decide (e.unit = k.unit) then
    (if k.abrupt then { c with ecc.causes := c.ecc.causes.map fun e => if e.kind = k.kind ∧ e.unit = k.unit then k else e } else c)
  else { c with ecc.causes := c.ecc.causes ++ [k] }

/-- The threshold test of R182 on a die, against the thresholds in force in this window. -/
def Ctl.testThreshold (c : Ctl) (d : Nat) : Ctl :=
  let past := (decide (c.ecc.ceThresh ≠ 0) && decide (c.ecc.ceThresh * 64 ≤ c.get (R.ECC_CE_SCORE_COUNT d))) ||
    (decide (c.ecc.ueThresh ≠ 0) && decide (c.ecc.ueThresh ≤ c.get (R.ECC_UE_CNT_COUNT d)))
  if c.ecc.window = 0 ∨ c.dieRetired d ∨ !past then c
  else if c.reserveFor d then c.addCause ⟨1, 0, d, false⟩
  else if c.ecc.crossed.contains d then c
  else { c with ecc.crossed := d :: c.ecc.crossed }.raiseHealth 2 6

/-- What a line that becomes mired leaves behind (R175, R177, R182): its record, the mire fault of its channel but for
the seal causes, the mire count of its die for cause 0x01, and a LOST context for a line of the stripe table. -/
def Ctl.mireNote (c : Ctl) (sa cause source : Nat) : Ctl :=
  let ch := (c.place sa).chan
  let c1 := c.mireRecord (sa / 64) cause source
  let c2 := if cause = 2 ∨ cause = 3 then c1 else c1.lineFault (48 + ch) sa
  let c3 := if cause = 1 then (c2.bump (R.ECC_UE_CNT_COUNT (ch / 4))).testThreshold (ch / 4) else c2
  if c3.inStripeTable sa then c3.loseCtx ((sa - c3.ctxAddr 0) / 64) else c3

/-- A line is mired now. -/
def LineStatus.isMired : LineStatus → Bool
  | .mired _ => true
  | _ => false

/-- What a line of a sealed granule holds as it becomes mired is noted, since its tag stays that of it (R400). -/
def State.noteUnder (s : State) (sa : Nat) : State :=
  if decide (sa < s.ctl.userEnd) && decide (s.ctl.sealState sa ≠ 0) && !(s.status sa).isMired then
    s.mapCtl fun c => { c with sea.under := mapPut c.sea.under (sa / 64) (s.lineBytes sa) }
  else s

/-- A line becomes mired (R175). -/
def State.mire (s : State) (sa cause source : Nat) : State :=
  ((s.noteUnder sa).storeMired sa cause).mapCtl fun c => c.mireNote sa cause source

/-! ## Correction -/

/-- The most symbols a die corrects (R172): 3 in default mode, 4 in heavy mode, as the last beat boundary set it. -/
def Ctl.correctable (c : Ctl) (d : Nat) : Nat := if tb (c.geff R.ECC_MODE_HEAVY) d then 4 else 3

/-- The most symbols a die is sure to find uncorrectable: 5 or more may decode wrongly in heavy mode, 6 or more in
default mode (R172). -/
def Ctl.surelyFound (c : Ctl) (d : Nat) : Nat := if tb (c.geff R.ECC_MODE_HEAVY) d then 4 else 5

/-- Spares of a group that its recorded and waiting repairs leave (R36, R39, R41). `unit` is a channel, or 48 + 8 * lane + group. -/
def Ctl.sparesFor (c : Ctl) (unit : Nat) : Nat :=
  (if unit < 48 then c.get (R.TSV_CH_REPAIR_SPARES_LEFT unit)
    else c.get (R.ROWL_GRP_STATUS_SPARES_LEFT ((unit - 48) / 8) ((unit - 48) % 8))) -
    (c.stk.repairs.filter fun r => decide (r.unit = unit) && decide (r.pos ≠ 0xFFFF)).length

/-- A physical position of a group (R36). -/
def validPosition (unit pos : Nat) : Bool := if unit < 48 then decide (pos < 38) else decide (unit < 80) && decide (pos < 1168)

/-- A repair asked for (R39, R40), or retirement when the group has no spare left for it (R41). -/
def Ctl.askRepair (c : Ctl) (unit pos : Nat) : Ctl :=
  if !validPosition unit pos || c.ecc.causes.any (fun e => decide (e.kind = 1) && decide (e.unit = unit)) ||
      c.stk.repairs.any (fun r => decide (r.unit = unit) && decide (r.pos = pos)) then c else
  let marked := { c with stk.failing := if c.stk.failing.contains (unit, pos) then c.stk.failing else (unit, pos) :: c.stk.failing }
  if unit < 48 then
    if c.sparesFor unit = 0 then
      (marked.fault (144 + unit) pos).addCause ⟨3, 1, unit, false⟩
    else { marked with stk.repairs := marked.stk.repairs ++ [⟨unit, pos, 0, 0⟩] }
  else
    if c.sparesFor unit = 0 then
      marked.addCause ⟨4, 2, (unit - 48) / 8, false⟩
    else { marked with stk.repairs := marked.stk.repairs ++ [⟨unit, pos, 0, 0⟩] }

/-- The beats of a position's corrected lines that lie within WINDOW_BEATS of the beat `b` (R38). -/
def Ctl.recentHits (c : Ctl) (b : Nat) (l : List Nat) : List Nat :=
  l.filter fun x => decide (b < x + c.geff R.TSV_REPAIR_CFG_WINDOW_BEATS)

/-- In-service repair is on (R38). -/
def Ctl.repairOn (c : Ctl) : Bool := c.geff R.TSV_REPAIR_CFG_COUNT ≠ 0 && c.geff R.TSV_REPAIR_CFG_WINDOW_BEATS ≠ 0

/-- A position whose corrected lines within the window number COUNT is judged failing, once (R38). -/
def Ctl.judgePosition (c : Ctl) (unit pos : Nat) (hits : List Nat) : Ctl :=
  if c.geff R.TSV_REPAIR_CFG_COUNT ≤ hits.length ∧ c.stk.failing.contains (unit, pos) = false then c.askRepair unit pos else c

/-- A corrected line implicates TSV positions of a group (R38). -/
def Ctl.implicate (c : Ctl) (unit : Nat) (pos : List Nat) : Ctl :=
  if c.repairOn then
    let b := c.get R.TIM_BEAT_CNT_VALUE
    pos.foldl (fun c p =>
      let hits := b :: c.recentHits b ((mapGet c.stk.tsvHits (unit, p)).getD [])
      { c with stk.tsvHits := mapPut c.stk.tsvHits (unit, p) hits }.judgePosition unit p hits) c
  else c

/-- COUNT and WINDOW_BEATS as a boundary takes them are applied to what has been counted (R38). -/
def Ctl.judgePositions (c : Ctl) : Ctl :=
  if c.repairOn then
    let b := c.get R.TIM_BEAT_CNT_VALUE
    c.stk.tsvHits.foldl (fun c e => c.judgePosition e.1.1 e.1.2 (c.recentHits b e.2)) c
  else { c with stk.tsvHits := [] }

/-- The counts of a corrected line (R173, R182): the line count and score of its die. -/
def Ctl.noteCorrected (c : Ctl) (sa n : Nat) : Ctl :=
  let d := c.dieOf sa
  ((c.bump (R.ECC_CE_CNT_LINES d)).bump (R.ECC_CE_SCORE_COUNT d) n).testThreshold d

/-- The write-back of a corrected line: a request at its controller under rank 1 (R157, R173). -/
def Ctl.writeBackReq (c : Ctl) (p : Place) : Req :=
  { kind := .correction, cls := 0, arrival := c.now, deadline := c.now, write := true, bank := p.bank, row := p.row, line := p.line }

/-- A corrected line waits at its controller for its write-back over the column path (R173), once. -/
def Ctl.queueWriteBack (c : Ctl) (sa : Nat) : Ctl :=
  let p := c.place sa
  let x := c.chan p.chan
  if (x.queue ++ x.waiting).any fun q => decide (q.kind = .correction) && decide (q.bank = p.bank) && decide (q.row = p.row) &&
      decide (q.line = p.line) then c
  else c.setChan p.chan { x with waiting := x.waiting ++ [c.writeBackReq p] }

/-! ## The Forager's counts -/

/-- One more at a place of a list of counts, up to a bound. -/
def bumpAt (l : List Nat) (i bound : Nat) : List Nat := l.set i (min bound (l.getD i 0 + 1))

/-- The running pass changed. -/
def Ctl.modPass (c : Ctl) (f : Pass → Pass) : Ctl := match c.frg.passes with
  | p :: t => { c with frg.passes := f p :: t }
  | [] => c

/-- The conditions that the running pass shows in FLAGS, as they now stand (R180). -/
def Ctl.notePass (c : Ctl) : Ctl :=
  let fl := bit (c.flag R.TIM_STATUS_TIME_UNTRUSTED) + 2 * bit (decide (c.geff R.ECC_MODE_HEAVY ≠ 0)) +
    4 * bit (c.flag R.ECC_MIG_ACTIVE)
  c.modPass fun p => if p.firstAt.isSome then { p with flags := p.flags ||| fl } else p

/-- What a checked line adds to the running pass (R179, R180): `s` symbols corrected, mired, made mired now. -/
def Ctl.passLine (c : Ctl) (sa s : Nat) (mired new : Bool) : Ctl :=
  let d := c.dieOf sa
  c.notePass.modPass fun p => { p with
    issued := p.issued.filter fun x => decide (x ≠ sa / 64)
    linesRead := p.linesRead + 1
    corrected := if s = 0 then p.corrected else p.corrected + 1
    mired := if mired then p.mired + 1 else p.mired
    newMired := if new then min 0xFFFFFFFF (p.newMired + 1) else p.newMired
    maxSym := max p.maxSym s
    lastAt := c.now
    dieCorr := if s = 0 then p.dieCorr else bumpAt p.dieCorr d 0xFFFFFFFF
    dieMired := if mired then bumpAt p.dieMired d 0xFFFF else p.dieMired }

/-- The Forager reads this line now. -/
def Ctl.passReads (c : Ctl) (sa source : Nat) : Bool :=
  decide (source = 3) && match c.frg.passes with
    | p :: _ => p.issued.contains (sa / 64)
    | [] => false

/-! ## The mire log and the threshold windows -/

/-- MIRE_LOG_DRAIN (R177): the Keeper moves the oldest staged record into the log of 1,048,576 records. It needs a
running Keeper. -/
def mireLogDrain (c : Ctl) : Ctl :=
  match c.ecc.staging with
  | [] => c
  | r :: t => if c.kpr.phase = 3 then
      let log := c.ecc.log ++ [r]
      { c with ecc.staging := t, ecc.log := if 1048576 < log.length then log.drop 1 else log }
    else c

def execMireLogDrain (s : State) : Host.Outcome State Fault Refusal := .next (s.mapCtl mireLogDrain)

/-- The thresholds a window boundary takes over (R182): scores and mire counts start from 0. -/
def Ctl.newWindow (c : Ctl) : Ctl :=
  (List.range 12).foldl (fun c d => (c.set (R.ECC_CE_SCORE_COUNT d) 0).set (R.ECC_UE_CNT_COUNT d) 0)
    { c with
      ecc.ceThresh := c.get R.ECC_RET_CFG_CE_THRESH
      ecc.ueThresh := c.get R.ECC_RET_CFG_UE_THRESH
      ecc.window := c.get R.ECC_RET_CFG_WINDOW
      ecc.crossed := [] }

/-- The beat count stands at a boundary of the window in force (R182). -/
def Ctl.atWindowEnd (c : Ctl) : Bool :=
  decide (c.ecc.window ≠ 0) && decide (c.get R.TIM_BEAT_CNT_VALUE % (c.ecc.window * 65536) = 0)

/-- THRESHOLD_WINDOW_BOUNDARY (R182): at a beat that is a multiple of the window's length the counts clear and new
thresholds take effect. With WINDOW 0 there are no windows, and the beat boundary itself takes them over. -/
def execThresholdWindowBoundary (s : State) : Host.Outcome State Fault Refusal :=
  .next (s.mapCtl fun c => if c.atWindowEnd then c.newWindow else c)

/-! ## Retirement -/

/-- LOSSES: dies retired, and channels retired on dies that are not. -/
def Ctl.countLosses (c : Ctl) : Nat :=
  popCount 12 (c.get R.IDC_ROWL_RET_DIE_DIES) +
    ((List.range c.nch).filter fun ch => c.chanRetired ch && !c.dieRetired (ch / 4)).length

/-- The measurement of a die is abandoned, and the die leaves the queue (R365). -/
def Ctl.dropMeasure (c : Ctl) (d : Nat) : Ctl :=
  { c with cal := { c.cal with
    queue := c.cal.queue.filter fun x => decide (x ≠ d)
    current := if c.cal.current = some d then none else c.cal.current } }

/-- The retired bits of a die or channel set (R183, capability 0x0030). -/
def Ctl.setRetired (c : Ctl) (kind unit : Nat) : Ctl :=
  let mark := fun (c : Ctl) (ch : Nat) =>
    if ch < 32 then c.set R.IDC_ROWL_RET_CH_LO_CH (setBit (c.get R.IDC_ROWL_RET_CH_LO_CH) ch)
    else c.set R.IDC_ROWL_RET_CH_HI_CH (setBit (c.get R.IDC_ROWL_RET_CH_HI_CH) (ch - 32))
  let c1 := if kind = 0 then
      (List.range 4).foldl (fun c i => mark c (4 * unit + i))
        ((c.dropMeasure unit).set R.IDC_ROWL_RET_DIE_DIES (setBit (c.get R.IDC_ROWL_RET_DIE_DIES) unit))
    else mark c unit
  c1.set R.ECC_HEALTH_LOSSES (min 15 c1.countLosses)

/-- Present granules in the order R189 removes them: unassigned first, highest-numbered first, then assigned ones. -/
def Ctl.removalOrder (c : Ctl) : List Nat :=
  let present := ((List.range 64).reverse).filter c.granUsable
  present.filter (fun n => !c.flag (R.MAP_GRAN_ASSIGNED n)) ++ present.filter fun n => c.flag (R.MAP_GRAN_ASSIGNED n)

/-- The fewest granules of a list, taken in order, whose usable rows hold `need` rows; none when all do not. -/
def Ctl.takeGranules (c : Ctl) (kind unit : Nat) : List Nat → Nat → Nat → Option Nat
  | _, 0, mask => some mask
  | [], _ + 1, _ => none
  | g :: t, need + 1, mask =>
    let rows := (c.spareRows ⟨⟨kind, unit, 1, 2 ^ g⟩, c.get R.IDC_ROWL_RET_CH_LO_CH, c.get R.IDC_ROWL_RET_CH_HI_CH, c.viewRegs⟩).length
    c.takeGranules kind unit t (need + 1 - rows) (mask + 2 ^ g)

/-- The most granules that a second loss removes (R189); a further one is not bounded (R190). -/
def Ctl.mostRemoved (c : Ctl) (kind : Nat) : Nat :=
  if !(c.ecc.placed.isEmpty && c.ecc.unplaced.isEmpty) then 64 else if kind = 1 then 2 else match c.part with
    | .rc4812 => 5
    | .rc3208 => 6

/-- The seal commands under way on a removed granule end with the invalid-parameter code (R221). -/
def Ctl.cutSeals (c : Ctl) (g : Nat) : Ctl :=
  (c.sea.sealing.filter fun j => decide (j.gran = g)).foldl (fun c j => match j.bg with
    | some h => { c with sea.holdGran := c.sea.holdGran.filter fun e => decide (e ≠ (g, h)) }.finishBg h .invalidParameter
    | none => c) c

/-- A granule removed from the host-visible space (R189, R218): LOST, PLAIN, its seal slot freed. -/
def Ctl.removeGranule (c0 : Ctl) (g : Nat) : Ctl :=
  let c := c0.cutSeals g
  let c1 := (c.set (R.MAP_GRAN_LOST g) 1).set (R.SEA_GRAN_STATE g) 0
  let c2 := c1.set R.IDC_USER_MIB_USER_MIB (c1.get R.IDC_USER_MIB_USER_MIB - c1.get (R.MAP_GRAN_SIZE_MIB g))
  { c2 with
    sea.unv := c2.sea.unv.filter fun u => decide (u.gran ≠ g)
    sea.sealing := c2.sea.sealing.filter fun j => decide (j.gran ≠ g)
    sea.dirty := c2.sea.dirty.filter fun e => decide (e.2.1 ≠ g)
    sea.ctrs := c2.sea.ctrs.filter fun e => decide (e.1 / 262144 ≠ g)
    sea.covers := c2.sea.covers.filter fun e => decide (e.1.2.1 ≠ g)
    sea.cached := c2.sea.cached.filter fun e => decide (e.2.1 ≠ g)
    sea.tags := c2.sea.tags.filter fun e => decide (e.1 / 16777216 ≠ g)
    sea.under := c2.sea.under.filter fun e => decide (e.1 / 16777216 ≠ g) }.set R.SEA_DIRTY_MAP_DIRTY
      (clrBit (c2.get R.SEA_DIRTY_MAP_DIRTY) g)

/-- The body of the retirement record (R395). -/
def retBody (l : List RetEntry) : Bytes :=
  toLE 4 l.length ++ l.flatMap fun e => toLE 1 e.kind ++ toLE 1 e.unit ++ toLE 1 e.second ++ toLE 5 0 ++ toLE 8 e.mask

/-- The retirement record entry written to flash (R186): the Keeper appends it and writes the record. -/
def Ctl.recordEntry (c : Ctl) (e : RetEntry) : Ctl :=
  let l := c.ecc.entries ++ [e]
  { c with ecc.entries := l, sbp.writes := c.sbp.writes ++ [⟨5, retBody l, none, false, none⟩] }

/-- The first row at or after a place in a die's order that does not lie on a channel carried already: at most four channels are skipped. -/
def skipCarried (carried : Nat) : Nat → Nat → Nat
  | 0, f => f
  | n + 1, f => if carried.testBit (f / 16 % 4) then skipCarried carried n ((f / 16 + 1) * 16) else f

/-- A migration, fill or placement starts at its first row (R183, R189), or waits for the end of the one under way. -/
def Ctl.startMove (c : Ctl) (m : Move) : Ctl :=
  if c.flag R.ECC_MIG_ACTIVE then { c with ecc.moves := c.ecc.moves ++ [m] }
  else
    let c1 := { c with ecc.moveChan := m.isChan, ecc.moveSecond := m.second, ecc.moveCarried := m.carried }
    ((((c1.set R.ECC_MIG_ACTIVE 1).set R.ECC_MIG_KIND m.mode).set R.ECC_MIG_UNIT m.unit).set R.ECC_MIG_FRONT_FRONT
      (skipCarried m.carried 4 0)).notePass

/-- The loss of a unit announced with the mask of the granules it removed and their number (R189, R190). -/
def Ctl.announceLoss (c : Ctl) (state reason mask : Nat) : Ctl :=
  let c1 := (c.set R.ECC_HEALTH_STATE (max (c.get R.ECC_HEALTH_STATE) state)).set R.ECC_HEALTH_REASON reason
  c1.healthEvent reason mask (popCount 64 mask)

/-- The channels of a die, by bit, that are retired already: a later retirement of the die leaves their rows where they were carried (R59). -/
def Ctl.carriedOf (c : Ctl) (d : Nat) : Nat := maskOf 4 fun i => c.chanRetired (4 * d + i)

/-- A loss placed under R189 as the state now is. -/
def Ctl.placedNow (c : Ctl) (e : RetEntry) : Placed :=
  ⟨e, c.get R.IDC_ROWL_RET_CH_LO_CH, c.get R.IDC_ROWL_RET_CH_HI_CH, c.viewRegs⟩

/-- The moves of a die, or of its channels, go on as fills: their old places have failed (R185, R186). -/
def Ctl.failMoves (c : Ctl) (d : Nat) : Ctl :=
  let dead := fun (m : Move) => decide ((if m.isChan then m.unit / 4 else m.unit) = d)
  let c1 := { c with ecc.moves := c.ecc.moves.map fun m => if dead m then { m with mode := 3 } else m }
  match c.moveNow with
  | some (m, _) => if dead m then { c1 with ecc.moveChan := m.isChan, ecc.moveSecond := m.second }.set R.ECC_MIG_KIND 3 else c1
  | none => c1

/-- A second or further loss (R189, R190): granules are removed and the rows placed in them, or the loss is not
absorbed. -/
def Ctl.secondLoss (c : Ctl) (k : RetCause) : Ctl :=
  let isChan := decide (k.kind = 1)
  let need := c.unitRows isChan + c.reserveRowsOn c.remapNow.bound isChan k.unit
  let c1 := c.setRetired k.kind k.unit
  let taken := (c1.takeGranules k.kind k.unit c1.removalOrder need 0).filter fun m => decide (popCount 64 m ≤ c.mostRemoved k.kind)
  match taken with
  | some mask =>
    let c2 := ((List.range 64).filter (tb mask)).foldl Ctl.removeGranule c1
    let e : RetEntry := ⟨k.kind, k.unit, 1, mask⟩
    let c3 := { c2 with ecc.placed := c2.ecc.placed ++ [c1.placedNow e] }
    let c4 := c3.set R.ECC_HEALTH_GRAN_REMOVED (popCount 64 (maskOf 64 fun n => c3.flag (R.MAP_GRAN_LOST n)))
    let c5 := (c4.startMove ⟨if k.abrupt then 3 else 2, isChan, k.unit, true, 0⟩).recordEntry e
    (c5.fault 580 k.unit).announceLoss 2 5 mask
  | none =>
    let c2 := { c1 with ecc.unplaced := (k.kind, k.unit) :: c1.ecc.unplaced }.recordEntry ⟨k.kind, k.unit, 2, 0⟩
    (c2.fault 581 k.unit).announceLoss 3 7 0

/-- One cause of retirement carried out at a beat boundary (R183). -/
def Ctl.retire (c : Ctl) (k : RetCause) : Ctl :=
  if k.kind = 2 then
    if c.get (match k.unit with
      | 0 => R.ROWL_STATUS_LANE0
      | 1 => R.ROWL_STATUS_LANE1
      | 2 => R.ROWL_STATUS_LANE2
      | _ => R.ROWL_STATUS_LANE3) = 3 then c else
    let c1 := (c.setLaneState k.unit 3).bump R.ECC_HEALTH_LANES_RETIRED
    (c1.fault 579 k.unit).raiseHealth 1 4
  else
    let d := if k.kind = 0 then k.unit else k.unit / 4
    let c := if k.abrupt then c.failMoves d else c
    if (if k.kind = 0 then c.dieRetired d else c.chanRetired k.unit) then c
    else if c.reserveFor d then
      let c1 := (c.set R.MAP_LAYOUT_RES_BOUND 1).set R.MAP_LAYOUT_RES_DIE d
      let c2 := ((c1.setRetired k.kind k.unit).startMove ⟨if k.abrupt then 3 else k.kind, decide (k.kind = 1), k.unit, false,
          if k.kind = 0 then c.carriedOf d else 0⟩).recordEntry
        ⟨k.kind, k.unit, 0, 0⟩
      (c2.fault 579 k.unit).raiseHealth 1 k.reason
    else c.secondLoss k

/-- The causes of retirement at a beat boundary (R183): the lanes, then dies and channels in their order; a move that cannot start
yet waits. -/
def Ctl.retireStep (c : Ctl) : Ctl :=
  let l := c.ecc.causes
  (l.filter (fun k => decide (k.kind = 2)) ++ l.filter fun k => decide (k.kind ≠ 2)).foldl Ctl.retire { c with ecc.causes := [] }

/-- The rows that the move under way takes (R184, R189). -/
def Ctl.moveRows (c : Ctl) : Nat := match c.moveNow with
  | some (m, _) => c.unitRows m.isChan + (if m.second then c.reserveRowsOn c.remapNow.bound m.isChan m.unit else 0)
  | none => 0

/-- A die's three feeds opened (R45). -/
def Ctl.openFeeds (c : Ctl) (d : Nat) : Ctl :=
  { c.dropMeasure d with stk.feedsOpen := if c.stk.feedsOpen.contains d then c.stk.feedsOpen else d :: c.stk.feedsOpen }.set
    (R.THM_DIE_FEEDS_OPEN d) 1

/-- The ECC_MIG word. -/
def Ctl.migWord (c : Ctl) : Nat :=
  c.get R.ECC_MIG_ACTIVE * 2 ^ 31 + c.get R.ECC_MIG_KIND * 2 ^ 29 + c.get R.ECC_MIG_UNIT

/-- The move under way ends (R184, R421): the feeds of a die are opened (R45), and the next move that waits starts. -/
def Ctl.endMove (c : Ctl) : Ctl :=
  let c1 := (c.notePass.set R.ECC_MIG_ACTIVE 0).eventAll logInfo 0x0601 0xFFFF c.migWord
  let c2 := match c.moveNow with
    | some (m, _) => if m.isChan then c1 else c1.openFeeds m.unit
    | none => c1
  match c2.ecc.moves with
  | [] => c2
  | m :: t => { c2 with ecc.moves := t }.startMove m

/-- The front advances by one row of those that the move takes, and the move ends when it passes the last (R184, R185, R189, R421). -/
def Ctl.advanceFront (c : Ctl) : Ctl :=
  let f := skipCarried c.ecc.moveCarried 4 (c.get R.ECC_MIG_FRONT_FRONT + 1)
  let c1 := c.set R.ECC_MIG_FRONT_FRONT f
  if c.moveRows ≤ f then c1.endMove else c1

/-- No shutdown is under way, and the dies are not asked into self-refresh (R319, R339). -/
def Ctl.stackAwake (c : Ctl) : Bool :=
  decide (c.get R.THM_STATUS_STAGE ≠ 4) && decide (c.stk.selfRef = 0) && decide (c.rst.quiesce = 0)

/-- A move of rows may go on: the stack is awake, and the Keeper runs (R289). -/
def Ctl.movesRun (c : Ctl) : Bool := decide (c.kpr.phase = 3) && c.stackAwake

/-- The remap as it stands, kept for the lines of a die that fails now (R185). -/
def Ctl.lossNow (c : Ctl) (d : Nat) : LossRec := ⟨d, c.remapNow⟩

/-- The stack address lies in the row that a move has under way (R184), or a write of it in a row that a fill has not reached, or
will start on at the next boundary (R185): the request waits. -/
def Ctl.moveHolds (c : Ctl) (write : Bool) (sa : Nat) : Bool :=
  c.movesRun && (match c.moveNow with
    | some (m, f) => decide (m.mode ≠ 3) && onUnit m.isChan m.unit (c.oldPlace m sa) &&
        decide (c.rowRank c.remapNow.bound m.isChan (c.oldPlace m sa) = f)
    | none => false) ||
  write && (c.ecc.causes.any fun k => k.abrupt && decide (k.kind = 0) && decide (c.dieOf sa = k.unit)) ||
  write && c.remapNow.moves.any fun v => decide (v.1.mode = 3) && c.unmoved c.remapNow.bound v (c.oldPlace v.1 sa)

/-- The rows of a die lost at this moment (R185, R147): their lines and contexts are judged by where they stand now. -/
def State.loseDie (s : State) (d : Nat) : State :=
  let c := s.ctl
  let onDie := fun (sa : Nat) => decide ((c.place sa).chan / 4 = d)
  let kept := c.stx.entries.filter fun e => !onDie (c.ctxAddr e.1)
  let free := (List.range ctxCount).filter fun x => onDie (c.ctxAddr x) && c.entryFree x
  let lostAll := ((List.range ctxCount).filter fun x => onDie (c.ctxAddr x) && decide (c.ctxEntry x ≠ .lost)).length
  { s with
    ctl := ({ c.ctxClean (fun x => onDie (c.ctxAddr x)) with
      ecc.losses := c.lossNow d :: c.ecc.losses
      stx.entries := kept }.bump R.STX_LOST_CNT_LOST lostAll).freeChange (free.headD 0) (c.get R.STX_FREE_CNT_FREE - free.length)
    lines := s.lines.filter fun e => !onDie (e.1 * 64)
    mem := s.mem.filter fun e => !onDie e.1 }

/-- FEED_OVERCURRENT (R45, R185): a feed of a die carries too much current and is opened; all three feeds of the die
open, the die counts as failed abruptly, one unit record is logged, and source 224 + d is raised. -/
def execFeedOvercurrent (d feed : Nat) (s : State) : Host.Outcome State Fault Refusal :=
  if d < s.ctl.nd ∧ !s.ctl.stk.feedsOpen.contains d then
    .next (((s.loseDie d).mapCtl fun c => (((c.openFeeds d).mireRecord d 0x10 8).fault (224 + d) feed)).mapCtl fun c =>
      c.addCause ⟨2, 0, d, true⟩)
  else .next s

/-! ## TSV repairs in service (R38 to R41) -/

/-- The repair of a channel recorded in TSV_CH_REPAIR_n: the next free SKIP field, its source, one spare less. -/
def Ctl.recordColRepair (c : Ctl) (ch pos src : Nat) : Ctl :=
  let c1 := if c.get (R.TSV_CH_REPAIR_SKIP0 ch) = 0x3F then
      (c.set (R.TSV_CH_REPAIR_SKIP0 ch) pos).set (R.TSV_CH_REPAIR_SRC0 ch) src
    else (c.set (R.TSV_CH_REPAIR_SKIP1 ch) pos).set (R.TSV_CH_REPAIR_SRC1 ch) src
  c1.set (R.TSV_CH_REPAIR_SPARES_LEFT ch) (c1.get (R.TSV_CH_REPAIR_SPARES_LEFT ch) - 1)

/-- The repair of a lane group recorded in ROWL_GRP_STATUS_l_g: one in-service repair more, one spare less, steering round the position.
-/
def Ctl.recordLaneRepair (c : Ctl) (l g pos : Nat) : Ctl :=
  ({ c with stk.laneBad := c.stk.laneBad ++ [(48 + 8 * l + g, pos)] }.bump (R.ROWL_GRP_STATUS_INSVC_REP l g)).set (R.ROWL_GRP_STATUS_SPARES_LEFT l g)
    (c.get (R.ROWL_GRP_STATUS_SPARES_LEFT l g) - 1)

/-- The failed positions of a group that steering goes round: a channel's, or those of a lane group; and those whose steering a window
had switched before a warm reset (R42). -/
def Ctl.failedPositions (c : Ctl) (unit : Nat) : List Nat :=
  ((c.stk.switched.filter fun u => decide (u.1 = unit) && decide (u.2 < 0xFFFF)).map Prod.snd) ++
  if unit < 48 then
    [c.get (R.TSV_CH_REPAIR_SKIP0 unit), c.get (R.TSV_CH_REPAIR_SKIP1 unit)].filter fun p => decide (p < 38)
  else (c.stk.laneBad.filter fun u => decide (u.1 = unit)).map Prod.snd

/-- A position taken over fails the continuity test or the retrain (R39, R40): it is recorded as failed and the repair is retried, or the
repair that it waits for itself becomes that retry; without a spare R41 applies. -/
def Ctl.retryTaken (c : Ctl) (unit t : Nat) : Ctl :=
  let own := c.stk.repairs.any fun r => decide (r.unit = unit) && decide (r.pos = t)
  if validPosition unit t = false ∨ (c.failedPositions unit).contains t = true then c
  else if own = false ∧ c.sparesFor unit = 0 then c.askRepair unit t
  else
    let c1 := if unit < 48 then c.recordColRepair unit t 3 else c.recordLaneRepair ((unit - 48) / 8) ((unit - 48) % 8) t
    let retry := if own then c1.stk.repairs.map fun (r : RepairSt) => if r.unit = unit ∧ r.pos = t then { r with pos := 0xFFFF } else r
      else c1.stk.repairs ++ [RepairSt.mk unit 0xFFFF 0 0]
    { c1 with stk.repairs := retry, stk.failing := c1.stk.failing.filter fun f => decide (f ≠ (unit, t)) }

/-- The repair in its window on a unit of a kind (`lane`), if any. -/
def Ctl.repairIn (c : Ctl) (p : RepairSt → Bool) : Option RepairSt := c.stk.repairs.find? fun r => p r && decide (r.step = 1)

/-- The position a retry repairs: none of its own, since every failed position is recorded already (R39). -/
def retryPos : Nat := 0xFFFF

/-- COLUMN_REPAIR_REOPEN (R39): the channel reopens at the end of its window with nothing counted against the position
steered round, the register is updated and the repair event (sources 144 to 191) is raised. A failed continuity test
records the position taken over, `taken`, as failed too, and the repair is retried in the next eligible window while the
failed positions do not exceed the spares; R41 applies otherwise. -/
def columnRepairReopen (ch : Nat) (taken : Option Nat) (c : Ctl) : Ctl :=
  match c.repairIn fun r => decide (r.unit = ch) && decide (ch < 48) with
  | none => c
  | some r =>
    let c := c.passTo r.due
    let c1 := { c.setChan ch { c.chan ch with closed := false } with
      stk.repairs := c.stk.repairs.filter fun x => decide (x ≠ r)
      stk.failing := c.stk.failing.filter fun f => decide (f ≠ (ch, r.pos))
      stk.tsvHits := mapDel c.stk.tsvHits (ch, r.pos) }
    let c2 := if r.pos = retryPos then c1 else c1.recordColRepair ch r.pos 3
    let c3 := c2.fault (144 + ch) r.pos
    match taken with
    | none => c3
    | some t => c3.retryTaken ch t

def execColumnRepairReopen (ch : Nat) (taken : Option Nat) (s : State) : Host.Outcome State Fault Refusal :=
  .next (s.mapCtl (columnRepairReopen ch taken))

/-- LANE_REPAIR_RETURN (R40): the lane returns to service, the group's register is updated and the repair event
(sources 192 to 223) is raised; a failed retrain is handled as a failed continuity test in R39, with the retry in a
new window. -/
def laneRepairReturn (l g : Nat) (taken : Option Nat) (c : Ctl) : Ctl :=
  match c.repairIn fun r => decide (r.unit = 48 + 8 * l + g) && decide (l < 4) && decide (g < 8) with
  | none => c
  | some r =>
    let c := c.passTo r.due
    let c1 := { c with
      stk.repairs := c.stk.repairs.filter fun x => decide (x ≠ r)
      stk.failing := c.stk.failing.filter fun f => decide (f ≠ (r.unit, r.pos))
      stk.tsvHits := mapDel c.stk.tsvHits (r.unit, r.pos) }
    let c2 := if c1.laneState l = 2 ∧ c1.repairIn (fun x => decide (48 ≤ x.unit) && decide ((x.unit - 48) / 8 = l)) = none then
        c1.setLaneState l 1 else c1
    let c3 := (if r.pos = retryPos then c2 else c2.recordLaneRepair l g r.pos).fault (192 + 8 * l + g) r.pos
    match taken with
    | none => c3
    | some t => c3.retryTaken r.unit t

def execLaneRepairReturn (l g : Nat) (taken : Option Nat) (s : State) : Host.Outcome State Fault Refusal :=
  .next (s.mapCtl (laneRepairReturn l g taken))

end Sys2Proof.Machine
end

