-- ==== Sys2Proof/Machine/Qos.lean ====
section
/-! DEFINITION. Service classes (chapter 10): outstanding limits, the sustainable rate, reservations, the squeeze and
the class steps of a beat boundary; and the paired commits of chapters 2, 3, 7 and 10 as a boundary applies them. -/

namespace Sys2Proof.Machine

/-! ## Outstanding limits -/

/-- QOS_SQUEEZE.CH and LANE with their limits, as the last boundary took them. -/
def Ctl.squeezeCh (c : Ctl) : Nat := min 128 (max 1 (c.geff R.QOS_SQUEEZE_CH))
def Ctl.squeezeLane (c : Ctl) : Nat := min 256 (max 1 (c.geff R.QOS_SQUEEZE_LANE))

/-- The requests a class may hold at a controller in this beat (R230, R235). -/
def Ctl.classLimit (c : Ctl) (k : Nat) : Nat :=
  if c.flag (R.QOS_CLASS_STAT_SQUEEZED k) then min (c.get (R.QOS_CLASS_CFG_LIMIT k)) c.squeezeCh
  else c.get (R.QOS_CLASS_CFG_LIMIT k)

/-- The transfers a class may hold at a row-lane arbiter in this beat. -/
def Ctl.classLaneLimit (c : Ctl) (k : Nat) : Nat :=
  if c.flag (R.QOS_CLASS_STAT_SQUEEZED k) then min (c.get (R.QOS_CLASS_CFG_LANE_LIMIT k)) c.squeezeLane
  else c.get (R.QOS_CLASS_CFG_LANE_LIMIT k)

/-- A request of a class is held in a queue, until its last data transfer is complete (R230), or waits outside one, at the mapper and for its
merge too (R235). -/
def Ctl.classHolds (c : Ctl) (k : Nat) : Bool :=
  (c.stk.chans.any fun e => (e.2.queue ++ e.2.waiting ++ (e.2.flight.filter fun f => decide (c.ps < f.ends)).map Flight.req).any
      fun r => r.kind.port?.isSome && decide (r.cls = k)) ||
    (c.stk.memWait.any fun r => decide (r.cls = k)) || (c.ecc.merges.any fun m => decide (m.cls = k)) ||
    c.stk.lanes.any fun e => (e.2.pending ++ e.2.waiting).any fun x => decide (x.cls = k)

/-- A request of a class waits outside a queue, or a row transfer outside an arbiter. -/
def Ctl.classWaits (c : Ctl) (k : Nat) : Bool :=
  (c.stk.chans.any fun e => e.2.waiting.any fun r => r.kind.port?.isSome && decide (r.cls = k)) ||
    c.stk.lanes.any fun e => e.2.waiting.any fun x => decide (x.cls = k)

/-! ## CXL.mem credits (R230, R317) -/

/-- Requests of a head that are outstanding: those that wait at the mapper. -/
def Ctl.memHeld (c : Ctl) (h : Head) : Nat := (c.stk.memWait.filter fun x => decide (x.head = h)).length

/-- Credits are returned to a head while it has fewer requests outstanding than this: in stages 2 and 3 only below 1,024 or 512. -/
def Ctl.memCredits (c : Ctl) : Nat :=
  let stage := c.get R.THM_STATUS_STAGE
  if stage = 2 then 1024 else if stage = 3 then 512 else 2048

/-- The credits that a head's host holds of its 2,048: all but those of the requests outstanding while credits are returned, else those that
it held when that ended, less the ones it has spent since; none is revoked. -/
def Ctl.creditsHeld (c : Ctl) (h : Head) : Nat := if c.memHeld h < c.memCredits then 2048 - c.memHeld h else (c.hd h).credits

/-- A request that does not wait spends a credit, which comes back at once while credits are returned. -/
def Ctl.spendCredit (c : Ctl) (h : Head) : Ctl :=
  if c.memHeld h < c.memCredits then c else c.modHd h fun x => { x with credits := x.credits - 1 }

/-- A change of stage that ends the return of credits to a head leaves it those it holds. -/
def Ctl.keepCredits (old : Ctl) (h : Head) (c : Ctl) : Ctl :=
  if old.memHeld h < old.memCredits ∧ c.memCredits ≤ c.memHeld h then c.modHd h fun x => { x with credits := old.creditsHeld h } else c

/-! ## The sustainable rate (R232) -/

/-- Channels in service at the normal rate, and at the doubled rate. -/
def Ctl.chansAt (c : Ctl) (double : Bool) : Nat :=
  ((List.range c.nch).filter fun ch => !c.chanRetired ch &&
    decide (tb (c.get R.STK_REF_RATE_DOUBLE) (ch / 4) = double)).length

/-- What a coast of the PLLs does to every rate and interval (R332): the clocks run at half their frequency. -/
def Ctl.slowdown (c : Ctl) : Nat := if c.flag R.CLK_STATUS_COAST then 2 else 1

/-- The job duty limit (R317, R325): DUTY, and 32 of 64 in stage 2 or 16 of 64 in stage 3. -/
def Ctl.dutyLimit (c : Ctl) : Nat :=
  let stage := c.get R.THM_STATUS_STAGE
  min (c.get R.PWR_STATUS_DUTY) (if stage = 2 then 32 else if stage = 3 then 16 else 64)

/-- The sustainable rate S in GB/s, exactly and rounded down once; 0 in orderly shutdown. -/
def Ctl.sustainable (c : Ctl) : Nat :=
  let num := 24000 * ((15600 - 220) * c.chansAt false + (15600 - 440) * c.chansAt true)
  let sealed := (List.range 64).any fun n => decide (c.get (R.SEA_GRAN_STATE n) ≠ 0)
  let num := num * c.effectiveMax * (if sealed then 7 else 8)
  let stage := c.get R.THM_STATUS_STAGE
  let div := 15600 * 1000 * 8 * c.get R.STK_ACT_CFG_FUSED_MAX * (if stage = 2 then 2 else if stage = 3 then 4 else 1) * c.slowdown
  if stage = 4 then 0 else num / div

/-- S and A recomputed. -/
def Ctl.setSustain (c : Ctl) : Ctl :=
  let s := c.sustainable
  (c.set R.QOS_SUSTAIN_S_GBPS s).set R.QOS_SUSTAIN_A_GBPS (s * 85 / 100)

/-! ## Effective reservations (R234) -/

/-- The live reservations. -/
def Ctl.reserves (c : Ctl) : List Nat := (List.range 8).map fun k => c.get (R.QOS_CLASS_CFG_RESERVE k)

/-- Reservations cut by `excess` from the front of the list on: used on the list from class 7 to class 0. -/
def cutFrom : List Nat → Nat → List Nat
  | [], _ => []
  | r :: t, excess => (r - excess) :: cutFrom t (excess - r)

/-- Effective reservations for an admission limit, class 0 first. -/
def effReserves (res : List Nat) (a : Nat) : List Nat := (cutFrom res.reverse (res.sum - a)).reverse

/-- The effective reservations set from A. -/
def Ctl.setEffective (c : Ctl) : Ctl :=
  (List.range 8).foldl (fun c1 k => c1.set (R.QOS_CLASS_STAT_EFF_RES k)
    ((effReserves c.reserves (c.get R.QOS_SUSTAIN_A_GBPS)).getD k 0)) c

/-- The total cut. -/
def Ctl.totalCut (c : Ctl) : Nat := c.reserves.sum - c.get R.QOS_SUSTAIN_A_GBPS

/-- The overcommit report of a boundary (R234, R422): source 601 when the total cut has grown since the last boundary,
its INFO one of the classes cut (the spec does not say which); the cleared event when no class is cut any more. -/
def Ctl.reportOvercommit (c : Ctl) : Ctl :=
  let cut := c.totalCut
  let was := c.flag R.QOS_OVERCOMMIT_ACTIVE
  let old := c.qos.cut
  let c1 : Ctl := { c.set R.QOS_OVERCOMMIT_ACTIVE (bit (decide (0 < cut))) with qos.cut := cut }
  let cls : List Nat := (List.range 8).filter fun k => decide (c1.get (R.QOS_CLASS_STAT_EFF_RES k) < c1.get (R.QOS_CLASS_CFG_RESERVE k))
  if old < cut then
    let (v, c2) := c1.fresh
    c2.fault 601 (cls.getD (v % (max 1 cls.length)) 0)
  else if was && decide (cut = 0) then c1.eventAll logInfo 0x0701 0xFFFF (c1.get R.QOS_SUSTAIN_A_GBPS)
  else c1

/-! ## Paired commits -/

/-- A commit that is not applied: REJECT sets. -/
def Ctl.rejectCommit (c : Ctl) (f : Fld) : Ctl := c.set f 1

/-- The activate-window shadows at a boundary (R33). -/
def Ctl.applyStk (c : Ctl) : Ctl :=
  if c.stkPend then
    let c1 := { c with stkPend := false }
    let a := c.get R.STK_ACT_CFG_SH_ACT_MAX
    let r := c.get R.STK_ACT_CFG_SH_ROW_SHARE
    if a = 0 ∨ a < r then c1.rejectCommit R.STK_COMMIT_REJECT
    else (c1.set R.STK_ACT_CFG_ACT_MAX a).set R.STK_ACT_CFG_ROW_SHARE r
  else c

/-- A comb region of the shadows that is enabled: first band and end band. -/
def Ctl.shadowRegion (c : Ctl) (n : Nat) : Option (Nat × Nat) :=
  if c.flag (R.MAP_COMB_SH_LO_EN n) && c.flag (R.MAP_COMB_SH_HI_BANDS n) then
    some (c.get (R.MAP_COMB_SH_LO_BASE_BAND n), c.get (R.MAP_COMB_SH_LO_BASE_BAND n) + c.get (R.MAP_COMB_SH_HI_BANDS n))
  else none

/-- The enabled regions of the shadows. -/
def Ctl.shadowRegions (c : Ctl) : List (Nat × Nat) := (List.range 16).filterMap c.shadowRegion

/-- Two ranges of a list overlap. -/
def overlaps : List (Nat × Nat) → Bool
  | [] => false
  | r :: t => t.any (fun q => decide (r.1 < q.2) && decide (q.1 < r.2)) || overlaps t

/-- The shadows are no legal set of comb regions (R56): one ends above MAP_TAG_BASE, or two overlap. -/
def Ctl.combShadowBad (c : Ctl) : Bool :=
  c.shadowRegions.any (fun r => decide (c.userEnd < r.2 * c.bandBytes)) || overlaps c.shadowRegions

/-- The comb-region shadows applied. -/
def Ctl.takeCombShadows (c : Ctl) : Ctl :=
  (List.range 16).foldl (fun c n =>
    ((c.set (R.MAP_COMB_LO_EN n) (c.get (R.MAP_COMB_SH_LO_EN n))).set (R.MAP_COMB_LO_BASE_BAND n)
      (c.get (R.MAP_COMB_SH_LO_BASE_BAND n))).set (R.MAP_COMB_HI_BANDS n) (c.get (R.MAP_COMB_SH_HI_BANDS n))) c

/-- The end points of the enabled comb regions. -/
def Ctl.combPoints (c : Ctl) : List Nat :=
  (List.range 16).flatMap fun n => if c.combOn n then [(c.combRange n).1, (c.combRange n).2] else []

/-- The ranges between neighbouring end points that are in a comb region before and not after, or after and not
before: the comb map of R55 gives an address one place whatever region holds it, so these are the addresses whose view
changes. -/
def viewChanges (c0 c1 : Ctl) : List (Nat × Nat) :=
  let pts := List.insertionSort (· ≤ ·) (c0.combPoints ++ c1.combPoints)
  (pts.zip (pts.drop 1)).filter fun p =>
    decide (p.1 < p.2) && decide ((c0.combRegion p.1).isSome ≠ (c1.combRegion p.1).isSome)

/-- The stack after a change of views (R57): the addresses whose view changed hold no defined data. -/
def State.changeViews (s : State) (c1 : Ctl) : State :=
  let ch := viewChanges s.ctl c1
  let s1 := ch.foldl (fun st v => st.forget v.1 v.2) s
  { s1 with ctl := { c1 with ecc.voids := ch ++ c1.ecc.voids } }

/-- The ranges whose view the pending commit of the comb regions changes at this boundary. -/
def Ctl.mapChanges (c : Ctl) : List (Nat × Nat) :=
  if c.flag R.MAP_COMMIT_PENDING && !c.combShadowBad then viewChanges c c.takeCombShadows else []

/-- The comb-region shadows at a boundary (R56, R57). REJECT stays set until software clears it, also over a later commit that is applied:
the spec does not say (DESIGN CHOICE, notes/assumptions/108.md). -/
def State.applyMap (s : State) : State :=
  if s.ctl.flag R.MAP_COMMIT_PENDING then
    let c := s.ctl.set R.MAP_COMMIT_PENDING 0
    if c.combShadowBad then { s with ctl := c.rejectCommit R.MAP_COMMIT_REJECT }
    else { s with ctl := c }.changeViews c.takeCombShadows
  else s

/-- The scheduling shadows are no legal set (R169). -/
def Ctl.schedShadowBad (c : Ctl) : Bool :=
  ((List.range 5).any fun p => decide (c.get (R.QOS_PORT_LAT_SH_TARGET p) = 0) ||
      decide (c.get (R.QOS_PORT_LAT_SH_TARGET p) < c.get (R.QOS_PORT_LAT_SH_RAMP p))) ||
    decide (c.get R.QOS_INGEST_CFG_SH_PANIC_ON = 0) || decide (4096 < c.get R.QOS_INGEST_CFG_SH_PANIC_ON) ||
    decide (c.get R.QOS_INGEST_CFG_SH_PANIC_ON ≤ c.get R.QOS_INGEST_CFG_SH_PANIC_OFF)

/-- Panic as the fill and the limits stand (R159): raised at PANIC_ON, lowered at PANIC_OFF. -/
def Ctl.judgePanic (c : Ctl) : Ctl :=
  let fill := c.inIngest.length
  if c.flag R.QOS_INGEST_STAT_PANIC then
    (if fill ≤ c.get R.QOS_INGEST_CFG_PANIC_OFF then c.set R.QOS_INGEST_STAT_PANIC 0 else c)
  else if c.get R.QOS_INGEST_CFG_PANIC_ON ≤ fill then
    (c.set R.QOS_INGEST_STAT_PANIC 1).bump R.QOS_INGEST_PANIC_CNT_RISES
  else c

/-- The scheduling shadows at a boundary (R169). -/
def Ctl.applySched (c : Ctl) : Ctl :=
  if c.flag R.QOS_SCHED_COMMIT_PENDING then
    let c1 := c.set R.QOS_SCHED_COMMIT_PENDING 0
    if c.schedShadowBad then c1.rejectCommit R.QOS_SCHED_COMMIT_REJECT
    else
      let c2 := (List.range 5).foldl (fun c p => (c.set (R.QOS_PORT_LAT_TARGET p) (c.get (R.QOS_PORT_LAT_SH_TARGET p))).set
        (R.QOS_PORT_LAT_RAMP p) (c.get (R.QOS_PORT_LAT_SH_RAMP p))) c1
      ((c2.set R.QOS_INGEST_CFG_PANIC_ON (c.get R.QOS_INGEST_CFG_SH_PANIC_ON)).set R.QOS_INGEST_CFG_PANIC_OFF
        (c.get R.QOS_INGEST_CFG_SH_PANIC_OFF)).judgePanic
  else c

/-- The shadow reservations. -/
def Ctl.shadowReserves (c : Ctl) : List Nat := (List.range 8).map fun k => c.get (R.QOS_CLASS_CFG_SH_RESERVE k)

/-- Why the class shadows are not applied (R233): the first cause that holds, 0 when none does. -/
def Ctl.classShadowCause (c : Ctl) : Nat :=
  if (List.range 8).any fun k => decide (128 < c.get (R.QOS_CLASS_CFG_SH_LIMIT k)) ||
      decide (256 < c.get (R.QOS_CLASS_CFG_SH_LANE_LIMIT k)) then 1
  else if (List.range 8).any fun k => decide (c.get (R.QOS_CLASS_CFG_SH_RESERVE k) ≠ 0) &&
      decide (c.get (R.QOS_CLASS_CFG_SH_LIMIT k) = 0) then 2
  else if (List.range 16).any fun i => c.flag (R.QOS_WIN_SH_LO_EN (i / 8) (i % 8)) &&
      (decide (c.get (R.QOS_WIN_SH_HI_SIZE_MIB (i / 8) (i % 8)) = 0) ||
        decide (c.userEnd < (c.get (R.QOS_WIN_SH_LO_BASE_MIB (i / 8) (i % 8)) +
          c.get (R.QOS_WIN_SH_HI_SIZE_MIB (i / 8) (i % 8))) * MiB)) then 3
  else if decide (c.get R.QOS_SUSTAIN_A_GBPS < c.shadowReserves.sum) &&
      (List.range 8).any fun k => decide (c.get (R.QOS_CLASS_CFG_RESERVE k) < c.get (R.QOS_CLASS_CFG_SH_RESERVE k)) then 4
  else 0

/-- The class shadows taken whole. -/
def Ctl.takeClassShadows (c : Ctl) : Ctl :=
  let c1 := (List.range 8).foldl (fun c k =>
    ((c.set (R.QOS_CLASS_CFG_RESERVE k) (c.get (R.QOS_CLASS_CFG_SH_RESERVE k))).set (R.QOS_CLASS_CFG_LANE_LIMIT k)
      (c.get (R.QOS_CLASS_CFG_SH_LANE_LIMIT k))).set (R.QOS_CLASS_CFG_LIMIT k) (c.get (R.QOS_CLASS_CFG_SH_LIMIT k))) c
  let c2 := (c1.set R.QOS_HEAD_CLASS_A_CLASS (c.get R.QOS_HEAD_CLASS_SH_A_CLASS)).set R.QOS_HEAD_CLASS_B_CLASS
    (c.get R.QOS_HEAD_CLASS_SH_B_CLASS)
  (List.range 16).foldl (fun c i =>
    let h := i / 8
    let w := i % 8
    (((c.set (R.QOS_WIN_LO_EN h w) (c.get (R.QOS_WIN_SH_LO_EN h w))).set (R.QOS_WIN_LO_CLASS h w)
      (c.get (R.QOS_WIN_SH_LO_CLASS h w))).set (R.QOS_WIN_LO_BASE_MIB h w) (c.get (R.QOS_WIN_SH_LO_BASE_MIB h w))).set
      (R.QOS_WIN_HI_SIZE_MIB h w) (c.get (R.QOS_WIN_SH_HI_SIZE_MIB h w))) c2

/-- The class shadows at a boundary (R233, R236 step 3). -/
def Ctl.applyClass (c : Ctl) : Ctl :=
  if c.flag R.QOS_CLASS_COMMIT_PENDING then
    let c1 := c.set R.QOS_CLASS_COMMIT_PENDING 0
    let cause := c.classShadowCause
    if cause ≠ 0 then (c1.set R.QOS_CLASS_COMMIT_CAUSE cause).rejectCommit R.QOS_CLASS_COMMIT_REJECT
    else c1.takeClassShadows
  else c

/-! ## The class steps of a boundary (R236) -/

/-- Bytes a class served in the beat that ends. -/
def Ctl.served (c : Ctl) (k : Nat) : Nat := (mapGet c.qos.beatBytes k).getD 0

/-- Class k was short in the beat that ends (R235). -/
def Ctl.short (c : Ctl) (k : Nat) : Bool :=
  let e := c.get (R.QOS_CLASS_STAT_EFF_RES k)
  decide (0 < e) && decide (c.served k < e * 3900) && c.classHolds k

/-- The judgement of R235, as the sets of short classes and of classes squeezed in the next beat. -/
def Ctl.judgeBeat (c : Ctl) : List Nat × List Nat :=
  let short := (List.range 8).filter c.short
  (short, if short.isEmpty then [] else (List.range 8).filter fun k =>
    !short.contains k && decide (c.get (R.QOS_CLASS_STAT_EFF_RES k) * 3900 < c.served k))

/-- The bandwidth snapshot of R237. -/
def Ctl.takeBwSnapshot (c : Ctl) : Ctl :=
  if c.snapPend then
    let c1 := (List.range 8).foldl (fun c k => (c.set (R.QOS_BW_SRD_BYTES k) (c.get (R.QOS_BW_RD_BYTES k))).set
      (R.QOS_BW_SWR_BYTES k) (c.get (R.QOS_BW_WR_BYTES k))) { c with snapPend := false }
    (c1.set R.QOS_BW_SNAP_TIME_TIME c.now).set R.QOS_BW_SNAP_CTL_DONE 1
  else c

/-- The class steps of a beat boundary in the order of R236, with the snapshot of R237. A commit never makes the total cut grow, so that at
most one overcommit event comes of a boundary. -/
def Ctl.classSteps (c : Ctl) : Ctl :=
  let j := c.judgeBeat
  let c1 := c.setSustain.setEffective.reportOvercommit
  let c2 := c1.applyClass.setEffective.reportOvercommit
  let c3 := (List.range 8).foldl (fun c k => (c.set (R.QOS_CLASS_STAT_SHORT k) (bit (j.1.contains k))).set
    (R.QOS_CLASS_STAT_SQUEEZED k) (bit (j.2.contains k))) c2
  { c3 with qos.beatBytes := [] }.takeBwSnapshot

/-- Bytes served (R237): unclassed ones to their own counters, a class's to its counter and to the beat's count. -/
def Ctl.serve (c : Ctl) (k : ReqKind) (cls : Nat) (write : Bool) (bytes : Nat) : Ctl := match k with
  | .correction => c.bump R.QOS_BW_META_BYTES bytes
  | .sealMeta => c.bump R.QOS_BW_META_BYTES bytes
  | .forager => c.bump R.QOS_BW_FRG_BYTES bytes
  | .port _ =>
    let c1 := c.bump (if write then R.QOS_BW_WR_BYTES cls else R.QOS_BW_RD_BYTES cls) bytes
    { c1 with qos.beatBytes := mapPut c1.qos.beatBytes cls (c1.served cls + bytes) }

/-- The class of a CXL.mem request of a head (R225): the lowest-numbered enabled window that holds the address, else
the head's default. -/
def Ctl.memClass (c : Ctl) (h : Head) (dpa : Nat) : Nat :=
  match (List.range 8).find? fun w => c.flag (R.QOS_WIN_LO_EN h.num w) &&
      decide (c.get (R.QOS_WIN_LO_BASE_MIB h.num w) * MiB ≤ dpa) &&
      decide (dpa < (c.get (R.QOS_WIN_LO_BASE_MIB h.num w) + c.get (R.QOS_WIN_HI_SIZE_MIB h.num w)) * MiB) with
  | some w => c.get (R.QOS_WIN_LO_CLASS h.num w)
  | none => c.get (match h with
    | .a => R.QOS_HEAD_CLASS_A_CLASS
    | .b => R.QOS_HEAD_CLASS_B_CLASS)

end Sys2Proof.Machine
end

