-- ==== Sys2Proof/Machine/Dmc.lean ====
section
/-! DEFINITION. The channel controllers, refresh, the ingest buffer and the row-lane arbiters (chapter 7, R28 to R35):
which command is issued next, what it counts, and the transfers of the row lanes. Times inside a controller are in ps
of the local clock. -/

namespace Sys2Proof.Machine

/-! ## Ranking -/

/-- The effective class of a port request (R156). -/
def Ctl.effClass (c : Ctl) (p cls arrival deadline : Nat) : Nat :=
  let ramp := 8 * c.get (R.QOS_PORT_LAT_RAMP p)
  let eu := if c.now + ramp ≤ deadline then cls
    else if c.now < deadline then cls * (deadline - c.now) / ramp
    else 0
  let ea := if c.aged cls arrival then 0 else cls
  min cls (min eu ea)

/-- The effective class of a request; 0 for a request that carries none. -/
def Ctl.reqClass (c : Ctl) (r : Req) : Nat := match r.kind with
  | .port p => c.effClass p r.cls r.arrival r.deadline
  | _ => 0

/-- The rank group of a request (R157), from 0. -/
def Ctl.rankGroup (c : Ctl) (r : Req) : Nat := match r.kind with
  | .correction => 0
  | .sealMeta => 1
  | .port p => if p = 3 ∧ r.write = true ∧ c.flag R.QOS_INGEST_STAT_PANIC = true then 2 else 3
  | .forager => 4

/-- One number that orders requests by R157: group, then for port requests e and effective deadline, then arrival. -/
def Ctl.rankKey (c : Ctl) (r : Req) : Nat :=
  let g := c.rankGroup r
  if g = 3 then ((g * 8 + c.reqClass r) * 2 ^ 66 + r.deadline) * 2 ^ 66 + r.arrival
  else (g * 8 * 2 ^ 66) * 2 ^ 66 + r.arrival

/-- Rank group and effective class together: what two requests share when one may pass the other on an open row (R158). -/
def Ctl.band (c : Ctl) (r : Req) : Nat := c.rankGroup r * 8 + c.reqClass r

/-- A work item at a controller: a request, or an activate that a pending lane transfer asks for (R160). -/
structure Cand where
  req : Req
  lane : Bool
  deriving DecidableEq, Repr

/-- A lane transfer as a request for its row. -/
def Xfer.asReq (x : Xfer) : Req :=
  { kind := .port x.port, cls := x.cls, arrival := x.arrival, deadline := x.deadline, write := x.write, bank := x.bank,
    row := x.row, line := 0, stalled := x.stalled, seq := x.seq }

/-- The transfers pending for a channel at its die's lane. -/
def Ctl.chanXfers (c : Ctl) (ch : Nat) : List Xfer := (c.lane (ch / 4 % 4)).pending.filter fun x => decide (x.chan = ch)

/-- Two requests name the same line. -/
def sameLine (q r : Req) : Bool := decide (q.bank = r.bank) && decide (q.row = r.row) && decide (q.line = r.line)

/-- The correction write-backs that no entry was open to: their controller serves them from its port, since everything of their bank waits
for them (R173; DESIGN CHOICE, notes/assumptions/130.md). -/
def ChanSt.portBacks (x : ChanSt) : List Req := x.waiting.filter fun q => decide (q.kind = .correction)

/-- The requests that a controller may serve. -/
def ChanSt.held (x : ChanSt) : List Req := x.queue ++ x.portBacks

/-- A correction write-back of a bank stands at its controller (R173). -/
def ChanSt.correcting (x : ChanSt) (b : Nat) : Bool := x.held.any fun q => decide (q.kind = .correction) && decide (q.bank = b)

/-- A request is held behind an earlier one to its line, an earlier lane transfer of its bank, or a correction write-back of its bank; a
write-back goes behind an earlier one of its bank alone (R31, R157, R173). -/
def Ctl.heldBack (c : Ctl) (ch : Nat) (earlier : List Req) (r : Req) : Bool :=
  if r.kind = .correction then earlier.any fun q => decide (q.kind = .correction) && decide (q.bank = r.bank)
  else earlier.any (fun q => sameLine q r) || (c.chan ch).correcting r.bank ||
    (c.chanXfers ch).any fun x => decide (x.bank = r.bank) && decide (x.seq < r.seq)

/-- The best of a key over a lane transfer and what it holds back (R157): the later column accesses of its bank, what waits at its port
for the line of one of them, and the lane transfers that wait behind the first of them. -/
def Ctl.xferBest (c : Ctl) (key : Req → Nat) (x : Xfer) : Nat :=
  let ch := c.chan x.chan
  let cols := ch.queue.filter fun r => decide (r.bank = x.bank) && decide (x.seq < r.seq)
  let ks := (cols ++ (ch.waiting.filter fun q => cols.any (sameLine q)) ++
    (((c.chanXfers x.chan).filter fun y => decide (y.bank = x.bank) && cols.any fun r => decide (r.seq < y.seq)).map Xfer.asReq)).map key
  ks.foldl min (key x.asReq)

/-- The best of a key over a request and what it holds back (R157): the later ones to its line, those still at their ports among them, and
the later lane transfers of its bank with what those hold back. -/
def Ctl.bestOf (c : Ctl) (key : Req → Nat) (ch : Nat) (later : List Req) (r : Req) : Nat :=
  let ks := ((later ++ (c.chan ch).waiting).filter fun q => sameLine q r).map key ++
    ((c.chanXfers ch).filter fun x => decide (x.bank = r.bank) && decide (r.seq < x.seq)).map (c.xferBest key)
  ks.foldl min (key r)

/-- The rank of a lane transfer with that of what it holds back (R157). -/
def Ctl.xferKey (c : Ctl) (x : Xfer) : Nat := c.xferBest c.rankKey x

/-- The requests of a queue that nothing holds back, each with its best key, walking it in order of arrival. -/
def Ctl.freeReqs (c : Ctl) (key : Req → Nat) (ch : Nat) : List Req → List Req → List (Nat × Cand)
  | _, [] => []
  | earlier, r :: t =>
    let rest := c.freeReqs key ch (earlier ++ [r]) t
    if c.heldBack ch earlier r then rest else (c.bestOf key ch t r, ⟨r, false⟩) :: rest

/-- A lane transfer is held behind an earlier column access of its bank, or a correction write-back of it (R31, R30). -/
def Ctl.xferHeld (c : Ctl) (x : Xfer) : Bool :=
  (c.chan x.chan).correcting x.bank || (c.chan x.chan).queue.any fun r => decide (r.bank = x.bank) && decide (r.seq < x.seq)

/-- The lane transfers of a channel that ask for an activate. -/
def Ctl.freeXfers (c : Ctl) (key : Req → Nat) (ch : Nat) : List (Nat × Cand) :=
  ((c.chanXfers ch).filter fun x => !c.xferHeld x).map fun x => (c.xferBest key x, ⟨x.asReq, true⟩)

/-- The work items of a controller, each with its best key. -/
def Ctl.items (c : Ctl) (key : Req → Nat) (ch : Nat) : List (Nat × Cand) :=
  c.freeReqs key ch [] (c.chan ch).held ++ c.freeXfers key ch

/-- The work items of a controller, first-ranked first. -/
def Ctl.ranked (c : Ctl) (ch : Nat) : List (Nat × Cand) := List.insertionSort (fun a b => a.1 ≤ b.1) (c.items c.rankKey ch)

/-- Rank group and effective class of a work item, the better ones of what it holds back taken for its own (R157, R158). -/
def Ctl.candBand (c : Ctl) (ch : Nat) (w : Cand) : Nat :=
  (((c.items c.band ch).find? fun e => decide (e.2 = w)).map Prod.fst).getD (c.band w.req)

/-! ## Commands of a controller -/

/-- The commands a controller issues for a work item. -/
inductive DramCmd where
  | activate
  | precharge
  | column
  | neighbour
  deriving DecidableEq, Repr

/-- A bank of a channel. -/
def ChanSt.bank (x : ChanSt) (b : Nat) : BankSt := (mapGet x.banks b).getD {}

/-- A bank of a channel changed. -/
def ChanSt.setBank (x : ChanSt) (b : Nat) (k : BankSt) : ChanSt := { x with banks := mapPut x.banks b k }

/-- The next command a work item needs; none for a lane transfer whose row is open. -/
def nextCmd (k : BankSt) (w : Cand) : Option DramCmd :=
  match k.openRow with
  | none => if k.nref = 0 then some .activate else some .neighbour
  | some r => if r = w.req.row then (if w.lane then none else some .column) else some .precharge

/-- The activates of a die in the last 64 ns, newest first. -/
def Ctl.dieActs (c : Ctl) (d : Nat) : List (Nat × Bool) := (mapGet c.stk.dieActs d).getD []

/-- A channel keeps refreshing: it is built, its die is powered, and it is not retired, or its migration is still
active (R162). -/
def Ctl.refreshes (c : Ctl) (ch : Nat) : Bool := !c.stk.feedsOpen.contains (ch / 4) && (!c.chanRetired ch || c.chanMoving ch)

/-- Beat n is a refresh beat. -/
def refreshBeat (n : Nat) : Bool := decide (n % 4 < 2)

/-- The offset in ns at which a channel's first window opens in a refresh beat (R162). -/
def windowOffset (ch : Nat) : Nat := 360 * (ch % 4) + 90 * (ch / 4 % 4)

/-- The instants in ps of the refreshes of a bank that are to come: of the open window, of those the beat has still to open, and of the
first one of the next beat when that is a refresh beat. -/
def Ctl.slots (c : Ctl) (ch b : Nat) : List Nat :=
  let x := c.chan ch
  let next := if c.refreshes ch && refreshBeat (c.lastBeatNo + 1) then [c.lastBeat + 3900 + windowOffset ch] else []
  ((if x.nextBank ≤ b then x.window.toList else []) ++ x.starts ++ next).map fun w => (w + 20 * b) * 1000

/-- What starts at an instant and needs `lead` before the bank's next refresh keeps clear of every refresh of the bank (R162, R165). -/
def clearOf (slots : List Nat) (lead t : Nat) : Bool := slots.all fun s => decide (t + lead ≤ s) || decide (s + 110000 ≤ t)

/-- Activates among a list of instants in the window of length `w` that ends at `e`. -/
def inWindow (l : List Nat) (w e : Nat) : Nat := (l.filter fun a => decide (a ≤ e) && decide (e < a + w)).length

/-- One more at `t` keeps every window of length `w` that holds it within `most`, with what is to come in it. -/
def windowFits (l : List Nat) (w most t : Nat) : Bool :=
  (t :: l.filter fun f => decide (t < f) && decide (f < t + w)).all fun e => decide (inWindow l w e < most)

/-- The instant at which tRC, tRP and the refreshes of a bank allow its activate (R28). -/
def bankReady (k : BankSt) (m : Nat) : Nat :=
  max k.busyUntil (max ((k.preAt.map (· + 14000 * m)).getD 0) ((k.actAt.map (· + 42000 * m)).getD 0))

/-- The instants at which a neighbour refresh of `n` rows that starts at `t` activates them, latest first. -/
def nrefTimes (t n : Nat) : List Nat := ((List.range n).map fun i => t + 30000 * i).reverse

/-- The activates of a neighbour refresh of `n` rows whose bank is ready at `t`: from then on, or directly after the refresh that it could
not end before (R165). -/
def nrefFrom (slots : List Nat) (t n : Nat) : List Nat :=
  nrefTimes (match slots.find? fun s => decide (s < t + 30000 * n) && decide (t < s + 110000) with
    | some s => s + 110000
    | none => t) n

/-- The activates of the neighbour refresh that a bank has pending (R161, R165): of a closed bank from the moment it is ready, and of an
open one after the refresh that closes it at the latest. -/
def Ctl.nrefDue (c : Ctl) (ch b : Nat) : List Nat :=
  let k := (c.chan ch).bank b
  let slots := c.slots ch b
  if k.nref = 0 then []
  else if k.openRow.isSome then
    (match List.insertionSort (· ≤ ·) (slots.filter (c.ps ≤ ·)) with
      | [] => []
      | s :: _ => nrefTimes (s + 110000) k.nref)
  else nrefFrom slots (max c.ps (bankReady k c.slowdown)) k.nref

/-- The activates of a die's window: those made in the last 64 ns, and the refreshes and neighbour refreshes of its banks to come (R32). -/
def Ctl.dieTimes (c : Ctl) (d : Nat) : List Nat :=
  (c.dieActs d).map Prod.fst ++ (List.range 4).flatMap fun i => (List.range 16).flatMap fun b =>
    c.slots (4 * d + i) b ++ c.nrefDue (4 * d + i) b

/-- The die window lets one more activate in at `t` (R32): refresh takes its slots first, lane transfers at most ROW_SHARE of those
left. -/
def Ctl.dieFits (c : Ctl) (d : Nat) (lane : Bool) (t : Nat) : Bool :=
  windowFits (c.dieTimes d) 64000 c.effectiveMax t &&
    (!lane || decide (inWindow (((c.dieActs d).filter Prod.snd).map Prod.fst) 64000 t < c.get R.STK_ACT_CFG_ROW_SHARE))

/-- The neighbour refresh pending on a bank finds its slots in the die's window when the bank is precharged at `t`, so that the window does
not delay it (R32, R161). -/
def Ctl.nrefFits (c : Ctl) (ch b t : Nat) : Bool :=
  let ts := nrefFrom (c.slots ch b) (t + 14000 * c.slowdown) ((c.chan ch).bank b).nref
  ts.all fun u => windowFits (ts.erase u ++ c.dieTimes (ch / 4)) 64000 c.effectiveMax u

/-- The activates of a channel with their banks: those made and the refreshes to come (R28). -/
def Ctl.chanActs (c : Ctl) (ch : Nat) : List (Nat × Nat) :=
  (c.chan ch).acts ++ (List.range 16).flatMap fun b => (c.slots ch b).map fun t => (t, b)

/-- tRRD between the activates of two banks, in ps. -/
def rrd (m b b' : Nat) : Nat := m * (if b / 4 = b' / 4 then 4000 else 2000)

/-- tRRD and tFAW let one more activate of a bank in at `t` (R28); `m` lengthens the intervals. -/
def chanFits (l : List (Nat × Nat)) (b m t : Nat) : Bool :=
  windowFits (l.map Prod.fst) (12000 * m) 4 t &&
    l.all fun a => decide (a.1 + rrd m a.2 b ≤ t) || decide (t + rrd m a.2 b ≤ a.1)

/-- The activates of a channel that an activate has to keep clear of: those of `chanActs` and its pending neighbour refreshes (R161). -/
def Ctl.chanBusy (c : Ctl) (ch : Nat) : List (Nat × Nat) :=
  c.chanActs ch ++ (List.range 16).flatMap fun b => (c.nrefDue ch b).map fun t => (t, b)

/-- The first of some instants, not before `t`, that passes a test. -/
def earliest (t : Nat) (points : List Nat) (ok : Nat → Bool) : Nat :=
  ((List.insertionSort (· ≤ ·) (t :: points.filter (t ≤ ·))).find? ok).getD (t + 64000)

/-- The instants after which a channel's intervals and refreshes may allow what they forbid now. -/
def Ctl.points (c : Ctl) (ch b : Nat) : List Nat :=
  let m := c.slowdown
  ((c.chanBusy ch).flatMap fun a => [a.1 + rrd m a.2 b, a.1 + 12000 * m]) ++ (c.slots ch b).map (· + 110000)

/-- A held work item keeps the open row against one that asks for another: it hits the row, and it is of a more urgent rank group or
effective class, or of the same one within 16 consecutive hits (R158). -/
def Ctl.hitHolds (c : Ctl) (ch : Nat) (w : Cand) : Bool :=
  let k := (c.chan ch).bank w.req.bank
  let own := c.candBand ch w
  (c.items c.band ch).any fun q =>
    decide (q.2.req.bank = w.req.bank) && decide (some q.2.req.row = k.openRow) &&
      (decide (q.1 < own) || (decide (q.1 = own) && decide (k.hits < 16)))

/-- New column taps wait for a channel's next refresh window (R364). -/
def Ctl.tapsDue (c : Ctl) (ch : Nat) : Bool :=
  ((mapGet c.cal.todo (ch / 4)).getD []).any fun x => decide (x.cls = 0) && decide (x.item / 38 = ch % 4)

/-- The controller issues no burst for the 30 ns before a window at which column taps change (R364). -/
def Ctl.tapClear (c : Ctl) (ch t : Nat) : Bool :=
  let next := if c.refreshes ch && refreshBeat (c.lastBeatNo + 1) then [c.lastBeat + 3900 + windowOffset ch] else []
  !c.tapsDue ch || ((c.chan ch).starts ++ next).all fun w => decide (t + 30000 ≤ w * 1000) || decide (w * 1000 ≤ t)

/-- How long before a refresh of its bank a column command or a lane transfer has to come, so that the bank can be precharged in time
(R28, R162). -/
def colLead (write : Bool) (m : Nat) : Nat := m * (if write then 2667 + 15000 + 14000 else 14000)

/-- The earliest instant, not before now, at which the next command of a work item is legal (R28, R32, R162, R165); none while the open
row is kept. -/
def Ctl.legalAt (c : Ctl) (ch : Nat) (w : Cand) : Option (DramCmd × Nat) :=
  let x := c.chan ch
  let b := w.req.bank
  let k := x.bank b
  let m := c.slowdown
  match nextCmd k w with
  | none => none
  | some .activate =>
    some (.activate, earliest (max c.ps (bankReady k m)) (c.points ch b ++ (c.dieTimes (ch / 4)).map (· + 64000)) fun t =>
      chanFits (c.chanBusy ch) b m t && clearOf (c.slots ch b) (48000 * m) t && c.dieFits (ch / 4) w.lane t)
  | some .neighbour =>
    some (.neighbour, earliest (max c.ps (bankReady k m)) (c.points ch b) fun t =>
      chanFits (c.chanActs ch) b m t && clearOf (c.slots ch b) (30000 * k.nref) t)
  | some .precharge =>
    if c.hitHolds ch w then none
    else some (.precharge, earliest (max c.ps (max ((k.actAt.map (· + 28000 * m)).getD 0) ((k.wrEnd.map (· + 15000 * m)).getD 0)))
      (c.points ch b ++ (c.dieTimes (ch / 4)).flatMap fun a => (List.range k.nref).map fun i => a + 64000 - (14000 * m + 30000 * i))
      fun t => clearOf (c.slots ch b) (14000 * m) t && c.nrefFits ch b t)
  | some .column =>
    let gaps := x.cols.map fun a => a.1 + m * (if a.2 / 4 = b / 4 then 5333 else 2667)
    some (.column, earliest ((c.ps :: (k.actAt.map (· + 14000 * m)).getD 0 :: k.busyUntil :: gaps).foldl max 0) 
      (c.points ch b ++ (c.chan ch).starts.map (· * 1000)) fun t => clearOf (c.slots ch b) (colLead w.req.write m) t && c.tapClear ch t)

/-- The rows physically adjacent to a row at the radius in force (R165). -/
def Ctl.neighbours (c : Ctl) (row : Nat) : Nat :=
  let r := if c.geff R.STK_NREF_CFG_RADIUS = 2 then 2 else 1
  min r row + min r (65535 - row)

/-- The probability exponent P in force: 0 is taken as 1, and 15 as 14. -/
def Ctl.nrefP (c : Ctl) : Nat := min 14 (max 1 (c.geff R.STK_NREF_CFG_P))

/-- Activates of a die at some instants noted, those older than 64 ns dropped. -/
def Ctl.noteActs (c : Ctl) (d : Nat) (ts : List Nat) (lane : Bool) : Ctl :=
  let keep := (c.dieActs d).filter fun a => decide (c.ps < a.1 + 64000)
  { c with stk.dieActs := mapPut c.stk.dieActs d (ts.map (fun t => (t, lane)) ++ keep) }

/-- Activates of a bank noted at its channel, those older than 64 ns, which bound nothing any more, dropped (R28). -/
def ChanSt.noteActs (x : ChanSt) (now : Nat) (ts : List Nat) (b : Nat) : ChanSt :=
  { x with acts := ts.map (fun t => (t, b)) ++ x.acts.filter fun a => decide (now < a.1 + 64000) }

/-- A data transfer that starts now and ends `d` ps later. -/
def Ctl.fly (c : Ctl) (ch d : Nat) (r : Req) (bytes : Nat) : Ctl :=
  let x := c.chan ch
  c.setChan ch { x with flight := x.flight ++ [⟨c.ps + d * c.slowdown, r, bytes⟩] }

/-- The transfers of a channel that have ended are counted (R237). -/
def Ctl.settle (c : Ctl) (ch : Nat) : Ctl :=
  let x := c.chan ch
  let done := x.flight.filter fun f => decide (f.ends ≤ c.ps)
  if done.isEmpty then c
  else done.foldl (fun c f => c.serve f.req.kind f.req.cls f.req.write f.bytes)
    (c.setChan ch { x with flight := x.flight.filter fun f => decide (c.ps < f.ends) })

/-- The transfers of every channel that have ended are counted. -/
def Ctl.settleAll (c : Ctl) : Ctl := (List.range c.nch).foldl Ctl.settle c

/-- A request leaves the ingest buffer (R159): a write of port 3 that the stack has taken. -/
def Ctl.drainIngest (c : Ctl) (r : Req) : Ctl :=
  if r.kind = .port 3 ∧ r.write = true then
    match c.inIngest.find? fun e => decide (e.1 = r.sa / 64) with
    | some e =>
      let c1 : Ctl := { c with stk.ingest := c.stk.ingest.erase e }
      { c1 with stk.wasFull := c1.ingestFull }.judgePanic
    | none => c
  else c

/-- One more line in the ingest buffer (R159): PEAK, panic, and source 602 when the buffer has become full. -/
def Ctl.fillIngest (c : Ctl) (ln cls : Nat) : Ctl :=
  let c1 : Ctl := { c with stk.ingest := c.stk.ingest ++ [(ln, cls)] }
  let c2 := (c1.set R.QOS_INGEST_STAT_PEAK (max (c1.get R.QOS_INGEST_STAT_PEAK) c1.inIngest.length)).judgePanic
  if c1.ingestFull && !c2.stk.wasFull then { c2 with stk.wasFull := true }.fault 602 cls else c2

/-- A command issued at its controller now. Read data end 16.0 ns and a burst after their command; write data one burst after it, a delay
that the spec does not give (DESIGN CHOICE, notes/assumptions/107.md). -/
def Ctl.issue (c : Ctl) (ch : Nat) (w : Cand) (cmd : DramCmd) : Ctl :=
  let x := c.chan ch
  let b := w.req.bank
  let k := x.bank b
  match cmd with
  | .activate =>
    let (v, c1) := c.fresh
    let drawn := decide (v % 2 ^ c.nrefP = 0)
    let x1 := (x.setBank b { k with
        openRow := some w.req.row, actAt := some c.ps, preAt := none, wrEnd := none, hits := 0, band := c.candBand ch w
        nref := if drawn then c.neighbours w.req.row else 0 }).noteActs c.ps [c.ps] b
    let c2 := ((c1.setChan ch x1).noteActs (ch / 4) [c.ps] w.lane).bump (R.DMC_ACT_CNT_COUNT ch)
    if drawn then c2.bump (R.DMC_NREF_CNT_COUNT ch) else c2
  | .neighbour =>
    let ts := nrefTimes c.ps k.nref
    let x1 := (x.setBank b { k with busyUntil := c.ps + 30000 * k.nref, nref := 0 }).noteActs c.ps ts b
    (c.setChan ch x1).noteActs (ch / 4) ts false
  | .precharge => c.setChan ch (x.setBank b { k with openRow := none, preAt := some c.ps, hits := 0 })
  | .column =>
    let x1 := { x.setBank b { k with
        hits := k.hits + 1, band := c.candBand ch w, wrEnd := if w.req.write then some (c.ps + 2667 * c.slowdown) else k.wrEnd } with
      cols := ((c.ps, b) :: x.cols).take 4
      queue := x.queue.erase w.req
      waiting := if w.req.kind = .correction ∧ x.queue.contains w.req = false then x.waiting.erase w.req else x.waiting }
    let c1 := (c.setChan ch x1).fly ch (if w.req.write then 2667 else 18667) w.req 64
    let c2 := if w.req.kind.port?.isSome && decide (w.req.deadline < c.now) then c1.bump (R.DMC_LATE_CNT_COUNT ch) else c1
    c2.drainIngest w.req

/-! ## Entering the queue (R154, R230) -/

/-- Entries of a queue of one kind that are taken. -/
def ChanSt.used (x : ChanSt) (e : Entry) : Nat := (x.queue.filter fun r => decide (r.entry = e)).length

/-- The entry of the queue that a request takes (R154): of the 16 only for seal metadata or the 8 only for e = 0 where it is such a request,
else of the 104 open to all; none when no entry is open to it. A request keeps its entry, whatever its effective class becomes
(DESIGN CHOICE, notes/assumptions/130.md). -/
def Ctl.entryFor (c : Ctl) (ch : Nat) (r : Req) : Option Entry :=
  let x := c.chan ch
  if r.kind = .sealMeta ∧ x.used .metadata < 16 then some .metadata
  else if r.kind.port?.isSome = true ∧ c.reqClass r = 0 ∧ x.used .urgent < 8 then some .urgent
  else if x.used .general < 104 then some .general
  else none

/-- The requests of a class that count at a controller: held in its queue, or with their data transfer under way (R230). -/
def Ctl.classHeld (c : Ctl) (ch k : Nat) : Nat :=
  let x := c.chan ch
  (x.queue.filter fun q => q.kind.port?.isSome && decide (q.cls = k)).length +
    (x.flight.filter fun f => decide (f.bytes = 64) && decide (c.ps < f.ends) && f.req.kind.port?.isSome && decide (f.req.cls = k)).length

/-- The class limits let a request in (R230), with the exceptions of ingest panic and of port 4 in a class whose limit
is 0. -/
def Ctl.limitOpen (c : Ctl) (ch : Nat) (r : Req) : Bool :=
  let held := c.classHeld ch r.cls
  match r.kind with
  | .port p =>
    decide (held < c.classLimit r.cls) ||
      (decide (p = 3) && r.write && c.flag R.QOS_INGEST_STAT_PANIC) ||
      (decide (p = 4) && decide (c.classLimit r.cls = 0) &&
        decide ((((c.chan ch).queue ++ ((c.chan ch).flight.filter fun f => decide (f.bytes = 64) && decide (c.ps < f.ends)).map
          Flight.req).filter fun q => decide (q.kind = .port 4) && decide (q.cls = r.cls)).length = 0))
  | _ => true

/-- A request may enter now: its controller admits, an entry is open to it and its class is below its limit; a job read
waits while the ingest buffer is full (R159); no earlier request to its line waits, and no correction write-back of its bank (R157). -/
def Ctl.mayEnter (c : Ctl) (ch : Nat) (r : Req) : Bool :=
  decide (c.stk.selfRef = 0) && (c.entryFor ch r).isSome && c.limitOpen ch r &&
    !(decide (r.kind = .port 2) && !r.write && c.ingestFull) &&
    !((c.chan ch).waiting.takeWhile fun q => decide (q ≠ r)).any (fun q => sameLine q r) &&
    (decide (r.kind = .correction) ||
      !(c.chan ch).waiting.any fun q => decide (q.kind = .correction) && decide (q.bank = r.bank))

/-- The rank of a waiting request with that of the later ones that it holds back (R157). -/
def Ctl.waitKey (c : Ctl) (ch : Nat) (r : Req) : Nat :=
  ((((c.chan ch).waiting.dropWhile fun q => decide (q ≠ r)).filter fun q => sameLine q r).map c.rankKey).foldl min (c.rankKey r)

/-- The first-ranked waiting request that may enter takes the free entry (R154). A request has arrived at its controller, for the order of
R31, when it takes its entry (DEDUCED, notes/assumptions/130.md). -/
def Ctl.admitWaiting (c : Ctl) (ch : Nat) : Ctl :=
  let x := c.chan ch
  let may := x.waiting.filter (c.mayEnter ch)
  match List.insertionSort (fun (a b : Req) => c.waitKey ch a ≤ c.waitKey ch b) may with
  | [] => c
  | r :: _ => { c.setChan ch { x with queue := x.queue ++ [{ r with seq := c.stk.order, entry := (c.entryFor ch r).getD .general }], waiting := x.waiting.erase r } with
      stk.order := c.stk.order + 1 }

/-- Age promotions counted, each column request once (R156). Lane transfers count neither here nor in DMC_LATE_CNT (DESIGN CHOICE,
notes/assumptions/131.md). One that its ramp has brought to e = 0 before counts as well (DESIGN CHOICE,
notes/assumptions/144.md). -/
def Ctl.countPromotions (c : Ctl) (ch : Nat) : Ctl :=
  let x := c.chan ch
  let aged := fun (r : Req) => r.kind.port?.isSome && c.aged r.cls r.arrival
  let mark := fun (r : Req) => if aged r then { r with promoted := true } else r
  (c.setChan ch { x with queue := x.queue.map mark, waiting := x.waiting.map mark }).bump (R.DMC_PROMOTE_CNT_COUNT ch)
    ((x.queue ++ x.waiting).filter fun r => aged r && !r.promoted).length

/-- A transfer may join a lane's pending ones: the lane is in service, 256 in all, the class not blocked and below its LANE_LIMIT, one of
port 4 in a class whose limit is 0, and no read of a job while the ingest buffer is full (R40, R159, R160, R230). -/
def Ctl.laneOpen (c : Ctl) (l : Nat) (x : Xfer) : Bool :=
  let p := (c.lane l).pending
  let held := (p.filter fun y => decide (y.cls = x.cls)).length
  let lim := if c.get (R.QOS_CLASS_CFG_LIMIT x.cls) = 0 then 0 else c.classLaneLimit x.cls
  c.laneUp l && decide (p.length < 256) && (decide (held < lim) ||
    (decide (x.port = 4) && decide (lim = 0) &&
      decide ((p.filter fun y => decide (y.port = 4) && decide (y.cls = x.cls)).length = 0))) &&
    !(decide (x.port = 2) && !x.write && c.ingestFull)

/-- The first-ranked waiting transfer that may join a lane joins it. -/
def Ctl.admitLane (c : Ctl) (l : Nat) : Ctl :=
  let y := c.lane l
  match List.insertionSort (fun (a b : Xfer) => c.rankKey a.asReq ≤ c.rankKey b.asReq) (y.waiting.filter (c.laneOpen l)) with
  | [] => c
  | x :: _ => { c.setLane l { y with pending := y.pending ++ [{ x with seq := c.stk.order }], waiting := y.waiting.erase x } with
      stk.order := c.stk.order + 1 }

/-- The class that a head's CXL.mem request to a line took at the mapper (R225): that of the oldest one that has passed it and is not yet at
its controller, of the partial write that waits for its merge, or of the one that waits; else the one that a request would take now. -/
def Ctl.passedClass (c : Ctl) (h : Head) (ln : Nat) : Nat :=
  match c.stk.passed.find? fun e => decide (e.1 = h) && decide (e.2.1 = ln) with
  | some e => e.2.2
  | none => match c.ecc.merges.find? fun m => decide (m.head = h) && decide (m.sa / 64 = ln) with
    | some m => m.cls
    | none => match c.stk.memWait.find? fun r => decide (r.head = h) && decide (r.dpa / 64 = ln) with
      | some r => r.cls
      | none => c.memClass h (64 * ln)

/-- A head's request that passed the mapper has reached its controller. -/
def Ctl.dropPassed (c : Ctl) (src : ReqSrc) (ln : Nat) : Ctl := match src with
  | .mem h => { c with stk.passed := c.stk.passed.eraseP fun e => decide (e.1 = h) && decide (e.2.1 = ln) }
  | _ => c

/-- A request as its controller gets it from a source: kind, class and job deadline (R224 to R227); none when the source has no such
request: a job that is not there or has ended, or a line that the ingest buffer does not hold. -/
def Ctl.reqFrom (c : Ctl) (src : ReqSrc) (sa : Nat) : Option (ReqKind × Nat × Option Nat) :=
  match src with
  | .mem h => some (.port h.num, c.passedClass h (sa / 64), none)
  | .ingest => (c.inIngest.find? fun e => decide (e.1 = sa / 64)).map fun e => (.port 3, e.2, none)
  | .job slot => (c.job.jobs.find? fun j => decide (j.slot = slot) && decide (j.phase ≠ .ended)).map fun j =>
      (.port 2, le j.desc 2 1 % 8, j.deadline)
  | .moving => some (.port 4, c.geff R.ECC_RET_CFG_MIG_CLASS, none)
  | .keeper => some (.port 4, 7, none)
  | .sealMeta => some (.sealMeta, 0, none)
  | .forager => some (.forager, 0, none)

/-- The effective deadline of a request that arrives now (R155): TARGET is taken as it stands then (DESIGN CHOICE,
notes/assumptions/144.md). -/
def Ctl.effDeadline (c : Ctl) (kind : ReqKind) (dl : Option Nat) : Nat :=
  let own := c.now + (match kind with
    | .port p => 8 * c.get (R.QOS_PORT_LAT_TARGET p)
    | _ => 0)
  min own (dl.getD own)

/-- The slot of the job that a source names; a row transfer is taken for a running job in row mode (R109), or for the Keeper. -/
def Ctl.laneJob (c : Ctl) : ReqSrc → Option (Option Nat)
  | .job slot => if c.job.jobs.any fun j => decide (j.slot = slot) && decide (j.phase = .running) && decide (j.mode = 1)
      then some (some slot) else none
  | .moving => some none
  | .keeper => some none
  | _ => none

/-- REQUEST_ENQUEUE (R154, R155, R160): a source asks for the line of a stack address at its controller, or with `step` for its row over
the lane of its die, that being the job's row step; the request takes a free entry open to it or waits. -/
def requestEnqueue (src : ReqSrc) (sa : Nat) (write : Bool) (step : Option Nat) (c : Ctl) : Ctl :=
  let p := c.place sa
  match c.reqFrom src sa with
  | none => c
  | some (kind, cls, dl) =>
    if c.nch ≤ p.chan ∨ c.stk.feedsOpen.contains (p.chan / 4) = true then c else
    match step, kind, c.laneJob src with
    | none, _, _ =>
      let r : Req := { kind := kind, cls := cls, arrival := c.now, deadline := c.effDeadline kind dl, write := write, bank := p.bank,
                       row := p.row, line := p.line, sa := sa }
      ((c.setChan p.chan { c.chan p.chan with waiting := (c.chan p.chan).waiting ++ [r] }).admitWaiting p.chan).dropPassed src (sa / 64)
    | some n, .port q, some job =>
      let x : Xfer := { chan := p.chan, bank := p.bank, row := p.row, write := write, cls := cls, port := q, arrival := c.now,
                        deadline := c.effDeadline kind dl, job := job.map fun slot => (slot, n) }
      let l := p.chan / 4 % 4
      if c.laneUp l then (c.setLane l { c.lane l with waiting := (c.lane l).waiting ++ [x] }).admitLane l else c
    | _, _, _ => c

def execRequestEnqueue (src : ReqSrc) (sa : Nat) (write : Bool) (step : Option Nat) (s : State) :
    Host.Outcome State Fault Refusal :=
  .next (s.mapCtl (requestEnqueue src sa write step))

/-! ## CHANNEL_COMMAND_ISSUE -/

/-- The choice of R158 among ranked work items: the first-ranked one's command when it is legal now, else a legal
command of a lower-ranked one that does not postpone the first-ranked one's, or a hit that passes an earlier request of
its own effective class. -/
def Ctl.chooseCmd (c : Ctl) (ch : Nat) (items : List (Nat × Cand)) : Option (Cand × DramCmd) :=
  match items with
  | [] => none
  | f :: _ =>
    let due := (c.legalAt ch f.2).map Prod.snd
    items.findSome? fun w =>
      match c.legalAt ch w.2 with
      | some (cmd, t) =>
        if c.ps < t then none
        else
          let later := ((c.issue ch w.2 cmd).legalAt ch f.2).map Prod.snd
          let hit := decide (cmd = .column) && decide (c.candBand ch w.2 = c.candBand ch f.2) &&
            decide (((c.chan ch).bank w.2.req.bank).hits < 16)
          if decide (w = f) || hit || decide (later.getD 0 ≤ due.getD 0) then some (w.2, cmd) else none
      | none => none

/-- A bank whose open row no held request hits any more that is at least as urgent as the one it last served, and that may be precharged
now (R158). -/
def Ctl.idleOpen (c : Ctl) (ch : Nat) : Option Nat :=
  let m := c.slowdown
  (List.range 16).find? fun b =>
    let k := (c.chan ch).bank b
    k.openRow.isSome &&
      !((c.chan ch).held ++ (c.chanXfers ch).map Xfer.asReq).any (fun r =>
        decide (r.bank = b) && decide (some r.row = k.openRow) && decide (c.band r ≤ k.band)) &&
      !((c.items c.band ch).any fun q =>
        decide (q.2.req.bank = b) && decide (some q.2.req.row = k.openRow) && decide (q.1 ≤ k.band)) &&
      clearOf (c.slots ch b) (14000 * m) c.ps && c.nrefFits ch b c.ps &&
      decide ((k.actAt.map (· + 28000 * m)).getD 0 ≤ c.ps) && decide ((k.wrEnd.map (· + 15000 * m)).getD 0 ≤ c.ps)

/-- A bank whose pending neighbour refresh may be issued now (R161, R165): no request delays it. -/
def Ctl.neighbourDue (c : Ctl) (ch : Nat) : Option Cand :=
  ((List.range 16).map fun b => (⟨{ kind := .correction, cls := 0, arrival := 0, deadline := 0, write := false, bank := b, row := 0,
                                    line := 0 }, false⟩ : Cand)).find? fun w =>
    decide (c.legalAt ch w = some (.neighbour, c.ps))

/-- An activate that finds the die window full is counted once (R32). -/
def Ctl.countStall (ch : Nat) (c : Ctl) (w : Cand) : Ctl :=
  let x := c.chan ch
  let k := x.bank w.req.bank
  let m := c.slowdown
  if decide (nextCmd k w = some .activate) && decide (bankReady k m ≤ c.ps) && chanFits (c.chanBusy ch) w.req.bank m c.ps &&
      clearOf (c.slots ch w.req.bank) (48000 * m) c.ps && !c.dieFits (ch / 4) w.lane c.ps && !w.req.stalled then
    let c1 := c.bump (R.STK_ACT_STALL_STALLS (ch / 4))
    if w.lane then
      let l := ch / 4 % 4
      c1.setLane l { c1.lane l with pending := (c1.lane l).pending.map fun y =>
        if y.chan = ch ∧ y.asReq = w.req then { y with stalled := true } else y }
    else
      let mark := fun (r : Req) => if r = w.req then { r with stalled := true } else r
      c1.setChan ch { x with queue := x.queue.map mark, waiting := x.waiting.map mark }
  else c

/-- A bank precharged now. -/
def Ctl.closeBank (c : Ctl) (ch b : Nat) : Ctl :=
  let x := c.chan ch
  c.setChan ch (x.setBank b { x.bank b with openRow := none, preAt := some c.ps, hits := 0 })

/-- The command that a controller issues in this cycle among its work items: the first-ranked one's when it is legal, else the precharge
of a row that no request keeps open, else that of a lower-ranked one. -/
def Ctl.issueOne (c : Ctl) (ch : Nat) (items : List (Nat × Cand)) : Ctl :=
  match c.chooseCmd ch items, c.idleOpen ch with
  | some (w, cmd), idle => match idle with
    | some b => if (items.head?.map Prod.snd) = some w then c.issue ch w cmd else c.closeBank ch b
    | none => c.issue ch w cmd
  | none, some b => c.closeBank ch b
  | none, none => c

/-- What a controller does in a command cycle (R158, R161): a neighbour refresh that is due goes first. -/
def Ctl.commandCycle (c : Ctl) (ch : Nat) : Ctl :=
  match c.neighbourDue ch with
  | some w => c.issue ch w .neighbour
  | none =>
    let items := c.ranked ch
    let c1 := (items.map Prod.snd).foldl (Ctl.countStall ch) c
    c1.issueOne ch (c1.ranked ch)

/-- CHANNEL_COMMAND_ISSUE (R158, R28, R32): `dt` ns later, the controller of a channel issues the next legal command of
its work. A closed channel and one whose die is in self-refresh or without power issue none. -/
def channelCommandIssue (ch dt : Nat) (c : Ctl) : Ctl :=
  let c := c.pass dt
  if c.nch ≤ ch ∨ (c.chan ch).closed = true ∨ c.stk.selfRef ≠ 0 ∨ c.stk.feedsOpen.contains (ch / 4) = true then c
  else (((((c.settle ch).admitWaiting ch).countPromotions ch).commandCycle ch).admitWaiting ch)

def execChannelCommandIssue (ch dt : Nat) (s : State) : Host.Outcome State Fault Refusal :=
  .next (s.mapCtl (channelCommandIssue ch dt))

/-! ## Refresh -/

/-- The body of the calibration record of a die (R395, R396). -/
def Ctl.calBody (c : Ctl) (d : Nat) : Bytes :=
  let l := (mapGet c.cal.sel d).getD []
  let model := (c.thm.params.filter fun e => decide (e.1.1 = d)).map fun e => CalItem.mk 4 e.1.2 (e.2 % 65536).toNat
  toLE 2 (c.get (R.CAL_DIE_T_CAL d)) ++ toLE 2 (l.length + model.length) ++
    (l ++ model).flatMap fun x => toLE 2 (x.item % 4096 + 4096 * x.cls) ++ toLE 2 x.value

/-- The phase maps among corrections that come into force (R44, R362): a map with the bit of the spare phase, the fifth of VDD and the third
of VDDQ, brings that phase into use (notes/assumptions/90.md). -/
def Ctl.usePhases (c : Ctl) (d : Nat) (l : List CalItem) : Ctl :=
  (l.filter fun x => decide (x.cls = 2) && (decide (x.item = 2 ∧ tb x.value 4 = true) || decide (x.item = 3 ∧ tb x.value 2 = true))).foldl
    (fun c x => { c with thm.spares := if c.thm.spares.contains (d, x.item - 2) then c.thm.spares else (d, x.item - 2) :: c.thm.spares }.set
      R.PWR_REG_STAT_SPARE_USED (setBit (c.get R.PWR_REG_STAT_SPARE_USED) d)) c

/-- Measured corrections of a die come into force (R364): those that `p` names; none in thermal stage 4 (R365). Once all have, the Keeper
writes the die's record, at most once per 600 s. -/
def Ctl.applyCal (c : Ctl) (d : Nat) (p : CalItem → Bool) : Ctl :=
  match (if c.get R.THM_STATUS_STAGE = 4 then none else mapGet c.cal.todo d) with
  | none => c
  | some l =>
    let now := l.filter p
    let left := l.filter fun x => !p x
    let old := ((mapGet c.cal.sel d).getD []).filter fun x => !now.any fun y => decide (y.cls = x.cls) && decide (y.item = x.item)
    let c1 := { c.usePhases d now with cal := { c.cal with
      sel := if now.isEmpty then c.cal.sel else mapPut c.cal.sel d (now ++ old)
      todo := if left.isEmpty then mapDel c.cal.todo d else mapPut c.cal.todo d left } }
    if left.isEmpty && (match mapGet c.cal.written d with
        | some t => decide (t + 600000000000 ≤ c.clock)
        | none => true) then
      { c1 with cal.written := mapPut c1.cal.written d c1.clock,
                sbp.writes := c1.sbp.writes ++ [⟨16 + d, c1.calBody d, none, false, none⟩] }
    else c1

/-- REFRESH_WINDOW (R162, R364): the next window that the beat has brought opens at its offset, where new column taps take effect. -/
def refreshWindow (ch : Nat) (c : Ctl) : Ctl :=
  let x := c.chan ch
  match x.starts with
  | [] => c
  | w :: t =>
    if ch < c.nch ∧ x.window = none ∧ c.stk.selfRef < 2 then
      let c1 := (c.passTo w).applyCal (ch / 4) fun y => decide (y.cls = 0) && decide (y.item / 38 = ch % 4)
      c1.setChan ch { x with window := some w, nextBank := 0, starts := t }
    else c

def execRefreshWindow (ch : Nat) (s : State) : Host.Outcome State Fault Refusal := .next (s.mapCtl (refreshWindow ch))

/-- The refresh of a bank under the pointer as it stands is the one whose rows hold the channel's canary row (R315). -/
def Ctl.canaryHere (c : Ctl) (ch b : Nat) : Bool :=
  decide (c.get (R.DMC_REF_STAT_POINTER ch) = (Config.canaryPlace ch).1.val) && decide (b = (Config.canaryPlace ch).2.val)

/-- The refresh of the canary row's place leaves out the canary row every second time (R163). -/
def Ctl.turnCanary (c : Ctl) (ch : Nat) : Ctl :=
  { c with stk.canarySkip := if c.stk.canarySkip.contains ch then c.stk.canarySkip.filter (fun x => decide (x ≠ ch)) else ch :: c.stk.canarySkip }

/-- A channel stands immediately before the refresh of its canary row (R163, R315): in its open window, at the row's place, on the turn
that refreshes it. -/
def Ctl.canaryDue (c : Ctl) (ch : Nat) : Bool :=
  (c.chan ch).window.isSome && c.canaryHere ch (c.chan ch).nextBank && !c.stk.canarySkip.contains ch

/-- PER_BANK_REFRESH (R162, R165): the next bank of the open window is refreshed over rows 8P to 8P + 7; the bank is precharged in time
(`colLead`), a neighbour refresh pending on it follows directly, and the pointer advances after bank 15. -/
def perBankRefresh (ch : Nat) (c : Ctl) : Ctl :=
  let x := c.chan ch
  match x.window with
  | none => c
  | some w =>
    let b := x.nextBank
    let c1 := c.passTo (w + 20 * b)
    let k := x.bank b
    let ts := nrefTimes (c1.ps + 110000) k.nref ++ [c1.ps]
    let x1 := x.setBank b { k with
      openRow := none, preAt := none, hits := 0, nref := 0, busyUntil := c1.ps + 110000 + 30000 * k.nref }
    let c2 := (c1.setChan ch { x1.noteActs c1.ps ts b with
        nextBank := b + 1, window := if b = 15 then none else some w }).noteActs (ch / 4) ts false
    let c3 := if c2.canaryHere ch b then c2.turnCanary ch else c2
    if b = 15 then c3.set (R.DMC_REF_STAT_POINTER ch) ((c3.get (R.DMC_REF_STAT_POINTER ch) + 1) % 8192) else c3

def execPerBankRefresh (ch : Nat) (s : State) : Host.Outcome State Fault Refusal := .next (s.mapCtl (perBankRefresh ch))

/-- The starts of `n` windows of a channel in the beat under way: one at its offset, more of them spread evenly over the beat, the second
of two 1,950 ns after the first (R162). -/
def Ctl.windowStarts (c : Ctl) (ch n : Nat) : List Nat := (List.range n).map fun i => c.lastBeat + windowOffset ch + i * (3900 / n)

/-- Refresh beats among the first `n` beats of the grid (R162). -/
def refreshBeatsBelow (n : Nat) : Nat := 2 * (n / 4) + min (n % 4) 2

/-- The refresh windows beat `n` brings (R162, R164), `prev` being the beat before: one on a refresh beat and one for each refresh beat that a
step has skipped, or two for each at the doubled rate; none while the dies are in self-refresh. -/
def Ctl.dueWindows (c : Ctl) (prev n : Nat) : Ctl :=
  let k := bit (refreshBeat n) + (refreshBeatsBelow n - refreshBeatsBelow (prev + 1))
  if decide (0 < k) && decide (c.stk.selfRef < 2) then
    (List.range c.nch).foldl (fun c ch => if c.refreshes ch then
      c.setChan ch { c.chan ch with starts := c.windowStarts ch (k * (if tb (c.get R.STK_REF_RATE_DOUBLE) (ch / 4) then 2 else 1)) } else c) c
  else c

/-- One refresh window on every channel that refreshes, as self-refresh entry and exit open it (R166). -/
def Ctl.windowOnAll (c : Ctl) : Ctl :=
  (List.range c.nch).foldl (fun c ch => if c.refreshes ch then
    let c1 := if c.canaryHere ch (Config.canaryPlace ch).2.val then c.turnCanary ch else c
    c1.set (R.DMC_REF_STAT_POINTER ch) ((c1.get (R.DMC_REF_STAT_POINTER ch) + 1) % 8192) else c) c

/-- The segments of the last park that are dropped (R167): for a host park those not kept, else none, also where a quiesce has overtaken the host park
before it was entered (`srcPark` 3). -/
def Ctl.parkDrops (c : Ctl) : Nat := if c.stk.srcPark = 1 then 255 - c.pasrKept else 0

/-- The dies that were asked to, have entered self-refresh (R166): banks are closed, neighbour
refreshes issued, one window opened on each channel, and DROPPED reports what the park drops. A window still open or due is cut, and its
pointer does not advance (DESIGN CHOICE, notes/assumptions/131.md). -/
def selfRefreshEntered (c : Ctl) : Ctl :=
  if c.stk.selfRef = 1 then
    let c1 := c.windowOnAll
    let c2 := { c1 with cal.current := none, stk.selfRef := 2, stk.chans := c1.stk.chans.map fun (e : Nat × ChanSt) =>
      (e.1, { e.2 with banks := [], acts := [], cols := [], window := none, starts := [], nextBank := 0 }) }
    (c2.set R.STK_SR_STAT_IN_SR (maskOf c2.nd fun d => !c2.stk.feedsOpen.contains d)).set R.STK_SR_STAT_DROPPED c2.parkDrops
  else c

/-! ## Row lanes (R30, R160) -/

/-- A transfer is within 64 steps of its job's slowest lane (R109). -/
def Ctl.stepOpen (c : Ctl) (x : Xfer) : Bool := match x.job with
  | none => true
  | some (slot, n) => c.stk.lanes.all fun e => (e.2.pending ++ e.2.waiting).all fun y => match y.job with
    | some (s, m) => decide (s ≠ slot) || decide (n ≤ m + 64)
    | none => true

/-- A pending transfer can take a lane cycle: its row is open and past tRCD, no refresh is too near, no earlier column access of its bank
waits, its job's lanes are within 64 steps, and a read finds a free comb cell. -/
def Ctl.xferReady (c : Ctl) (l : Nat) (x : Xfer) : Bool :=
  let k := (c.chan x.chan).bank x.bank
  let m := c.slowdown
  decide (k.openRow = some x.row) && decide ((k.actAt.getD 0) + 14000 * m ≤ c.ps) && decide (k.busyUntil ≤ c.ps) &&
    clearOf (c.slots x.chan x.bank) (colLead x.write m) c.ps && !c.xferHeld x && c.stepOpen x &&
    (x.write || decide (c.cellsHeld + (c.lane l).landing.length < 32768))

/-- The first-ranked transfer of a list (R157, R160). -/
def Ctl.firstXfer (c : Ctl) (l : List Xfer) : Option Xfer :=
  (List.insertionSort (fun (a b : Xfer) => c.xferKey a ≤ c.xferKey b) l).head?

/-- A transfer takes the lane cycle: counted, and either on its way to a comb cell, which it reaches 8 ns later (tLRD), or written to its
row. -/
def Ctl.moveRow (c : Ctl) (l : Nat) (x : Xfer) : Ctl :=
  let y := c.lane l
  let m := c.slowdown
  let y1 := { y with
    pending := y.pending.erase x, run := y.run + 1, jobRows := y.jobRows + bit (x.port = 2)
    landing := if x.write then y.landing else y.landing ++ [(c.ps + 8000 * m, x)] }
  let c1 := ((c.setLane l y1).bump (R.ROWL_XFER_CNT_ROWS l)).fly x.chan (if x.write then 2667 else 8000) x.asReq 1024
  if x.write then
    let ch := c1.chan x.chan
    let k := ch.bank x.bank
    (c1.setChan x.chan (ch.setBank x.bank { k with wrEnd := some (c1.ps + 2667 * m) })).freeCells x.slot 1
  else c1

/-- A lane that is not in service holds no transfer (R35, R40): the jobs of those it had go on in column mode. -/
def Ctl.dropXfers (c : Ctl) (l : Nat) : Ctl :=
  let y := c.lane l
  if c.laneUp l || (y.pending.isEmpty && y.waiting.isEmpty) then c
  else (c.setLane l { y with pending := [], waiting := [], run := 0, chosen := false }).releaseCells (y.pending ++ y.waiting)

/-- New sampling legs of the lane's dies take effect in a cycle that carries no transfer of theirs (R364), `x` being what it carries. -/
def Ctl.laneLegs (c : Ctl) (l : Nat) (x : Option Xfer) : Ctl :=
  (List.range 3).foldl (fun c i =>
    let d := l + 4 * i
    if x.any fun x => decide (x.chan / 4 = d) then c else c.applyCal d fun y => decide (y.cls = 1)) c

/-- One more lane cycle, of the 64 over which job transfers are counted (R325). -/
def Ctl.countCycle (c : Ctl) (l : Nat) : Ctl :=
  let y := c.lane l
  c.setLane l { y with cycles := (y.cycles + 1) % 64, jobRows := if y.cycles = 0 then 0 else y.jobRows }

/-- The transfer of the run's direction that a lane's cycle carries, if any, is moved, a job's within the duty limit (R325); new sampling
legs take effect beside it. -/
def Ctl.carry (c : Ctl) (l : Nat) : Ctl :=
  match c.firstXfer ((c.lane l).pending.filter fun x => decide (x.write = (c.lane l).write) && c.xferReady l x &&
      (decide (x.port ≠ 2) || decide ((c.lane l).jobRows < c.dutyLimit))) with
  | some x => (c.moveRow l x).laneLegs l (some x)
  | none => c.laneLegs l none

/-- LANE_CYCLE (R30, R160): `dt` ns later, one cycle of a lane. A run starts in the direction of the first-ranked pending
transfer, keeps it until a row has moved, and ends after 32 rows or when none of its direction is pending; a change of direction costs
one idle cycle; a cycle no transfer can use stays idle. -/
def laneCycle (l dt : Nat) (c : Ctl) : Ctl :=
  let c := c.pass dt
  if 4 ≤ l ∨ c.laneUp l = false ∨ c.domainOpen (13 + l) = false ∨ c.stk.selfRef ≠ 0 then c else
  let c := (c.countCycle l).admitLane l
  let y := c.lane l
  if y.chosen && decide (y.run < 32) && y.pending.any (fun x => decide (x.write = y.write)) then c.carry l
  else match c.firstXfer y.pending with
    | none => (c.setLane l { y with run := 0, chosen := false }).laneLegs l none
    | some f =>
      let c1 := c.setLane l { y with run := 0, write := f.write, chosen := true }
      if f.write = y.write then c1.carry l else c1.laneLegs l none

def execLaneCycle (l dt : Nat) (s : State) : Host.Outcome State Fault Refusal := .next (s.mapCtl (laneCycle l dt))

/-- LANE_ROW_LANDED (R30): the oldest row on its way over a lane is held in a comb cell, 8 ns after its command; the
check of its lines is LINE_READ_CHECK. -/
def laneRowLanded (l : Nat) (c : Ctl) : Ctl :=
  match (c.lane l).landing with
  | [] => c
  | (t, x) :: rest => ((c.setLane l { c.lane l with landing := rest }).passTo ((t + 999) / 1000)).takeCells x.slot 1

def execLaneRowLanded (l : Nat) (s : State) : Host.Outcome State Fault Refusal := .next (s.mapCtl (laneRowLanded l))

end Sys2Proof.Machine
end

