-- ==== Sys2Proof/Machine/Mailbox.lean ====
section
/-! DEFINITION. The checks every mailbox command passes before its own rules (R248, R290 to R293, R303), and the claims
a command takes (R20, R293). -/

namespace Sys2Proof.Machine

/-- Capability 0x0020 is in the chain (R24). -/
def Ctl.hasSeal (c : Ctl) : Bool := decide (c.get R.IDC_CAP3_HDR0_CAP_ID = 0x20)

/-- Capability 0x0040 is in the chain (R24). -/
def Ctl.hasDual (c : Ctl) : Bool := decide (c.get R.IDC_CAP5_HDR0_CAP_ID = 0x40)

/-- The stack is away from service: parked by a host (R303), or in orderly shutdown (R319, R322). -/
def Ctl.stackAway (c : Ctl) : Bool := c.flag R.IDC_KPR_STAT_PARKED || decide (c.get R.THM_STATUS_STAGE = 4)

/-- What kind of command a mailbox command is, for the checks made before its own. -/
structure CmdKind where
  /-- Shortest input payload (R290). -/
  min : Nat := 0
  /-- A fenced head may issue it (R248). -/
  whileFenced : Bool := false
  /-- It changes stack state, so a parked stack refuses it (R303). -/
  stack : Bool := false
  /-- It belongs to the Seal capability, or to the Dual head capability (R22). -/
  sealCap : Bool := false
  dualCap : Bool := false
  /-- It is a background command (R294). -/
  background : Bool := false

/-- The refusal a command meets before its own rules, if any: a Keeper that is not running (R292), a fenced requester
(R248), an absent capability (R22), a short input (R290), a background command in progress (R294), a parked stack
(R303). -/
def Ctl.gate (c : Ctl) (h : Head) (k : CmdKind) (p : Bytes) : Option Ocs :=
  if c.kpr.phase ≠ 3 then some .keeperDown
  else if c.fenced h && !k.whileFenced then some .fenced
  else if (k.sealCap && !c.hasSeal) || (k.dualCap && !c.hasDual) then some .unsupported
  else if p.length < k.min then some .invalidParameter
  else if k.background && (c.hd h).mbox.bg.isSome then some .busy
  else if k.stack && c.stackAway then some .busy
  else none

/-- A doorbell finds the head's mailbox free: none of its commands is in progress (R310). -/
def Ctl.mboxFree (c : Ctl) (h : Head) : Bool := (c.hd h).mbox.pend.isNone && !c.ioRefused h (c.hd h).bar2

/-- A mailbox command: ignored while one of the head is in progress, refused by the gate, or carried out. -/
def Ctl.ocs (c : Ctl) (h : Head) (op : Nat) (k : CmdKind) (p : Bytes) (run : Ctl → Ctl) : Ctl :=
  if c.mboxFree h then
    match c.gate h k p with
    | some e => c.finish h op e []
    | none => run c
  else c

/-- A mailbox command whose effect reaches the stack's lines. -/
def State.ocs (s : State) (h : Head) (op : Nat) (k : CmdKind) (p : Bytes) (run : State → State) : State :=
  if s.ctl.mboxFree h then
    match s.ctl.gate h k p with
    | some e => s.mapCtl fun c => c.finish h op e []
    | none => run s
  else s

/-- The claims of a command, all at once (R293). -/
def Ctl.takeClaims (c : Ctl) (h : Head) (blocks : List Nat) : Ctl := blocks.foldl (fun c b => c.claim h b) c

/-- A command that needs claims (R293): it waits while the other head's command holds one, or has waited longer for one, from the
instant `aux` records, and else takes them all and runs. -/
def Ctl.claiming (c : Ctl) (h : Head) (op : Nat) (p : Bytes) (blocks : List Nat) (run : Ctl → Ctl) : Ctl :=
  if blocks.any fun b => c.claimedByOther h b then c.await h op p .slot c.clock blocks
  else run (c.takeClaims h blocks)

/-- The same for a command whose effect reaches the stack's lines. -/
def State.claiming (s : State) (h : Head) (op : Nat) (p : Bytes) (blocks : List Nat) (run : State → State) : State :=
  if blocks.any fun b => s.ctl.claimedByOther h b then s.mapCtl fun c => c.await h op p .slot c.clock blocks
  else run (s.mapCtl fun c => c.takeClaims h blocks)

/-- BAR0 block offsets of the blocks that commands claim, in bits [23:16] (R404). -/
def blkQos : Nat := 0x0A
def blkHda : Nat := 0x0B
def blkHdb : Nat := 0x0C
def blkTim : Nat := 0x09
def blkPhy : Nat := 0x0D
def blkJrg : Nat := 0x11
def blkStx : Nat := 0x12
def blkSea : Nat := 0x13
def blkFrg : Nat := 0x14
def blkEcc : Nat := 0x15
def blkMap : Nat := 0x16

end Sys2Proof.Machine
end

