-- ==== Sys2Proof/Machine/SealMem.lean ====
section
/-! DEFINITION. The lines of sealed granules (chapter 9): counters, tags and the freshness tree, reads and writes of a
line as its granule's state allows, the checks of fetched metadata, re-encryption, and the seal flusher. -/

namespace Sys2Proof.Machine

/-! ## States of granules -/

/-- The generation of the key that a granule is bound to (R197): the one recorded at its last SEALING, else that of its slot. -/
def Ctl.granGen (c : Ctl) (g : Nat) : Nat := (mapGet c.sea.gens g).getD (c.get (R.SEA_KEY_STAT_GEN (c.get (R.SEA_GRAN_KEY_SLOT g))))

/-- The key that a granule is bound to is live: its slot holds no later one. -/
def Ctl.granKeyLive (c : Ctl) (g : Nat) : Bool :=
  let s := c.get (R.SEA_GRAN_KEY_SLOT g)
  c.flag (R.SEA_KEY_STAT_LIVE s) && decide (c.granGen g = c.get (R.SEA_KEY_STAT_GEN s))

/-- The key that a granule is bound to is the one of its slot whose erase has ended and waits for the boundary: the slot's last, or the one
before where KEY_CREATE has taken the slot again since (R199). -/
def Ctl.granKeyErased (c : Ctl) (g : Nat) : Bool :=
  let s := c.get (R.SEA_GRAN_KEY_SLOT g)
  c.sea.erased.contains s && decide (c.granGen g = c.get (R.SEA_KEY_STAT_GEN s) - bit (c.flag (R.SEA_KEY_STAT_LIVE s)))

/-- The state in which a granule's requests are handled (R194, R199, R215): ERASED from the acceptance of KEY_ERASE of
its slot, UNVERIFIABLE once its list of unverifiable nodes overflowed or a park dropped its data and its key is gone, else as SEA_GRAN_n reports. -/
def Ctl.sealEff (c : Ctl) (g : Nat) : Nat :=
  let st := c.get (R.SEA_GRAN_STATE g)
  let slot := c.get (R.SEA_GRAN_KEY_SLOT g)
  if st = 0 then 0
  else if c.granKeyErased g || (c.granKeyLive g && c.sea.erasing.any fun e => decide (e.1 = slot)) then 4
  else if st = 2 && (c.sea.toUnv.contains g || c.sea.dropUnv.contains g) then 3
  else st

/-- The seal state of a stack address: 0 outside the user region. -/
def Ctl.sealAt (c : Ctl) (sa : Nat) : Nat := if sa < c.userEnd then c.sealEff (granOf sa) else 0

/-- The list entry that makes the line of a stack address unverifiable, if any (R215). -/
def Ctl.unvOver (c : Ctl) (sa : Nat) : Option UnvNode :=
  c.sea.unv.find? fun u => decide (u.gran = granOf sa) && decide (u.index = sa % GiB / 2 ^ (12 + 3 * u.level))

/-! ## Metadata places (R58) -/

/-- Stack address of the tag of a line. -/
def Ctl.tagAddr (c : Ctl) (sa : Nat) : Nat :=
  c.get R.MAP_TAG_BASE_GRAN * 65536 + c.get (R.MAP_GRAN_SEAL_SLOT (granOf sa)) * (128 * MiB) + sa % GiB / 64 * 8

/-- Stack address of the counter block (level 0) or the tree node of level 1 to 3 over a line; the line's own address
for a node of the top store, which has none. -/
def Ctl.nodeAddr (c : Ctl) (level sa : Nat) : Nat :=
  let v := c.get (R.MAP_GRAN_SEAL_SLOT (granOf sa))
  let tree := c.get R.MAP_TREE_BASE_GRAN * 65536 + v * (2336 * 1024)
  let o := sa % GiB
  match level with
  | 0 => c.get R.MAP_CTR_BASE_GRAN * 65536 + v * (16 * MiB) + o / 4096 * 64
  | 1 => tree + o / 32768 * 64
  | 2 => tree + 2 * MiB + o / 262144 * 64
  | 3 => tree + 2304 * 1024 + o / 2097152 * 64
  | _ => sa

/-- The metadata lines of a granule that were mired are good once they are written whole (R176, R195). -/
def State.healMeta (s : State) (g : Nat) : State :=
  let ours := fun (a : Nat) => match s.ctl.metaAt a with
    | some (_, g', _) => decide (g' = g)
    | none => false
  { s with lines := s.lines.map fun e => if e.2.isMired && ours (e.1 * 64) then (e.1, .good) else e }

/-! ## Counters, encryption and tags -/

/-- Major and minor counters of a page, by stack address over 4,096; 0 after the fill. -/
def Ctl.pageCtr (c : Ctl) (page : Nat) : Nat × List Nat :=
  (mapGet c.sea.ctrs page).getD (0, List.replicate 64 0)

/-- Minor index of a line. -/
def minorIndex (sa : Nat) : Nat := sa / 64 % 64

/-- The input block CB(j) of R202 as a number, byte 0 first. -/
def ctrBlock (major minor j sa epoch : Nat) : Bytes :=
  toLE 8 major ++ toLE 1 (minor % 128) ++ toLE 1 (j % 4) ++ toLE 4 (sa / 64 % 2 ^ 30) ++ toLE 2 epoch

/-- K_enc and K_mac of a slot. -/
def Ctl.sealKeys (c : Ctl) (slot : Nat) : BitVec 256 × BitVec 256 := match mapGet c.sea.keys slot with
  | some k => (Config.drawnKey k.1, Config.drawnKey k.2)
  | none => (0, 0)

/-- 64 bytes at the place of a line encrypted or, the mode being an XOR, decrypted (R202). -/
def Ctl.cipher (c : Ctl) (sa : Nat) (data : Bytes) : Bytes :=
  let g := granOf sa
  let (k, _) := c.sealKeys (c.get (R.SEA_GRAN_KEY_SLOT g))
  let (major, minors) := c.pageCtr (sa / 4096)
  let minor := minors.getD (minorIndex sa) 0
  (List.range 64).map fun t =>
    data.getD t 0 ^^^
      blockByte (aes256 k (toBlock (ctrBlock major minor (t / 16) sa (c.get (R.SEA_GRAN_EPOCH g))))) (t % 16)

/-- The ciphertext of a line (R202): what the stack holds of a line of a SEALED granule. -/
def State.cipherOf (s : State) (sa : Nat) : Bytes := s.ctl.cipher sa (s.lineBytes sa)

/-- The 64 data bytes that the stack holds of a line: ciphertext in a SEALED or UNVERIFIABLE granule (R202), zeros in a
mired line (R175). The line code is computed over them. -/
def State.stackLine (s : State) (sa : Nat) : Bytes :=
  match s.status sa with
  | .mired _ => List.replicate 64 0
  | _ => if s.ctl.sealAt sa = 2 ∨ s.ctl.sealAt sa = 3 then s.cipherOf sa else s.lineBytes sa

/-- The tag of data at the place of a line (R203): the first 8 bytes of GHASH over A and its length, masked with AES of J0. -/
def Ctl.tagFor (c : Ctl) (sa : Nat) (data : Bytes) : Bytes :=
  let g := granOf sa
  let (_, k) := c.sealKeys (c.get (R.SEA_GRAN_KEY_SLOT g))
  let (major, minors) := c.pageCtr (sa / 4096)
  let cb := ctrBlock major (minors.getD (minorIndex sa) 0) 0 sa (c.get (R.SEA_GRAN_EPOCH g))
  let j0 := cb.set 9 0x80
  let hash := ghash (aes256 k 0) (toBlocks (c.cipher sa data ++ cb) 5 ++ [BitVec.ofNat 128 (640 * 2 ^ 64)])
  let mask := aes256 k (toBlock j0)
  (List.range 8).map fun i => blockByte hash i ^^^ blockByte mask i

/-- The tag of a line. -/
def State.tagOf (s : State) (sa : Nat) : Bytes := s.ctl.tagFor sa (s.lineBytes sa)

/-- The tag that the tag line of a line holds (R203): the one computed when the line was written, unless the list says
otherwise; that of a mired line is still the tag of what it held. -/
def State.storedTag (s : State) (sa : Nat) : Bytes :=
  (mapGet s.ctl.sea.tags (sa / 64)).getD (match (s.status sa).isMired, mapGet s.ctl.sea.under (sa / 64) with
    | true, some d => s.ctl.tagFor sa d
    | _, _ => s.tagOf sa)

/-! ## The freshness tree (R205, R207, R208) -/

/-- The counters of a page after the fill of R195. -/
def freshCtr : Nat × List Nat := (0, List.replicate 64 0)

/-- A counter block as its 64 bytes (R205): the major counter, then the minors, 7 bits each. -/
def ctrLine (x : Nat × List Nat) : Bytes :=
  toLE 8 x.1 ++ toLE 56 (x.2.foldr (fun m acc => m % 128 + 128 * acc) 0)

/-- The MAC of a child of a level under its parent's rule (R207). -/
def Ctl.childMac (c : Ctl) (g level index : Nat) (child : Bytes) : Bytes :=
  let id := level * 2 ^ 56 + c.get (R.MAP_GRAN_SEAL_SLOT g) * 2 ^ 50 + index
  let kTree := toBE 32 (Config.drawnKey c.sea.kTree).toNat
  (hmacSha256 kTree (toLE 8 id ++ toLE 2 (c.get (R.SEA_GRAN_EPOCH g)) ++ child)).take 8

/-- A node of a level of a granule (0: a counter block) whose MACs cover these counters, by page of the granule: 64 bytes,
each child's MAC at 8 times the child's number. -/
def Ctl.treeNode (c : Ctl) (g : Nat) (covered : List (Nat × Nat × List Nat)) : Nat → Nat → Bytes
  | 0, index => ctrLine ((mapGet covered index).getD freshCtr)
  | l + 1, index => (List.range 8).flatMap fun k => c.childMac g l (8 * index + k) (c.treeNode g covered l (8 * index + k))

/-- The counters that a node's MACs cover: those its children had when they last left the cache (R210). -/
def Ctl.coveredBy (c : Ctl) (e : Nat × Nat × Nat) : List (Nat × Nat × List Nat) :=
  if e.1 = 0 then [(e.2.2, c.pageCtr (e.2.1 * 262144 + e.2.2))] else (mapGet c.sea.covers e).getD []

/-- The counter block (level 0) or node over a line as the device holds it (R205, R207, R208). -/
def Ctl.nodeBytes (c : Ctl) (level sa : Nat) : Bytes :=
  let i := sa % GiB / 2 ^ (12 + 3 * level)
  c.treeNode (granOf sa) (c.coveredBy (level, granOf sa, i)) level i

/-- The root of a granule's seal slot: the MAC of its level-6 node (R207). -/
def Ctl.rootMac (c : Ctl) (g : Nat) : Bytes :=
  c.childMac g 6 0 (c.treeNode g (c.coveredBy (6, g, 0)) 6 0)

/-- The entry for a line's child at `level` in the bytes of its parent (R207). -/
def parentEntry (level sa : Nat) (parent : Bytes) : Bytes :=
  (parent.drop (8 * (sa % GiB / 2 ^ (12 + 3 * level) % 8))).take 8

/-! ## Unverifiable nodes and alarms -/

/-- A security alarm (R211, R212, R214): SEA_ALARM and source 547 + cause. -/
def Ctl.sealAlarm (c : Ctl) (cause sa : Nat) : Ctl :=
  ((c.set R.SEA_ALARM_CAUSE cause).set R.SEA_ALARM_LINE (sa / 64)).fault (547 + cause) (sa / 64)

/-- A granule becomes UNVERIFIABLE as a whole at the next boundary, and its list entries are freed (R215). -/
def Ctl.granUnverifiable (c : Ctl) (g : Nat) : Ctl :=
  { c with sea := { c.sea with
    unv := c.sea.unv.filter fun u => decide (u.gran ≠ g)
    toUnv := if c.sea.toUnv.contains g then c.sea.toUnv else g :: c.sea.toUnv } }

/-- A node or counter block becomes unverifiable (R215): the 257th entry takes its whole granule. -/
def Ctl.addUnv (c : Ctl) (u : UnvNode) : Ctl :=
  if 6 ≤ u.level then c.granUnverifiable u.gran
  else if c.sea.unv.any fun x => decide (x.gran = u.gran) && decide (x.level = u.level) && decide (x.index = u.index) then c
  else if 256 ≤ c.sea.unv.length then c.granUnverifiable u.gran
  else { c with sea.unv := c.sea.unv ++ [u] }

/-! ## The metadata cache (R208, R210, R216) -/

/-- The cache entry of the counter block or node of a level over a line. -/
def metaKey (level sa : Nat) : Nat × Nat × Nat := (level, granOf sa, sa % GiB / 2 ^ (12 + 3 * level))

/-- The cache entry of a line's tag line: level 10. -/
def tagKey (sa : Nat) : Nat × Nat × Nat := (10, granOf sa, sa % GiB / 512)

/-- A cached metadata line becomes dirty (R210, R216). -/
def Ctl.sealDirty (c : Ctl) (e : Nat × Nat × Nat) : Ctl :=
  let c1 := if c.sea.dirty.contains e then c else { c with sea.dirty := c.sea.dirty ++ [e] }
  c1.set R.SEA_DIRTY_MAP_DIRTY (setBit (c1.get R.SEA_DIRTY_MAP_DIRTY) e.2.1)

/-- The counters a child covers are taken into its parent's MACs. -/
def Ctl.coverInto (c : Ctl) (parent child : Nat × Nat × Nat) : Ctl :=
  let merged := (c.coveredBy child).foldl (fun l e => mapPut l e.1 e.2) (c.coveredBy parent)
  { c with sea.covers := mapPut c.sea.covers parent merged }

/-- A level-3 node that leaves the cache updates the top store, which updates level 6 and the root at once (R210). -/
def Ctl.coverTop (c : Ctl) (e : Nat × Nat × Nat) : Ctl :=
  let up := fun (l : Nat) => (l, e.2.1, e.2.2 / 8 ^ (l - 3))
  ((c.coverInto (up 4) e).coverInto (up 5) (up 4)).coverInto (up 6) (up 5)

/-- A line enters the cache as the most recent (R208). -/
def Ctl.cacheTouch (c : Ctl) (e : Nat × Nat × Nat) : Ctl :=
  { c with sea.cached := e :: c.sea.cached.filter fun x => decide (x ≠ e) }

/-- The entry that leaves a set which holds more than its 16 ways, if any: the least recently used (notes/assumptions/102.md).
Fewer than 17 entries fill no set. -/
def Ctl.cacheVictim (c : Ctl) (e : Nat × Nat × Nat) : Option (Nat × Nat × Nat) :=
  if c.sea.cached.length ≤ 16 then none else
  let set := c.sea.cached.filter fun x => decide (Config.sealSet x % 7680 = Config.sealSet e % 7680)
  if 16 < set.length then set.getLast? else none

/-- The bit of a granule in SEA_DIRTY_MAP clears when it has no dirty entry left (R216). -/
def Ctl.judgeDirty (c : Ctl) (g : Nat) : Ctl :=
  if c.sea.dirty.any fun d => decide (d.2.1 = g) then c
  else c.set R.SEA_DIRTY_MAP_DIRTY (clrBit (c.get R.SEA_DIRTY_MAP_DIRTY) g)

/-- A dirty entry is no longer there. -/
def Ctl.sealUndirty (c : Ctl) (e : Nat × Nat × Nat) : Ctl :=
  Ctl.judgeDirty { c with sea.dirty := c.sea.dirty.erase e } e.2.1

/-- A dirty line leaves the cache or is flushed (R210): its parent takes its MAC and becomes dirty; a level-3 node updates the
top store. -/
def Ctl.sealWriteBack (c : Ctl) (e : Nat × Nat × Nat) : Ctl :=
  let c1 := { c with sea.dirty := c.sea.dirty.erase e }
  let parent := (e.1 + 1, e.2.1, e.2.2 / 8)
  let c2 := if e.1 < 3 then ((c1.coverInto parent e).cacheTouch parent).sealDirty parent
    else if e.1 = 3 then c1.coverTop e else c1
  c2.judgeDirty e.2.1

/-- The first line under a cache entry. -/
def firstUnder (e : Nat × Nat × Nat) : Nat := e.2.1 * GiB + (if e.1 = 10 then 512 * e.2.2 else e.2.2 * 2 ^ (12 + 3 * e.1))

/-- The stack address of the metadata line that a cache entry holds. -/
def Ctl.entryAddr (c : Ctl) (e : Nat × Nat × Nat) : Nat :=
  if e.1 = 10 then c.tagAddr (firstUnder e) else c.nodeAddr e.1 (firstUnder e)

/-- Levels of the ancestors, from a level up, that miss the cache, up to below the lowest trusted one (R209); levels 4 and up are in the
top store. -/
def Ctl.missingFrom (c : Ctl) (l sa : Nat) : List Nat :=
  ([0, 1, 2, 3].filter fun k => decide (l ≤ k)).takeWhile fun k => !c.sea.cached.contains (metaKey k sa)

/-- The highest of the missing ancestors from a level up whose line in the stack is mired: it verifies no more (R213, R218). -/
def State.faultFrom (s : State) (l sa : Nat) : Option Nat :=
  (s.ctl.missingFrom l sa).reverse.find? fun k => (s.status (s.ctl.nodeAddr k sa)).isMired

/-- A node or counter block over a line is unreadable (R213): a metadata memory error, and the list of R215. -/
def Ctl.nodeLost (c : Ctl) (l sa : Nat) : Ctl :=
  (c.lineFault 553 (c.nodeAddr l sa)).addUnv ⟨l, granOf sa, sa % GiB / 2 ^ (12 + 3 * l), false⟩

/-- A metadata line written whole is good again (R176). -/
def State.healLine (s : State) (addr : Nat) : State := if (s.status addr).isMired then s.setStatus addr .good else s

/-- One dirty line written back (R210): its parent is fetched and verified with the ancestors that it misses (R209). One of them that
cannot be read becomes unverifiable (R213), and the line's MAC finds no parent. -/
def State.sealLeave (s : State) (e : Nat × Nat × Nat) : State :=
  match (if e.1 < 3 then s.faultFrom (e.1 + 1) (firstUnder e) else none) with
  | some l => s.mapCtl fun c => (c.sealUndirty e).nodeLost l (firstUnder e)
  | none => (s.mapCtl fun c => c.sealWriteBack e).healLine (s.ctl.entryAddr e)

/-- Lines that overfill their set leave the cache, at most n of them; a dirty one is written back. -/
def State.sealEvict : Nat → (Nat × Nat × Nat) → State → State
  | 0, _, s => s
  | n + 1, e, s => match s.ctl.cacheVictim e with
    | none => s
    | some v =>
      let s1 := s.mapCtl fun c => { c with sea.cached := c.sea.cached.filter fun x => decide (x ≠ v) }
      if s.ctl.sea.dirty.contains v then State.sealEvict n (v.1 + 1, v.2.1, v.2.2 / 8) (s1.sealLeave v) else s1

/-- No set holds more than its 16 ways after the entry `e` has entered one: each dirty line that leaves puts its parent in, and a line
has at most four dirty levels over it. -/
def State.sealTrim (s : State) (e : Nat × Nat × Nat) : State := State.sealEvict (4 * (s.ctl.sea.dirty.length + 1)) e s

/-- A verified line enters the cache. -/
def State.cacheIn (s : State) (e : Nat × Nat × Nat) : State :=
  (s.mapCtl fun c => c.cacheTouch e).sealTrim e

/-- The counter block and the tag line of a line become dirty in the cache (R210). -/
def State.lineDirty (s : State) (sa : Nat) : State :=
  (((s.cacheIn (metaKey 0 sa)).cacheIn (tagKey sa)).mapCtl fun c => (c.sealDirty (metaKey 0 sa)).sealDirty (tagKey sa))

/-- The next dirty line to write back: lowest level first; tag lines, which have no level, come last (DESIGN CHOICE,
notes/assumptions/145.md). -/
def Ctl.nextDirty (c : Ctl) : Option (Nat × Nat × Nat) :=
  [0, 1, 2, 3, 10].findSome? fun l => c.sea.dirty.find? fun e => decide (e.1 = l)

/-- Up to n dirty lines written back (R216). -/
def State.sealFlush : Nat → State → State
  | 0, s => s
  | n + 1, s => match s.ctl.nextDirty with
    | some e => State.sealFlush n ((s.sealLeave e).sealTrim (e.1 + 1, e.2.1, e.2.2 / 8))
    | none => s

/-! ## Reading and writing a line -/

/-- The cause of a mired line, 0 for a line that is not mired. -/
def LineStatus.mireCause : LineStatus → Nat
  | .mired k => k
  | _ => 0

/-- A line mired for the reason its granule or a node gives, unless it is mired already. -/
def State.mireOnce (s : State) (sa cause source : Nat) : State :=
  if (s.status sa).isMired then s else s.mire sa cause source

/-- A seal check mires a line, unless it is mired already; a Forager pass counts it made mired, and counts it mired when
it has checked the line before (R180). -/
def State.sealMire (s : State) (sa cause source : Nat) : State :=
  if (s.status sa).isMired then s
  else (s.mire sa cause source).mapCtl fun c =>
    if source = 3 then
      let d := c.dieOf sa
      c.modPass fun p =>
        let seen := !p.issued.contains (sa / 64) && decide (sa < p.pos)
        { p with
          newMired := min 0xFFFFFFFF (p.newMired + 1)
          mired := if seen then p.mired + 1 else p.mired
          dieMired := if seen then bumpAt p.dieMired d 0xFFFF else p.dieMired }
    else c

/-- The missing ancestors of a line, its counter block among them. -/
def Ctl.missing (c : Ctl) (sa : Nat) : List Nat := c.missingFrom 0 sa

/-- The highest of them that verifies no more. -/
def State.pathFault (s : State) (sa : Nat) : Option Nat := s.faultFrom 0 sa

/-- The counter block of a line and its missing ancestors are fetched and verified (R209). As the device stored them itself they
match their parents; one that lies in a mired line becomes unverifiable (R213). -/
def State.trust (s : State) (sa : Nat) : Bool × State :=
  match s.pathFault sa with
  | some l => (false, s.mapCtl fun c => c.nodeLost l sa)
  | none => (true, (s.ctl.missing sa).foldl (fun st l => st.cacheIn (metaKey l sa)) s)

/-- The tag line of a line must be fetched and is mired in the stack. -/
def State.tagLost (s : State) (sa : Nat) : Bool :=
  !s.ctl.sea.cached.contains (tagKey sa) && (s.status (s.ctl.tagAddr sa)).isMired

/-- A tag line found uncorrectable (R213): its 8 data lines become mired with cause 0x03, and it is rewritten with zero tags. -/
def State.tagLineLost (s : State) (sa source : Nat) : State :=
  let s1 := (List.range 8).foldl (fun st i => st.sealMire (sa / 512 * 512 + 64 * i) 3 source)
    (s.mapCtl fun c => c.lineFault 553 (c.tagAddr sa))
  let s2 := s1.mapCtl fun c => { c with sea.tags := (List.range 8).foldl (fun l i =>
    mapPut l (sa / 512 * 8 + i) (List.replicate 8 0)) c.sea.tags }
  s2.setStatus (s2.ctl.tagAddr sa) .good

/-- A failed tag (R211): the line becomes mired with cause 0x02, an alarm is raised and the failure counted, by the Forager's pass
too. -/
def State.tagFail (s : State) (sa source : Nat) : State :=
  (s.sealMire sa 2 source).mapCtl fun c =>
    let c1 := (c.sealAlarm 1 sa).bump R.SEA_TAG_FAIL_CNT_FAILS
    if source = 3 then c1.modPass fun p => { p with tagFails := p.tagFails + 1 } else c1

/-- The SOURCE of the mire record of a line that fails a check in a re-encryption: R177 names none for it, and it takes that of a merge
(DESIGN CHOICE, notes/assumptions/145.md). -/
def reencSource : Nat := 7

/-- The checks of step 2 of R206 over a page: the data lines of a tag line that is lost are mired, and so is a line whose stored tag is
not the one of its ciphertext and counters. -/
def State.checkPage (s : State) (page : Nat) : State :=
  let s1 := (List.range 8).foldl (fun st i =>
    let sa := page * 4096 + 512 * i
    if st.tagLost sa then st.tagLineLost sa reencSource else st) s
  (s1.ctl.sea.tags.filter fun e => decide (e.1 / 64 = page)).foldl (fun st e =>
    let sa := e.1 * 64
    if (st.status sa).isMired || decide (st.storedTag sa = st.tagOf sa) then st else st.tagFail sa reencSource) s1

/-- A page re-encrypted (R206): its lines are checked under the old counters, the major counter rises by one, the minors are 0, the lines
`bad` that the line code found bad are mired too, each with its cause, and the counter block and all tag lines of the page are
dirty. -/
def State.reencrypt (s0 : State) (page : Nat) (bad : List (Nat × Nat)) : State :=
  let s := s0.checkPage page
  let (major, _) := s.ctl.pageCtr page
  let s1 := s.mapCtl fun c => { c with
    sea.ctrs := mapPut c.sea.ctrs page (major + 1, List.replicate 64 0)
    sea.tags := c.sea.tags.filter fun e => decide (e.1 / 64 ≠ page)
    sea.reenc := c.sea.reenc.filter fun p => decide (p ≠ page) }.bump R.SEA_REENC_CNT_COUNT
  let s2 := bad.foldl (fun st b => st.mireOnce (page * 4096 + b.1 % 64 * 64) b.2 reencSource) s1
  (List.range 8).foldl (fun st i => st.lineDirty (page * 4096 + 512 * i)) s2

/-- The page of a line is under re-encryption: requests to it wait (R206). -/
def Ctl.pageBusy (c : Ctl) (sa : Nat) : Bool := c.sea.reenc.contains (sa / 4096)

/-- A full-line write to a line of a SEALED granule (R206, R210, R215): discarded under an unverifiable node, else the
minor counter rises and the line is stored with its tag; a minor that would pass 127 starts the re-encryption of its page, and a
major that would overflow discards the write with source 552. A write to a page under re-encryption comes after it. The truth
value says that the line was written. -/
def State.sealedWrite (s : State) (sa : Nat) (data : Bytes) : Bool × State :=
  if (s.ctl.unvOver sa).isSome then (false, s) else
  let (ok, s) := s.trust sa
  if !ok then (false, s) else
  let page := sa / 4096
  let s := if s.ctl.pageBusy sa then s.reencrypt page [] else s
  let s := if s.tagLost sa then s.tagLineLost sa 7 else s
  let (major, minors) := s.ctl.pageCtr page
  let m := minors.getD (minorIndex sa) 0
  let stored := fun (c : Ctl) => { c with sea.tags := mapDel c.sea.tags (sa / 64) }
  if 127 ≤ m then
    if 2 ^ 64 - 1 ≤ major then (false, s.mapCtl fun c => c.lineFault 552 sa)
    else (true, ((s.storeLine sa data).mapCtl fun c => (let c1 := stored c; { c1 with sea.reenc := page :: c1.sea.reenc })).lineDirty sa)
  else
    (true, ((s.storeLine sa data).mapCtl fun c =>
      (let c1 := stored c; { c1 with sea.ctrs := mapPut c1.sea.ctrs page (major, minors.set (minorIndex sa) (m + 1)) })).lineDirty sa)

/-- A full-line write that every check has let through, to the user region or the device's own: by the state of its
granule it is stored, encrypted, or discarded (R194). The truth value says that it was stored. -/
def State.writeLine (s : State) (sa : Nat) (data : Bytes) : Bool × State :=
  match s.ctl.sealAt sa with
  | 0 => (true, s.storeLine sa data)
  | 2 => s.sealedWrite sa data
  | _ => (false, s)

/-- A write that places poisoned data in a line (R175): the line becomes mired with cause 0x05. -/
def State.writePoisonLine (s : State) (sa source : Nat) : Bool × State :=
  match s.ctl.sealAt sa with
  | 0 => (true, s.mire sa 5 source)
  | 2 =>
    let (ok, s1) := s.sealedWrite sa []
    (ok, if ok then s1.mire sa 5 source else s1)
  | _ => (false, s)

/-- What a read of a line delivers: poison, the 64 bytes, and the CAUSE bits of R118: bit 0 a mired line, bit 1 a failed
or erased seal, bit 2 integrity unavailable. -/
structure LineRead where
  poison : Bool
  data : Bytes
  cause : Nat
  deriving DecidableEq, Repr

/-- A poisoned result with its CAUSE bits. -/
def LineRead.bad (cause : Nat) : LineRead := ⟨true, List.replicate 64 0, cause⟩

/-- CAUSE bits of a mired line: bit 1 for a failed tag, bit 2 for unavailable integrity, else bit 0. -/
def causeBits (mireCause : Nat) : Nat := if mireCause = 2 then 2 else if mireCause = 3 then 4 else 1

/-- A good line of a SEALED granule read by its checks (R209): its counter block and ancestors, then its tag line, then its
tag. -/
def State.readSealed (s : State) (sa source : Nat) : LineRead × State :=
  let (ok, s1) := s.trust sa
  if !ok then (.bad 4, s1.sealMire sa 3 source)
  else if s1.tagLost sa then
    (.bad 4, s1.tagLineLost sa source)
  else
    let s2 := s1.cacheIn (tagKey sa)
    if s2.storedTag sa = s2.tagOf sa then
      let (p, d, s3) := s2.readLine sa
      (⟨p, d, 0⟩, s3)
    else (.bad 2, s2.tagFail sa source)

/-- A read of a line that the partition and handle checks have let through (R175, R194, R209, R215). -/
def State.readChecked (s : State) (sa source : Nat) : LineRead × State :=
  match s.ctl.sealAt sa with
  | 1 => (.bad 2, s)
  | 4 => (.bad 2, s)
  | 3 => (.bad 4, s.mireOnce sa 3 source)
  | 2 =>
    match s.ctl.unvOver sa with
    | some u =>
      let s1 := s.mireOnce sa (if u.tamper then 2 else 3) source
      (.bad (causeBits (s1.status sa).mireCause), s1)
    | none =>
      if (s.status sa).isMired then (.bad (causeBits (s.status sa).mireCause), s)
      else s.readSealed sa source
  | _ =>
    let (p, d, s1) := s.readLine sa
    (⟨p, d, if p then causeBits (s.status sa).mireCause else 0⟩, s1)

/-! ## SEAL_METADATA_ARRIVAL -/

/-- What a fetched line of a level shows (R209, R213, R214), with `parent` the bytes of its parent: its MAC is recomputed and
compared. What the SRAM of the cache or of the top store lost is fetched again or taken from the other copy, unless the entry was
dirty or both copies are lost. -/
def Ctl.judgeFetched (c : Ctl) (sa level : Nat) (parent : Bytes) : MetaLine → Arrival
  | .uncorrectable => .uncorrectable
  | .sram both =>
    if 4 ≤ level then (if both then .uncorrectable else .good)
    else if c.sea.dirty.contains (metaKey level sa) then .uncorrectable else .good
  | .line data symbols =>
    if 4 ≤ level then .good
    else if c.childMac (granOf sa) level (sa % GiB / 2 ^ (12 + 3 * level)) (padTo 64 data) = parentEntry level sa parent then
      (if symbols = 0 then .good else .corrected)
    else .macFails

/-- The bytes of the node of a level over a line that its children are compared with: as fetched, or as the device holds them. -/
def Ctl.parentBytes (c : Ctl) (sa level : Nat) (fetched : List (Nat × MetaLine)) : Bytes :=
  match mapGet fetched level with
  | some (.line data _) => padTo 64 data
  | _ => c.nodeBytes level sa

/-- What every fetched line shows, by level. -/
def Ctl.arrivals (c : Ctl) (sa : Nat) (fetched : List (Nat × MetaLine)) : List (Nat × Arrival) :=
  fetched.map fun e => (e.1, c.judgeFetched sa e.1 (c.parentBytes sa (e.1 + 1) fetched) e.2)

/-- What was fetched, where a clean entry that the SRAM lost is fetched again from the stack: a mired line there is uncorrectable (R213). -/
def State.refetched (s : State) (sa : Nat) (fetched : List (Nat × MetaLine)) : List (Nat × MetaLine) :=
  fetched.map fun e => match e.2 with
    | .sram _ => if decide (e.1 ≤ 3) && !s.ctl.sea.dirty.contains (metaKey e.1 sa) && (s.status (s.ctl.nodeAddr e.1 sa)).isMired then
        (e.1, .uncorrectable) else e
    | _ => e

/-- The first fetched node, from the highest level down, that does not verify; level 7 is the root. -/
def firstBad (fetched : List (Nat × Arrival)) : Option (Nat × Arrival) :=
  [7, 6, 5, 4, 3, 2, 1, 0].findSome? fun l =>
    fetched.find? fun e => decide (e.1 = l) && (decide (e.2 = .uncorrectable) || decide (e.2 = .macFails))

/-- A metadata line corrected by the line code counts with its symbols and is written back like any line (R173, R213). -/
def Ctl.metaCorrected (c : Ctl) (addr symbols : Nat) : Ctl :=
  if symbols = 0 then c else (c.noteCorrected addr (min symbols (c.correctable (c.dieOf addr)))).queueWriteBack addr

/-- The corrections of the fetched counter block and nodes. -/
def Ctl.fetchedCorrected (c : Ctl) (fetched : List (Nat × MetaLine)) (sa : Nat) : Ctl :=
  fetched.foldl (fun c e => match e.2 with
    | .line _ symbols => if e.1 ≤ 3 then c.metaCorrected (c.nodeAddr e.1 sa) symbols else c
    | _ => c) c

/-- The fetched lines that verified enter the cache, highest level first; what the SRAM lost leaves it first. -/
def State.fetchedTrusted (s : State) (fetched : List (Nat × MetaLine)) (sa : Nat) : State :=
  [3, 2, 1, 0].foldl (fun st l => if (mapGet fetched l).isSome then st.cacheIn (metaKey l sa) else st) s

/-- What the SRAM lost (R213): a dirty cached line is written back mired; a clean one leaves the cache, and, like one copy of a node of
the top store, is made good from elsewhere: a memory error that is reported here. -/
def State.sramLost (s : State) (e : Nat × Nat × Nat) (addr : Nat) (m : MetaLine) : State :=
  match m with
  | .sram both =>
    if e.1 ≠ 10 ∧ 4 ≤ e.1 then (if both then s else s.mapCtl fun c => c.lineFault 553 addr)
    else
      let gone := s.mapCtl fun c => { c with sea.cached := c.sea.cached.erase e }
      if s.ctl.sea.dirty.contains e then (gone.storeMired addr 1).mapCtl fun c => c.sealUndirty e
      else if (s.status addr).isMired then gone
      else gone.mapCtl fun c => c.lineFault 553 addr
  | _ => s

/-- The tag line of a line as it arrives: the tag it holds, or none when it is uncorrectable (R213). -/
def State.arrivedTag (s : State) (sa : Nat) : MetaLine → Option Bytes
  | .line data _ => some ((data.drop (8 * (sa / 64 % 8))).take 8)
  | .uncorrectable => none
  | .sram _ => if s.ctl.sea.dirty.contains (tagKey sa) || (s.status (s.ctl.tagAddr sa)).isMired then none else some (s.storedTag sa)

/-- SEAL_METADATA_ARRIVAL (R209, R211, R213, R214): for a read by `source` of a line of a SEALED granule, the counter block and
the nodes that were fetched, by level, and the tag line. Each is verified against its parent, from the highest fetched level
downward, and then the tag is recomputed and compared. A line that is mired already is not checked. -/
def execSealMetadataArrival (sa source : Nat) (fetched : List (Nat × MetaLine)) (tag : MetaLine) (s : State) :
    Host.Outcome State Fault Refusal :=
  let sa := sa / 64 * 64
  let g := granOf sa
  let fetched := s.refetched sa fetched
  if s.ctl.sealAt sa ≠ 2 ∨ (s.status sa).isMired = true then .next s else
  let bad := firstBad (s.ctl.arrivals sa fetched)
  let s0 := fetched.foldl (fun st e => st.sramLost (metaKey e.1 sa) (st.ctl.nodeAddr e.1 sa) e.2) s
  let s1 := s0.mapCtl fun c => c.fetchedCorrected fetched sa
  match bad with
  | some (l, .macFails) =>
    let s2 := s1.mapCtl fun c => (c.sealAlarm 3 (c.nodeAddr l sa)).addUnv ⟨l, g, sa % GiB / 2 ^ (12 + 3 * l), true⟩
    .next (s2.sealMire sa 2 source)
  | some (l, _) =>
    let s2 := s1.mapCtl fun c => c.nodeLost l sa
    .next (s2.sealMire sa 3 source)
  | none =>
    let s2 := (s1.fetchedTrusted fetched sa).mapCtl fun c => c.metaCorrected (c.tagAddr sa) tag.symbols
    let s3 := s2.sramLost (tagKey sa) (s2.ctl.tagAddr sa) tag
    match s.arrivedTag sa tag with
    | none => .next (s3.tagLineLost sa source)
    | some t => if t = s3.tagOf sa then .next (s3.cacheIn (tagKey sa)) else .next (s3.tagFail sa source)

/-! ## Partial writes (R174, R212) -/

/-- Bytes of a line replaced by offset. -/
def mergeBytes (old : Bytes) (new : List (Nat × BitVec 8)) : Bytes := new.foldl (fun l e => l.set (e.1 % 64) e.2) old

/-- A partial write discarded at its merge (R174): counted, and a fault of its channel. -/
def Ctl.dropPartial (c : Ctl) (sa : Nat) : Ctl :=
  (c.bump R.ECC_PARTIAL_DROP_CNT_DROPS).lineFault (96 + (c.place sa).chan) sa

/-- A partial write merged with its line (R174, R212): the line is read and checked; a good line takes the new bytes; a
mired one is not merged, with a security alarm when its tag failed. A granule that takes no writes discards it. The
truth value says that the bytes were written. -/
def State.merge (s : State) (sa : Nat) (new : List (Nat × BitVec 8)) : Bool × State :=
  let eff := s.ctl.sealAt sa
  if eff = 1 ∨ eff = 3 ∨ eff = 4 then (false, s) else
  let (r, s1) := s.readChecked sa 7
  if r.poison then
    let s2 := s1.mapCtl fun c => c.dropPartial sa
    (false, if eff = 2 ∧ (s1.status sa).mireCause = 2 then s2.mapCtl fun c => c.sealAlarm 2 sa else s2)
  else s1.writeLine sa (mergeBytes r.data new)

/-- The waiting merges of one line carried out: requests to the line wait for them (R157, R174). -/
def State.mergesOf (s : State) (sa : Nat) : State :=
  (s.ctl.ecc.merges.filter fun m => decide (m.sa / 64 = sa / 64)).foldl (fun st m => (st.merge m.sa m.data).2)
    (s.mapCtl fun c => { c with ecc.merges := c.ecc.merges.filter fun m => decide (m.sa / 64 ≠ sa / 64) })

/-- A partial write of a blocked class waits for its merge with a line: other requests to the line wait behind it (R157, R174, R230). -/
def Ctl.mergeHeld (c : Ctl) (sa : Nat) : Bool :=
  c.ecc.merges.any fun m => decide (m.sa / 64 = sa / 64) && decide (c.get (R.QOS_CLASS_CFG_LIMIT m.cls) = 0)

/-- A merge is held: its class is blocked (R230), its page is under re-encryption (R206), its seal pipeline is gated, or a move holds its
line. -/
def Ctl.mergeStopped (c : Ctl) (m : Merge) : Bool :=
  c.pageBusy m.sa || c.sealGated m.sa || c.moveHolds true m.sa || decide (c.get (R.QOS_CLASS_CFG_LIMIT m.cls) = 0)

/-- The first merge of a list that nothing holds and that waits behind no earlier one of its line (R157), with the merges around it. -/
def Ctl.mergeNext (c : Ctl) : List Merge → List Merge → Option (Merge × List Merge)
  | _, [] => none
  | before, m :: t =>
    if c.mergeStopped m || before.any fun x => decide (x.sa / 64 = m.sa / 64) then c.mergeNext (before ++ [m]) t
    else some (m, before ++ t)

/-- PARTIAL_WRITE_MERGE (R174): the oldest partial write that waits for nothing else is merged with its line, or discarded. -/
def execPartialWriteMerge (s : State) : Host.Outcome State Fault Refusal :=
  .next (match s.ctl.mergeNext [] s.ctl.ecc.merges with
    | none => s
    | some (m, rest) => ((s.mapCtl fun c => { c with ecc.merges := rest }).merge m.sa m.data).2)

end Sys2Proof.Machine
end

