-- ==== Sys2Proof/Machine/LineCheck.lean ====
section
/-! DEFINITION. A line that arrives from a die (R170 to R175, R213, R215): the line code's outcome, the correction or the mire, the
TSV positions it implicates (R38), and the rows of a migration (R184). -/

namespace Sys2Proof.Machine

/-! ## The stored codeword -/

/-- The codeword that the stack holds of a line (R170, R175): of its stored bytes, or the zeros with the mire word. -/
def State.codeword (s : State) (sa : Nat) : List Nat :=
  if (s.status sa).isMired then List.replicate 64 0 ++ Config.mireWord else lineCodeword (s.stackLine sa)

/-- The syndromes of a line that arrives with an error pattern. -/
def State.arriving (s : State) (sa : Nat) (l : List (Nat × Nat)) : List Nat :=
  syndromes (vAdd (s.codeword sa) (patternWord l))

/-! ## Implicated positions (R38, R171) -/

/-- The group that a line of a place crosses: its channel's column group, or the group of its die's lane. -/
def Place.group (p : Place) (lane : Bool) : Nat := if lane then 48 + 8 * (p.chan / 4 % 4) + p.line / 2 else p.chan

/-- The physical positions that carried the corrected symbols of a line: over a lane the positions of the bits that were wrong
(notes/assumptions/103.md). -/
def Ctl.carriers (c : Ctl) (p : Place) (lane : Bool) (l : List (Nat × Nat)) : List Nat :=
  let failed := c.failedPositions (p.group lane)
  noRepeats (if lane then (l.flatMap (lanePositions p.line)).map (physicalPosition 1168 failed)
    else l.map fun e => physicalPosition 38 failed (columnPosition e.1))

/-! ## Seal metadata lines (R213) -/

/-- What an uncorrectable metadata line brings with it (R213): a tag line mires its data lines and is rewritten; a counter block or
node becomes unverifiable. -/
def State.metaLost (s : State) (sa source : Nat) : State :=
  match s.ctl.metaAt sa with
  | none => s
  | some (10, g, i) => s.tagLineLost (g * GiB + 512 * i) source
  | some (l, g, i) => s.mapCtl fun c => (c.lineFault 553 sa).addUnv ⟨l, g, i, false⟩

/-- A line found uncorrectable is mired (R175), and metadata are handled under R213. -/
def State.foundBad (s : State) (sa source : Nat) : State := (s.mire sa 1 source).metaLost sa source

/-! ## LINE_READ_CHECK -/

/-- What a read makes of a line that its granule or a node leaves unverifiable (R194, R215): the cause it is mired with. -/
def Ctl.unverifiedCause (c : Ctl) (sa : Nat) : Option Nat :=
  match c.sealAt sa with
  | 3 => some 3
  | 2 => (c.unvOver sa).map fun u => if u.tamper then 2 else 3
  | _ => none

/-- A line corrected under R173: counted, queued for its write-back, and its TSV positions implicated. -/
def Ctl.correctedLine (c : Ctl) (sa : Nat) (lane : Bool) (l : List (Nat × Nat)) : Ctl :=
  let p := c.place sa
  ((c.noteCorrected sa l.length).queueWriteBack sa).implicate (p.group lane) (c.carriers p lane l)

/-- A wrong word decoded and written back (R172, R175): the data read change, and in a sealed line the tag stays as it was. -/
def State.miscorrect (s : State) (sa : Nat) (wrong : List (Nat × Nat)) : State :=
  let tag := s.storedTag sa
  let sealed := decide (s.ctl.sealAt sa = 2)
  let data := if (s.status sa).isMired then
      (let word := addPattern (List.replicate 64 0) wrong
       if sealed then s.ctl.cipher sa word else word)
    else addPattern (s.lineBytes sa) wrong
  let s1 := s.storeLine sa data
  if sealed then s1.mapCtl fun c => { c with sea.tags := mapPut c.sea.tags (sa / 64) tag } else s1

/-- What a checked line adds to the running pass when the Forager reads it. -/
def State.countLine (s : State) (counted : Bool) (sa k : Nat) (mired new : Bool) : State :=
  if counted then s.mapCtl fun c => c.passLine sa k mired new else s

/-- The syndromes of the mire word (R175). -/
def mireSyndromes : List Nat := syndromes (List.replicate 64 0 ++ Config.mireWord)

/-- What the Forager checks beside the line code of a good line in a SEALED granule (R179): its tag, counter and tree, as a read would. The
truth value says that the line was mired for them. -/
def State.foragerSeal (s : State) (counted : Bool) (sa : Nat) : Bool × State :=
  if counted && decide (s.ctl.sealAt sa = 2) then
    let (r, s1) := s.readSealed sa 3
    (r.poison, s1)
  else (false, s)

/-- A line that the line code left good or made good, with what the Forager still checks of it. -/
def State.lineGood (s : State) (counted : Bool) (sa k : Nat) : State :=
  let (m, s1) := s.foragerSeal counted sa
  s1.countLine counted sa k m false

/-- LINE_READ_CHECK (R170 to R175, R209, R215): a line arrives over a lane or the column path, read by `source` (R177), with flips
in its symbols. Up to the die's bound of symbols is corrected; beyond it the word is uncorrectable unless the decoder finds another
codeword within its bound. A word with the mire word's syndromes is returned as mired and not decoded; a mired line with few further
errors is found uncorrectable. In a
sealed granule a line that no longer verifies is mired for that. -/
def execLineReadCheck (sa source : Nat) (lane : Bool) (flips : List (Nat × Byte)) (s : State) :
    Host.Outcome State Fault Refusal :=
  let sa := sa / 64 * 64
  let c := s.ctl
  let counted := c.passReads sa source
  let most := c.correctable (c.dieOf sa)
  let l := errorPattern flips
  let found := s.status sa
  let bad := fun (_ : Unit) => (s.foundBad sa source).countLine counted sa 0 true true
  let decoded := fun (_ : Unit) =>
    if s.arriving sa l = mireSyndromes then s.countLine counted sa 0 true false
    else match decodePattern most (s.arriving sa l) with
    | some r => ((s.miscorrect sa (l ++ r)).mapCtl fun c => c.correctedLine sa lane r).lineGood counted sa r.length
    | none => bad ()
  if found.isMired then
    (if l = [] then .next (s.countLine counted sa 0 true false)
     else if l.length ≤ (if most = 3 then 4 else 3) then .next (bad ())
     else .next (decoded ()))
  else match c.unverifiedCause sa with
    | some cause => .next ((s.mire sa cause source).countLine counted sa 0 true true)
    | none =>
      if l = [] then .next (s.lineGood counted sa 0)
      else if l.length ≤ most then .next ((s.mapCtl fun c => c.correctedLine sa lane l).lineGood counted sa l.length)
      else if l.length ≤ c.surelyFound (c.dieOf sa) then .next (bad ())
      else .next (decoded ())

/-! ## What a migration finds -/

/-- A line that a migration finds bad (R184, R201): 1 uncorrectable, 2 its tag failed, else its metadata are unavailable. -/
def State.migratedBad (s : State) (e : Nat × Nat) : State :=
  let sa := e.1 / 64 * 64
  if e.2 = 1 then s.foundBad sa 4
  else if s.ctl.sealAt sa ≠ 2 then s
  else if e.2 = 2 then s.tagFail sa 4
  else s.sealMire sa 3 4

end Sys2Proof.Machine
end

