-- ==== Sys2Proof/Machine/Field256.lean ====
section
/-! DEFINITION. Codes and field arithmetic (chapter 4): GF(2^8), the code specifier, the coefficient family, recovery
rows, the check functions of the hash units, and the decode-matrix cache. -/

namespace Sys2Proof.Machine

/-! ## The code specifier (R68, R69, R72) -/

/-- Fields of a code specifier. -/
def spType (w : Nat) : Nat := w / 2 ^ 28 % 16
def spL (w : Nat) : Nat := w / 2 ^ 20 % 16
def spM (w : Nat) : Nat := w / 2 ^ 16 % 16
def spK (w : Nat) : Nat := w / 2 ^ 8 % 64

/-- Number of fragments. -/
def spN (w : Nat) : Nat := spK w + spM w + spL w

/-- Members per group of an LRC: the ceiling of K / L. -/
def groupSize (w : Nat) : Nat := (spK w + spL w - 1) / spL w

/-- Data indices of group g (R72). -/
def groupOf (w g : Nat) : List Nat :=
  (List.range (spK w)).filter fun i => decide (g * groupSize w ≤ i) && decide (i < (g + 1) * groupSize w)

/-- The specifier is valid (R68); reserved bits are not judged. -/
def specValid (w : Nat) : Bool :=
  let k := spK w
  let m := spM w
  let l := spL w
  decide (1 ≤ k) && decide (k ≤ 32) && (match spType w with
    | 0 => decide (1 ≤ m) && decide (m ≤ 8) && decide (l = 0)
    | 1 => decide (m ≤ 8) && decide (1 ≤ l) && decide (l ≤ 4) && decide (k + m + l ≤ 44) &&
      (List.range l).all fun g => decide (g * groupSize w < k)
    | 2 => decide (m = 1) && decide (l = 0)
    | _ => false)

/-- The specifier is an LRC. -/
def isLrc (w : Nat) : Bool := decide (spType w = 1)

/-! ## The coefficient family (R70, R71) -/

/-- Coefficient e(r, i). -/
def coef (r i : Nat) : Nat := gfMul (16 + i) (gfInv (r ^^^ (16 + i)))

/-- Family row of global parity j: LRC global parities use rows 1 to M. -/
def parityRow (w j : Nat) : Nat := if isLrc w then j + 1 else j

/-- Coefficient of data fragment i in fragment f. -/
def genCoef (w f i : Nat) : Nat :=
  if f < spK w then bit (decide (f = i))
  else if f < spK w + spM w then coef (parityRow w (f - spK w)) i
  else bit ((groupOf w (f - spK w - spM w)).contains i)

/-! ## Recovery rows (R74) -/

/-- The vector of n entries that is 1 at f. -/
def vUnit (n f : Nat) : List Nat := (List.range n).map fun i => bit (decide (i = f))

/-- The group of data fragment i in an LRC. -/
def groupIndex (w i : Nat) : Nat := i / groupSize w

/-- Fragment f is unavailable under a mask. -/
def gone (mask f : Nat) : Bool := mask.testBit f

/-- Step 1: the data fragments that the local stage recovers. -/
def locallyRecovered (w mask i : Nat) : Bool :=
  isLrc w && gone mask i && !gone mask (spK w + spM w + groupIndex w i) &&
    decide (((groupOf w (groupIndex w i)).filter (gone mask)).length = 1)

/-- The data fragments still unknown after step 1. -/
def unknowns (w mask : Nat) : List Nat :=
  (List.range (spK w)).filter fun i => gone mask i && !locallyRecovered w mask i

/-- A known data fragment as a row over all fragments. -/
def knownRow (w mask i : Nat) : List Nat :=
  let n := spN w
  if locallyRecovered w mask i then
    ((groupOf w (groupIndex w i)).filter fun j => decide (j ≠ i)).foldl (fun v j => vAdd v (vUnit n j))
      (vUnit n (spK w + spM w + groupIndex w i))
  else vUnit n i

/-- Step 2: the candidate rows in order, as fragment indices. -/
def candidates (w mask : Nat) : List Nat :=
  let u := unknowns w mask
  ((List.range (spL w)).filter fun g => !gone mask (spK w + spM w + g) && u.any fun i => decide (groupIndex w i = g)).map
      (fun g => spK w + spM w + g) ++
    ((List.range (spM w)).filter fun j => !gone mask (spK w + j)).map fun j => spK w + j

/-- A row reduced by rows each of which is 1 at its own pivot column. -/
def reduceBy (basis : List (Nat × List Nat)) (v : List Nat) : List Nat :=
  basis.foldl (fun v b => vAdd v (vScale (v.getD b.1 0) b.2)) v

/-- The first column at which a row is not 0. -/
def pivot (v : List Nat) : Option Nat := (List.range v.length).find? fun i => decide (v.getD i 0 ≠ 0)

/-- Candidate rows taken in order while they raise the rank, until `need` are taken. -/
def takeRows (w : Nat) (u : List Nat) : List Nat → List (Nat × List Nat) → List Nat → Nat → List Nat
  | _, _, acc, 0 => acc
  | [], _, acc, _ + 1 => acc
  | f :: t, basis, acc, need + 1 =>
    let v := reduceBy basis (u.map (genCoef w f))
    match pivot v with
    | some p => takeRows w u t (basis ++ [(p, vScale (gfInv (v.getD p 0)) v)]) (acc ++ [f]) need
    | none => takeRows w u t basis acc (need + 1)

/-- Steps 2 and 3: each unknown data fragment as a row over all fragments; none when the pattern is unrecoverable. -/
def solveUnknowns (w mask : Nat) : Option (List (List Nat)) :=
  let u := unknowns w mask
  let taken := takeRows w u (candidates w mask) [] [] u.length
  if taken.length < u.length then none else
  let known := (List.range (spK w)).filter fun i => !u.contains i
  let rows := taken.map fun f =>
    u.map (genCoef w f) ++ known.foldl (fun v i => vAdd v (vScale (genCoef w f i) (knownRow w mask i))) (vUnit (spN w) f)
  let done := ((List.range u.length).foldl gaussColumn ([], rows)).1
  some (done.map fun r => r.drop u.length)

/-- All data fragments as rows over the available fragments. -/
def dataRows (w mask : Nat) : Option (List (List Nat)) :=
  match solveUnknowns w mask with
  | none => none
  | some sol =>
    let u := unknowns w mask
    some ((List.range (spK w)).map fun i => if u.contains i then sol.getD (u.idxOf i) (vZero (spN w)) else knownRow w mask i)

/-- A fragment as a row over the available fragments, from the rows of the data (step 4). -/
def fragRow (w : Nat) (data : List (List Nat)) (f : Nat) : List Nat :=
  if f < spK w then data.getD f (vZero (spN w))
  else (List.range (spK w)).foldl (fun v i => vAdd v (vScale (genCoef w f i) (data.getD i (vZero (spN w))))) (vZero (spN w))

/-- The recovery row of a fragment under a mask; none when the pattern is unrecoverable. -/
def recoveryRow (w mask f : Nat) : Option (List Nat) :=
  if gone mask f then (dataRows w mask).map fun d => fragRow w d f else some (vUnit (spN w) f)

/-- The erasure pattern is recoverable (R73). -/
def recoverable (w mask : Nat) : Bool := (solveUnknowns w mask).isSome

/-- One output byte: the row applied to the input bytes. -/
def combine (row bytes : List Nat) : Nat := (List.zipWith gfMul row bytes).foldl gfAdd 0

/-! ## The decode-matrix cache (R78 to R82) -/

/-- The key of an entry: specifier and mask. -/
def dmcKey (w mask : Nat) : List Nat := [w, mask % 2 ^ 44]

/-- A decode needs an entry (R78): not for XOR codes, nor with no unknown and no unavailable parity. -/
def needsEntry (w mask : Nat) : Bool :=
  decide (spType w ≠ 2) && (!(unknowns w mask).isEmpty ||
    (List.range (spN w - spK w)).any fun j => gone mask (spK w + j))

/-! ## Checks and hashes (R83) -/

/-- CRC-32C. -/
def crc32c (p : Bytes) : Nat := crcReg 0x82F63B78 0xFFFFFFFF p ^^^ 0xFFFFFFFF

/-- CRC-64 (NVMe). -/
def crc64 (p : Bytes) : Nat := crcReg 0x9A6C9329AC4BC9B5 0xFFFFFFFFFFFFFFFF p ^^^ 0xFFFFFFFFFFFFFFFF

/-- The set of the cache a key falls into (R78): CRC-32C of its 12 bytes. -/
def dmcSet (key : List Nat) : Nat := crc32c (toLE 4 (key.getD 0 0) ++ toLE 8 (key.getD 1 0)) &&& 0x1FF

end Sys2Proof.Machine
end

