-- ==== Sys2Proof/Machine/Jobs.lean ====
section
/-! DEFINITION. Descriptors (R95 to R108): their fields, the checks of R117, the ranges a job touches, the places of its
fragments, and the completion's layout (R115). -/

namespace Sys2Proof.Machine

/-! ## Fields of a descriptor (R95)

The reserved bits of a descriptor and of a fragment list are ignored: R125 calls the result of a non-zero one unpredictable (DESIGN CHOICE,
notes/assumptions/115.md). -/

def Job.op (j : Job) : Nat := le j.desc 0 1
def Job.flags (j : Job) : Nat := le j.desc 1 1
def Job.cls (j : Job) : Nat := le j.desc 2 1 % 8
def Job.opt (j : Job) : Nat := le j.desc 3 1
def Job.cid (j : Job) : Nat := le j.desc 4 2
def Job.keyHandle (j : Job) : Nat := le j.desc 6 2
def Job.spec (j : Job) : Nat := le j.desc 8 4
def Job.specB (j : Job) : Nat := le j.desc 12 4
def Job.ctxIndex (j : Job) : Nat := le j.desc 16 4 % 2 ^ 22
def Job.updIndex (j : Job) : Nat := le j.desc 20 4 % 64
def Job.deadlineField (j : Job) : Nat := le j.desc 24 8
def Job.eraseMask (j : Job) : Nat := le j.desc 32 8 % 2 ^ 44
def Job.outMask (j : Job) : Nat := le j.desc 40 8 % 2 ^ 44
def Job.fragLen (j : Job) : Nat := le j.desc 48 4
def Job.fragLenB (j : Job) : Nat := le j.desc 52 4
def Job.offset (j : Job) : Nat := le j.desc 56 4
def Job.length (j : Job) : Nat := le j.desc 60 4
def Job.src (j : Job) : Nat := le j.desc 64 8
def Job.dst (j : Job) : Nat := le j.desc 72 8
def Job.aux (j : Job) : Nat := le j.desc 80 8
def Job.spaces (j : Job) : Nat := le j.desc 88 4
def Job.srcSpace (j : Job) : Nat := j.spaces % 4
def Job.dstSpace (j : Job) : Nat := j.spaces / 4 % 4
def Job.auxSpace (j : Job) : Nat := j.spaces / 16 % 4
def Job.pattern (j : Job) : Bytes := (j.desc.drop 96).take 16

/-- FLAGS bits. -/
def Job.fNs (j : Job) : Bool := tb j.flags 6
def Job.fCmp (j : Job) : Bool := tb j.flags 5
def Job.fPacked (j : Job) : Bool := tb j.flags 4
def Job.fDl (j : Job) : Bool := tb j.flags 3
def Job.fCtx (j : Job) : Bool := tb j.flags 2
def Job.fIrq (j : Job) : Bool := tb j.flags 1
def Job.fFence (j : Job) : Bool := tb j.flags 0

/-- Operation codes of R99. -/
def opNop : Nat := 0
def opEncode : Nat := 1
def opReconstruct : Nat := 2
def opVerify : Nat := 3
def opUpdate : Nat := 4
def opTranscode : Nat := 5
def opHash : Nat := 6
def opCopy : Nat := 7
def opFill : Nat := 8
def opScrub : Nat := 9

/-- Status codes of R116. -/
def stOk : Nat := 0
def stMismatch : Nat := 1
def stOutputPoisoned : Nat := 2
def stInputPoisoned : Nat := 3
def stUnrecoverable : Nat := 4
def stInvalid : Nat := 5
def stPartition : Nat := 6
def stSealDenied : Nat := 7
def stCtxState : Nat := 8
def stCtxOwner : Nat := 9
def stCtxFull : Nat := 10
def stDmaError : Nat := 11
def stEngineFault : Nat := 12
def stAborted : Nat := 13
def stFenced : Nat := 14

/-- A stripe operation. -/
def Job.isStripe (j : Job) : Bool := decide (1 ≤ j.op) && decide (j.op ≤ 5)

/-- The job reads a fragment list at SRC (R97). -/
def Job.hasList (j : Job) : Bool := j.isStripe && (!j.fCtx || decide (j.op = opTranscode))

/-- Entries of that list: the fragments of its code, with those of code B after them for TRANSCODE. -/
def Job.listCount (j : Job) : Nat :=
  (if j.fCtx then 0 else spN j.spec) + (if j.op = opTranscode then spN j.specB else 0)

/-! ## Checks of R117 -/

/-- Every set bit of a mask lies in [lo, hi). -/
def maskWithin (m lo hi : Nat) : Bool := (List.range 64).all fun i => !tb m i || (decide (lo ≤ i) && decide (i < hi))

/-- The mask rules of R100 to R104 that need the code (R133): K data fragments of n. -/
def Job.codeMasksBad (j : Job) (k n : Nat) : Bool :=
  if j.op = opEncode ∨ j.op = opUpdate then
    !maskWithin j.outMask k n || !maskWithin j.eraseMask 0 n || (decide (j.op = opUpdate) && decide (k ≤ j.updIndex))
  else if j.op = opReconstruct then !maskWithin j.outMask 0 n || !maskWithin j.eraseMask 0 n
  else if j.op = opVerify then !maskWithin j.eraseMask k n
  else !maskWithin j.eraseMask 0 n

/-- The mask rules of R100 to R104 that the descriptor alone decides. -/
def Job.ownMasksBad (j : Job) : Bool :=
  if j.op = opEncode ∨ j.op = opUpdate then decide (j.eraseMask ≠ 0) || decide (j.outMask = 0)
  else if j.op = opReconstruct then decide (j.outMask = 0) || decide (j.outMask &&& j.eraseMask ≠ j.outMask)
  else if j.op = opVerify then decide (j.outMask ≠ 0)
  else decide (j.outMask = 0) || !maskWithin j.outMask 0 (spN j.specB)

/-- The bounds on OFFSET and LENGTH for a fragment length F (R104, R117). -/
def Job.boundsBad (j : Job) (k f : Nat) : Bool :=
  if j.op = opTranscode then
    decide (j.offset ≠ 0) || decide (j.length ≠ k * f) || decide (j.length ≠ spK j.specB * j.fragLenB)
  else decide (f < j.offset + j.length)

/-- A range of the stack touches an enabled comb region. -/
def Ctl.touchesComb (c : Ctl) (lo len : Nat) : Bool :=
  (List.range 16).any fun n => c.combOn n && decide (lo < (c.combRange n).2) && decide ((c.combRange n).1 < lo + max len 1)

/-- The packed destination's length. -/
def Job.packedLen (j : Job) : Nat := j.length * popCount 44 j.outMask

/-- R117 on the fields of a stripe operation. FRAG_LEN is held to whole lines here with FLAGS.CTX = 1 as well (DESIGN CHOICE,
notes/assumptions/141.md). -/
def Ctl.stripeBad (c : Ctl) (j : Job) : Bool :=
  decide (j.fragLen % 64 ≠ 0) || decide (j.offset % 64 ≠ 0) || decide (j.length % 64 ≠ 0) || j.ownMasksBad ||
    ((!j.fCtx || decide (j.spec ≠ 0)) && !specValid j.spec) ||
    (decide (j.op = opTranscode) && (!specValid j.specB || decide (j.fragLenB % 64 ≠ 0) || decide (j.fragLenB = 0) ||
      decide (j.offset ≠ 0) || decide (j.length ≠ spK j.specB * j.fragLenB))) ||
    (!j.fCtx && (j.codeMasksBad (spK j.spec) (spN j.spec) || j.boundsBad (spK j.spec) j.fragLen)) ||
    (j.hasList && decide (j.src % 16 ≠ 0)) ||
    (j.fPacked && decide (j.dstSpace = 0) && c.touchesComb j.dst j.packedLen)

/-- R117 on the descriptor's own fields: step 1 of R118. -/
def Ctl.descBad (c : Ctl) (j : Job) : Bool :=
  decide (9 < j.op) || decide (1 < j.srcSpace) || decide (1 < j.dstSpace) || decide (1 < j.auxSpace) ||
    (j.fCtx && !j.isStripe) || (j.fPacked && decide (j.op ≠ opEncode) && decide (j.op ≠ opReconstruct)) ||
    (j.fCmp && decide (j.op ≠ opHash)) ||
    (decide (j.op = opHash) && (decide (j.opt % 4 = 3) || decide (j.opt % 8 = 6))) ||
    (decide (j.op = opScrub) && (decide (j.src % 64 ≠ 0) || decide (j.length % 64 ≠ 0) || decide (j.srcSpace ≠ 0))) ||
    (j.isStripe && c.stripeBad j)

/-! ## Fragments (R97, R98) -/

/-- The entries of a fragment list, their reserved bits ignored (notes/assumptions/115.md). -/
def parseList (p : Bytes) (n : Nat) : List Frag := (List.range n).map fun i => ⟨le p (16 * i) 8, le p (16 * i + 8) 1 % 4⟩

/-- A fragment is comb-placed: in the stack, with byte 0 in an enabled comb region. -/
def Ctl.combPlaced (c : Ctl) (f : Frag) : Bool := decide (f.space = 0) && (c.combRegion f.addr).isSome

/-- The address of byte t of a fragment, in its space. -/
def Ctl.fragByte (c : Ctl) (f : Frag) (t : Nat) : Nat :=
  if c.combPlaced f then f.addr + t / 1024 * (c.nch * 1024) + t % 1024 else f.addr + t

/-- A fragment address breaks R98 or R117: not aligned, or comb-placed with bytes [lo, hi) outside its region. -/
def Ctl.fragBad (c : Ctl) (f : Frag) (lo hi : Nat) : Bool :=
  decide (f.addr % 64 ≠ 0) || decide (1 < f.space) ||
    (c.combPlaced f && (decide (f.addr % 1024 ≠ 0) ||
      (decide (lo < hi) && decide (c.combRegion (c.fragByte f (hi - 1)) ≠ c.combRegion f.addr))))

/-- The fragments of code A, and of code B. -/
def Job.fragA (j : Job) (i : Nat) : Frag := j.frags.getD i ⟨0, 0⟩
def Job.fragB (j : Job) (i : Nat) : Frag := j.frags.getD (spN j.code + i) ⟨0, 0⟩

/-- The bytes of code-A fragments that the job acts on: a first byte and an end. -/
def Job.spanA (j : Job) : Nat × Nat := if j.op = opTranscode then (0, j.flen) else (j.offset, j.offset + j.length)

/-- The fragments of a mask, ascending. -/
def maskList (m n : Nat) : List Nat := (List.range n).filter (tb m)

/-- The fragments written at their own placement: for TRANSCODE those of code B. -/
def Job.writeSet (j : Job) : List Nat :=
  if j.op = opEncode ∨ j.op = opReconstruct then (if j.fPacked then [] else maskList j.outMask (spN j.code))
  else if j.op = opUpdate then j.updIndex :: maskList j.outMask (spN j.code)
  else if j.op = opTranscode then maskList j.outMask (spN j.specB)
  else []

/-- The available fragments with a non-zero coefficient in the recovery row of a fragment; every available fragment
when the pattern is unrecoverable. -/
def rowReads (w mask f : Nat) : List Nat := match recoveryRow w mask f with
  | some r => (List.range (spN w)).filter fun i => decide (r.getD i 0 ≠ 0)
  | none => (List.range (spN w)).filter fun i => !gone mask i

/-- The code-A fragments the job reads (R99). -/
def Job.readSet (j : Job) : List Nat :=
  let n := spN j.code
  if j.op = opEncode then List.range (spK j.code)
  else if j.op = opReconstruct then
    (List.range n).filter fun i => (maskList j.outMask n).any fun f => (rowReads j.code j.emask f).contains i
  else if j.op = opVerify then (List.range n).filter fun i => !gone j.emask i
  else if j.op = opUpdate then j.updIndex :: maskList j.outMask n
  else if j.op = opTranscode then
    (List.range n).filter fun i => (List.range (spK j.code)).any fun f => (rowReads j.code j.emask f).contains i
  else []

/-- A list entry or a context's placement breaks R98 or R117. -/
def Ctl.fragsBad (c : Ctl) (j : Job) : Bool :=
  let (lo, hi) := j.spanA
  let used := j.readSet ++ (if j.op = opTranscode then [] else j.writeSet)
  ((List.range (spN j.code)).any fun i => c.fragBad (j.fragA i) lo (if used.contains i then hi else lo)) ||
    (decide (j.op = opTranscode) && (List.range (spN j.specB)).any fun i =>
      c.fragBad (j.fragB i) 0 (if j.writeSet.contains i then j.fragLenB else 0))

/-! ## Stack ranges (step 4 of R118) -/

/-- A stack range a job touches: a buffer or a fragment's bytes from `off` on; `scrub` marks the range the Forager
reads as ciphertext. -/
structure Range where
  frag : Frag
  off : Nat
  len : Nat
  errFrag : Nat
  scrub : Bool := false
  deriving DecidableEq, Repr

/-- The buffer ranges of a job in the stack. -/
def Job.bufRange (space addr len : Nat) (scrub : Bool := false) : List Range :=
  if space = 0 ∧ 0 < len then [⟨⟨addr, 2⟩, 0, len, 0xFFFE, scrub⟩] else []

/-- Every stack range of a job, in the order they are judged: the list, fragments by ascending index, then buffers. A
buffer's `frag` carries space 2, so that it is never taken as comb-placed. -/
def Job.ranges (j : Job) : List Range :=
  let frags := fun (get : Nat → Frag) (l : List Nat) (lo hi : Nat) =>
    l.filterMap fun i => if (get i).space = 0 ∧ lo < hi then some (⟨get i, lo, hi - lo, i, false⟩ : Range) else none
  if j.isStripe then
    let (lo, hi) := j.spanA
    let setA := (List.range 44).filter fun i => j.readSet.contains i || (decide (j.op ≠ opTranscode) && j.writeSet.contains i)
    (if j.hasList then Job.bufRange j.srcSpace j.src (16 * j.listCount) else []) ++
      frags j.fragA setA lo hi ++
      (if j.op = opTranscode then frags j.fragB j.writeSet 0 j.fragLenB else []) ++
      (if j.fPacked then Job.bufRange j.dstSpace j.dst j.packedLen else []) ++
      (if j.op = opUpdate then Job.bufRange j.auxSpace j.aux j.length else [])
  else if j.op = opHash then
    Job.bufRange j.srcSpace j.src j.length ++
      (if j.opt % 4 = 2 then Job.bufRange j.dstSpace j.dst 32 ++
        (if j.fCmp then Job.bufRange j.auxSpace j.aux 32 else []) else [])
  else if j.op = opCopy then Job.bufRange j.srcSpace j.src j.length ++ Job.bufRange j.dstSpace j.dst j.length
  else if j.op = opFill then Job.bufRange j.dstSpace j.dst j.length
  else if j.op = opScrub then Job.bufRange 0 j.src j.length true ++ Job.bufRange j.dstSpace j.dst 128
  else []

/-- The bytes a range spans in the stack: first and last. -/
def Ctl.rangeSpan (c : Ctl) (r : Range) : Nat × Nat := (c.fragByte r.frag r.off, c.fragByte r.frag (r.off + r.len - 1))

/-- The 64 B offset of a range's first line at or above a stack address inside its span. -/
def Ctl.rangeOffset (c : Ctl) (r : Range) (bad : Nat) : Nat :=
  if bad ≤ c.fragByte r.frag r.off then r.off
  else if c.combPlaced r.frag then
    let d := bad - r.frag.addr
    let row := d / (c.nch * 1024)
    let rem := d % (c.nch * 1024)
    max r.off (if rem < 1024 then row * 1024 + rem / 64 * 64 else (row + 1) * 1024)
  else max r.off (bad - r.frag.addr)

/-- The first stack address of a range whose granule a test refuses: for a comb-placed fragment, that of its first line at or above
the granule's start. -/
def Ctl.firstRefused (c : Ctl) (r : Range) (refused : Nat → Bool) : Option Nat :=
  let (lo, hi) := c.rangeSpan r
  let starts := (List.range (granOf hi - granOf lo + 1)).map fun i => max lo ((granOf lo + i) * GiB)
  let all := if lo < c.userEnd ∧ c.userEnd ≤ hi then starts ++ [c.userEnd] else starts
  (all.find? refused).map fun sa => if c.combPlaced r.frag then c.fragByte r.frag (c.rangeOffset r sa) else sa

/-- A job that carries the handle of the key that a granule is bound to (R197, R200). -/
def Ctl.handleFits (c : Ctl) (handle g : Nat) : Bool :=
  let s := c.get (R.SEA_GRAN_KEY_SLOT g)
  c.granKeyLive g && decide (handle = c.get (R.SEA_KEY_STAT_GEN s) * 1024 + s)

/-- The seal denies a stack address to a job (R194, R200). -/
def Ctl.sealDenies (c : Ctl) (handle : Nat) (scrub : Bool) (sa : Nat) : Bool :=
  match c.sealAt sa with
  | 0 => false
  | 2 => !scrub && !c.handleFits handle (granOf sa)
  | 3 => !c.handleFits handle (granOf sa)
  | _ => true

/-- Granules a job's ranges touch, for the holds of R221. -/
def Ctl.jobTouches (c : Ctl) (j : Job) (g : Nat) : Bool :=
  j.ranges.any fun r => let (lo, hi) := c.rangeSpan r; decide (granOf lo ≤ g) && decide (g ≤ granOf hi)

/-! ## Row mode (R109) -/

/-- The rows of a comb-placed fragment's bytes all lie in channels in service and on lanes in service. -/
def Ctl.rowsServed (c : Ctl) (f : Frag) : Bool :=
  let ch := (c.viewPlace f.addr).chan
  !c.chanRetired ch && c.laneUp (ch / 4 % 4)

/-- The stack fragments a stripe operation reads, and those it writes. -/
def Job.stackFrags (j : Job) : List Frag × List Frag :=
  let rd := j.readSet.map j.fragA
  let wr := if j.op = opTranscode then j.writeSet.map j.fragB else j.writeSet.map j.fragA
  (rd.filter fun f => decide (f.space = 0), wr.filter fun f => decide (f.space = 0))

/-- MODE of a job at its dispatch (R109): 0 no stack access, 1 row mode, 2 column mode. -/
def Ctl.chooseMode (c : Ctl) (j : Job) : Nat :=
  if j.ranges.isEmpty then 0
  else if j.isStripe then
    let (rd, wr) := j.stackFrags
    let all := rd ++ wr
    let aligned := decide (j.offset % 1024 = 0) && decide (j.length % 1024 = 0)
    let packedStack := j.fPacked && decide (j.dstSpace = 0)
    if !packedStack && all.all c.combPlaced && (wr.isEmpty || aligned) && all.all c.rowsServed &&
        decide (c.get (R.QOS_CLASS_CFG_LANE_LIMIT j.cls) ≠ 0) then 1 else 2
  else 2

/-- The rows of a running job's stack fragments are all served by lanes, and its class may use them (R35, R109, R231). -/
def Ctl.rowModeHolds (c : Ctl) (j : Job) : Bool :=
  let (rd, wr) := j.stackFrags
  (rd ++ wr).all c.rowsServed && decide (c.get (R.QOS_CLASS_CFG_LANE_LIMIT j.cls) ≠ 0)

/-- Running jobs in row mode whose lanes no longer serve them, or whose class may use none, go on in column mode (R35, R231): their
transfers that wait outside an arbiter are dropped. -/
def Ctl.judgeModes (c : Ctl) : Ctl :=
  let leaves := fun (j : Job) => decide (j.mode = 1) && decide (j.phase = .running) && !c.rowModeHolds j
  let gone := (c.job.jobs.filter leaves).map fun j => j.slot
  if gone.isEmpty then c
  else
    let mine := fun (x : Xfer) => (x.job.map Prod.fst).any gone.contains
    { c.releaseCells (c.stk.lanes.flatMap fun e => e.2.waiting.filter mine) with
      job.jobs := c.job.jobs.map fun (j : Job) => if leaves j then { j with mode := 3 } else j
      stk.lanes := c.stk.lanes.map fun (e : Nat × LaneSt) =>
        (e.1, { e.2 with waiting := e.2.waiting.filter fun x => !mine x }) }

/-! ## The completion (R115) -/

/-- The 32 bytes of a completion, with LATE and PHASE as they stand when it is written. -/
def Job.completion (j : Job) (late phase : Bool) : Bytes :=
  toLE 2 j.cid ++ toLE 1 (if j.ocs then 0x40 else j.sq) ++ toLE 1 j.status ++ toLE 2 (if j.ocs then 0 else j.sqHead) ++
    toLE 1 (bit late + 2 * j.mode + 8 * bit j.ctxUpdated) ++ toLE 1 (j.cause % 16 + 128 * bit phase) ++
    toLE 8 j.result0 ++ toLE 8 j.result1 ++ toLE 4 (if j.errFrag = 0xFFFF then 0 else j.errOffset) ++ toLE 2 j.errFrag ++
    toLE 2 (min 0xFFFF j.poisonLines)

/-- The job record of a completion that was written on the link and not acknowledged when its head was fenced (R246, R249): its fields
come from the 32 bytes as they were written, and its interrupt does not wait (DESIGN CHOICE, notes/assumptions/136.md). -/
def Job.ofCompletion (slot : Nat) (h : Head) (b : Bytes) : Job :=
  { slot := slot, owner := h, sq := le b 2 1, sqHead := le b 4 2, phase := .ended, held := some h
    desc := [0, 2, 0, 0] ++ b.take 2 ++ List.replicate 122 0
    status := le b 3 1, late := tb (le b 6 1) 0, mode := le b 6 1 / 2 % 4, ctxUpdated := tb (le b 6 1) 3, cause := le b 7 1 % 16
    result0 := le b 8 8, result1 := le b 16 8, errOffset := le b 24 4, errFrag := le b 28 2, poisonLines := le b 30 2 }

end Sys2Proof.Machine
end

