-- ==== Sys2Proof/Machine/Stx.lean ====
section
/-! DEFINITION. Stripe contexts (chapter 6): entries and their layout, admission of jobs, the changes a job makes, the
context cache, allocation, the context commands, holds, and the window registers. -/

namespace Sys2Proof.Machine

/-! ## Entries (R127 to R130) -/

/-- The owner bit of a head. -/
def ownerBit (h : Head) : Nat := h.num

/-- An entry as its 64 bytes; those of a LOST entry read as zero beyond STATE (DESIGN CHOICE, notes/assumptions/128.md). -/
def CtxEntry.encode : CtxEntry → Bytes
  | .free => List.replicate 64 0
  | .lost => toLE 64 7
  | .main m =>
    toLE 8 (m.unavail * 2 ^ 20 + m.firstCh % 64 * 256 + m.kind % 4 * 64 + 16 * bit m.chkValid + 8 * ownerBit m.owner +
        m.state % 8) ++
      toLE 4 m.spec ++ toLE 4 m.fragLen ++ toLE 4 m.base ++ (List.range 44).flatMap fun i => toLE 1 (m.chk.getD i 0)
  | .ext o next w => toLE 4 (next * 1024 + 8 * ownerBit o + 5) ++ (List.range 15).flatMap fun i => toLE 4 (w.getD i 0)

/-- An entry read from 64 bytes. -/
def decodeEntry (p : Bytes) : CtxEntry :=
  let w := le p 0 8
  let owner := Head.ofNum (w / 8 % 2)
  match w % 8 with
  | 0 => .free
  | 5 => .ext owner (le p 0 4 / 1024) ((List.range 15).map fun i => le p (4 + 4 * i) 4)
  | 6 => .lost
  | 7 => .lost
  | st => .main
    { state := st, owner := owner, chkValid := tb w 4, kind := w / 64 % 4, firstCh := w / 256 % 64,
      unavail := w / 2 ^ 20, spec := le p 8 4, fragLen := le p 12 4, base := le p 16 4,
      chk := (List.range 44).map fun i => le p (20 + i) 1 }

/-- The owner of an entry as R142 treats it while an adoption is rewritten. -/
def Ctl.ctxOwner (c : Ctl) (h : Head) : Head :=
  if c.flag R.STX_ADOPT_ACTIVE && decide (c.get R.STX_ADOPT_FROM = h.num) then h.other else h

/-- Extension entries a LIST stripe of n fragments uses. -/
def extCount (n : Nat) : Nat := (n + 14) / 15

/-- The extension entries of a chain of `n` (R130): their indices; none when it ends early or one is not an extension entry. -/
def Ctl.extChain (c : Ctl) : Nat → Nat → Option (List Nat)
  | 0, _ => some []
  | n + 1, x => if x = 0 then none else match c.ctxEntry x with
    | .ext _ next _ => if n = 0 then some [x] else (c.extChain n next).map fun t => x :: t
    | _ => none

/-- The extension entries of a main entry; none when one of them is lost (R147). -/
def Ctl.ctxExts (c : Ctl) (m : CtxMain) : Option (List Nat) :=
  if m.kind = 2 then c.extChain (extCount (spN m.spec)) (m.base % 2 ^ 22) else some []

/-- The extension entries of a chain that are left from its start on, up to one that is lost. -/
def Ctl.extLeft (c : Ctl) : Nat → Nat → List Nat
  | 0, _ => []
  | n + 1, x => if x = 0 then [] else match c.ctxEntry x with
    | .ext _ next _ => x :: c.extLeft n next
    | _ => []

/-- The main entry of a context that is not LOST: a LIST context with a lost extension entry counts as LOST (R147). -/
def Ctl.ctxMain (c : Ctl) (x : Nat) : Option CtxMain := match c.ctxEntry x with
  | .main m => if (c.ctxExts m).isSome then some m else none
  | _ => none

/-- The address words of a list of extension entries. -/
def Ctl.extWords (c : Ctl) (xs : List Nat) : List Nat := xs.flatMap fun x => match c.ctxEntry x with
  | .ext _ _ w => w
  | _ => []

/-- Spread of a COMB placement (R129). -/
def Ctl.spread (c : Ctl) (i : Nat) : Nat :=
  let q := c.nch / 4
  4 * (i % q) + (i / q) % 4

/-- Where a main entry places its fragments (R129). -/
def Ctl.ctxPlaces (c : Ctl) (m : CtxMain) : List Frag :=
  let words := c.extWords ((c.ctxExts m).getD [])
  (List.range (spN m.spec)).map fun i =>
    let b := m.base % 2 ^ 30 * 64
    if m.kind = 0 then ⟨b + (m.firstCh + c.spread i) % c.nch * 1024, 0⟩
    else if m.kind = 1 then ⟨b + i * m.fragLen, 0⟩
    else ⟨64 * words.getD i 0, 0⟩

/-- The placement or the fragment length breaks R128 or R129. -/
def Ctl.placementBad (c : Ctl) (m : CtxMain) : Bool :=
  decide (m.fragLen = 0) || decide (m.fragLen % 64 ≠ 0) || decide (2 < m.kind) || (decide (m.kind ≠ 0) && decide (m.firstCh ≠ 0)) ||
    (decide (m.kind = 0) && (decide (m.fragLen % 1024 ≠ 0) || decide (c.nch < spN m.spec) ||
      decide (m.base % 2 ^ 30 * 64 % 1024 ≠ 0) || decide (c.nch ≤ m.firstCh)))

/-- An image that CTX_ALLOC and CTX_WRITE refuse (R151). -/
def Ctl.imageBad (c : Ctl) (m : CtxMain) : Bool :=
  !specValid m.spec || c.placementBad m || decide (m.state < 1) || decide (3 < m.state) ||
    (decide (m.state = 2) && decide (m.unavail ≠ 0)) || (decide (m.state = 3) && decide (m.unavail = 0))

/-- A mask kept below n. -/
def maskBelow (m n : Nat) : Nat := m % 2 ^ n

/-- A main entry with the fields that R128 keeps zero at zero: UNAVAIL and CHK beyond its fragments, and the reserved bits of BASE,
whatever an image gives there (DESIGN CHOICE, notes/assumptions/128.md). -/
def CtxMain.tidy (m : CtxMain) : CtxMain :=
  let n := spN m.spec
  { m with
    unavail := maskBelow m.unavail n
    base := if m.kind = 2 then m.base % 2 ^ 22 else m.base % 2 ^ 30
    chk := (List.range 44).map fun i => if i < n then m.chk.getD i 0 else 0 }

/-! ## Changing entries -/

/-- An entry becomes dirty in the cache, and its section with it (R145). -/
def Ctl.ctxDirty (c : Ctl) (x : Nat) : Ctl :=
  { c with stx := { c.stx with
    dirty := if c.stx.dirty.contains x then c.stx.dirty else c.stx.dirty ++ [x]
    sections := if c.stx.sections.contains (x / 1024) then c.stx.sections else x / 1024 :: c.stx.sections } }

/-- An entry set, with the count of free entries kept; one that a TRANSCODE reserves was none of them. It becomes dirty without taking a
way of the cache (DESIGN CHOICE, notes/assumptions/128.md). -/
def Ctl.setEntry (c : Ctl) (x : Nat) (e : CtxEntry) : Ctl :=
  let was := c.entryFree x
  let now := decide (e = .free)
  let free := c.get R.STX_FREE_CNT_FREE
  let c1 : Ctl := { c with stx.entries := if now && !c.rowLost (c.ctxAddr x) then mapDel c.stx.entries x else mapPut c.stx.entries x e }
  let c2 := c1.ctxDirty x
  if was && !now then c2.freeChange x (free - 1) else if now && !was then c2.freeChange x (free + 1) else c2

/-- The lowest-numbered free entry from x on, among `fuel` entries (R148). -/
def Ctl.lowestFree (c : Ctl) : Nat → Nat → Option Nat
  | 0, _ => none
  | fuel + 1, x => if c.entryFree x then some x else c.lowestFree fuel (x + 1)

/-- The n highest-numbered free entries below x, never entry 0 (R130, R148); none when they run out. -/
def Ctl.highestFree (c : Ctl) : Nat → Nat → Option (List Nat)
  | _, 0 => some []
  | 0, _ + 1 => none
  | x + 1, n + 1 =>
    if x = 0 then none
    else if c.entryFree x then (c.highestFree x n).map fun t => x :: t
    else c.highestFree x (n + 1)

/-- A chain of extension entries written. -/
def Ctl.writeExts (c : Ctl) (o : Head) : List Nat → List Nat → Ctl
  | [], _ => c
  | x :: t, words =>
    (c.setEntry x (.ext o (t.headD 0) ((words ++ List.replicate 15 0).take 15))).writeExts o t (words.drop 15)

/-- The extension entries of an entry freed: those that are left, up to one that is LOST (DESIGN CHOICE, notes/assumptions/128.md). -/
def Ctl.freeExts (c : Ctl) (e : CtxEntry) : Ctl := match e with
  | .main m => (if m.kind = 2 then c.extLeft (extCount (spN m.spec)) (m.base % 2 ^ 22) else []).foldl (fun c x => c.setEntry x .free) c
  | _ => c

/-! ## Admission of jobs (R132, R133, R141) -/

/-- Every available parity of a context. -/
def availParities (m : CtxMain) : Nat :=
  maskOf 44 fun i => decide (spK m.spec ≤ i) && decide (i < spN m.spec) && !tb m.unavail i

/-- No data fragment is unavailable. -/
def noDataGone (m : CtxMain) : Bool := decide (m.unavail % 2 ^ spK m.spec = 0)

/-- The table of R132: the state admits the operation. -/
def ctxAdmits (j : Job) (m : CtxMain) : Bool :=
  let upd := !tb m.unavail j.updIndex && decide (j.outMask = availParities m)
  match m.state with
  | 1 => decide (j.op = opEncode) && noDataGone m
  | 2 => if j.op = opUpdate then upd else j.isStripe
  | 3 =>
    if j.op = opEncode then true
    else if j.op = opReconstruct then true
    else if j.op = opVerify then noDataGone m
    else if j.op = opUpdate then upd
    else decide (j.op = opTranscode)
  | _ => false

/-- ENCODE of a DEGRADED context needs every data fragment available (R132). -/
def ctxAdmitsAll (j : Job) (m : CtxMain) : Bool :=
  ctxAdmits j m && (decide (j.op ≠ opEncode) || decide (m.state = 2) || noDataGone m)

/-- The main entry a job works on. -/
def Ctl.jobCtx (c : Ctl) (j : Job) : Option CtxMain := match c.ctxEntry j.ctxIndex with
  | .main m => some m
  | _ => none

/-- A job with its context's code, length, places and unavailable fragments (R97, R133). -/
def Ctl.withCtx (c : Ctl) (j : Job) (m : CtxMain) : Job :=
  { j with
    code := m.spec, flen := m.fragLen, emask := j.eraseMask ||| maskBelow m.unavail (spN m.spec)
    frags := c.ctxPlaces m ++ (if j.op = opTranscode then j.frags else []) }

/-- The checks of R117 that need the context (step 3 of R118), on masks as the descriptor carries them. -/
def Ctl.ctxChecksBad (c : Ctl) (j : Job) (m : CtxMain) : Bool :=
  (decide (j.spec ≠ 0) && decide (j.spec ≠ m.spec)) || j.codeMasksBad (spK m.spec) (spN m.spec) ||
    j.boundsBad (spK m.spec) m.fragLen || (decide (j.fragLen ≠ 0) && decide (j.fragLen ≠ m.fragLen)) ||
    c.fragsBad (c.withCtx j m)

/-- Step 3 of R118 for a job with a context: its status when it is refused, else the job with the context's code and
places. A TRANSCODE reserves its extension entries (R149). -/
def Ctl.admitCtx (c : Ctl) (j : Job) : Nat ⊕ (Job × Ctl) :=
  match c.ctxMain j.ctxIndex with
  | none => .inl stCtxState
  | some m =>
    if c.ctxOwner m.owner ≠ j.owner then .inl stCtxOwner
    else if !ctxAdmitsAll j m then .inl stCtxState
    else if j.op = opTranscode then
      match c.highestFree ctxCount (extCount (spN j.specB)) with
      | none => .inl stCtxFull
      | some xs =>
        if c.ctxChecksBad j m then .inl stInvalid
        else .inr (c.withCtx j m,
          { c with stx.reserved := c.stx.reserved ++ xs.map fun x => (j.slot, x) }.freeChange (xs.headD 0)
            (c.get R.STX_FREE_CNT_FREE - xs.length))
    else if c.ctxChecksBad j m then .inl stInvalid
    else .inr (c.withCtx j m, c)

/-- The reserved entries of a slot returned (R149). -/
def Ctl.unreserve (c : Ctl) (slot : Nat) : Ctl :=
  let n := (c.stx.reserved.filter fun r => decide (r.1 = slot) && decide (c.ctxEntry r.2 = .free)).length
  let c1 := { c with stx.reserved := c.stx.reserved.filter fun r => decide (r.1 ≠ slot) }
  if n = 0 then c1 else c1.freeChange 0 (c.get R.STX_FREE_CNT_FREE + n)

/-! ## The context cache (R143, R144) -/

/-- An entry is pinned by a job. -/
def Ctl.ctxPinned (c : Ctl) (x : Nat) : Bool := c.stx.pins.any fun p => decide (p.2 = x)

/-- Entries of the cache in the set of x, most recently used first. -/
def Ctl.cacheSet (c : Ctl) (x : Nat) : List Nat := c.stx.cache.filter fun y => decide (y % 16384 = x % 16384)

/-- A way of the set of x is free or unpinned. -/
def Ctl.wayFree (c : Ctl) (x : Nat) : Bool :=
  decide ((c.cacheSet x).length < 16) || (c.cacheSet x).any fun y => !c.ctxPinned y

/-- A section's bit clears when its last dirty entry has been written back (R145). -/
def Ctl.ctxWriteBack (c : Ctl) (x : Nat) : Ctl := c.ctxClean fun y => decide (y = x)

/-- An entry fills a way of its set: the least recently used unpinned one, written back first when it is dirty. -/
def Ctl.fillWay (c : Ctl) (x : Nat) : Ctl :=
  let c1 := if (c.cacheSet x).length < 16 then c
    else match ((c.cacheSet x).filter fun y => !c.ctxPinned y).getLast? with
      | some v => { c.ctxWriteBack v with stx.cache := (c.ctxWriteBack v).stx.cache.filter fun y => decide (y ≠ v) }
      | none => c
  { c1 with stx.cache := x :: c1.stx.cache.filter fun y => decide (y ≠ x) }

/-- An entry pinned for a slot. -/
def Ctl.pinCtx (c : Ctl) (slot x : Nat) : Ctl := { c with stx.pins := (slot, x) :: c.stx.pins }

/-- A cached entry becomes the most recently used of its set (R143). -/
def Ctl.ctxTouch (c : Ctl) (x : Nat) : Ctl := { c with stx.cache := x :: c.stx.cache.filter fun y => decide (y ≠ x) }

/-- Up to n dirty entries written back, oldest first (R145). -/
def Ctl.ctxFlush : Nat → Ctl → Ctl
  | 0, c => c
  | n + 1, c => match c.stx.dirty with
    | x :: _ => Ctl.ctxFlush n (c.ctxWriteBack x)
    | [] => c

/-- A command on a context waits while running jobs hold it (R151), be it as one of their extension entries (R152). -/
def Ctl.ctxInUse (c : Ctl) (x : Nat) : Bool :=
  c.job.jobs.any fun j => j.fCtx && (decide (j.ctxIndex = x) || c.stx.pins.contains (j.slot, x)) &&
    (decide (j.phase = .running) || decide (j.phase = .ctxWait))

/-! ## The changes of a job (R134, R135) -/

/-- The state that goes with a mask of unavailable fragments (R131). -/
def CtxMain.settle (m : CtxMain) : CtxMain :=
  if m.state = 2 ∨ m.state = 3 then { m with state := if m.unavail = 0 then 2 else 3 } else m

/-- What a job brings to its context at its end: for each fragment written whole its new check value, for UPDATE the
values to XOR in, which stand for the new ones while CHK_VALID is 1 (R138), whether an available fragment was written in part, and for a whole-range ENCODE the check values of
its data. -/
structure CtxChange where
  whole : List (Nat × Nat) := []
  xor : List (Nat × Nat) := []
  partly : List Nat := []
  encode : Option (List (Nat × Nat)) := none

/-- A main entry with the changes of a job applied as it then stands. -/
def CtxMain.apply (m : CtxMain) (x : CtxChange) : CtxMain :=
  let m1 := x.whole.foldl (fun (m : CtxMain) w =>
    { m with
      chk := if m.chkValid && x.xor.any (fun y => decide (y.1 = w.1)) then m.chk else m.chk.set w.1 w.2
      unavail := clrBit m.unavail w.1 }) m
  let m2 := if m1.chkValid then x.xor.foldl (fun (m : CtxMain) w =>
    { m with chk := m.chk.set w.1 ((m.chk.getD w.1 0) ^^^ w.2) }) m1 else m1
  let m3 := if x.partly.any fun f => !tb m2.unavail f then { m2 with chkValid := false } else m2
  match x.encode with
  | some data =>
    if m.state = 1 then
      let m4 := data.foldl (fun (m : CtxMain) w => { m with chk := m.chk.set w.1 w.2 }) m3
      let gone := maskOf 44 fun i => decide (spK m.spec ≤ i) && decide (i < spN m.spec) && !(x.whole.any fun w => decide (w.1 = i))
      let un := (m4.unavail % 2 ^ spK m.spec) ||| gone
      { m4 with unavail := un, chkValid := true, state := if un = 0 then 2 else 3 }
    else m3.settle
  | none => m3.settle

/-! ## The context commands (R150, R151) -/

/-- A list of 44 words in a payload. -/
def parseWords (p : Bytes) (off : Nat) : List Nat := (List.range 44).map fun i => le p (off + 4 * i) 4

/-- A main entry in a payload, given to a head. -/
def imageAt (p : Bytes) (off : Nat) (h : Head) : Option CtxMain := match decodeEntry ((p.drop off).take 64) with
  | .main m => some { m with owner := h }.tidy
  | _ => none

/-- A LIST image placed with fresh extension entries; other images as they are. -/
def Ctl.placeImage (c : Ctl) (h : Head) (m : CtxMain) (words : List Nat) (x : Nat) : Option Ctl :=
  if m.kind = 2 then
    let c1 := c.setEntry x (.main m)
    match c1.highestFree ctxCount (extCount (spN m.spec)) with
    | some xs => some ((c1.writeExts h xs (words.take (spN m.spec))).setEntry x (.main { m with base := xs.headD 0 }))
    | none => none
  else some (c.setEntry x (.main m))

/-- CTX_ALLOC (R148, R151). -/
def ctxAlloc (h : Head) (p : Bytes) (c : Ctl) : Ctl :=
  c.ocs h 0xC120 { min := 64, stack := true } p fun c =>
    match imageAt p 0 h with
    | none => c.finish h 0xC120 .invalidParameter []
    | some m =>
      if c.imageBad m || (decide (m.kind = 2) && decide (p.length < 240)) then c.finish h 0xC120 .invalidParameter []
      else match c.lowestFree ctxCount 0 with
        | none => c.finish h 0xC120 .resourceExhausted []
        | some x => match c.placeImage h m (parseWords p 64) x with
          | some c1 => c1.finish h 0xC120 .ok (toLE 4 x)
          | none => c.finish h 0xC120 .resourceExhausted []

def execCtxAlloc (h : Head) (p : Bytes) (s : State) : Host.Outcome State Fault Refusal := .next (s.mapCtl (ctxAlloc h p))

/-- CTX_READ: image and list of any entry of the table (R151); an index beyond the table is refused (DESIGN CHOICE,
notes/assumptions/128.md). A LIST context with an extension entry that is LOST is read with its own STATE and an
empty list (DESIGN CHOICE, notes/assumptions/143.md). -/
def ctxRead (h : Head) (p : Bytes) (c : Ctl) : Ctl :=
  c.ocs h 0xC121 { min := 4 } p fun c =>
    let x := le p 0 4
    if ctxCount ≤ x then c.finish h 0xC121 .invalidParameter []
    else
      let e := c.ctxEntry x
      let words := match e with
        | .main m => if m.kind = 2 then (c.extWords ((c.ctxExts m).getD [])).take 44 else []
        | _ => []
      c.finish h 0xC121 .ok (e.encode ++ padTo 176 (words.flatMap (toLE 4)))

def execCtxRead (h : Head) (p : Bytes) (s : State) : Host.Outcome State Fault Refusal := .next (s.mapCtl (ctxRead h p))

/-- How a command on a context is judged (R151): refused with a code, or carried out. -/
abbrev CtxJudge := Head → Bytes → Ctl → Ocs ⊕ Ctl

/-- The head owns an entry under R141. -/
def Ctl.ownsCtx (c : Ctl) (h : Head) (o : Head) : Bool := decide (c.ctxOwner o = h)

/-- CTX_WRITE judged. An EXTENSION entry, the requester's own too, is refused: the spec names no answer for it (DESIGN CHOICE,
notes/assumptions/117.md); so is an entry that a TRANSCODE has reserved, which is not free (DEDUCED, notes/assumptions/116.md). The extension entries that the context held count as free for the write that
replaces it (DESIGN CHOICE, notes/assumptions/143.md). -/
def judgeCtxWrite : CtxJudge := fun h p c =>
  let x := le p 0 4
  match imageAt p 4 h with
  | none => .inl .invalidParameter
  | some m =>
    if ctxCount ≤ x ∨ c.imageBad m = true ∨ (m.kind = 2 ∧ p.length < 244) then .inl .invalidParameter
    else
      let old := c.ctxEntry x
      let mine := match old with
        | .main o => c.ownsCtx h o.owner || (c.ctxMain x).isNone
        | .ext _ _ _ => false
        | .free => c.entryFree x
        | .lost => true
      if mine then
        match (c.freeExts old).placeImage h m (parseWords p 68) x with
        | some c1 => .inr c1
        | none => .inl .resourceExhausted
      else .inl .invalidParameter

/-- CTX_MARK judged. -/
def judgeCtxMark : CtxJudge := fun h p c =>
  let x := le p 0 4
  let put := le p 4 8
  let clr := le p 12 8
  match c.ctxMain x with
  | some m =>
    if !c.ownsCtx h m.owner || decide (m.state = 4) || decide (ctxCount ≤ x) || !maskWithin put 20 (20 + spN m.spec) ||
        !maskWithin clr 20 (20 + spN m.spec) || decide (put &&& clr ≠ 0) then .inl .invalidParameter
    else
      let sets := put / 2 ^ 20
      let clears := clr / 2 ^ 20
      let un := (m.unavail ||| sets) - ((m.unavail ||| sets) &&& clears)
      .inr (c.setEntry x (.main { m with unavail := un, chkValid := m.chkValid && decide (m.unavail &&& clears = 0) }.settle))
  | none => .inl .invalidParameter

/-- CTX_RETIRE judged. -/
def judgeCtxRetire : CtxJudge := fun h p c =>
  let x := le p 0 4
  match c.ctxMain x with
  | some m =>
    if !c.ownsCtx h m.owner || decide (ctxCount ≤ x) then .inl .invalidParameter
    else if m.state = 4 then .inr c
    else .inr (c.setEntry x (.main { m with state := 4 }))
  | none => .inl .invalidParameter

/-- CTX_FREE judged. An EXTENSION entry is refused (DESIGN CHOICE, notes/assumptions/117.md). -/
def judgeCtxFree : CtxJudge := fun h p c =>
  let x := le p 0 4
  if ctxCount ≤ x then .inl .invalidParameter
  else match c.ctxEntry x with
    | .main m => if c.ownsCtx h m.owner || (c.ctxMain x).isNone then .inr ((c.freeExts (.main m)).setEntry x .free) else .inl .invalidParameter
    | .lost => .inr (c.setEntry x .free)
    | _ => .inl .invalidParameter

/-- CTX_ASSIGN judged: the entry and its extension entries get the new owner. An EXTENSION entry is refused (DESIGN CHOICE,
notes/assumptions/117.md). A new-owner byte above 1 is an invalid parameter (DESIGN CHOICE,
notes/assumptions/143.md). -/
def judgeCtxAssign : CtxJudge := fun h p c =>
  let x := le p 0 4
  match c.ctxMain x with
  | some m =>
    if !c.ownsCtx h m.owner || decide (ctxCount ≤ x) || decide (1 < le p 4 1) then .inl .invalidParameter
    else
      let o := Head.ofNum (le p 4 1)
      let c1 := ((c.ctxExts m).getD []).foldl (fun c y => match c.ctxEntry y with
        | .ext _ next w => c.setEntry y (.ext o next w)
        | _ => c) c
      .inr (c1.setEntry x (.main { m with owner := o }))
  | none => .inl .invalidParameter

/-- The judgement of a context command by its opcode. -/
def ctxJudge (op : Nat) : CtxJudge :=
  if op = 0xC122 then judgeCtxWrite else if op = 0xC123 then judgeCtxMark else if op = 0xC124 then judgeCtxRetire
  else if op = 0xC125 then judgeCtxFree else judgeCtxAssign

/-- A command on a context (R151): judged at its arrival, held while running jobs hold the context, else carried
out. -/
def ctxCommand (h : Head) (op min : Nat) (p : Bytes) (c : Ctl) : Ctl :=
  c.ocs h op { min := min, stack := true } p fun c =>
    match ctxJudge op h p c with
    | .inl e => c.finish h op e []
    | .inr c1 =>
      if c.ctxInUse (le p 0 4) then { c with stx.heldCtx := (le p 0 4, h) :: c.stx.heldCtx }.await h op p .hold c.clock
      else c1.finish h op .ok []

def execCtxWrite (h : Head) (p : Bytes) (s : State) : Host.Outcome State Fault Refusal :=
  .next (s.mapCtl (ctxCommand h 0xC122 68 p))
def execCtxMark (h : Head) (p : Bytes) (s : State) : Host.Outcome State Fault Refusal :=
  .next (s.mapCtl (ctxCommand h 0xC123 20 p))
def execCtxRetire (h : Head) (p : Bytes) (s : State) : Host.Outcome State Fault Refusal :=
  .next (s.mapCtl (ctxCommand h 0xC124 4 p))
def execCtxFree (h : Head) (p : Bytes) (s : State) : Host.Outcome State Fault Refusal :=
  .next (s.mapCtl (ctxCommand h 0xC125 4 p))
def execCtxAssign (h : Head) (p : Bytes) (s : State) : Host.Outcome State Fault Refusal :=
  .next (s.mapCtl (ctxCommand h 0xC126 5 p))

/-- A held context command judged again once the running jobs have completed (R151). -/
def Ctl.resumeCtx (c : Ctl) (h : Head) (op : Nat) (p : Bytes) : Ctl :=
  if c.ctxInUse (le p 0 4) then c
  else
    let c1 : Ctl := { c with stx.heldCtx := c.stx.heldCtx.filter fun e => decide (e ≠ (le p 0 4, h)) }
    match ctxJudge op h p c1 with
    | .inl _ => c1.finish h op .invalidParameter []
    | .inr c2 => c2.finish h op .ok []

/-! ## The window (R152) -/

/-- The head's data words as 64 bytes. -/
def Ctl.winBytes (c : Ctl) (h : Head) : Bytes :=
  (List.range 16).flatMap fun w => toLE 4 (c.get (R.STX_WIN_DATA_DATA h.num w))

/-- A lookup of one entry for the window (R143, R152): a hit, or a miss that fills a way. When every way of its set is pinned the line is
read without one, since the spec gives the window no wait (DESIGN CHOICE, notes/assumptions/118.md). -/
def Ctl.ctxLookup (c : Ctl) (x : Nat) : Ctl :=
  if c.stx.cache.contains x then (c.ctxTouch x).bump R.STX_HIT_CNT_COUNT
  else
    let c1 := c.bump R.STX_MISS_CNT_COUNT
    if c1.wayFree x then c1.fillWay x else c1

/-- STX_WIN_READ (R152): entry INDEX is copied, through the cache, into the head's data words. -/
def winRead (h : Head) (c : Ctl) : Ctl :=
  let x := c.get (R.STX_WIN_CTL_INDEX h.num)
  let p := (c.ctxEntry x).encode
  (List.range 16).foldl (fun c w => c.set (R.STX_WIN_DATA_DATA h.num w) (le p (4 * w) 4)) (c.ctxLookup x)

/-- A window write judged (R152): as CTX_WRITE, but an EXTENSION image is accepted, and a LIST image names extension
entries that are written already. A write over a main entry of KIND LIST leaves its extension entries as they are (DESIGN
CHOICE, notes/assumptions/143.md). -/
def judgeWinWrite (h : Head) (x : Nat) (p : Bytes) (c : Ctl) : Ocs ⊕ Ctl :=
  let old := c.ctxEntry x
  let mine := match old with
    | .main o => c.ownsCtx h o.owner || (c.ctxMain x).isNone
    | .ext o _ _ => c.ownsCtx h o
    | .free => c.entryFree x
    | .lost => true
  if !mine then .inl .invalidParameter
  else match decodeEntry p with
    | .ext _ next w => if x = 0 then .inl .invalidParameter else .inr (c.setEntry x (.ext h next w))
    | .main m =>
      let m1 := { m with owner := h }.tidy
      if c.imageBad m1 || (c.ctxExts m1).isNone then .inl .invalidParameter else .inr (c.setEntry x (.main m1))
    | _ => .inl .invalidParameter

/-- STX_WIN_WRITE (R152): carried out, held with its index and data while running jobs hold the entry, BUSY being set, or
refused with ERR, which stays set until software clears it (DESIGN CHOICE, notes/assumptions/128.md). -/
def winWrite (h : Head) (c : Ctl) : Ctl :=
  let x := c.get (R.STX_WIN_CTL_INDEX h.num)
  match judgeWinWrite h x (c.winBytes h) c with
  | .inl _ => c.set (R.STX_WIN_CTL_ERR h.num) 1
  | .inr c1 =>
    if c.ctxInUse x then { c with 
      stx.winHold := (h, c.clock, x, c.winBytes h) :: c.stx.winHold, stx.heldCtx := (x, h) :: c.stx.heldCtx }.set
      (R.STX_WIN_CTL_BUSY h.num) 1
    else c1

/-- The hold of a head's window write on entry `x` ends. -/
def Ctl.endWinHold (c : Ctl) (h : Head) (x : Nat) : Ctl :=
  { c with
    stx.winHold := c.stx.winHold.filter fun e => decide (e.1 ≠ h)
    stx.heldCtx := c.stx.heldCtx.filter fun e => decide (e ≠ (x, h)) }.set (R.STX_WIN_CTL_BUSY h.num) 0

/-- A held window write judged again (R151, R152). -/
def Ctl.resumeWin (c : Ctl) (h : Head) : Ctl :=
  match c.stx.winHold.find? fun e => decide (e.1 = h) with
  | none => c
  | some (_, _, x, p) =>
    if c.ctxInUse x then c
    else
      let c1 := c.endWinHold h x
      match judgeWinWrite h x p c1 with
      | .inl _ => c1.set (R.STX_WIN_CTL_ERR h.num) 1
      | .inr c2 => c2

/-- A window write whose hold has lasted 100 ms is refused, and the hold ends (R151, R152). -/
def Ctl.dropWin (c : Ctl) (h : Head) : Ctl :=
  match c.stx.winHold.find? fun e => decide (e.1 = h) with
  | none => c
  | some (_, t, x, _) => ((c.passTo (t + 100000000)).endWinHold h x).set (R.STX_WIN_CTL_ERR h.num) 1

/-! ## The adoption rewrite (R142) -/

/-- CTX_REWRITE_DONE (R142): the rewrite ends: every entry of the head FROM names the survivor and is dirty (R145), and ACTIVE clears. -/
def Ctl.rewriteContexts (c : Ctl) : Ctl :=
  let frm := Head.ofNum (c.get R.STX_ADOPT_FROM)
  let own := fun (o : Head) => if o = frm then frm.other else o
  let moved := fun (e : CtxEntry) => match e with
    | .main m => .main { m with owner := own m.owner }
    | .ext o n w => .ext (own o) n w
    | x => x
  let c1 := { c with stx.entries := c.stx.entries.map fun (e : Nat × CtxEntry) => (e.1, moved e.2) }
  ((((c.stx.entries.filter fun e => decide (moved e.2 ≠ e.2)).foldl (fun c e => c.ctxDirty e.1) c1).set R.STX_ADOPT_ACTIVE 0).set
    R.STX_ADOPT_DONE ctxCount)

end Sys2Proof.Machine
end

