-- ==== Sys2Proof/Machine/Slots.lean ====
section
/-! DEFINITION. The job slot table (R85): how a job takes a slot, waits, starts, is stopped and ends (R112, R118), the
decode-matrix cache it pins (R78 to R82), its context (R143, R144), and its requests on the link (R110, R111, R401). -/

namespace Sys2Proof.Machine

/-! ## Slots and ranks -/

/-- The first element of a list with the least key. -/
def minBy {α : Type} (f : α → Nat) : List α → Option α
  | [] => none
  | a :: t => match minBy f t with
    | some b => if f b < f a then some b else some a
    | none => some a

/-- R228: lower class first, then earlier deadline, jobs without one last in their class, then earlier fetch. -/
def Job.rank (j : Job) : Nat := j.cls * 2 ^ 200 + (j.deadline.getD (2 ^ 80)) * 2 ^ 100 + j.seq

/-- The job in a slot. -/
def Ctl.jobAt (c : Ctl) (slot : Nat) : Option Job := c.job.jobs.find? fun j => decide (j.slot = slot)

/-- A job's record replaced. -/
def Ctl.putJob (c : Ctl) (j : Job) : Ctl :=
  { c with job.jobs := c.job.jobs.map fun (x : Job) => if x.slot = j.slot then j else x }

/-- The entry of a key is pinned by a job. -/
def Ctl.dmcWanted (c : Ctl) (key : List Nat) : Bool :=
  c.dec.wants.any fun w => decide (w.2 = key) && !c.dec.wayWait.contains w.1

/-- FLUSH_BUSY reads 1 while an entry that a flush has doomed is left (R82). -/
def Ctl.judgeFlush (c : Ctl) : Ctl := if c.dec.entries.any fun e => e.doomed then c else c.set R.CMB_DMC_FLUSH_FLUSH_BUSY 0

/-- A job's entry is unpinned at its last step (R79): its slot's release, which is when its completion has been written (DEDUCED,
notes/assumptions/109.md). A doomed entry goes with its last pin, computed or not (R82). -/
def Ctl.unpinDec (c : Ctl) (slot : Nat) : Ctl :=
  let c1 := { c with dec := { c.dec with
    wants := c.dec.wants.filter fun w => decide (w.1 ≠ slot)
    wayWait := c.dec.wayWait.filter fun s => decide (s ≠ slot) } }
  let gone := fun e : DmcEntry => e.doomed && !c1.dmcWanted e.key
  { c1 with dec := { c1.dec with
    entries := c1.dec.entries.filter fun e => !gone e
    queue := c1.dec.queue.filter fun k => !c1.dec.entries.any fun e => gone e && decide (e.key = k) } }.judgeFlush

/-- A slot released (R85): its decode entry and its contexts are unpinned (R79, R144) and fetching may resume. -/
def Ctl.dropJob (c0 : Ctl) (slot : Nat) : Ctl :=
  let c := c0.unpinDec slot
  { c with
    job := { c.job with jobs := c.job.jobs.filter fun j => decide (j.slot ≠ slot), paused := false }
    stx.pins := c.stx.pins.filter fun p => decide (p.1 ≠ slot) }

/-- The lowest-numbered free slot. -/
def Ctl.freeSlot (c : Ctl) : Option Nat := (List.range 4096).find? fun n => (c.jobAt n).isNone

/-- Ring fetch pauses when every slot is held, once per pause (R85). -/
def Ctl.judgePause (c : Ctl) : Ctl :=
  if 4096 ≤ c.slotsHeld ∧ c.job.paused = false then
    { c with job.paused := true }.bump R.CMB_JOB_SAT_CNT_PAUSES
  else c

/-- The device admits fetches and new starts: no park, no orderly shutdown, no quiesce, and a completed start. -/
def Ctl.admits (c : Ctl) : Bool := !c.stackAway && decide (c.rst.quiesce = 0) && decide (c.rst.awaiting = 8)

/-- A deadline in platform time (R227, R259): that of the head which is not the time head is moved by TIM_OFFSET. -/
def Ctl.toPlatform (c : Ctl) (h : Head) (d : Nat) : Nat :=
  let off : Int := if c.get R.TIM_OFFSET_VALUE < 2 ^ 63 then c.get R.TIM_OFFSET_VALUE
    else (c.get R.TIM_OFFSET_VALUE : Int) - 2 ^ 64
  if c.flag R.TIM_STATUS_OFFSET_VALID && decide (c.get R.TIM_STATUS_SOURCE < 2) &&
      decide (c.get R.TIM_STATUS_SOURCE ≠ h.num) then ((d : Int) - off).toNat
  else d

/-- A job as its descriptor arrives. -/
def Ctl.makeJob (c : Ctl) (slot : Nat) (h : Head) (desc : Bytes) : Job :=
  let j : Job := { slot := slot, owner := h, desc := padTo 128 desc, seq := c.job.seq }
  { j with
    deadline := if j.fDl then some (c.toPlatform h j.deadlineField) else none
    code := if j.fCtx then 0 else j.spec
    flen := j.fragLen
    emask := j.eraseMask }

/-! ## The decode-matrix cache (R78 to R82) -/

/-- The entry of a key. -/
def Ctl.dmcEntry (c : Ctl) (key : List Nat) : Option DmcEntry := c.dec.entries.find? fun e => decide (e.key = key)

/-- Entries of a set. -/
def Ctl.dmcWays (c : Ctl) (set : Nat) : List DmcEntry := c.dec.entries.filter fun e => decide (e.set = set)

/-- A way of a set is free or unpinned. -/
def Ctl.dmcFree (c : Ctl) (set : Nat) : Bool :=
  decide ((c.dmcWays set).length < 8) || (c.dmcWays set).any fun e => !c.dmcWanted e.key

/-- A way taken for a key, the least recently used unpinned one going, with its inversion where it is still queued, and the key's
inversion queued; every miss of the key that waited for a way is merged with it and waits no more (R79). -/
def Ctl.dmcTake (c : Ctl) (key : List Nat) : Ctl :=
  let set := dmcSet key
  let old := if (c.dmcWays set).length < 8 then none
    else minBy (fun e => e.used) ((c.dmcWays set).filter fun e => !c.dmcWanted e.key)
  let kept := match old with
    | some v => c.dec.entries.filter fun e => decide (e.key ≠ v.key)
    | none => c.dec.entries
  { c with dec := { c.dec with
    entries := ⟨set, key, none, c.dec.tick, false, false⟩ :: kept
    queue := (c.dec.queue.filter fun k => decide (some k ≠ old.map DmcEntry.key)) ++ [key]
    wayWait := c.dec.wayWait.filter fun n => !c.dec.wants.contains (n, key)
    tick := c.dec.tick + 1 } }

/-- DECODE_MATRIX_LOOKUP (R78, R79): a hit pins the entry, a miss starts or joins an inversion, and a miss without a
way waits and is counted. A lookup after a flush still finds an entry that the flush has doomed while a job pins it, and pins it too
(DESIGN CHOICE, notes/assumptions/128.md). -/
def Ctl.dmcLookup (c : Ctl) (slot : Nat) (key : List Nat) : Ctl :=
  let pin := fun (c : Ctl) => { c with dec.wants := (slot, key) :: c.dec.wants }
  match c.dmcEntry key with
  | some e =>
    let c1 := pin { c with dec := { c.dec with
      entries := c.dec.entries.map fun (x : DmcEntry) => if x.key = key then { x with used := c.dec.tick } else x
      tick := c.dec.tick + 1 } }
    if e.rows.isSome then c1.bump R.CMB_DMC_HIT_CNT_HITS else c1.bump R.CMB_DMC_MISS_CNT_MISSES
  | none =>
    let c1 := c.bump R.CMB_DMC_MISS_CNT_MISSES
    if c1.dmcFree (dmcSet key) then pin (c1.dmcTake key)
    else { pin c1 with dec.wayWait := c1.dec.wayWait ++ [slot] }.bump R.CMB_DMC_WAIT_CNT_WAITS

/-- The entry of a job is ready, or it needs none. -/
def Ctl.dmcReady (c : Ctl) (slot : Nat) : Bool := match c.dec.wants.find? fun w => decide (w.1 = slot) with
  | none => true
  | some w => !c.dec.wayWait.contains slot && match c.dmcEntry w.2 with
    | some e => e.rows.isSome
    | none => false

/-- CMB_DMC_FLUSH (R82): unpinned entries go at once, pinned ones as their jobs unpin them. -/
def Ctl.dmcFlush (c : Ctl) : Ctl :=
  let es := (c.dec.entries.filter fun e => c.dmcWanted e.key).map fun (e : DmcEntry) => { e with doomed := true }
  { c with dec := { c.dec with
    entries := es, queue := c.dec.queue.filter c.dmcWanted } }.set R.CMB_DMC_FLUSH_FLUSH_BUSY (bit (!es.isEmpty))

/-- DECODE_WAY_WAIT_END (R79): a miss that waited takes a way that is no longer pinned, or joins its key's entry. Which waiter takes the way
comes with the event, and its key stands last in the inverter's order from then on (DESIGN CHOICE, notes/assumptions/112.md). -/
def decodeWayWaitEnd (slot : Nat) (c : Ctl) : Ctl :=
  match c.dec.wants.find? fun w => decide (w.1 = slot) with
  | none => c
  | some w =>
    if c.dec.wayWait.contains slot then
      let c1 := { c with dec.wayWait := c.dec.wayWait.filter fun s => decide (s ≠ slot) }
      if (c1.dmcEntry w.2).isSome then c1
      else if c.dmcFree (dmcSet w.2) then c1.dmcTake w.2 else c
    else c

def execDecodeWayWaitEnd (slot : Nat) (s : State) : Host.Outcome State Fault Refusal :=
  .next (s.mapCtl (decodeWayWaitEnd slot))

/-- The rows an entry holds: the recovery row of every unavailable fragment (R78). -/
def entryRows (key : List Nat) : List (List Nat) :=
  (maskList (key.getD 1 0) (spN (key.getD 0 0))).map fun f => (recoveryRow (key.getD 0 0) (key.getD 1 0) f).getD []

/-- INVERTER_FILL_DONE (R80, R81): the first queued key is stored when its check passed; a failed check is a comb-engine
fault and computes it again, and a second one ends the jobs that wait on it. The slot in the fault's INFO is the earliest waiting job's, 0 when
none waits (DESIGN CHOICE, notes/assumptions/113.md). -/
def inverterFillDone (ok : Bool) (c : Ctl) : Ctl :=
  if c.domainOpen 8 = false then c else
  match c.dec.queue with
  | [] => c
  | key :: t =>
    if ok then
      { c with dec := { c.dec with
        queue := t
        entries := c.dec.entries.map fun (e : DmcEntry) =>
          if e.key = key then { e with rows := some (entryRows key), failed := false } else e } }
    else
      let slots := (c.dec.wants.filter fun w => decide (w.2 = key)).map Prod.fst
      let twice := match c.dmcEntry key with
        | some e => e.failed
        | none => true
      let c1 := c.bump R.CMB_INV_FAIL_CNT_FAILS
      let c2 := if twice then
          { c1 with
            dec := { c1.dec with entries := c1.dec.entries.filter (fun e => decide (e.key ≠ key)), queue := t }
            job.jobs := c1.job.jobs.map fun (j : Job) =>
              if slots.contains j.slot ∧ j.stop = none then { j with stop := some stEngineFault } else j }
        else { c1 with dec.entries := c1.dec.entries.map fun (e : DmcEntry) =>
          if e.key = key then { e with failed := true } else e }
      c2.judgeFlush.fault 564 (slots.getLast?.getD 0)

def execInverterFillDone (ok : Bool) (s : State) : Host.Outcome State Fault Refusal :=
  .next (s.mapCtl (inverterFillDone ok))

/-- The SRAM of a job's entry shows an uncorrectable error (R81): the entry is discarded with source 565, and the lookup is a miss, which is
computed again. The lookup's hit stays counted, and the miss counts once, however many jobs wait for the key (DESIGN CHOICE,
notes/assumptions/128.md). -/
def Ctl.dmcDamaged (c : Ctl) (slot : Nat) : Option Ctl :=
  match c.dec.wants.find? fun w => decide (w.1 = slot) with
  | none => none
  | some w =>
    let c1 := { c with dec.entries := c.dec.entries.filter fun e => decide (e.key ≠ w.2) }
    some (((c1.bump R.CMB_DMC_MISS_CNT_MISSES).dmcTake w.2).judgeFlush.fault 565 slot)

/-! ## Ending a job -/

/-- LATE (R229): the platform time exceeds the deadline. -/
def Ctl.lateNow (c : Ctl) (j : Job) : Bool := match j.deadline with
  | some d => decide (d < c.now)
  | none => false

/-- A late job counts once in its class (R229). -/
def Ctl.countLate (c : Ctl) (j : Job) : Ctl :=
  if c.lateNow j then c.bump (R.QOS_LATE_JOB_CNT_JOBS j.cls) else c

/-- Finished OCS jobs of a head not yet reported: handle and completion. -/
def Ctl.done (c : Ctl) : Head → List (Nat × Bytes)
  | .a => c.job.doneA
  | .b => c.job.doneB

def Ctl.setDone (c : Ctl) (h : Head) (l : List (Nat × Bytes)) : Ctl := match h with
  | .a => { c with job.doneA := l }
  | .b => { c with job.doneB := l }

/-- The opcode of JOB_SUBMIT and JOB_ABORT. -/
def opJobSubmit : Nat := 0xC100
def opJobAbort : Nat := 0xC102

/-- An OCS job has ended (R121): its slot is free; its completion goes to the JOB_SUBMIT that waits for it, or is kept
for JOB_QUERY with a BACKGROUND_COMPLETE event; a handle voided by a Keeper restart discards it (R289). -/
def Ctl.deliver (c : Ctl) (j : Job) : Ctl :=
  let c1 := c.dropJob j.slot
  match j.handle with
  | none => c1
  | some n =>
    let bytes := j.completion j.late false
    match (c1.hd j.owner).mbox.pend with
    | some p =>
      if p.op = opJobSubmit ∧ p.wait = .job ∧ p.aux % 2 ^ 32 = n then
        c1.finish j.owner p.op .ok (toLE 4 n ++ toLE 4 0 ++ bytes)
      else (c1.setDone j.owner ((n, bytes) :: c1.done j.owner)).event j.owner logInfo kindVendor 0x0302 j.owner.num n 0
    | none => (c1.setDone j.owner ((n, bytes) :: c1.done j.owner)).event j.owner logInfo kindVendor 0x0302 j.owner.num n 0

/-- A JOB_ABORT whose last job has stopped returns OK (R295). -/
def Ctl.abortDone (c : Ctl) (h : Head) : Ctl :=
  match (c.hd h).mbox.pend with
  | some p =>
    if p.op = opJobAbort ∧ p.wait = .abort ∧
        (c.job.jobs.any fun j => decide (j.aborter = some h) && decide (j.phase ≠ .ended)) = false then
      c.finish h p.op .ok []
    else c
  | none => c

/-- RESULT0 of a job that ends (R99, R401): the bytes that a stripe operation wrote, but for VERIFY, and the lines that the pass of a SCRUB
stopped under way has read; neither with DMA_ERROR. -/
def Ctl.endResult (c : Ctl) (j : Job) (st : Nat) : Nat :=
  if st = stDmaError then j.result0
  else if j.isStripe ∧ j.op ≠ opVerify then j.wrote
  else if j.op = opScrub then (match c.frg.passes.find? fun p => decide (p.slot = some j.slot) with
    | some p => p.linesRead
    | none => j.result0)
  else j.result0

/-- The line that set the status, as the completion reports it (R115): with a status that no line sets, none. -/
def Job.settleErr (j : Job) (st : Nat) : Job :=
  if [stMismatch, stOutputPoisoned, stInputPoisoned, stPartition, stSealDenied, stDmaError].contains st then j
  else { j with errFrag := 0xFFFF, errOffset := 0 }

/-- A job ends with a status (R118): its reserved contexts, comb cells, requests and Forager pass are given up; a ring
job, and every job of a fenced head (R249), keeps its slot for its completion. An OCS job is late or not as it ends (R229). -/
def Ctl.endJob (c : Ctl) (j : Job) (st : Nat) : Ctl :=
  let j1 := { (j.settleErr st) with
    status := st, result0 := c.endResult j st, phase := .ended, toRead := [], stop := none, outBuf := [], packBuf := [], ingested := []
    late := j.ocs && c.lateNow j, held := if c.fenced j.owner then some j.owner else j.held }
  let c0 := if j.ocs then c.countLate j else c
  let c1 := (c0.unreserve j.slot).endCells j.slot
  let c2 := { c1 with
    job.dma := c1.job.dma.filter fun d => decide (d.slot ≠ j.slot)
    frg.passes := c1.frg.passes.filter fun p => decide (p.slot ≠ some j.slot)
    stx.waiters := c1.stx.waiters.filter fun x => decide (x ≠ j.slot) }
  let c3 := if j.ocs && !c.fenced j.owner then c2.deliver j1 else c2.putJob j1
  match j.aborter with
  | some h => c3.abortDone h
  | none => c3

/-- A line that set the status: fragment and offset. -/
def Job.at (j : Job) (frag off : Nat) : Job := { j with errFrag := frag, errOffset := off }

/-- An abort reaches a job (R116): one that has not started ends without access, a running one stops at its next line
boundary. -/
def Ctl.abortJob (c : Ctl) (j : Job) (st : Nat) : Ctl :=
  match j.phase with
  | .ended => c
  | .running => if j.stop.isSome then c else c.putJob { j with stop := some st }
  | _ => c.endJob j st

/-- The stack requests that a job makes next are admitted: a class with LIMIT 0 waits (R230, R124). A job that waits for its fragment list
asks for that list alone. -/
def Ctl.classAdmits (c : Ctl) (j : Job) : Bool :=
  (if j.phase = .listWait then decide (j.srcSpace ≠ 0) else j.ranges.isEmpty) || decide (c.get (R.QOS_CLASS_CFG_LIMIT j.cls) ≠ 0)

/-! ## Requests on the link (R110) -/

/-- Non-posted requests outstanding: reads of jobs and of descriptors. -/
def Ctl.npOutstanding (c : Ctl) : Nat := (c.job.dma.filter fun d => !d.write).length + c.job.fetches.length

/-- Pieces of [off, off + n) of at most `size` bytes. -/
def pieces (size : Nat) : Nat → Nat → Nat → List (Nat × Nat)
  | 0, _, _ => []
  | fuel + 1, off, n => if n = 0 then [] else (off, min size n) :: pieces size fuel (off + size) (n - size)

/-- Lists taken in turn: all first elements, then all second ones, and so on. -/
def interleave {α : Type} (n : Nat) (ls : List (List α)) : List α :=
  (List.range n).flatMap fun k => ls.filterMap fun l => l[k]?

/-- The reads of one link range. -/
def readPieces (use : DmaUse) (size frag addr off n : Nat) : List ReadReq :=
  (pieces size (n / size + 1) off n).map fun p => ⟨use, frag, p.1, addr + p.1, p.2⟩

/-- Largest read and write on a head's link (R110). -/
def Ctl.readSize (c : Ctl) (h : Head) : Nat := min 4096 (max 128 (c.hd h).mrrs)
def Ctl.writeSize (c : Ctl) (h : Head) : Nat := min 512 (max 128 (c.hd h).mps)

/-- The link reads of a job that starts, earlier offsets first. -/
def Ctl.readPlan (c : Ctl) (j : Job) : List ReadReq :=
  let size := c.readSize j.owner
  let buf := fun (use : DmaUse) (space addr n : Nat) => if space = 1 then readPieces use size 0xFFFE addr 0 n else []
  if j.isStripe then
    let (lo, hi) := j.spanA
    let fr := (j.readSet.eraseDups.filter fun i => decide ((j.fragA i).space = 1)).map fun i =>
      readPieces .data size i (j.fragA i).addr lo (hi - lo)
    let aux := if j.op = opUpdate then buf .data j.auxSpace j.aux j.length else []
    interleave ((hi - lo) / size + 1) (fr ++ [aux])
  else if j.op = opHash then
    buf .data j.srcSpace j.src j.length ++ (if j.fCmp ∧ j.opt % 4 = 2 then buf .digest j.auxSpace j.aux 32 else [])
  else if j.op = opCopy then buf .data j.srcSpace j.src j.length
  else []

/-- The stack lines that the data of a link read are bound for (R159; DEDUCED, notes/assumptions/40.md): those of a COPY into the stack, and
of the new data of an UPDATE whose data fragment lies there. -/
def Ctl.stackLines (c : Ctl) (j : Job) (use : DmaUse) (off len : Nat) : List Nat :=
  if len = 0 then []
  else if j.op = opCopy ∧ j.dstSpace = 0 then
    (List.range ((j.dst + off + len - 1) / 64 - (j.dst + off) / 64 + 1)).map fun i => (j.dst + off) / 64 + i
  else if j.op = opUpdate ∧ use = .data ∧ (j.fragA j.updIndex).space = 0 then
    (List.range ((len + 63) / 64)).map fun i => c.fragByte (j.fragA j.updIndex) (j.offset + off + 64 * i) / 64
  else []

/-- The stack lines that a read of a job brings data for: of an UPDATE, none with a fragment's old bytes. -/
def Ctl.readLines (c : Ctl) (j : Job) (use : DmaUse) (frag off len : Nat) : List Nat :=
  if frag = 0xFFFE then c.stackLines j use off len else []

/-- A job may issue its next link read: one that brings data for the stack not while the ingest buffer is full (R159). -/
def Ctl.mayRead (c : Ctl) (j : Job) : Bool :=
  j.stop.isNone && c.linkReady j.owner && !c.fenced j.owner && match j.toRead with
    | [] => false
    | r :: _ => !c.ingestFull || (c.readLines j r.use r.frag r.offset r.len).isEmpty

/-- Reads issued while fewer than 4,096 non-posted requests are outstanding, in class order, then by arrival (R110,
R226). -/
def Ctl.issueReads : Nat → Ctl → Ctl
  | 0, c => c
  | n + 1, c =>
    if 4096 ≤ c.npOutstanding then c else
    match minBy (fun j => j.cls * 2 ^ 100 + j.readSeq) (c.job.jobs.filter c.mayRead) with
    | none => c
    | some j => match j.toRead with
      | [] => c
      | r :: t =>
        let tag := c.job.tag
        let c1 := c.putJob { j with toRead := t }
        let c2 := { c1 with job := { c1.job with
          tag := tag + 1, dma := c1.job.dma ++ [DmaReq.mk tag j.owner j.slot r.addr r.len false r.use r.frag r.offset] } }
        Ctl.issueReads n (c2.emit (.dmaRead j.owner tag r.addr r.len))

/-- Every read that may be issued now. -/
def Ctl.pump (c : Ctl) : Ctl := Ctl.issueReads 4096 c

/-- A write issued on the link for a job (R110, R111). -/
def Ctl.dmaWrite (c : Ctl) (j : Job) (frag offset addr : Nat) (poison : Bool) (data : Bytes) : Ctl :=
  let tag := c.job.tag
  { c with job := { c.job with
    tag := tag + 1, dma := c.job.dma ++ [DmaReq.mk tag j.owner j.slot addr data.length true .data frag offset] } }.emit
    (.dmaWrite j.owner tag addr poison j.fNs (c.hd j.owner).relaxed data)

/-- A job's requests outstanding of one kind. -/
def Ctl.jobDma (c : Ctl) (slot : Nat) (write : Bool) : List DmaReq :=
  c.job.dma.filter fun d => decide (d.slot = slot) && decide (d.write = write)

/-- A link request ends its job with DMA_ERROR (R111, R401): the line reported is the first of the earliest-issued
request of that kind, and RESULT0 the bytes acknowledged. -/
def Ctl.dmaStop (c : Ctl) (slot : Nat) (write : Bool) : Ctl :=
  match c.jobAt slot with
  | none => c
  | some j =>
    let j1 := match minBy (fun (d : DmaReq) => d.tag) (c.jobDma slot write) with
      | some d => j.at d.frag d.offset
      | none => j
    let j2 := { j1 with result0 := j.acked, result1 := 0, toRead := [], stop := some stDmaError }
    let c1 := { c with job.dma := c.job.dma.filter fun d => decide (d.slot ≠ slot) }
    if j.stop.isSome ∨ j.phase = .ended then c
    else if j.phase = .running then c1.putJob j2 else c1.endJob j2 stDmaError

/-- The data of a read as it is kept: whole, or line by line when some of its 64 B lines, counted from the first, came in
completions that carry EP. -/
def linkLines (a : Nat) (bad : List Nat) (data : Bytes) : List LinkLine :=
  if bad.isEmpty then [⟨a, false, data⟩]
  else (List.range ((a % 64 + data.length + 63) / 64)).map fun k =>
    let lo := max a (64 * (a / 64 + k))
    ⟨lo, bad.contains k, (data.drop (lo - a)).take (64 * (a / 64 + k) + 64 - lo)⟩

/-- The lines of a completion that are bound for the stack enter the ingest buffer under the job's class (R159, R225). -/
def Ctl.ingestPiece (c : Ctl) (j : Job) (d : DmaReq) : Ctl :=
  (c.readLines j d.use d.frag d.offset d.len).foldl (fun c ln => c.fillIngest ln j.cls) c

/-- DMA_READ_COMPLETION (R111): the data of a read arrives; `bad` are the lines whose completion carries EP, which are
poisoned inputs; a read of a fragment list that carries EP ends its job as one that failed does (R118, R401). -/
def dmaReadCompletion (tag : Nat) (data : Bytes) (bad : List Nat) (c : Ctl) : Ctl :=
  match c.job.dma.find? fun d => decide (d.tag = tag) && !d.write with
  | none => c
  | some d =>
    let c1 := { c with job.dma := c.job.dma.filter fun x => decide (x.tag ≠ tag) }
    let c2 := if d.use = .list ∧ bad ≠ [] then c.dmaStop d.slot false
      else match c1.jobAt d.slot with
      | some j => (c1.putJob { j with ingested := j.ingested ++ linkLines d.addr bad (padTo d.len data) }).ingestPiece j d
      | none => c1
    let c3 := if bad ≠ [] then (c2.fault (590 + d.head.num) d.slot).aerOf d.head .ep else c2
    c3.pump

def execDmaReadCompletion (tag : Nat) (data : Bytes) (bad : List Nat) (s : State) : Host.Outcome State Fault Refusal :=
  .next (s.mapCtl (dmaReadCompletion tag data bad))

/-- DMA_WRITE_ACK (R401): an Ack covers the write and every earlier one of its head. -/
def dmaWriteAck (tag : Nat) (c : Ctl) : Ctl :=
  match c.job.dma.find? fun d => decide (d.tag = tag) && d.write with
  | none => c
  | some d =>
    let covered := c.job.dma.filter fun x => x.write && decide (x.head = d.head) && decide (x.tag ≤ tag)
    let c1 := covered.foldl (fun c x => match c.jobAt x.slot with
      | some j => c.putJob { j with acked := j.acked + x.len }
      | none => c) c
    { c1 with job.dma := c1.job.dma.filter fun x => !(x.write && decide (x.head = d.head) && decide (x.tag ≤ tag)) }

def execDmaWriteAck (tag : Nat) (s : State) : Host.Outcome State Fault Refusal := .next (s.mapCtl (dmaWriteAck tag))

/-- A read of a job fails: a DMA fault, and the job ends with DMA_ERROR. -/
def readFails (tag src : Nat) (c : Ctl) : Ctl :=
  match c.job.dma.find? fun d => decide (d.tag = tag) && !d.write with
  | none => c
  | some d =>
    let c1 := c.dmaStop d.slot false
    (Ctl.fault { c1 with job.dma := c1.job.dma.filter fun x => decide (x.tag ≠ tag) } (src + d.head.num) d.slot).pump

/-- DMA_REQUEST_ERROR (R111): a read ends in Unsupported Request, or Completer Abort. -/
def execDmaRequestError (tag : Nat) (s : State) : Host.Outcome State Fault Refusal :=
  .next (s.mapCtl (readFails tag 592))

/-- DMA_COMPLETION_TIMEOUT (R111): a read times out, which the head reports as its own error (R266). -/
def execDmaCompletionTimeout (tag : Nat) (s : State) : Host.Outcome State Fault Refusal :=
  .next (s.mapCtl fun c => match c.job.dma.find? fun d => decide (d.tag = tag) && !d.write with
    | some d => (readFails tag 588 c).aerOf d.head .timeout
    | none => c)

/-- The requests of a head's jobs outstanding when its link goes down (R246): each ends its job with DMA_ERROR, by the
kind of the job's earliest one; descriptor reads outstanding are dropped, and their entries are fetched again. -/
def Ctl.failLink (c : Ctl) (h : Head) : Ctl :=
  let slots := ((c.job.dma.filter fun d => decide (d.head = h)).map fun d => d.slot).eraseDups
  let c1 := slots.foldl (fun c n =>
    match minBy (fun (d : DmaReq) => d.tag) (c.job.dma.filter fun d => decide (d.slot = n)) with
    | some d => c.dmaStop n d.write
    | none => c) c
  { c1 with job.fetches := c1.job.fetches.filter fun e => decide (c1.sqOwner e.1 ≠ h) }

/-! ## Judging a new job (step 1 of R118) -/

/-- A job whose link reads join the order of arrival (R226). -/
def Ctl.putReads (c : Ctl) (j : Job) : Ctl :=
  Ctl.putJob { c with job.readSeq := c.job.readSeq + 1 } { j with readSeq := c.job.readSeq }

/-- A new job in its slot: refused by its own fields, waiting for its fragment list, or ready. -/
def Ctl.judgeNew (c : Ctl) (j : Job) : Ctl :=
  let c1 := ({ c with job := { c.job with jobs := c.job.jobs ++ [j], seq := c.job.seq + 1 } }).judgePause
  if c1.descBad j then c1.endJob j stInvalid
  else if j.hasList then
    (c1.putReads { j with
      phase := .listWait
      toRead := if j.srcSpace = 1 then readPieces .list (c.readSize j.owner) 0xFFFE j.src 0 (16 * j.listCount) else [] }).pump
  else c1

/-- A list's entries break R98 or R117. With a context the list holds the fragments of code B alone. -/
def Ctl.listBad (c : Ctl) (j : Job) : Bool :=
  if j.fCtx then (List.range (spN j.specB)).any fun i =>
    c.fragBad (j.frags.getD i ⟨0, 0⟩) 0 (if (maskList j.outMask (spN j.specB)).contains i then j.fragLenB else 0)
  else c.fragsBad j

/-- A job's list has been read: its entries are judged, and the job is ready to start; an adopted job that names the link
ends with FENCED (R253). -/
def Ctl.listRead (c : Ctl) (j : Job) (p : Bytes) : Ctl :=
  let j1 := { j with frags := parseList p j.listCount, phase := .ready, ingested := [] }
  if c.listBad j1 then c.endJob j1 stInvalid
  else if j1.adopted && j1.frags.any fun f => decide (f.space = 1) then c.endJob j1 stFenced
  else c.putJob j1

/-- Bytes gathered from what has arrived, each with its poison; none while some have not. Of link inputs of one job that overlap, a byte
comes from the read that arrived first, whichever fragment asked for it (R125; DESIGN CHOICE, notes/assumptions/111.md). -/
def gather (l : List LinkLine) : Nat → Nat → Nat → Option (List (Bool × BitVec 8))
  | 0, _, n => if n = 0 then some [] else none
  | fuel + 1, a, n =>
    if n = 0 then some [] else
    match l.find? fun x => decide (x.addr ≤ a) && decide (a < x.addr + x.data.length) with
    | none => none
    | some x =>
      let part := ((x.data.drop (a - x.addr)).take n).map fun b => (x.poison, b)
      (gather l fuel (a + part.length) (n - part.length)).map fun t => part ++ t

/-- Lines of the stack from line `ln` on as a job reads them, after the partial writes that wait for them (R113, R174): bytes with their
poison, and the CAUSE bits met. -/
def State.readLines (source : Nat) : Nat → Nat → State → List (Bool × BitVec 8) × Nat × State
  | 0, _, s => ([], 0, s)
  | n + 1, ln, s =>
    let (r, s1) := (s.mergesOf (ln * 64)).readChecked (ln * 64) source
    let (t, k, s2) := State.readLines source n (ln + 1) s1
    (r.data.map (fun b => (r.poison, b)) ++ t, r.cause ||| k, s2)

/-- A span of stack bytes as a job reads it. -/
def State.readSpan (s : State) (sa n source : Nat) : List (Bool × BitVec 8) × Nat × State :=
  if n = 0 then ([], 0, s) else
  let (l, k, s1) := State.readLines source ((sa + n - 1) / 64 - sa / 64 + 1) (sa / 64) s
  ((l.drop (sa % 64)).take n, k, s1)

/-- The first offset at which bytes carry poison: where the first poisoned line starts in them. -/
def poisonAt (l : List (Bool × BitVec 8)) : Option Nat := l.findIdx? fun b => b.1

/-- The first stack address of some ranges that a test refuses: its range and address. -/
def Ctl.rangeRefused (c : Ctl) (l : List Range) (refused : Range → Nat → Bool) : Option (Range × Nat) :=
  l.findSome? fun r => (c.firstRefused r (refused r)).map fun sa => (r, sa)

/-- Step 4 of R118: a range outside the owner's partitions (R61), then one that its seal denies (R194, R200). -/
def Ctl.judgeSpans (c : Ctl) (j : Job) (l : List Range) : Option (Nat × Range × Nat) :=
  match c.rangeRefused l fun _ sa => !c.mayReach j.owner sa with
  | some x => some (stPartition, x.1, x.2)
  | none => (c.rangeRefused l fun r sa => c.sealDenies j.keyHandle r.scrub sa).map fun x => (stSealDenied, x.1, x.2)
def Ctl.judgeRanges (c : Ctl) (j : Job) : Option (Nat × Range × Nat) := c.judgeSpans j j.ranges

/-- The fault a refusal at step 4 raises: a partition violation of the head, or a denied seal. -/
def Ctl.refusalFault (c : Ctl) (h : Head) (st sa : Nat) : Ctl :=
  if st = stPartition then c.fault (576 + h.num) (sa / 64) (.only h) else c.lineFault 551 sa

/-- A line of the stack is held by the re-encryption of its page (R206) or by a move of its row (R184, R185). -/
def Ctl.lineHeld (c : Ctl) (write : Bool) (sa : Nat) : Bool := c.pageBusy sa || c.sealGated sa || c.mergeHeld sa || c.moveHolds write sa

/-- The stack lines of a span. -/
def spanLines (sa n : Nat) : List Nat := if n = 0 then [] else (List.range ((sa + n - 1) / 64 - sa / 64 + 1)).map fun i => (sa / 64 + i) * 64

/-- FRAGMENT_LIST_FETCHED (R97, R118): the list of a waiting job has been read, from the stack or by its link reads,
all of which have completed; it waits while its class is blocked (R224, R230), and a list line of the stack that carries poison ends the
job with DMA_ERROR. A list in the stack that the owner may not reach, or that its seal denies, is not read: the job ends with the status of step 4
(R61; DEDUCED, notes/assumptions/120.md). FENCE does not hold the read back: it orders the start (R112; DESIGN CHOICE,
notes/assumptions/128.md). -/
def execFragmentListFetched (slot : Nat) (s : State) : Host.Outcome State Fault Refusal :=
  match s.ctl.jobAt slot with
  | none => .next s
  | some j =>
    if j.phase ≠ .listWait ∨ s.ctl.classAdmits j = false then .next s
    else if j.srcSpace = 0 ∧ (spanLines j.src (16 * j.listCount)).any (s.ctl.lineHeld false) = true then .next s
    else if j.srcSpace = 0 then
      match s.ctl.judgeSpans j (Job.bufRange j.srcSpace j.src (16 * j.listCount)) with
      | some (st, r, sa) => .next (s.mapCtl fun c => (c.refusalFault j.owner st sa).endJob (j.at r.errFrag (c.rangeOffset r sa)) st)
      | none =>
      let (l, _, s1) := s.readSpan j.src (16 * j.listCount) 2
      match poisonAt l with
      | some off => .next (s1.mapCtl fun c => c.endJob (j.at 0xFFFE off) stDmaError)
      | none => .next (s1.mapCtl fun c => c.listRead j (l.map Prod.snd))
    else match gather j.ingested (j.ingested.length + 1) j.src (16 * j.listCount) with
      | none => .next s
      | some l => .next (s.mapCtl fun c => c.listRead j (l.map Prod.snd))

/-! ## Starting a job (R112, R118) -/

/-- FENCE lets a job start (R112): every earlier job of its SQ has posted its completion, or every earlier OCS job of
its head has ended. -/
def Ctl.fenceClear (c : Ctl) (j : Job) : Bool :=
  !j.fFence || !c.job.jobs.any fun k => decide (k.seq < j.seq) && decide (k.ocs = j.ocs) &&
    (if j.ocs then decide (k.owner = j.owner) else decide (k.sq = j.sq))

/-- A job with its context's fragments, for judging what it touches. -/
def Ctl.asTouching (c : Ctl) (j : Job) : Job :=
  if j.fCtx then (match c.jobCtx j with
    | some m => c.withCtx j m
    | none => j)
  else j

/-- The entries of the context cache a job needs: its main entry and that entry's extension entries (R144). -/
def Ctl.ctxNeeds (c : Ctl) (j : Job) : List Nat := j.ctxIndex :: match c.jobCtx j with
  | some m => (c.ctxExts m).getD []
  | none => []

/-- A hold keeps a job from starting: one on its context or an extension entry of it (R151, R152), or one on a granule it touches
(R221). -/
def Ctl.heldBackJob (c : Ctl) (j : Job) : Bool :=
  (j.fCtx && c.stx.heldCtx.any fun e => (c.ctxNeeds j).contains e.1) ||
    (!c.sea.holdGran.isEmpty && c.sea.holdGran.any fun e => c.jobTouches (c.asTouching j) e.1)

/-- A job may start. -/
def Ctl.mayStart (c : Ctl) (j : Job) : Bool :=
  decide (j.phase = .ready) && !c.fenced j.owner && !c.job.stopped && c.admits && c.fenceClear j && !c.heldBackJob j

/-- The decode of a job needs an entry of the decode-matrix cache (R78). -/
def Job.decodes (j : Job) : Bool :=
  (decide (j.op = opReconstruct) || decide (j.op = opTranscode)) && needsEntry j.code j.emask

/-- A SCRUB job hands its range to the Forager (R107). -/
def Job.pass (j : Job) : Pass := { slot := some j.slot, head := j.owner, bus := 0, pos := j.src, stop := j.src + j.length }

/-- Steps 4 and 5 of R118, and the start: the job's mode is chosen, its decode entry looked up and its link reads
issued. -/
def Ctl.startJob (c : Ctl) (j : Job) : Ctl :=
  match c.judgeRanges j with
  | some (st, r, sa) => (c.refusalFault j.owner st sa).endJob (j.at r.errFrag (c.rangeOffset r sa)) st
  | none =>
    if (j.op = opReconstruct ∨ j.op = opTranscode) ∧ recoverable j.code j.emask = false then c.endJob j stUnrecoverable
    else
      let c1 := c.putReads { j with phase := .running, mode := c.chooseMode j, toRead := c.readPlan j }
      let c2 := if j.op = opScrub then { c1 with frg.passes := c1.frg.passes ++ [j.pass] }
        else if j.decodes then c1.dmcLookup j.slot (dmcKey j.code j.emask) else c1
      c2.pump

/-- Entries pinned in their ways, filling a way for each that misses; none when a set has no unpinned way. -/
def Ctl.takeWays (slot : Nat) : List Nat → Ctl → Option Ctl
  | [], c => some c
  | x :: t, c =>
    if c.stx.cache.contains x then Ctl.takeWays slot t ((c.ctxTouch x).pinCtx slot x)
    else if c.wayFree x then Ctl.takeWays slot t ((c.fillWay x).pinCtx slot x)
    else none

/-- Step 3 of R118: the context admits the job, which then starts, or ends it. -/
def Ctl.admitStart (c : Ctl) (j : Job) : Ctl :=
  match c.admitCtx j with
  | .inl st => c.endJob j st
  | .inr (j1, c1) => c1.startJob j1

/-- The context lookup of a job (R143, R144): a hit goes on, a miss waits for its line, and a miss without a way waits
for one and is counted. A LIST context is one lookup, and a hit only with its main entry and every extension entry cached (DESIGN CHOICE,
notes/assumptions/142.md). -/
def Ctl.lookupCtx (c : Ctl) (j : Job) : Ctl :=
  let needs := c.ctxNeeds j
  if needs.all fun x => c.stx.cache.contains x then
    (needs.foldl (fun c x => (c.ctxTouch x).pinCtx j.slot x) (c.bump R.STX_HIT_CNT_COUNT)).admitStart j
  else
    let c1 := (c.bump R.STX_MISS_CNT_COUNT).putJob { j with phase := .ctxWait }
    match Ctl.takeWays j.slot needs c1 with
    | some c2 => c2
    | none => { c1 with stx.waiters := c1.stx.waiters ++ [j.slot] }.bump R.STX_WAIT_CNT_WAITS

/-- The first-ranked job that may start (R112, R228). -/
def Ctl.nextJob (c : Ctl) : Option Job := minBy Job.rank (c.job.jobs.filter c.mayStart)

/-- The SRAM of a cached entry shows an uncorrectable error (R147): a clean entry is discarded, to be read again from the stack; a dirty one
is written back mired, its context is LOST, and source 572 is raised. The record of its line is that of a poisoned write (DESIGN CHOICE,
notes/assumptions/119.md). -/
def State.ctxDamaged (s : State) (x : Nat) : State :=
  let drop := fun c : Ctl => { c with stx.cache := c.stx.cache.filter fun y => decide (y ≠ x) }
  if !s.ctl.stx.cache.contains x then s
  else if s.ctl.stx.dirty.contains x then
    (s.mire (s.ctl.ctxAddr x) 5 2).mapCtl fun c => ((drop c).loseCtx x).fault 572 x
  else s.mapCtl drop

/-- JOB_DISPATCH (R112, R118, R228): the first-ranked job that may start does: a NOP or a length of 0 completes at once,
but for SCRUB; a job with a context looks it up; every other job is judged and started. -/
def jobDispatch (c : Ctl) : Ctl :=
  match c.nextJob with
  | none => c
  | some j =>
    if j.op = opNop ∨ (j.length = 0 ∧ j.op ≠ opScrub) then c.endJob j stOk
    else if j.fCtx then c.lookupCtx j
    else c.startJob j

/-- JOB_DISPATCH: `bad` is a cached entry whose SRAM shows an uncorrectable error by then, main or extension, whichever lookup meets it
(R147; DESIGN CHOICE, notes/assumptions/128.md). -/
def execJobDispatch (bad : Option Nat) (s : State) : Host.Outcome State Fault Refusal :=
  .next ((match bad with
    | some x => s.ctxDamaged x
    | none => s).mapCtl jobDispatch)

/-- CTX_LINE_FETCHED (R143): the line of a missed context arrives, and the job is admitted; a job of a head fenced
meanwhile stays unstarted (R119), and one of a blocked class (R224, R230) or met by a stop of the dispatch (R375) waits. -/
def ctxLineFetched (slot : Nat) (c : Ctl) : Ctl :=
  match c.jobAt slot with
  | none => c
  | some j =>
    if j.phase ≠ .ctxWait ∨ c.stx.waiters.contains slot ∨ c.job.stopped = true ∨
        c.get (R.QOS_CLASS_CFG_LIMIT j.cls) = 0 then c
    else if c.fenced j.owner then
      { c.putJob { j with phase := .ready } with stx.pins := c.stx.pins.filter fun p => decide (p.1 ≠ slot) }
    else c.admitStart j

def execCtxLineFetched (slot : Nat) (s : State) : Host.Outcome State Fault Refusal :=
  .next (s.mapCtl (ctxLineFetched slot))

/-- CTX_WAY_WAIT_END (R144): a context miss that waited takes its ways once a way of each set is unpinned. -/
def ctxWayWaitEnd (slot : Nat) (c : Ctl) : Ctl :=
  match c.jobAt slot with
  | none => c
  | some j =>
    if c.stx.waiters.contains slot then
      match Ctl.takeWays slot (c.ctxNeeds j) c with
      | some c1 => { c1 with stx.waiters := c1.stx.waiters.filter fun x => decide (x ≠ slot) }
      | none => c
    else c

def execCtxWayWaitEnd (slot : Nat) (s : State) : Host.Outcome State Fault Refusal :=
  .next (s.mapCtl (ctxWayWaitEnd slot))

end Sys2Proof.Machine
end

