-- ==== Sys2Proof/Machine/Comb.lean ====
section
/-! DEFINITION. What jobs compute (R99 to R109): the multiply-accumulate passes of the stripe operations, one 64-byte line
position at a time, the whole-buffer operations, the check values and contexts they change, and their end. -/

namespace Sys2Proof.Machine

/-! ## Output lines as sums of input lines -/

/-- Where an input line comes from: a fragment of code A, or the new data of UPDATE. -/
inductive Src where
  | frag (i : Nat)
  | aux
  deriving DecidableEq, Repr

/-- One term of an output line: a coefficient, and the input line at a byte offset of its source. -/
structure Term where
  coef : Nat
  src : Src
  off : Nat
  deriving DecidableEq, Repr

/-- A term added to a sum, joined with the term of the same input line. -/
def addTerm : List Term → Term → List Term
  | [], t => [t]
  | x :: l, t => if x.src = t.src ∧ x.off = t.off then { x with coef := gfAdd x.coef t.coef } :: l else x :: addTerm l t

/-- A sum with one term per input line, those of coefficient 0 gone: the lines an output depends on (R67). -/
def sumTerms (l : List Term) : List Term := (l.foldl addTerm []).filter fun t => decide (t.coef ≠ 0)

/-- A sum scaled. -/
def scaleTerms (k : Nat) (l : List Term) : List Term := l.map fun t => { t with coef := gfMul k t.coef }

/-- The recovery row of a code-A fragment at an offset (R74). -/
def Job.rowTerms (j : Job) (f off : Nat) : List Term :=
  let r := (recoveryRow j.code j.emask f).getD []
  (List.range r.length).map fun i => ⟨r.getD i 0, .frag i, off⟩

/-- A line of the data stream of TRANSCODE (R77). -/
def Job.streamTerms (j : Job) (off : Nat) : List Term := j.rowTerms (off / j.flen) (off % j.flen)

/-- The terms of output fragment `o` at byte offset `t` (R71, R74, R76, R77). -/
def Job.outTerms (j : Job) (o t : Nat) : List Term :=
  if j.op = opEncode then sumTerms ((List.range (spK j.code)).map fun i => ⟨genCoef j.code o i, .frag i, t⟩)
  else if j.op = opReconstruct then sumTerms (j.rowTerms o t)
  else if j.op = opUpdate then
    (if o = j.updIndex then [⟨1, .aux, t - j.offset⟩]
     else
       let e := genCoef j.code o j.updIndex
       sumTerms [⟨1, .frag o, t⟩, ⟨e, .frag j.updIndex, t⟩, ⟨e, .aux, t - j.offset⟩])
  else if o < spK j.specB then sumTerms (j.streamTerms (o * j.fragLenB + t))
  else sumTerms ((List.range (spK j.specB)).flatMap fun i =>
    scaleTerms (genCoef j.specB o i) (j.streamTerms (i * j.fragLenB + t)))

/-- The output fragments of a job, ascending, with the data fragment of UPDATE first. -/
def Job.outputs (j : Job) : List Nat :=
  if j.op = opVerify then []
  else if j.op = opUpdate then j.updIndex :: maskList j.outMask (spN j.code)
  else if j.op = opTranscode then maskList j.outMask (spN j.specB)
  else maskList j.outMask (spN j.code)

/-- Line positions of a job. -/
def Job.lines (j : Job) : Nat := (if j.op = opTranscode then j.fragLenB else j.length) / 64

/-- Byte offset of the next line position in its fragments. -/
def Job.nextOff (j : Job) : Nat := (if j.op = opTranscode then 0 else j.offset) + 64 * j.pos

/-- The input lines of the next pass. ENCODE reads every data line (R99), UPDATE its old one even where no parity depends on it (R103). -/
def Job.passInputs (j : Job) : List (Src × Nat) :=
  if j.op = opVerify then
    ((List.range (spN j.code)).filter fun i => !gone j.emask i).map fun i => (Src.frag i, j.nextOff)
  else
    ((if j.op = opUpdate then [(Src.frag j.updIndex, j.nextOff)]
      else if j.op = opEncode then (List.range (spK j.code)).map fun i => (Src.frag i, j.nextOff) else []) ++
      j.outputs.flatMap fun o => (j.outTerms o j.nextOff).map fun (t : Term) => (t.src, t.off)).eraseDups

/-- Space and address of an input line. -/
def Ctl.inputAt (c : Ctl) (j : Job) (k : Src × Nat) : Nat × Nat := match k.1 with
  | .frag i => ((j.fragA i).space, c.fragByte (j.fragA i) k.2)
  | .aux => (j.auxSpace, j.aux + k.2)

/-- ERR_FRAG of an input. -/
def Src.errFrag : Src → Nat
  | .frag i => i
  | .aux => 0xFFFE

/-- An input line is at hand: in the stack, or arrived from the link. -/
def Ctl.inputHere (c : Ctl) (j : Job) (k : Src × Nat) : Bool :=
  decide ((c.inputAt j k).1 = 0) || (gather j.ingested (j.ingested.length + 1) (c.inputAt j k).2 64).isSome

/-- An input line as it was read. -/
structure InLine where
  src : Src
  off : Nat
  poison : Bool
  cause : Nat
  data : Bytes
  deriving DecidableEq, Repr

/-- An input line read: from the link what arrived, with CAUSE bit 3 for poison; from the stack through the checks. -/
def State.readInput (s : State) (j : Job) (k : Src × Nat) : InLine × State :=
  let (space, a) := s.ctl.inputAt j k
  if space = 0 then
    let (l, cause, s1) := s.readSpan a 64 2
    (⟨k.1, k.2, l.any fun b => b.1, cause, l.map Prod.snd⟩, s1)
  else
    let l := (gather j.ingested (j.ingested.length + 1) a 64).getD []
    let p := l.any fun b => b.1
    (⟨k.1, k.2, p, if p then 8 else 0, l.map Prod.snd⟩, s)

/-- Input lines read one after the other. -/
def State.readInputs (j : Job) : List (Src × Nat) → State → List InLine × State
  | [], s => ([], s)
  | k :: t, s =>
    let (x, s1) := s.readInput j k
    let (l, s2) := State.readInputs j t s1
    (x :: l, s2)

/-- The line that a term names. -/
def lineOf (l : List InLine) (src : Src) (off : Nat) : InLine :=
  (l.find? fun x => decide (x.src = src) && decide (x.off = off)).getD ⟨src, off, false, 0, []⟩

/-- One output line: poison and CAUSE bits of the poisoned lines it depends on, and its bytes (R66, R67). -/
def outLine (l : List InLine) (terms : List Term) : Bool × Nat × Bytes :=
  let bad := terms.filter fun t => (lineOf l t.src t.off).poison
  if bad.isEmpty then
    (false, 0, (List.range 64).map fun i => BitVec.ofNat 8
      (terms.foldl (fun a t => gfAdd a (gfMul t.coef ((lineOf l t.src t.off).data.getD i 0).toNat)) 0))
  else (true, bad.foldl (fun a t => a ||| (lineOf l t.src t.off).cause) 0, List.replicate 64 0)

/-! ## Writing outputs -/

/-- A job's record changed. -/
def Ctl.modJob (c : Ctl) (slot : Nat) (f : Job → Job) : Ctl :=
  { c with job.jobs := c.job.jobs.map fun (j : Job) => if j.slot = slot then f j else j }

/-- A line of output that carries poison, or that its granule did not take, counts in POISON_LINES (R106, R194); the
first is the line that sets the status. -/
def Job.badLine (j : Job) (frag off : Nat) : Job :=
  { (if j.poisonLines = 0 ∧ j.status = 0 then j.at frag off else j) with poisonLines := j.poisonLines + 1 }

/-- Bytes of a job's output written, in the stack or as a write on the link (R99). -/
def Ctl.addWrote (c : Ctl) (slot n : Nat) : Ctl := c.modJob slot fun j => { j with wrote := j.wrote + n }

/-- The waiting output of one range sent as a write. -/
def Ctl.sendOut (c : Ctl) (slot rank : Nat) : Ctl :=
  match c.jobAt slot with
  | none => c
  | some j => match j.outBuf.find? fun b => decide (b.rank = rank) with
    | none => c
    | some b => ((c.modJob slot fun j => { j with outBuf := j.outBuf.filter fun x => decide (x.rank ≠ rank) }).addWrote slot
        b.data.length).dmaWrite j b.frag b.offset b.addr false b.data

/-- A piece of output for the link (R110, R111): poisoned, it goes at once in a write of its own with EP; else it joins
the range's waiting output, which is sent when it fills a write or the range ends. -/
def Ctl.linkOut (c : Ctl) (slot frag rank addr offset : Nat) (poison last : Bool) (data : Bytes) : Ctl :=
  match c.jobAt slot with
  | none => c
  | some j =>
    if poison then (((c.sendOut slot rank).addWrote slot data.length).dmaWrite j frag offset addr true data).modJob slot
      fun j => j.badLine frag offset
    else
      let c1 := c.modJob slot fun j => match j.outBuf.find? fun b => decide (b.rank = rank) with
        | some _ => { j with outBuf := j.outBuf.map fun (b : OutBuf) =>
            if b.rank = rank then { b with data := b.data ++ data } else b }
        | none => { j with outBuf := j.outBuf ++ [⟨frag, rank, addr, offset, data⟩] }
      let full := match (c1.jobAt slot).bind fun j => j.outBuf.find? fun b => decide (b.rank = rank) with
        | some b => decide (c.writeSize j.owner ≤ b.data.length)
        | none => false
      if full || last then c1.sendOut slot rank else c1

/-- A whole line of output for the stack, after the partial writes that wait for it (R174). -/
def State.stackOut (s : State) (slot frag off sa : Nat) (poison : Bool) (data : Bytes) : State :=
  let s0 := (s.mergesOf sa).mapCtl fun c => c.addWrote slot 64
  let (ok, s1) := if poison then s0.writePoisonLine sa 2 else s0.writeLine sa data
  if poison || !ok then s1.mapCtl fun c => c.modJob slot fun j => j.badLine frag off else s1

/-- Bytes of a span written line by line from address `sa` on: partial lines are merged (R106, R174); a line with any
poisoned byte becomes mired. A destination line that stays mired or is discarded sets no CAUSE bit: the spec names none
(DESIGN CHOICE, notes/assumptions/110.md). -/
def State.spanOut (slot frag : Nat) : Nat → Nat → Nat → List (Bool × BitVec 8) → State → State
  | 0, _, _, _, s => s
  | n + 1, sa, off, l, s =>
    if l.isEmpty then s else
    let room := 64 - sa % 64
    let part := l.take room
    let bad := part.any fun b => b.1
    let bytes := part.map Prod.snd
    let s0 := s.mergesOf sa
    let (ok, s1) := if bad then s0.writePoisonLine sa 2
      else if part.length = 64 then s0.writeLine sa bytes
      else s0.merge sa ((List.range part.length).map fun i => (sa % 64 + i, bytes.getD i 0))
    let s2 := if bad || !ok then s1.mapCtl fun c => c.modJob slot fun j => j.badLine frag off else s1
    State.spanOut slot frag n (sa + part.length) (off + part.length) (l.drop room) s2

/-- Bytes of a span sent on the link in pieces of a line. -/
def Ctl.spanLink (slot : Nat) : Nat → Nat → Nat → List (Bool × BitVec 8) → Ctl → Ctl
  | 0, _, _, _, c => c
  | n + 1, addr, off, l, c =>
    if l.isEmpty then c else
    let part := l.take 64
    Ctl.spanLink slot n (addr + 64) (off + 64) (l.drop 64)
      (c.linkOut slot 0xFFFE 0 addr off (part.any fun b => b.1) (decide (l.length ≤ 64)) (part.map Prod.snd))

/-- A partition violation met while a job runs (R118): ownership changed during the job. -/
def Ctl.violates (c : Ctl) (slot frag off sa : Nat) : Ctl :=
  match c.jobAt slot with
  | none => c
  | some j => (c.modJob slot fun j =>
      if j.stop.isSome then j else { j.at frag off with stop := some stPartition }).fault (576 + j.owner.num) (sa / 64)
      (.only j.owner)

/-- The first input or own-placement output line of the next pass that lies outside the owner's partitions. -/
def Ctl.passViolation (c : Ctl) (j : Job) : Option (Nat × Nat × Nat) :=
  let ins := j.passInputs.map fun k => (k.1.errFrag, k.2, c.inputAt j k)
  let outs := if j.fPacked then [] else j.outputs.map fun o =>
    let f := if j.op = opTranscode then j.fragB o else j.fragA o
    (o, j.nextOff, (f.space, c.fragByte f j.nextOff))
  ((ins ++ outs).find? fun x => decide (x.2.2.1 = 0) && !c.mayReachRange j.owner x.2.2.2 64).map fun x =>
    (x.1, x.2.1, x.2.2.2)

/-- One output line of a pass delivered (R98, R111). -/
def State.deliverLine (s : State) (j : Job) (o rank : Nat) (poison : Bool) (data : Bytes) : State :=
  let t := j.nextOff
  let last := decide (j.pos + 1 = j.lines)
  if j.fPacked then
    let off := rank * j.length + 64 * j.pos
    if j.dstSpace = 1 then s.mapCtl fun c => c.linkOut j.slot 0xFFFE rank (j.dst + off) off poison last data
    else s.mapCtl fun c => c.modJob j.slot fun j => { j with packBuf := j.packBuf ++ [⟨j.dst + off, poison, data⟩] }
  else
    let f := if j.op = opTranscode then j.fragB o else j.fragA o
    if f.space = 1 then s.mapCtl fun c => c.linkOut j.slot o o (f.addr + t) t poison last data
    else s.stackOut j.slot o t (s.ctl.fragByte f t) poison data

/-! ## Check values (R136 to R138) -/

/-- A running CRC register of a fragment taken on by a line. -/
def Job.crcLine (j : Job) (start f : Nat) (data : Bytes) : Job :=
  { j with crcs := mapPut j.crcs f (crcReg 0x82F63B78 ((mapGet j.crcs f).getD start) data) }

/-- The check value of a fragment whose every line has been taken (R136). -/
def Job.chkOf (j : Job) (f : Nat) : Nat := ((mapGet j.crcs f).getD 0xFFFFFFFF ^^^ 0xFFFFFFFF) % 256

/-- crc_raw of a delta stream of the fragment's length, zero after the job's range (R138). -/
def Job.deltaChk (j : Job) (f : Nat) : Nat :=
  crcBits 0x82F63B78 (8 * (j.flen - j.offset - j.length)) ((mapGet j.crcs f).getD 0) % 256

/-- XOR of two lines. -/
def xorBytes (a b : Bytes) : Bytes := List.zipWith (fun x y => x ^^^ y) a b

/-- What a pass adds to the running CRCs of a job with a context. -/
def Job.takeCrcs (j : Job) (l : List InLine) (outs : List (Nat × Bytes)) : Job :=
  if !j.fCtx then j
  else if j.op = opUpdate then
    let d := xorBytes (lineOf l (.frag j.updIndex) j.nextOff).data (lineOf l .aux (j.nextOff - j.offset)).data
    outs.foldl (fun j o =>
      (j.crcLine 0 o.1 (if o.1 = j.updIndex then d
        else d.map fun b => BitVec.ofNat 8 (gfMul (genCoef j.code o.1 j.updIndex) b.toNat))).crcLine 0xFFFFFFFF (64 + o.1) o.2) j
  else
    let ins := if j.op = opEncode ∨ j.op = opVerify then l.filterMap fun x => match x.src with
        | .frag i => some (i, x.data)
        | .aux => none
      else []
    (ins ++ outs).foldl (fun j x => j.crcLine 0xFFFFFFFF x.1 x.2) j

/-! ## VERIFY (R102, R139, R140) -/

/-- The parities VERIFY computes. -/
def Job.computed' (j : Job) : List Nat :=
  (List.range (spN j.code)).filter fun p => decide (spK j.code ≤ p) && !gone j.emask p

/-- The syndromes at byte `b` of a line: parity index and syndrome. -/
def Job.syndromes (j : Job) (l : List InLine) (b : Nat) : List (Nat × Nat) :=
  let byte := fun i => ((lineOf l (.frag i) j.nextOff).data.getD b 0).toNat
  j.computed'.map fun p =>
    (p, (List.range (spK j.code)).foldl (fun a i => gfAdd a (gfMul (genCoef j.code p i) (byte i))) (byte p))

/-- A data fragment fits the syndromes at an offset. -/
def dataFits (w : Nat) (syn : List (Nat × Nat)) (i : Nat) : Bool :=
  match syn.find? fun s => decide (genCoef w s.1 i ≠ 0) with
  | none => false
  | some s =>
    let e := gfMul s.2 (gfInv (genCoef w s.1 i))
    decide (e ≠ 0) && syn.all fun x => decide (x.2 = gfMul (genCoef w x.1 i) e)

/-- A parity fits: its own syndrome alone is not zero. -/
def parityFits (syn : List (Nat × Nat)) (p : Nat) : Bool :=
  syn.all fun x => decide ((x.1 = p) ↔ (x.2 ≠ 0))

/-- The fragments that fit at an offset. -/
def fits (w : Nat) (syn : List (Nat × Nat)) : List Nat :=
  ((List.range (spK w)).filter (dataFits w syn)) ++ (syn.map Prod.fst).filter (parityFits syn)

/-- One byte offset taken into the results of VERIFY. -/
def Job.verifyByte (j : Job) (syn : List (Nat × Nat)) : Job :=
  if syn.all fun s => decide (s.2 = 0) then j else
  let r0 := syn.foldl (fun a s => if s.2 = 0 then a else setBit a s.1) j.result0
  let low := ((syn.filter fun s => decide (s.2 ≠ 0)).map Prod.fst).head?.getD 0
  let j1 := if j.errFrag = 0xFFFF ∨ low < j.errFrag then j.at low j.nextOff else j
  let r1 := match fits j.code syn with
    | [f] => if 2 ≤ syn.length then setBit j.result1 f else setBit j.result1 63
    | _ => setBit j.result1 63
  { j1 with result0 := r0, result1 := r1, status := stMismatch }

/-- The pass of VERIFY over one line position: a poisoned input ends the job with INPUT_POISONED (R116), and CAUSE tells of every poisoned
line of the position (R115). -/
def Job.verifyLine (j : Job) (l : List InLine) : Job :=
  let bad := l.filter fun x => x.poison
  match bad with
  | x :: _ => { j.at x.src.errFrag j.nextOff with stop := some stInputPoisoned, cause := bad.foldl (fun a y => a ||| y.cause) j.cause }
  | [] => (List.range 64).foldl (fun j b => j.verifyByte (j.syndromes l b)) j

/-! ## MAC_PASS -/

/-- A job writes to the link. -/
def Job.writesLink (j : Job) : Bool :=
  if j.fPacked then decide (j.dstSpace = 1)
  else j.outputs.any fun o => decide ((if j.op = opTranscode then j.fragB o else j.fragA o).space = 1)

/-- The stack lines a pass writes at their own placement. -/
def Ctl.passOuts (c : Ctl) (j : Job) : List Nat :=
  if j.fPacked then [] else (j.outputs.map fun o => if j.op = opTranscode then j.fragB o else j.fragA o).filterMap fun f =>
    if f.space = 0 then some (c.fragByte f j.nextOff) else none

/-- A line of the next pass is held. -/
def Ctl.passHeld (c : Ctl) (j : Job) : Bool :=
  ((j.passInputs.map (c.inputAt j)).any fun a => decide (a.1 = 0) && c.lineHeld false a.2) || (c.passOuts j).any (c.lineHeld true)

/-- A transfer of the job waits outside a row-lane arbiter: the job waits with its comb cells held (R160). -/
def Ctl.laneFull (c : Ctl) (slot : Nat) : Bool :=
  c.stk.lanes.any fun e => e.2.waiting.any fun x => decide (x.job.map Prod.fst = some slot)

/-- The window of 64 core cycles that the clock stands in, at three cycles a ns (R325). -/
def Ctl.passWindow (c : Ctl) : Nat := c.clock * 3 / (64 * c.slowdown)

/-- The array cycles that the input lines of the next pass of a job take: 8 slices of 64 bytes a cycle (R325, R334). -/
def Job.arrayCycles (j : Job) : Nat := max 1 ((j.passInputs.length + 7) / 8)

/-- The array may issue the next pass of a job under the duty limit (R325). -/
def Ctl.dutyOpen (c : Ctl) (j : Job) : Bool :=
  decide (c.job.passWin.1 ≠ c.passWindow) || decide (c.job.passWin.2 + j.arrayCycles ≤ c.dutyLimit)

/-- The array cycles of a pass counted in their window. -/
def Ctl.countPass (c : Ctl) (j : Job) : Ctl :=
  { c with job.passWin := (c.passWindow, (if c.job.passWin.1 = c.passWindow then c.job.passWin.2 else 0) + j.arrayCycles) }

/-- A pass of a running job may go to the array. -/
def Ctl.macReady (c : Ctl) (j : Job) : Bool :=
  decide (j.phase = .running) && j.isStripe && j.stop.isNone && !j.computed && c.dmcReady j.slot && c.classAdmits j && c.combOpen && c.dutyOpen j &&
    (!j.writesLink || c.linkReady j.owner) && !c.laneFull j.slot && !c.passHeld j && j.passInputs.all (c.inputHere j)

/-- The comb cells of a job in row mode at the end of a row step (R109): those of its input rows are free, and its output rows for the
stack take theirs until their transfers are written. -/
def Ctl.rowStep (c : Ctl) (j : Job) : Ctl :=
  if j.mode = 1 ∧ ((j.nextOff + 64) % 1024 = 0 ∨ j.pos + 1 = j.lines) then
    (c.freeCells j.slot ((j.passInputs.map (c.inputAt j)).filter fun a => decide (a.1 = 0)).length).takeCells j.slot (c.passOuts j).length
  else c

/-- The outputs of a pass computed and delivered in order. -/
def State.deliverAll (j : Job) (l : List InLine) : List (Nat × Nat) → State → State
  | [], s => s
  | (o, rank) :: t, s =>
    let (p, cause, data) := outLine l (j.outTerms o j.nextOff)
    let s1 := s.mapCtl fun c => c.modJob j.slot fun x => { x with cause := x.cause ||| cause }
    State.deliverAll j l t (s1.deliverLine j o rank p data)

/-- A pass reads all its input lines before it writes one, which settles what fragments that overlap give (R125; DESIGN CHOICE,
notes/assumptions/111.md). MAC_PASS (R67, R71, R74, R76, R77, R102, R228): the first-ranked running job whose inputs are at hand computes the
lines at its next position. A job in row mode whose lanes no longer serve it goes on in column mode. `bad` tells that the decode-matrix
entry the pass reads shows an uncorrectable SRAM error (R81): then nothing is computed from it. -/
def execMacPass (bad : Bool) (s : State) : Host.Outcome State Fault Refusal :=
  match minBy Job.rank (s.ctl.job.jobs.filter s.ctl.macReady) with
  | none => .next s
  | some j =>
    match (if bad then s.ctl.dmcDamaged j.slot else none), s.ctl.passViolation j with
    | some c, _ => .next { s with ctl := c }
    | none, some v => .next (s.mapCtl fun c => c.violates j.slot v.1 v.2.1 v.2.2)
    | none, none =>
      let mode := if j.mode = 1 ∧ s.ctl.rowModeHolds j = false then 3 else j.mode
      let (l, s1) := State.readInputs j j.passInputs s
      if j.op = opVerify then
        .next (s1.mapCtl fun c => ((c.countPass j).rowStep j).modJob j.slot fun x =>
          let y := { (x.verifyLine l).takeCrcs l [] with mode := mode }
          if y.stop.isSome then y else { y with pos := y.pos + 1, computed := decide (y.pos + 1 = y.lines) })
      else
        let outs := j.outputs.zipIdx
        let s2 := State.deliverAll j l outs s1
        .next (s2.mapCtl fun c => ((c.countPass j).rowStep j).modJob j.slot fun x =>
          let y := x.takeCrcs l (j.outputs.map fun o => (o, (outLine l (j.outTerms o j.nextOff)).2.2))
          { y with mode := mode, pos := y.pos + 1, computed := decide (y.pos + 1 = y.lines) })

/-! ## Contexts at a job's end (R134) -/

/-- The job covers its fragments whole. -/
def Job.wholeRange (j : Job) : Bool := decide (j.offset = 0) && decide (j.length = j.flen)

/-- What a job that ends OK brings to its context. -/
def Job.ctxChange (j : Job) : CtxChange :=
  let written := if j.fPacked then [] else maskList j.outMask (spN j.code)
  if j.op = opEncode ∨ j.op = opReconstruct then
    { whole := if j.wholeRange then written.map (fun f => (f, j.chkOf f)) else []
      partly := if j.wholeRange then [] else written
      encode := if j.op = opEncode ∧ j.wholeRange then some ((List.range (spK j.code)).map fun i => (i, j.chkOf i)) else none }
  else if j.op = opUpdate then
    { whole := if j.wholeRange then j.outputs.map fun f => (f, j.chkOf (64 + f)) else []
      xor := j.outputs.map fun f => (f, j.deltaChk f) }
  else {}

/-- Any change of R134 is made to the entry. -/
def CtxMain.changes (m : CtxMain) (x : CtxChange) : Bool :=
  !x.whole.isEmpty || (decide (m.state = 1) && x.encode.isSome) || (m.chkValid && !x.xor.isEmpty) ||
    (m.chkValid && x.partly.any fun f => !tb m.unavail f)

/-- TRANSCODE rewrites its context to describe code B (R134): LIST, with the reserved entries as its extension
entries. -/
def Ctl.transcodeCtx (c : Ctl) (j : Job) (m : CtxMain) : Ctl :=
  let xs := (c.stx.reserved.filter fun r => decide (r.1 = j.slot)).map Prod.snd
  let n := spN j.specB
  let un := maskOf 44 fun i => decide (i < n) && !tb j.outMask i
  let c1 := (c.freeExts (.main m)).writeExts m.owner xs ((List.range n).map fun i => (j.fragB i).addr / 64)
  let c2 := { c1 with stx.reserved := c1.stx.reserved.filter fun r => decide (r.1 ≠ j.slot) }
  c2.setEntry j.ctxIndex (.main
    { m with
      state := if un = 0 then 2 else 3, chkValid := true, kind := 2, firstCh := 0, unavail := un, spec := j.specB
      fragLen := j.fragLenB, base := xs.headD 0
      chk := (List.range 44).map fun i => if i < n ∧ tb j.outMask i = true then j.chkOf i else 0 })

/-- CONTEXT_UPDATE (R134, R135): a job that ends OK changes its context as it then stands, unless it is LOST. -/
def Ctl.updateCtx (c : Ctl) (j : Job) : Ctl × Bool :=
  if !j.fCtx then (c, false) else
  match c.ctxMain j.ctxIndex with
  | none => (c, false)
  | some m =>
    if j.op = opTranscode then (c.transcodeCtx j m, true)
    else if m.changes j.ctxChange then (c.setEntry j.ctxIndex (.main (m.apply j.ctxChange)), true)
    else (c, false)

/-- The check stage of VERIFY (R137): fragments whose check value differs join the suspects, and CHECKS_RUN sets. -/
def Ctl.checkStage (c : Ctl) (j : Job) : Job :=
  match (if j.fCtx ∧ j.op = opVerify ∧ j.wholeRange = true then c.jobCtx j else none) with
  | some m =>
    if m.chkValid then
      let bad := (List.range (spN j.code)).filter fun i => !gone j.emask i && decide (j.chkOf i ≠ m.chk.getD i 0)
      { j with result1 := bad.foldl setBit (setBit j.result1 62) }
    else j
  | none => j

/-- A job that has done all its work ends (R118 step 7): INPUT_POISONED, MISMATCH, OUTPUT_POISONED or OK. -/
def Ctl.finalJob (c : Ctl) (j : Job) : Ctl :=
  let j1 := c.checkStage j
  let st := if j1.status ≠ 0 then j1.status else if j1.poisonLines ≠ 0 then stOutputPoisoned else stOk
  let (c1, upd) := if st = stOk then c.updateCtx j1 else (c, false)
  c1.endJob { j1 with ctxUpdated := upd } st

/-! ## HASH, COPY and FILL (R105, R106) -/

/-- The source bytes of a whole-buffer operation, with poison and CAUSE bits. -/
def State.sourceBytes (s : State) (j : Job) : List (Bool × BitVec 8) × Nat × State :=
  if j.op = opFill then ((List.range j.length).map fun t => (false, j.pattern.getD (t % 16) 0), 0, s)
  else if j.srcSpace = 0 then s.readSpan j.src j.length 2
  else
    let l := (gather j.ingested (j.ingested.length + 1) j.src j.length).getD []
    (l, if l.any fun b => b.1 then 8 else 0, s)

/-- The expected digest of a SHA-256 compare. -/
def State.digestBytes (s : State) (j : Job) : List (Bool × BitVec 8) × Nat × State :=
  if j.auxSpace = 0 then s.readSpan j.aux 32 2
  else
    let l := (gather j.ingested (j.ingested.length + 1) j.aux 32).getD []
    (l, if l.any fun b => b.1 then 8 else 0, s)

/-- A CRC of HASH, chained or not (R83, R105). -/
def Job.crcResult (j : Job) (p : Bytes) : Nat :=
  let (poly, ones) := if j.opt % 4 = 0 then (0x82F63B78, 2 ^ 32 - 1) else (0x9A6C9329AC4BC9B5, 2 ^ 64 - 1)
  let start := if tb j.opt 2 then (le j.desc 96 8 % (ones + 1)) ^^^ ones else ones
  crcReg poly start p ^^^ ones

/-- Bytes written at DST. -/
def State.writeDst (s : State) (j : Job) (l : List (Bool × BitVec 8)) : State :=
  if j.dstSpace = 0 then State.spanOut j.slot 0xFFFE (l.length / 64 + 2) j.dst 0 l s
  else s.mapCtl (Ctl.spanLink j.slot (l.length / 64 + 1) j.dst 0 l)

/-- HASH computed (R105, R116): a poisoned line ends the input before it. The digest is written at DST before the expected one is read at
AUX, which settles what a DST that overlaps AUX gives (R125; DESIGN CHOICE, notes/assumptions/111.md). -/
def State.runHash (s : State) (j : Job) : State :=
  let (l, cause, s1) := s.sourceBytes j
  let cut := poisonAt l
  let data := (match cut with
    | some i => l.take i
    | none => l).map Prod.snd
  let j1 := match cut with
    | some i => { j.at 0xFFFE i with status := stInputPoisoned, cause := j.cause ||| cause }
    | none => j
  if j.opt % 4 = 2 then
    let digest := sha256 data
    let s2 := (s1.mapCtl fun c => c.putJob j1).writeDst j1 (digest.map fun b => (false, b))
    if j.fCmp then
      let (d, cause2, s3) := s2.digestBytes j
      s3.mapCtl fun c => c.modJob j.slot fun x =>
        if x.status ≠ 0 then x
        else match poisonAt d with
          | some i => { x.at 0xFFFE i with status := stInputPoisoned, cause := x.cause ||| cause2 }
          | none => if d.map Prod.snd = digest then x else { x.at 0xFFFF 0 with status := stMismatch }
    else s2
  else
    let r := j.crcResult data
    s1.mapCtl fun c => c.putJob { j1 with
      result0 := r, status := if j1.status = 0 ∧ j.fCmp = true ∧ r ≠ j.aux then stMismatch else j1.status }

/-- COPY and FILL carried out (R106): the source is read whole before a byte is written, which settles what buffers that overlap give, a
result that R125 calls unpredictable (DESIGN CHOICE, notes/assumptions/111.md). -/
def State.runMove (s : State) (j : Job) : State :=
  let (l, cause, s1) := s.sourceBytes j
  (s1.mapCtl fun c => c.putJob { j with cause := j.cause ||| cause, result0 := j.length }).writeDst j l

/-- A line of a job's stack ranges is held: of those it reads, or of those that HASH, COPY and FILL write. -/
def Ctl.rangesHeld (c : Ctl) (j : Job) : Bool :=
  let outs := if j.op = opHash then (if j.opt % 4 = 2 then Job.bufRange j.dstSpace j.dst 32 else [])
    else Job.bufRange j.dstSpace j.dst j.length
  (j.ranges.any fun r => (spanLines r.frag.addr r.len).any (c.lineHeld false)) ||
    outs.any fun r => (spanLines r.frag.addr r.len).any (c.lineHeld true)

/-- The inputs of a whole-buffer operation have all arrived, its class is admitted, no line of it is held, and its link is ready for what
it writes. -/
def Ctl.bufferReady (c : Ctl) (j : Job) : Bool :=
  j.toRead.isEmpty && (c.jobDma j.slot false).isEmpty && c.classAdmits j && (if j.op = opHash then c.domainOpen 9 else c.combOpen) &&
    !c.rangesHeld j &&
    (decide (j.dstSpace = 0) || (decide (j.op = opHash) && decide (j.opt % 4 ≠ 2)) || c.linkReady j.owner)

/-- The first stack range of a running job that its owner may no longer reach. -/
def Ctl.runViolation (c : Ctl) (j : Job) : Option (Nat × Nat × Nat) :=
  (c.rangeRefused j.ranges fun _ sa => !c.mayReach j.owner sa).map fun x => (x.1.errFrag, c.rangeOffset x.1 x.2, x.2)

/-- A job whose work is done and acknowledged ends; else it stays. -/
def State.endIfDone (s : State) (slot : Nat) : State :=
  match s.ctl.jobAt slot with
  | none => s
  | some j => if (s.ctl.jobDma slot true).isEmpty then s.mapCtl fun c => c.finalJob j else s

/-- The packed output bound for the stack is written from its lines (R98), whole and at the job's end, which settles what a destination that
overlaps an input gives (R125; DESIGN CHOICE, notes/assumptions/111.md). -/
def State.writePacked (s : State) (j : Job) : State :=
  if j.packBuf.isEmpty then s
  else
    let lines := (List.range (j.packBuf.length)).filterMap fun i => j.packBuf.find? fun x => decide (x.addr = j.dst + 64 * i)
    (s.mapCtl fun c => c.putJob { j with packBuf := [], wrote := j.wrote + 64 * lines.length }).writeDst j
      (lines.flatMap fun x => x.data.map fun b => (x.poison, b))

/-- Packed output for the stack may be written: its class is admitted and no line of it is held. -/
def Ctl.packReady (c : Ctl) (j : Job) : Bool := c.classAdmits j && !(spanLines j.dst j.packedLen).any (c.lineHeld true)

/-- JOB_END (R99, R105, R106, R118): a stopped job ends with the status that stopped it; HASH, COPY and FILL do their work
and every job with nothing left to compute ends once its link writes are acknowledged. A SCRUB ends with its pass. -/
def execJobEnd (slot : Nat) (s : State) : Host.Outcome State Fault Refusal :=
  match s.ctl.jobAt slot with
  | none => .next s
  | some j =>
    if j.phase ≠ .running then .next s
    else match j.stop with
      | some st => .next (s.mapCtl fun c => c.endJob j st)
      | none =>
        if j.op = opScrub then .next (if j.computed then s.endIfDone slot else s)
        else if j.isStripe then
          (if j.computed && (j.packBuf.isEmpty || s.ctl.packReady j) then
            (match (if j.packBuf.isEmpty then none else s.ctl.runViolation j) with
              | some v => .next (s.mapCtl fun c => c.violates slot v.1 v.2.1 v.2.2)
              | none => .next ((s.writePacked j).endIfDone slot))
           else .next s)
        else if j.computed then .next (s.endIfDone slot)
        else if s.ctl.bufferReady j then
          match s.ctl.runViolation j with
          | some v => .next (s.mapCtl fun c => c.violates slot v.1 v.2.1 v.2.2)
          | none =>
            let j1 := { j with computed := true }
            .next ((if j.op = opHash then s.runHash j1 else s.runMove j1).endIfDone slot)
        else .next s

end Sys2Proof.Machine
end

