-- ==== Sys2Proof/Machine/Rings.lean ====
section
/-! DEFINITION. Submission and completion rings (R87 to R94), aborts (R123), and the OCS job and ring commands (R120 to
R122). -/

namespace Sys2Proof.Machine

/-! ## Doorbells (R90) -/

/-- A doorbell write is not performed (R19, R87, R89, R219, R248): from a fenced head, on an insecure stream, below expert level, to a foreign
ring or to a disabled one. -/
def Ctl.doorbellDrops (c : Ctl) (h : Head) (owner : Head) (enabled : Bool) : Option Ctl :=
  if c.fenced h || c.ioRefused h ((c.hd h).bar2 + 0x10000) then some c
  else if !c.expert h then some (c.dropCount h R.IDC_LEVEL_DROP_CNT_A_DROPS R.IDC_LEVEL_DROP_CNT_B_DROPS)
  else if owner ≠ h ∨ enabled = false then
    some (c.dropCount h R.JRG_FOREIGN_DROP_CNT_A_DROPS R.JRG_FOREIGN_DROP_CNT_B_DROPS)
  else none

/-- The index that a doorbell gives a ring of a size: one at or above it, a host error of R125, gives a free value (DESIGN CHOICE,
notes/assumptions/14.md). -/
def Ctl.doorbellIndex (c : Ctl) (size index : Nat) : Nat × Ctl :=
  let i := index % 65536
  if size ≤ i then
    let (v, c1) := c.fresh
    (v % 65536, c1)
  else (i, c)

/-- SQ_DOORBELL (R90): the new tail of an SQ. -/
def sqDoorbell (h : Head) (q : Fin 64) (index : Nat) (c : Ctl) : Ctl :=
  match c.doorbellDrops h (c.sqOwner q) (c.flag (R.JRG_SQ_CFG_ENABLE q)) with
  | some c1 => c1
  | none =>
    let (i, c1) := c.doorbellIndex (c.get (R.JRG_SQ_CFG_SIZE q)) index
    c1.setRing q { c1.ring q with sqTail := i }

def execSqDoorbell (h : Head) (q : Fin 64) (index : Nat) (s : State) : Host.Outcome State Fault Refusal :=
  .next (s.mapCtl (sqDoorbell h q index))

/-- CQ_DOORBELL (R90): entries returned to the device. -/
def cqDoorbell (h : Head) (q : Fin 64) (index : Nat) (c : Ctl) : Ctl :=
  match c.doorbellDrops h (c.cqOwner q) (c.flag (R.JRG_CQ_CFG_ENABLE q)) with
  | some c1 => c1
  | none =>
    let (i, c1) := c.doorbellIndex (c.get (R.JRG_CQ_CFG_SIZE q)) index
    c1.setRing q { c1.ring q with cqHead := i }

def execCqDoorbell (h : Head) (q : Fin 64) (index : Nat) (s : State) : Host.Outcome State Fault Refusal :=
  .next (s.mapCtl (cqDoorbell h q index))

/-! ## Fetching (R85, R86, R92) -/

/-- Descriptor reads of an SQ outstanding. -/
def Ctl.sqFetches (c : Ctl) (q : Nat) : Nat := (c.job.fetches.filter fun e => decide (e.1 = q)).length

/-- The next entry of an SQ to fetch. -/
def Ctl.nextFetch (c : Ctl) (q : Nat) : Nat :=
  (c.get (R.JRG_SQ_STATUS_HEAD q) + c.sqFetches q) % max 1 (c.get (R.JRG_SQ_CFG_SIZE q))

/-- Entries of an SQ not fetched yet. -/
def Ctl.unfetched (c : Ctl) (q : Nat) : Nat :=
  let size := max 1 (c.get (R.JRG_SQ_CFG_SIZE q))
  ((c.ring q).sqTail + size - c.nextFetch q) % size

/-- Ring fetch may serve an SQ. -/
def Ctl.feeds (c : Ctl) (q : Nat) : Bool :=
  c.flag (R.JRG_SQ_CFG_ENABLE q) && !c.flag (R.JRG_SQ_STATUS_FETCH_ERR q) && c.linkReady (c.sqOwner q) &&
    !c.fenced (c.sqOwner q) && decide (0 < c.unfetched q)

/-- The next SQ in round-robin order. -/
def Ctl.nextSq (c : Ctl) : Option Nat := ((List.range 64).map fun i => (c.job.turn + i) % 64).find? c.feeds

/-- Slots ring fetch may still claim (R86, R92). -/
def Ctl.fetchRoom (c : Ctl) : Nat := 4096 - c.slotsHeld - c.job.fetches.length - c.job.slotWaiters.length

/-- Descriptors of one turn (JRG_FETCH_CFG.BURST). -/
def Ctl.burst (c : Ctl) : Nat := min 64 (max 1 (c.get R.JRG_FETCH_CFG_BURST))

/-- The read of one descriptor issued. -/
def Ctl.fetchOne (q : Nat) (c : Ctl) : Ctl :=
  let e := c.nextFetch q
  let tag := c.job.tag
  { c with job := { c.job with tag := tag + 1, fetches := c.job.fetches ++ [(q, e)] } }.emit
    (.dmaRead (c.sqOwner q) tag (c.get (R.JRG_SQ_BASE_BASE q) * 4096 + 128 * e) 128)

/-- RING_FETCH_TURN (R92): the next SQ in turn gets up to BURST descriptor reads, never more than the free slots; with
none free, fetching pauses (R85). -/
def ringFetchTurn (c : Ctl) : Ctl :=
  if !c.admits then c else
  match c.nextSq with
  | none => c
  | some q =>
    let room := min c.fetchRoom (4096 - c.npOutstanding)
    if room = 0 then c.judgePause
    else
      let n := min c.burst (min (c.unfetched q) room)
      let c1 := (List.range n).foldl (fun c _ => c.fetchOne q) c
      { c1 with job.turn := (q + 1) % 64 }

def execRingFetchTurn (s : State) : Host.Outcome State Fault Refusal := .next (s.mapCtl ringFetchTurn)

/-- INFO of source 420 + q (R372). -/
def fetchInfo : LinkErr → Nat
  | .ur => 0x01
  | .ca => 0x04
  | .timeout => 0x10
  | .ep => 0x11

/-- DESCRIPTOR_FETCHED (R85, R92, R118): the oldest descriptor read of an SQ ends. Its job takes a slot and is judged; a
failed read stops the SQ, and the head does not pass it. -/
def descriptorFetched (q : Nat) (f : Fetched) (c : Ctl) : Ctl :=
  match c.job.fetches.find? fun e => decide (e.1 = q) with
  | none => c
  | some e =>
    match f with
    | .err x =>
      ({ c with job.fetches := c.job.fetches.filter fun y => decide (y.1 ≠ q) }.set (R.JRG_SQ_STATUS_FETCH_ERR q) 1).fault
        (420 + q) (fetchInfo x) |>.aerOf (c.sqOwner q) x
    | .ok p =>
      match c.freeSlot with
      | none => c
      | some slot =>
        let head := (e.2 + 1) % max 1 (c.get (R.JRG_SQ_CFG_SIZE q))
        let c1 := { c with job.fetches := c.job.fetches.erase e }.set (R.JRG_SQ_STATUS_HEAD q) head
        c1.judgeNew { c1.makeJob slot (c1.sqOwner q) p with sq := q, sqHead := head }

def execDescriptorFetched (q : Fin 64) (f : Fetched) (s : State) : Host.Outcome State Fault Refusal :=
  .next (s.mapCtl (descriptorFetched q f))

/-! ## Completions (R90, R91, R93, R94) -/

/-- The interrupt of a CQ, while IEN is 1 (R94). -/
def Ctl.cqIrq (c : Ctl) (q : Nat) : Ctl :=
  if c.flag (R.JRG_CQ_CFG_IEN q) then
    (c.setRing q { c.ring q with unsignalled := 0 }).msix (c.cqOwner q) (c.get (R.JRG_CQ_CFG_VECTOR q))
  else c

/-- A completion written counts toward the interrupt of its CQ (R94). -/
def Ctl.cqSignal (c : Ctl) (q : Nat) (now : Bool) : Ctl :=
  let r := c.ring q
  let c1 := c.setRing q { r with
    unsignalled := r.unsignalled + 1
    firstUnsig := if r.unsignalled = 0 then c.clock else r.firstUnsig }
  if now || decide (c.get (R.JRG_CQ_IRQ_COAL_CNT q) ≤ r.unsignalled + 1) then c1.cqIrq q else c1

/-- A completion written at the tail of its CQ (R90), with LATE and PHASE as they stand now. -/
def Ctl.writeCqe (c : Ctl) (q : Nat) (j : Job) : Ctl :=
  let tail := c.get (R.JRG_CQ_STATUS_TAIL q)
  let size := max 1 (c.get (R.JRG_CQ_CFG_SIZE q))
  let bytes := j.completion (c.lateNow j || j.late) (c.flag (R.JRG_CQ_STATUS_PHASE q))
  let c1 := (c.countLate j).emit (.cqWrite (c.cqOwner q) (c.get (R.JRG_CQ_BASE_BASE q) * 4096 + 32 * tail) bytes)
  let c2 := c1.set (R.JRG_CQ_STATUS_TAIL q) ((tail + 1) % size)
  let c3 := if tail + 1 = size then c2.set (R.JRG_CQ_STATUS_PHASE q) (1 - c2.get (R.JRG_CQ_STATUS_PHASE q)) else c2
  (c3.dropJob j.slot).cqSignal q j.fIrq

/-- COMPLETION_POST (R91, R93, R113, R119, R246): the completion of an ended ring job is written once its head is not
fenced, its CQ is enabled with an entry free, and the link carries it; a CQ that has stopped posting discards it. The
slot is released. -/
def completionPost (slot : Nat) (c : Ctl) : Ctl :=
  match c.jobAt slot with
  | none => c
  | some j =>
    let q := c.jobCq j
    if j.phase ≠ .ended ∨ j.ocs = true ∨ c.fenced j.owner = true then c
    else if c.flag (R.JRG_CQ_STATUS_WRITE_ERR q) then c.dropJob slot
    else if !c.flag (R.JRG_CQ_CFG_ENABLE q) then c
    else if c.cqFull q then
      (if j.waitCounted then c
       else (c.putJob { j with waitCounted := true }).bump R.JRG_CQ_FULL_CNT_WAITS)
    else if !c.linkReady (c.cqOwner q) then c
    else c.writeCqe q j

def execCompletionPost (slot : Nat) (s : State) : Host.Outcome State Fault Refusal :=
  .next (s.mapCtl (completionPost slot))

/-- CQ_COALESCE_TIMEOUT (R94): the oldest unsignalled completion has waited COAL_US. -/
def cqCoalesceTimeout (q : Nat) (c : Ctl) : Ctl :=
  let us := c.get (R.JRG_CQ_IRQ_COAL_US q)
  let r := c.ring q
  if us = 0 ∨ r.unsignalled = 0 then c else (c.passTo (r.firstUnsig + 1000 * us)).cqIrq q

def execCqCoalesceTimeout (q : Fin 64) (s : State) : Host.Outcome State Fault Refusal :=
  .next (s.mapCtl (cqCoalesceTimeout q))

/-- COMPLETION_WRITE_FAIL (R93): a completion write with status `st` failed on the link; the CQ stops posting, and the jobs whose
completions it would take release their slots. -/
def completionWriteFail (q st : Nat) (c : Ctl) : Ctl :=
  let gone := (c.job.jobs.filter fun j => !j.ocs && decide (j.phase = .ended) && decide (c.jobCq j = q)).map fun j => j.slot
  let c1 := gone.foldl (fun c n => c.dropJob n) (c.set (R.JRG_CQ_STATUS_WRITE_ERR q) 1)
  c1.fault (484 + q) (st % 256)

def execCompletionWriteFail (q : Fin 64) (st : Nat) (s : State) : Host.Outcome State Fault Refusal :=
  .next (s.mapCtl (completionWriteFail q st))

/-! ## Enabling and disabling (R88, R89) -/

/-- A ring size R88 accepts. -/
def sizeOk (n : Nat) : Bool := decide (16 ≤ n) && decide (n ≤ 65536) && decide (n = 2 ^ n.log2)

/-- An SQ may be enabled as it is configured. -/
def Ctl.sqOk (c : Ctl) (q : Nat) : Bool :=
  let cq := c.get (R.JRG_SQ_CFG_CQ q)
  sizeOk (c.get (R.JRG_SQ_CFG_SIZE q)) && c.flag (R.JRG_CQ_CFG_ENABLE cq) && decide (c.cqOwner cq = c.sqOwner q)

/-- An SQ enabled (R88, R92): head 0, no entry submitted, FETCH_ERR cleared. -/
def Ctl.sqEnable (c : Ctl) (q : Nat) : Ctl :=
  (((c.set (R.JRG_SQ_CFG_ENABLE q) 1).set (R.JRG_SQ_STATUS_HEAD q) 0).set (R.JRG_SQ_STATUS_FETCH_ERR q) 0).setRing q
    { c.ring q with sqTail := 0 }

/-- An SQ disabled (R89): fetching stops, and reads under way bring no job. -/
def Ctl.sqDisable (c : Ctl) (q : Nat) : Ctl :=
  { c with job.fetches := c.job.fetches.filter fun e => decide (e.1 ≠ q) }.set (R.JRG_SQ_CFG_ENABLE q) 0

/-- A CQ enabled (R88, R93): tail 0, PHASE 1, WRITE_ERR cleared. -/
def Ctl.cqEnable (c : Ctl) (q : Nat) : Ctl :=
  ((((c.set (R.JRG_CQ_CFG_ENABLE q) 1).set (R.JRG_CQ_STATUS_TAIL q) 0).set (R.JRG_CQ_STATUS_PHASE q) 1).set
    (R.JRG_CQ_STATUS_WRITE_ERR q) 0).setRing q { c.ring q with cqHead := 0, unsignalled := 0 }

/-- Every SQ that names a CQ is disabled and drained (R89). -/
def Ctl.cqFreed (c : Ctl) (q : Nat) : Bool :=
  (List.range 64).all fun s => decide (c.get (R.JRG_SQ_CFG_CQ s) ≠ q) ||
    (!c.flag (R.JRG_SQ_CFG_ENABLE s) && decide (c.sqInFlight s = 0))

/-- What a write of JRG_SQ_CFG_q starts, after its fields are written; `was` is ENABLE before (R88, R89). -/
def Ctl.sqCfgWritten (c : Ctl) (q : Nat) (was : Bool) : Ctl :=
  if c.flag (R.JRG_SQ_CFG_ENABLE q) then
    (if was then c
     else if c.get (R.JRG_SQ_CFG_SIZE q) = 0 then c.set (R.JRG_SQ_CFG_ENABLE q) 0
     else if c.sqOk q then c.sqEnable q
     else (c.set (R.JRG_SQ_CFG_ENABLE q) 0).set (R.JRG_SQ_CFG_ERR q) 1)
  else if was then c.sqDisable q else c

/-- What a write of JRG_CQ_CFG_q starts (R88, R89). -/
def Ctl.cqCfgWritten (c : Ctl) (q : Nat) (was : Bool) : Ctl :=
  if c.flag (R.JRG_CQ_CFG_ENABLE q) then
    (if was then c
     else if c.get (R.JRG_CQ_CFG_SIZE q) = 0 then c.set (R.JRG_CQ_CFG_ENABLE q) 0
     else if sizeOk (c.get (R.JRG_CQ_CFG_SIZE q)) then c.cqEnable q
     else (c.set (R.JRG_CQ_CFG_ENABLE q) 0).set (R.JRG_CQ_CFG_ERR q) 1)
  else if was && !c.cqFreed q then (c.set (R.JRG_CQ_CFG_ENABLE q) 1).set (R.JRG_CQ_CFG_ERR q) 1
  else c

/-! ## Aborts (R123) -/

/-- The jobs in flight from a ring that carry a CID. -/
def Ctl.ringJobs (c : Ctl) (q cid : Nat) : List Job :=
  c.job.jobs.filter fun j => !j.ocs && decide (j.sq = q) && decide (j.cid = cid) && decide (j.phase ≠ .ended)

/-- JRG_ABORT, performed: the jobs of ring SQ that carry the CID are aborted. -/
def Ctl.jrgAbort (c : Ctl) (q cid : Nat) : Ctl := (c.ringJobs q cid).foldl (fun c j => c.abortJob j stAborted) c

/-! ## OCS job commands (R120, R121, R123) -/

/-- OCS jobs a head holds, running or not yet reported. -/
def Ctl.ocsHeld (c : Ctl) (h : Head) : Nat :=
  (c.job.jobs.filter fun j => j.ocs && decide (j.owner = h) && j.handle.isSome).length + (c.done h).length

/-- A handle is held. -/
def Ctl.handleHeld (c : Ctl) (h : Head) (n : Nat) : Bool :=
  (c.done h).any (fun e => decide (e.1 = n)) ||
    c.job.jobs.any fun j => j.ocs && decide (j.owner = h) && decide (j.handle = some n)

/-- The handle after `n`, skipping 0 (R121). -/
def nextHandle (n : Nat) : Nat := if 2 ^ 32 - 1 ≤ n then 1 else n + 1

/-- The last handle given to a head. -/
def Ctl.lastHandle (c : Ctl) : Head → Nat
  | .a => c.job.handleA
  | .b => c.job.handleB

def Ctl.setLastHandle (c : Ctl) (h : Head) (n : Nat) : Ctl := match h with
  | .a => { c with job.handleA := n }
  | .b => { c with job.handleB := n }

/-- The next handle that is not held; at most 64 are. -/
def Ctl.freeHandle (c : Ctl) (h : Head) : Nat → Nat → Nat
  | 0, n => n
  | fuel + 1, n => if c.handleHeld h n then c.freeHandle h fuel (nextHandle n) else n

/-- WAIT_US of JOB_SUBMIT in ns. -/
def waitNs (p : Bytes) : Nat := 1000 * min 100000 (le p 128 4)

/-- A JOB_SUBMIT that has a slot: its job is judged, and the command waits for it up to WAIT_US (R121). -/
def Ctl.submitNow (c : Ctl) (h : Head) (p : Bytes) (slot : Nat) : Ctl :=
  let n := c.freeHandle h 65 (nextHandle (c.lastHandle h))
  let c0 := c.setLastHandle h n
  let due := c0.clock + waitNs p
  let c1 := c0.await h opJobSubmit p .job (n + 2 ^ 32 * due)
  let c2 := c1.judgeNew { c1.makeJob slot h (p.take 128) with ocs := true, handle := some n }
  if waitNs p = 0 ∧ (c2.hd h).mbox.pend.isSome then c2.finish h opJobSubmit .ok (toLE 4 n ++ toLE 4 1 ++ List.replicate 32 0)
  else c2

/-- JOB_SUBMIT (R86, R121): refused beyond 64 jobs of the head; without a free slot it waits for one. -/
def jobSubmit (h : Head) (p : Bytes) (c : Ctl) : Ctl :=
  c.ocs h opJobSubmit { min := 136, stack := true } p fun c =>
    if 64 ≤ c.ocsHeld h then c.finish h opJobSubmit .busy []
    else
      match (if 4096 ≤ c.slotsHeld + c.job.fetches.length + c.job.slotWaiters.length then none else c.freeSlot) with
      | some slot => c.submitNow h p slot
      | none => ({ c with job.slotWaiters := c.job.slotWaiters ++ [h] }.judgePause).await h opJobSubmit p .slot c.clock

def execJobSubmit (h : Head) (p : Bytes) (s : State) : Host.Outcome State Fault Refusal :=
  .next (s.mapCtl (jobSubmit h p))

/-- A head's JOB_SUBMIT waits in this way. -/
def Ctl.submitWaits (c : Ctl) (h : Head) (w : Wait) : Option PendCmd := match (c.hd h).mbox.pend with
  | some p => if p.op = opJobSubmit ∧ p.wait = w then some p else none
  | none => none

/-- OCS_SLOT_GRANTED (R86): a freed slot goes to the longest-waiting JOB_SUBMIT. -/
def ocsSlotGranted (c : Ctl) : Ctl :=
  match c.job.slotWaiters with
  | [] => c
  | h :: t =>
    match c.submitWaits h .slot, (if 4096 ≤ c.slotsHeld + c.job.fetches.length then none else c.freeSlot) with
    | some p, some slot => ({ c with job.slotWaiters := t }).submitNow h p.payload slot
    | none, _ => { c with job.slotWaiters := t }
    | _, none => c

def execOcsSlotGranted (s : State) : Host.Outcome State Fault Refusal := .next (s.mapCtl ocsSlotGranted)

/-- JOB_SUBMIT_WAIT_EXPIRY (R121): WAIT_US ends before the job does; STATE 1. -/
def jobSubmitWaitExpiry (h : Head) (c : Ctl) : Ctl :=
  match c.submitWaits h .job with
  | none => c
  | some p => (c.passTo (p.aux / 2 ^ 32)).finish h opJobSubmit .ok (toLE 4 (p.aux % 2 ^ 32) ++ toLE 4 1 ++ List.replicate 32 0)

def execJobSubmitWaitExpiry (h : Head) (s : State) : Host.Outcome State Fault Refusal :=
  .next (s.mapCtl (jobSubmitWaitExpiry h))

/-- JOB_SUBMIT_SLOT_TIMEOUT (R121): no slot within 10 ms; BUSY, and nothing is submitted. -/
def jobSubmitSlotTimeout (h : Head) (c : Ctl) : Ctl :=
  match c.submitWaits h .slot with
  | none => c
  | some p =>
    let c1 := c.passTo (p.aux + 10000000)
    { c1 with job.slotWaiters := c1.job.slotWaiters.filter fun x => decide (x ≠ h) }.finish h opJobSubmit .busy []

def execJobSubmitSlotTimeout (h : Head) (s : State) : Host.Outcome State Fault Refusal :=
  .next (s.mapCtl (jobSubmitSlotTimeout h))

/-- JOB_QUERY (R120, R121): a finished job is reported once, and its handle released. -/
def jobQuery (h : Head) (p : Bytes) (c : Ctl) : Ctl :=
  c.ocs h 0xC101 { min := 4 } p fun c =>
    let n := le p 0 4
    match mapGet (c.done h) n with
    | some bytes => (c.setDone h (mapDel (c.done h) n)).finish h 0xC101 .ok (toLE 4 n ++ toLE 4 0 ++ bytes)
    | none =>
      if c.handleHeld h n then c.finish h 0xC101 .ok (toLE 4 n ++ toLE 4 1 ++ List.replicate 32 0)
      else c.finish h 0xC101 .invalidHandle []

def execJobQuery (h : Head) (p : Bytes) (s : State) : Host.Outcome State Fault Refusal := .next (s.mapCtl (jobQuery h p))

/-- Jobs aborted for a JOB_ABORT, which returns when the last of them has stopped (R295). -/
def Ctl.abortFor (c : Ctl) (h : Head) (p : Bytes) (l : List Job) : Ctl :=
  let mark := fun (c : Ctl) (j : Job) =>
    let j1 := { j with aborter := some h }
    (c.putJob j1).abortJob j1 stAborted
  if l.isEmpty then c.finish h opJobAbort .ok [] else l.foldl mark (c.await h opJobAbort p .abort c.clock)

/-- JOB_ABORT (R120, R123): by the requester's own handle, or with handle 0 by ring and CID of a ring it owns. -/
def jobAbort (h : Head) (p : Bytes) (c : Ctl) : Ctl :=
  c.ocs h opJobAbort { min := 4 } p fun c =>
    let n := le p 0 4
    if n = 0 then
      (if p.length < 7 ∨ 64 ≤ le p 6 1 ∨ c.sqOwner (le p 6 1) ≠ h then c.finish h opJobAbort .invalidParameter []
       else c.abortFor h p (c.ringJobs (le p 6 1) (le p 4 2)))
    else if c.handleHeld h n then
      c.abortFor h p (c.job.jobs.filter fun j => j.ocs && decide (j.owner = h) && decide (j.handle = some n) &&
        decide (j.phase ≠ .ended))
    else c.finish h opJobAbort .invalidHandle []

def execJobAbort (h : Head) (p : Bytes) (s : State) : Host.Outcome State Fault Refusal := .next (s.mapCtl (jobAbort h p))

/-! ## OCS ring commands (R122) -/

/-- Owner of the ring a command names: KIND 0 an SQ, 1 a CQ. -/
def Ctl.ringOwner (c : Ctl) (kind q : Nat) : Head := if kind = 0 then c.sqOwner q else c.cqOwner q

/-- The ring is enabled. -/
def Ctl.ringOn (c : Ctl) (kind q : Nat) : Bool :=
  if kind = 0 then c.flag (R.JRG_SQ_CFG_ENABLE q) else c.flag (R.JRG_CQ_CFG_ENABLE q)

/-- A ring command names no ring of the requester (R122). -/
def Ctl.ringBad (c : Ctl) (h : Head) (p : Bytes) : Bool :=
  decide (1 < le p 0 1) || decide (63 < le p 1 1) || decide (c.ringOwner (le p 0 1) (le p 1 1) ≠ h)

/-- The fields RING_CREATE writes, each byte cut to its field (DESIGN CHOICE, notes/assumptions/128.md). -/
def Ctl.ringFields (c : Ctl) (p : Bytes) : Ctl :=
  let q := le p 1 1
  let base := le p 8 8 / 4096
  if le p 0 1 = 0 then
    ((c.set (R.JRG_SQ_BASE_BASE q) base).set (R.JRG_SQ_CFG_SIZE q) (le p 4 4)).set (R.JRG_SQ_CFG_CQ q) (le p 16 1)
  else
    (((((c.set (R.JRG_CQ_BASE_BASE q) base).set (R.JRG_CQ_CFG_SIZE q) (le p 4 4)).set (R.JRG_CQ_CFG_VECTOR q) (le p 16 1)).set
      (R.JRG_CQ_CFG_IEN q) (le p 17 1)).set (R.JRG_CQ_IRQ_COAL_CNT q) (le p 20 2)).set (R.JRG_CQ_IRQ_COAL_US q) (le p 22 2)

/-- R88 would set ERR for the ring that RING_CREATE describes: never at SIZE 0. -/
def Ctl.createBad (c : Ctl) (p : Bytes) : Bool :=
  let size := le p 4 4
  let q := le p 1 1
  decide (size ≠ 0) && (decide (le p 8 8 % 4096 ≠ 0) || !sizeOk size ||
    (decide (le p 0 1 = 0) && (decide (63 < le p 16 1) || !(c.ringFields p).sqOk q)))

/-- RING_CREATE (R88, R122): a ring configured and enabled; SIZE 0 leaves it disabled. -/
def ringCreateRun (h : Head) (p : Bytes) (c : Ctl) : Ctl :=
  if c.ringBad h p then c.finish h 0xC110 .invalidParameter []
  else if c.ringOn (le p 0 1) (le p 1 1) then c.finish h 0xC110 .busy []
  else if c.createBad p then c.finish h 0xC110 .invalidParameter []
  else c.claiming h 0xC110 p [blkJrg] fun c =>
    let c1 := c.ringFields p
    let c2 := if le p 4 4 = 0 then c1 else if le p 0 1 = 0 then c1.sqEnable (le p 1 1) else c1.cqEnable (le p 1 1)
    c2.finish h 0xC110 .ok []

def ringCreate (h : Head) (p : Bytes) (c : Ctl) : Ctl := c.ocs h 0xC110 { min := 24 } p (ringCreateRun h p)

def execRingCreate (h : Head) (p : Bytes) (s : State) : Host.Outcome State Fault Refusal :=
  .next (s.mapCtl (ringCreate h p))

/-- RING_DELETE (R89, R122): in the background; a CQ that R89 refuses is refused at once with ERR set. -/
def ringDeleteRun (h : Head) (p : Bytes) (c : Ctl) : Ctl :=
  let q := le p 1 1
  if c.ringBad h p then c.finish h 0xC111 .invalidParameter []
  else if le p 0 1 = 1 ∧ c.cqFreed q = false then (c.set (R.JRG_CQ_CFG_ERR q) 1).finish h 0xC111 .invalidParameter []
  else c.claiming h 0xC111 p [blkJrg] fun c =>
    if le p 0 1 = 0 then (c.sqDisable q).startBg h 0xC111 p q
    else ((c.set (R.JRG_CQ_CFG_ENABLE q) 0).startBg h 0xC111 p q).finishBg h .ok

def ringDelete (h : Head) (p : Bytes) (c : Ctl) : Ctl :=
  c.ocs h 0xC111 { min := 2, background := true } p (ringDeleteRun h p)

def execRingDelete (h : Head) (p : Bytes) (s : State) : Host.Outcome State Fault Refusal :=
  .next (s.mapCtl (ringDelete h p))

/-- RING_DELETE_DRAINED (R122): the deleted SQ of a head's RING_DELETE reads DRAINED. -/
def ringDeleteDrained (h : Head) (c : Ctl) : Ctl :=
  match (c.hd h).mbox.bg with
  | some g => if g.op = 0xC111 ∧ c.sqInFlight g.aux = 0 then c.finishBg h .ok else c
  | none => c

def execRingDeleteDrained (h : Head) (s : State) : Host.Outcome State Fault Refusal :=
  .next (s.mapCtl (ringDeleteDrained h))

/-- RING_ASSIGN (R122): a disabled ring gets a new owner. -/
def ringAssignRun (h : Head) (p : Bytes) (c : Ctl) : Ctl :=
  let q := le p 1 1
  if c.ringBad h p || decide (1 < le p 2 1) || c.ringOn (le p 0 1) q || (decide (le p 2 1 = 1) && !c.twoHeads) then
    c.finish h 0xC112 .invalidParameter []
  else c.claiming h 0xC112 p [blkJrg] fun c =>
    let f := if le p 0 1 = 0 then R.JRG_OWNER_SQ_OWNER else R.JRG_OWNER_CQ_OWNER
    (c.set f (if le p 2 1 = 1 then setBit (c.get f) q else clrBit (c.get f) q)).finish h 0xC112 .ok []

def ringAssign (h : Head) (p : Bytes) (c : Ctl) : Ctl := c.ocs h 0xC112 { min := 3 } p (ringAssignRun h p)

def execRingAssign (h : Head) (p : Bytes) (s : State) : Host.Outcome State Fault Refusal :=
  .next (s.mapCtl (ringAssign h p))

end Sys2Proof.Machine
end

