-- ==== Sys2Proof/Machine/Seal.lean ====
section
/-! DEFINITION. The seal commands and the states of granules (R193 to R221), what a beat boundary does to them, and the
exit from self-refresh, which reseals (R166, R167). -/

namespace Sys2Proof.Machine

/-! ## Handles and granules -/

/-- A handle names a live slot that no erase has stopped (R197, R199). -/
def Ctl.handleLive (c : Ctl) (n : Nat) : Bool :=
  let s := n % 1024
  c.flag (R.SEA_KEY_STAT_LIVE s) && decide (n / 1024 = c.get (R.SEA_KEY_STAT_GEN s)) &&
    !c.sea.erasing.any fun e => decide (e.1 = s)

/-- Owner of a key slot. -/
def Ctl.keyOwner (c : Ctl) (s : Nat) : Head := Head.ofNum (c.get (R.SEA_KEY_STAT_OWNER s))

/-- A granule present, not lost and assigned to a partition of a head (R221). -/
def Ctl.ownGranule (c : Ctl) (h : Head) (g : Nat) : Bool := c.granUsable g && decide (c.granOwner g = some h)

/-- The granule counts as SEALING (R221). -/
def Ctl.sealingNow (c : Ctl) (g : Nat) : Bool :=
  decide (c.get (R.SEA_GRAN_STATE g) = 1) || c.sea.sealing.any fun j => decide (j.gran = g)

/-- The lowest free seal slot (R195). -/
def Ctl.freeSealSlot (c : Ctl) : Option Nat :=
  (List.range (c.get R.MAP_LAYOUT_SEAL_BUDGET)).find? fun v =>
    (List.range 64).all fun g => decide (c.get (R.SEA_GRAN_STATE g) = 0) || decide (c.get (R.MAP_GRAN_SEAL_SLOT g) ≠ v)

/-- Seal slots that accepted commands on PLAIN granules will take at the next boundary. -/
def Ctl.slotsPromised (c : Ctl) : Nat :=
  (c.sea.sealing.filter fun j => decide (c.get (R.SEA_GRAN_STATE j.gran) = 0)).length

/-- Seal slots not in use. -/
def Ctl.sealSlotsLeft (c : Ctl) : Nat :=
  c.get R.MAP_LAYOUT_SEAL_BUDGET - ((List.range 64).filter fun g => decide (c.get (R.SEA_GRAN_STATE g) ≠ 0)).length -
    c.slotsPromised

/-- Running jobs touch a granule, or use the key slot it is bound to (R221). -/
def Ctl.granInUse (c : Ctl) (g : Nat) : Bool :=
  c.job.jobs.any fun j => decide (j.phase = .running) && (c.jobTouches j g ||
    (decide (c.get (R.SEA_GRAN_STATE g) ≠ 0) && decide (j.keyHandle ≠ 0) &&
      decide (j.keyHandle % 1024 = c.get (R.SEA_GRAN_KEY_SLOT g))))

/-! ## SEAL_GRANULE, RESEAL and UNSEAL -/

/-- The opcodes of the seal commands that hold (R220). -/
def opSeal : Nat := 0xC143
def opReseal : Nat := 0xC144
def opUnseal : Nat := 0xC145

/-- SEAL_GRANULE and RESEAL judged (R221): a refusal, or the granule and key slot. -/
def Ctl.judgeSeal (c : Ctl) (h : Head) (op : Nat) (p : Bytes) : Ocs ⊕ (Nat × Nat) :=
  let g := le p 0 1
  let n := le p 2 2
  let plain := decide (c.get (R.SEA_GRAN_STATE g) = 0)
  if !c.ownGranule h g || !c.handleLive n || decide (c.keyOwner (n % 1024) ≠ h) then .inl .invalidParameter
  else if c.sealingNow g then .inl .busy
  else if plain ≠ decide (op = opSeal) then .inl .invalidParameter
  else if (op = opSeal ∧ c.sealSlotsLeft = 0) ∨ c.get (R.SEA_KEY_STAT_EPOCH (n % 1024)) = 0xFFFF then
    .inl .resourceExhausted
  else .inr (g, n % 1024)

/-- A hold on a granule for a head's command. -/
def Ctl.holdGranule (c : Ctl) (h : Head) (g : Nat) : Ctl := { c with sea.holdGran := (g, h) :: c.sea.holdGran }

/-- The hold of a head on a granule ends. -/
def Ctl.dropGranHold (c : Ctl) (h : Head) (g : Nat) : Ctl :=
  { c with sea.holdGran := c.sea.holdGran.filter fun e => decide (e ≠ (g, h)) }

/-- SEAL_GRANULE and RESEAL (R195, R221): started in the background; running jobs on the granule place a hold first. Step
3 of a SealJob waits for them. -/
def sealRun (h : Head) (op : Nat) (p : Bytes) (c : Ctl) : Ctl :=
  match c.judgeSeal h op p with
  | .inl e => c.finish h op e []
  | .inr (g, slot) =>
    c.claiming h op p [blkSea] fun c =>
      let held := c.granInUse g
      let c1 := if held then c.holdGranule h g else c
      let c2 := c1.startBg h op p c1.clock
      { c2 with sea.sealing := c2.sea.sealing ++ [⟨g, slot, if held then 3 else 0, some h, c2.get (R.SEA_KEY_STAT_GEN slot)⟩] }

def sealCommand (h : Head) (op : Nat) (p : Bytes) (c : Ctl) : Ctl :=
  c.ocs h op { min := 4, stack := true, sealCap := true, background := true } p (sealRun h op p)

def execSealGranule (h : Head) (p : Bytes) (s : State) : Host.Outcome State Fault Refusal :=
  .next (s.mapCtl (sealCommand h opSeal p))
def execReseal (h : Head) (p : Bytes) (s : State) : Host.Outcome State Fault Refusal :=
  .next (s.mapCtl (sealCommand h opReseal p))

/-- The seal of a head that waits for its hold: judged again once the running jobs have ended (R221, R151). -/
def Ctl.resumeSeal (c : Ctl) (h : Head) : Ctl :=
  match c.sea.sealing.find? fun j => decide (j.step = 3) && decide (j.bg = some h) with
  | none => c
  | some j =>
    if c.granInUse j.gran then c
    else
      let c1 := { c.dropGranHold h j.gran with
        sea.sealing := c.sea.sealing.filter (fun x => decide (x ≠ j))
        sea.holdGran := (c.dropGranHold h j.gran).sea.holdGran }
      match (c1.hd h).mbox.bg with
      | none => c1
      | some b => match c1.judgeSeal h b.op b.payload with
        | .inl _ => c1.finishBg h .invalidParameter
        | .inr (g, slot) => { c1 with sea.sealing := c1.sea.sealing ++ [⟨g, slot, 0, some h, c1.get (R.SEA_KEY_STAT_GEN slot)⟩] }

/-- The hold of a head's seal has lasted 100 ms: BUSY. -/
def Ctl.dropSeal (c : Ctl) (h : Head) : Ctl :=
  match c.sea.sealing.find? fun j => decide (j.step = 3) && decide (j.bg = some h) with
  | none => c
  | some j =>
    let t := match (c.hd h).mbox.bg with
      | some b => b.aux
      | none => c.clock
    let c1 := (c.passTo (t + 100000000)).dropGranHold h j.gran
    { c1 with sea.sealing := c1.sea.sealing.filter fun x => decide (x ≠ j) }.finishBg h .busy

/-- SEAL_FILL_DONE (R195): the fill of a granule, which the running Keeper sequences, ends; it becomes SEALED at the next
boundary. -/
def execSealFillDone (g : Fin 64) (s : State) : Host.Outcome State Fault Refusal :=
  .next (s.mapCtl fun c => { c with sea.sealing := c.sea.sealing.map fun (j : SealJob) =>
    if j.gran = g ∧ j.step = 1 ∧ c.kpr.phase = 3 then { j with step := 2 } else j })

/-- UNSEAL judged (R221). -/
def Ctl.judgeUnseal (c : Ctl) (h : Head) (p : Bytes) : Option Ocs :=
  let g := le p 0 1
  if !c.ownGranule h g then some .invalidParameter
  else if c.sealingNow g then some .busy
  else if c.get (R.SEA_GRAN_STATE g) = 0 then some .invalidParameter
  else none

/-- UNSEAL accepted: the granule turns PLAIN at the next boundary, where the command completes. -/
def Ctl.startUnseal (c : Ctl) (h : Head) (p : Bytes) : Ctl :=
  { c with sea.unseals := le p 0 1 :: c.sea.unseals }.await h opUnseal p .boundary c.clock

/-- UNSEAL (R196, R221). -/
def unsealRun (h : Head) (p : Bytes) (c : Ctl) : Ctl :=
  match c.judgeUnseal h p with
  | some e => c.finish h opUnseal e []
  | none => c.claiming h opUnseal p [blkSea] fun c =>
      if c.granInUse (le p 0 1) then (c.holdGranule h (le p 0 1)).await h opUnseal p .hold c.clock
      else c.startUnseal h p

def unsealCommand (h : Head) (p : Bytes) (c : Ctl) : Ctl :=
  c.ocs h opUnseal { min := 1, stack := true, sealCap := true } p (unsealRun h p)

def execUnseal (h : Head) (p : Bytes) (s : State) : Host.Outcome State Fault Refusal := .next (s.mapCtl (unsealCommand h p))

/-- A held UNSEAL judged again once the running jobs have ended. -/
def Ctl.resumeUnseal (c : Ctl) (h : Head) (p : Bytes) : Ctl :=
  if c.granInUse (le p 0 1) then c
  else
    let c1 := c.dropGranHold h (le p 0 1)
    match c1.judgeUnseal h p with
    | some _ => c1.finish h opUnseal .invalidParameter []
    | none => c1.startUnseal h p

/-! ## Keys (R198, R199) -/

/-- The lowest slot that is neither LIVE nor spent. -/
def Ctl.freeKeySlot (c : Ctl) : Option Nat :=
  (List.range 1024).find? fun s => !c.flag (R.SEA_KEY_STAT_LIVE s) && decide (c.get (R.SEA_KEY_STAT_GEN s) < 63)

/-- A key created in a slot (R198): the next generation, epoch 0, and two fresh keys. -/
def Ctl.makeKey (c : Ctl) (h : Head) (mask slot : Nat) : Ctl :=
  let c1 := c.set (R.SEA_KEY_STAT_GEN slot) (c.get (R.SEA_KEY_STAT_GEN slot) + 1)
  let c2 := ((c1.set (R.SEA_KEY_STAT_EPOCH slot) 0).set (R.SEA_KEY_STAT_LIVE slot) 1).set (R.SEA_KEY_STAT_OWNER slot) h.num
  let c3 := c2.set (R.SEA_KEY_STAT_CXL_MASK slot) (mask % 4)
  { c3 with
    sea.keys := mapPut c3.sea.keys slot (c3.sea.draws, c3.sea.draws + 1)
    sea.draws := c3.sea.draws + 2 }

/-- KEY_CREATE (R198, R220). -/
def keyCreateRun (h : Head) (p : Bytes) (c : Ctl) : Ctl :=
  c.claiming h 0xC141 p [blkSea] fun c => match c.freeKeySlot with
    | none => c.finish h 0xC141 .resourceExhausted []
    | some s =>
      let c1 := c.makeKey h (le p 0 1) s
      c1.finish h 0xC141 .ok (toLE 2 (c1.get (R.SEA_KEY_STAT_GEN s) * 1024 + s))

def keyCreate (h : Head) (p : Bytes) (c : Ctl) : Ctl :=
  c.ocs h 0xC141 { min := 1, sealCap := true } p (keyCreateRun h p)

def execKeyCreate (h : Head) (p : Bytes) (s : State) : Host.Outcome State Fault Refusal := .next (s.mapCtl (keyCreate h p))

/-- KEY_ERASE (R199, R221): the slot stops at once; the command completes when its keys are zero. -/
def keyEraseRun (h : Head) (p : Bytes) (c : Ctl) : Ctl :=
  let n := le p 0 2
  if !c.handleLive n || decide (c.keyOwner (n % 1024) ≠ h) then c.finish h 0xC142 .invalidParameter []
  else c.claiming h 0xC142 p [blkSea] fun c =>
    { c with sea.erasing := (n % 1024, h) :: c.sea.erasing }.await h 0xC142 p .zeroise c.clock

def keyErase (h : Head) (p : Bytes) (c : Ctl) : Ctl := c.ocs h 0xC142 { min := 2, sealCap := true } p (keyEraseRun h p)

def execKeyErase (h : Head) (p : Bytes) (s : State) : Host.Outcome State Fault Refusal := .next (s.mapCtl (keyErase h p))

/-- The keys of a slot overwritten with zeros: LIVE clears, and its granules turn ERASED at the next boundary. -/
def Ctl.zeroise (c : Ctl) (slot : Nat) : Ctl :=
  { c with sea := { c.sea with
    keys := mapDel c.sea.keys slot
    erasing := c.sea.erasing.filter fun e => decide (e.1 ≠ slot)
    erased := if c.sea.erased.contains slot then c.sea.erased else slot :: c.sea.erased } }.set (R.SEA_KEY_STAT_LIVE slot) 0

/-- KEY_ZEROISE_DONE (R199): an erase under way completes. -/
def keyZeroiseDone (slot : Nat) (c : Ctl) : Ctl :=
  match c.sea.erasing.find? fun e => decide (e.1 = slot) with
  | none => c
  | some e =>
    let c1 := c.zeroise slot
    match (c1.hd e.2).mbox.pend with
    | some p => if p.op = 0xC142 ∧ p.wait = .zeroise then c1.finish e.2 0xC142 .ok [] else c1
    | none => c1

def execKeyZeroiseDone (slot : Fin 1024) (s : State) : Host.Outcome State Fault Refusal :=
  .next (s.mapCtl (keyZeroiseDone slot))

/-! ## SEAL_BUDGET_SET and SEAL_STATUS -/

/-- SEAL_BUDGET_SET (R193): the seal record for the next power-on start. -/
def sealBudgetRun (h : Head) (p : Bytes) (c : Ctl) : Ctl :=
  if c.maxBudget < le p 0 1 then c.finish h 0xC140 .invalidParameter []
  else c.claiming h 0xC140 p [blkSea] fun c =>
    (c.await h 0xC140 p .flash (match (c.hd h).mbox.pend with
      | some q => q.aux
      | none => c.clock)).writeRecord 4 (toLE 1 (le p 0 1)) (some h)

def sealBudgetSet (h : Head) (p : Bytes) (c : Ctl) : Ctl :=
  c.ocs h 0xC140 { min := 1, sealCap := true } p (sealBudgetRun h p)

def execSealBudgetSet (h : Head) (p : Bytes) (s : State) : Host.Outcome State Fault Refusal :=
  .next (s.mapCtl (sealBudgetSet h p))

/-- A register word as a command reads it, without side effects. -/
def Ctl.wordAt (c : Ctl) (h : Head) (off : Nat) : Nat := match findReg off with
  | some a => c.regValue a h % 2 ^ 32
  | none => 0

/-- The whole register at a block offset, 64-bit registers included. -/
def Ctl.wideAt (c : Ctl) (h : Head) (off : Nat) : Nat := match findReg off with
  | some a => c.regValue a h
  | none => 0

/-- SEAL_STATUS (R220): SEA_GRAN_0 to SEA_GRAN_63, then SEA_STATUS. -/
def sealStatusRun (h : Head) (p : Bytes) (c : Ctl) : Ctl :=
  c.claiming h 0xC146 p [blkSea] fun c =>
    c.finish h 0xC146 .ok (((List.range 64).flatMap fun n => toLE 4 (c.wordAt h (0x130100 + 4 * n))) ++
      toLE 4 (c.wordAt h 0x130004))

def sealStatus (h : Head) (p : Bytes) (c : Ctl) : Ctl := c.ocs h 0xC146 { sealCap := true } p (sealStatusRun h p)

def execSealStatus (h : Head) (p : Bytes) (s : State) : Host.Outcome State Fault Refusal := .next (s.mapCtl (sealStatus h p))

/-! ## Link encryption (R219) -/

/-- A stream set to a state where it passes a test. -/
def HeadSt.setStream (x : HeadSt) (n state : Nat) (ok : Nat → Bool) : HeadSt := match x.ioStreams[n]? with
  | some y => if ok y.state then { x with ioStreams := x.ioStreams.set n { y with state := state } } else x
  | none => x

/-- An integrity failure puts an active stream into the insecure state (R219). -/
def HeadSt.ideFails (x : HeadSt) (w : IdeStream) : HeadSt := match w.index with
  | none => { x with ideUp := false, ideInsecure := x.ideInsecure || x.ideUp }
  | some n => x.setStream n 2 fun st => decide (st = 1)

/-- IDE_INTEGRITY_FAILURE (R219): a fault is raised, and an active stream of the head is insecure. Its requests are refused: those of CXL.mem
do not arrive (`Ctl.memArrives`), and a register or mailbox command stands for a request that its CXL.io stream has let pass
(notes/assumptions/121.md). -/
def execIdeIntegrityFailure (h : Head) (w : IdeStream) (s : State) : Host.Outcome State Fault Refusal :=
  .next (s.mapCtl fun c => (c.modHd h fun x => x.ideFails w).fault (554 + h.num) 0)

/-! ## At a beat boundary (R194, R195, R196, R199, R215) -/

/-- First address and end of a granule's lines. -/
def Ctl.granRange (c : Ctl) (g : Nat) : Nat × Nat := (g * GiB, min ((g + 1) * GiB) c.userEnd)

/-- The end of a granule's SEALING or its seal (R195, R215): its counters, list entries and dirty lines are fresh. -/
def Ctl.freshGranule (c : Ctl) (g : Nat) : Ctl :=
  { c with sea := { c.sea with
    ctrs := c.sea.ctrs.filter fun e => decide (e.1 / 262144 ≠ g)
    unv := c.sea.unv.filter fun u => decide (u.gran ≠ g)
    reenc := c.sea.reenc.filter fun e => decide (e / 262144 ≠ g)
    toUnv := c.sea.toUnv.filter fun x => decide (x ≠ g)
    dirty := c.sea.dirty.filter fun e => decide (e.2.1 ≠ g)
    covers := c.sea.covers.filter fun e => decide (e.1.2.1 ≠ g)
    cached := c.sea.cached.filter fun e => decide (e.2.1 ≠ g)
    tags := c.sea.tags.filter fun e => decide (e.1 / 16777216 ≠ g)
    under := c.sea.under.filter fun e => decide (e.1 / 16777216 ≠ g) } }.set R.SEA_DIRTY_MAP_DIRTY
      (clrBit (c.get R.SEA_DIRTY_MAP_DIRTY) g)

/-- Every granule bound to an erased slot is ERASED, and a seal under way with its key ends (R199);
a key made since in the slot is another. -/
def Ctl.eraseGranules (c : Ctl) : Ctl :=
  let c1 := c.sea.erased.foldl (fun c slot =>
    let c1 := (List.range 64).foldl (fun c g =>
      if c.get (R.SEA_GRAN_STATE g) ≠ 0 ∧ c.get (R.SEA_GRAN_KEY_SLOT g) = slot ∧ c.granKeyErased g = true then
        c.set (R.SEA_GRAN_STATE g) 4 else c) c
    let dead := fun (j : SealJob) => decide (j.slot = slot) &&
      !(c1.flag (R.SEA_KEY_STAT_LIVE slot) && decide (c1.get (R.SEA_KEY_STAT_GEN slot) = j.gen))
    let cut := c1.sea.sealing.filter dead
    cut.foldl (fun c j => match j.bg with
      | some h => (c.dropGranHold h j.gran).finishBg h .invalidParameter
      | none => c) { c1 with sea.sealing := c1.sea.sealing.filter fun j => !dead j }) c
  { c1 with sea.erased := [] }

/-- Unsealed granules turn PLAIN, and their commands complete (R196). -/
def State.applyUnseals (s : State) : State :=
  let s1 := s.ctl.sea.unseals.foldl (fun st g =>
    let (lo, hi) := st.ctl.granRange g
    (st.forget lo hi).mapCtl fun c =>
      let c1 := (c.set (R.SEA_GRAN_STATE g) 0).freshGranule g
      { c1 with ecc.voids := cutRange c1.ecc.voids lo hi }) s
  s1.mapCtl fun (c : Ctl) => Ctl.forHeads { c with sea.unseals := [] } fun (h : Head) (c : Ctl) => match (c.hd h).mbox.pend with
    | some p => if p.op = opUnseal ∧ p.wait = .boundary then c.finish h opUnseal .ok [] else c
    | none => c

/-- Granules whose list overflowed become UNVERIFIABLE (R215), and those whose data a park dropped and whose key is gone (R218). -/
def Ctl.applyToUnv (c : Ctl) : Ctl :=
  let c1 := c.sea.toUnv.foldl (fun c g => if c.get (R.SEA_GRAN_STATE g) = 2 then c.set (R.SEA_GRAN_STATE g) 3 else c) c
  let c2 := c1.sea.dropUnv.foldl (fun c g => if c.get (R.SEA_GRAN_STATE g) = 0 then c else c.set (R.SEA_GRAN_STATE g) 3) c1
  { c2 with sea.toUnv := [], sea.dropUnv := [] }

/-- A seal that cannot begin ends: its command with a code, or the granule of a dropped segment UNVERIFIABLE (R198, R218). -/
def Ctl.sealFails (c : Ctl) (j : SealJob) (o : Ocs) : Ctl :=
  let c1 := { c with sea.sealing := c.sea.sealing.filter fun x => decide (x ≠ j) }
  match j.bg with
  | some h => (c1.dropGranHold h j.gran).finishBg h o
  | none => if c.get (R.SEA_GRAN_STATE j.gran) = 0 then c1 else c1.set (R.SEA_GRAN_STATE j.gran) 3

/-- A granule enters SEALING (R195 steps 1 and 2): bound to its key slot, a PLAIN one to the lowest free seal slot, under
the slot's next epoch. A key whose epoch has reached 0xFFFF meanwhile seals no more (R198). -/
def Ctl.enterSealing (c : Ctl) (j : SealJob) : Ctl :=
  let g := j.gran
  if c.get (R.SEA_KEY_STAT_EPOCH j.slot) = 0xFFFF then c.sealFails j .resourceExhausted else
  let c1 := if c.get (R.SEA_GRAN_STATE g) = 0 then
      (match c.freeSealSlot with
        | some v => c.set (R.MAP_GRAN_SEAL_SLOT g) v
        | none => c)
    else c
  let e := c1.get (R.SEA_KEY_STAT_EPOCH j.slot) + 1
  ((({ c1 with sea.gens := mapPut c1.sea.gens g j.gen }.set (R.SEA_GRAN_STATE g) 1).set (R.SEA_GRAN_KEY_SLOT g) j.slot).set
    (R.SEA_KEY_STAT_EPOCH j.slot) e).set (R.SEA_GRAN_EPOCH g) e

/-- A filled granule becomes SEALED (R195 step 5): every line is zero and written with its metadata lines, every counter 0. -/
def State.enterSealed (s : State) (j : SealJob) : State :=
  let (lo, hi) := s.ctl.granRange j.gran
  ((s.forget lo hi).healMeta j.gran).mapCtl fun c =>
    let c1 := (c.set (R.SEA_GRAN_STATE j.gran) 2).freshGranule j.gran
    let c2 := { c1 with
      ecc.voids := cutRange c1.ecc.voids lo hi
      ecc.filled := mapPut c1.ecc.filled j.gran c1.ecc.losses.length }
    match j.bg with
    | some h => c2.finishBg h .ok
    | none => c2

/-- The opcode of STACK_UNPARK. -/
def opUnpark : Nat := 0xC008

/-- STACK_UNPARK completes once the dies have left self-refresh and the reseals of R167 have ended (R295, R303): PARKED
clears and both heads get STACK_UNPARKED. -/
def Ctl.unparkDone (c : Ctl) : Ctl :=
  let waits := fun (h : Head) => match (c.hd h).mbox.pend with
    | some p => decide (p.op = opUnpark) && decide (p.wait = .commit)
    | none => false
  if c.stk.selfRef = 0 ∧ c.sea.dropUnv = [] ∧ (c.sea.sealing.any fun j => j.bg.isNone) = false ∧ (waits .a || waits .b) = true then
    let c1 := ({ c with stk.srcPark := 0 }.set R.IDC_KPR_STAT_PARKED 0).eventAll logInfo 0x0304 0xFFFF 0
    c1.forHeads fun h c => if waits h then c.finish h opUnpark .ok [] else c
  else c

/-- GRANULE_STATE_CHANGE (R194): the pending changes of granule states, in the order erased, unsealed, unverifiable,
sealed, sealing; the last is the running Keeper's work. -/
def State.sealBoundary (s : State) : State :=
  let s1 := ((s.mapCtl Ctl.eraseGranules).applyUnseals).mapCtl Ctl.applyToUnv
  let ready := s1.ctl.sea.sealing.filter fun j => decide (j.step = 2)
  let s2 := ready.foldl State.enterSealed
    (s1.mapCtl fun c => { c with sea.sealing := c.sea.sealing.filter fun j => decide (j.step ≠ 2) })
  if s2.ctl.kpr.phase ≠ 3 then s2
  else
    let s3 := (s2.ctl.sea.sealing.filter fun j => decide (j.step = 0)).foldl (fun st j => st.mapCtl fun c => c.enterSealing j) s2
    (s3.mapCtl fun c => { c with sea.sealing := c.sea.sealing.map fun (j : SealJob) =>
      if j.step = 0 then { j with step := 1 } else j }).mapCtl Ctl.unparkDone

/-! ## SELF_REFRESH_EXITED (R166, R167) -/

/-- The stack addresses of a segment of R167. -/
def Ctl.segment (c : Ctl) (n : Nat) : Nat × Nat :=
  let size := match c.part with
    | .rc4812 => 6144 * MiB
    | .rc3208 => 4096 * MiB
  (n * size, if n = 7 then (match c.part with
    | .rc4812 => max (n * size) (c.get R.MAP_MAPPED_END_GRAN * 65536)
    | .rc3208 => n * size) else (n + 1) * size)

/-- A sealed granule of a dropped segment is resealed under its bound key, or becomes UNVERIFIABLE at the next boundary when that key is
erased or spent (R167, R194, R218). -/
def Ctl.resealDropped (c : Ctl) (g : Nat) : Ctl :=
  let slot := c.get (R.SEA_GRAN_KEY_SLOT g)
  if c.get (R.SEA_GRAN_STATE g) = 0 ∨ c.sealingNow g = true then c
  else if c.sealEff g ≠ 4 ∧ c.granKeyLive g = true ∧ c.get (R.SEA_KEY_STAT_EPOCH slot) ≠ 0xFFFF then
    { c with sea.sealing := c.sea.sealing ++ [⟨g, slot, 0, none, c.get (R.SEA_KEY_STAT_GEN slot)⟩] }
  else { c with sea.dropUnv := g :: c.sea.dropUnv }

/-- The lines of the dropped segments hold no defined data, and the sealed granules they overlap are re-established. -/
def State.dropSegments (s : State) (mask : Nat) : State :=
  (maskList mask 8).foldl (fun st n =>
    let (lo, hi) := st.ctl.segment n
    (st.forget lo hi).mapCtl fun c0 =>
      let c := { c0 with ecc.dropped := (lo, hi, c0.ecc.losses.length) :: c0.ecc.dropped }
      ((List.range 64).filter fun g =>
      decide (lo < (g + 1) * GiB) && decide (g * GiB < hi)).foldl Ctl.resealDropped c) s

/-- SELF_REFRESH_EXITED (R166, R167): the dies that were leaving self-refresh have left it: one refresh window on each
channel, scheduling resumes, and dropped segments hold no defined data. -/
def execSelfRefreshExited (s : State) : Host.Outcome State Fault Refusal :=
  if s.ctl.stk.selfRef = 3 then
    let s1 := s.mapCtl fun c => { c.windowOnAll with stk.selfRef := 0 }.set R.STK_SR_STAT_IN_SR 0
    .next ((s1.dropSegments (s1.ctl.get R.STK_SR_STAT_DROPPED)).mapCtl Ctl.unparkDone)
  else .next s

end Sys2Proof.Machine
end

