-- ==== Sys2Proof/Machine/Forager.lean ====
section
/-! DEFINITION. The passes of the Forager (R179 to R181) and the commands of R191. -/

namespace Sys2Proof.Machine

/-! ## Passes -/

/-- The lines the Forager issues in one beat (FRG_CFG). -/
def Ctl.foragerStep (c : Ctl) : Nat := min 1024 (c.get R.FRG_CFG_LINES_PER_BEAT)

/-- At a beat boundary the running pass issues its next lines in ascending stack address (R179); it pauses in a shutdown and in self-refresh. -/
def Ctl.foragerSlice (c : Ctl) : Ctl := match c.notePass.frg.passes with
  | [] => c
  | p :: t =>
    let n := min c.foragerStep ((p.stop - p.pos + 63) / 64)
    if n = 0 ∨ c.stackAwake = false ∨ c.domainOpen 12 = false then c.notePass
    else { c with frg.passes := ({ p with
      issued := p.issued ++ (List.range n).map fun i => p.pos / 64 + i
      pos := min p.stop (p.pos + 64 * n)
      firstAt := some (p.firstAt.getD c.now) } : Pass) :: t }.notePass

/-- Every line of a pass has been issued and checked. -/
def Pass.over (p : Pass) : Bool := decide (p.stop ≤ p.pos) && p.issued.isEmpty

/-- The summary of a pass (R180); an empty pass has an empty one. -/
def Pass.summary (p : Pass) : Bytes :=
  if p.linesRead = 0 then List.replicate 128 0
  else
    toLE 8 p.linesRead ++ toLE 8 p.corrected ++ toLE 8 p.mired ++ toLE 8 p.tagFails ++
      toLE 8 (p.lastAt - p.firstAt.getD p.lastAt) ++ toLE 4 p.newMired ++ toLE 1 p.maxSym ++ toLE 1 p.flags ++ toLE 2 0 ++
      p.dieCorr.flatMap (toLE 4) ++ p.dieMired.flatMap (toLE 2) ++ toLE 8 0

/-- The Forager's queue without its first pass. -/
def Ctl.dropPass (c : Ctl) : Ctl := { c with frg.passes := c.frg.passes.drop 1 }

/-- The summary of a metadata pass goes out on the requesting head's link, and that head's background-completion event
is raised with handle 0 (R181, R309). -/
def Ctl.metaPassEnd (c : Ctl) (p : Pass) : Ctl :=
  let tag := c.job.tag
  let c1 := { c.dropPass with job.tag := tag + 1 }.emit
    (.dmaWrite p.head tag p.bus false false (c.hd p.head).relaxed p.summary)
  c1.event p.head logInfo kindVendor 0x0302 p.head.num 0 0

/-- FORAGER_PASS_END (R107, R180, R181): the running pass, all of whose lines are checked, writes its summary, and its
SCRUB job ends. A summary bound for the link waits until the link carries requests, and one bound for the stack needs its place still in its
owner's partitions (R118 step 6). -/
def execForagerPassEnd (s : State) : Host.Outcome State Fault Refusal :=
  match s.ctl.frg.passes with
  | [] => .next s
  | p :: _ =>
    if !p.over then .next s
    else match p.slot with
      | none => .next (if s.ctl.linkReady p.head then s.mapCtl fun c => c.metaPassEnd p else s)
      | some slot => match s.ctl.jobAt slot with
        | none => .next (s.mapCtl Ctl.dropPass)
        | some j =>
          if j.stop.isSome then .next (s.mapCtl fun c => c.endJob j (j.stop.getD 0))
          else if j.dstSpace ≠ 0 ∧ s.ctl.linkReady j.owner = false then .next s
          else if j.dstSpace = 0 ∧ (s.ctl.classAdmits j = false ∨ (spanLines j.dst 128).any (s.ctl.lineHeld true) = true) then .next s
          else match s.ctl.rangeRefused (Job.bufRange j.dstSpace j.dst 128) fun _ sa => !s.ctl.mayReach j.owner sa with
          | some (r, sa) => .next (s.mapCtl fun c => c.violates slot r.errFrag (c.rangeOffset r sa) sa)
          | none =>
            let j1 := { j with computed := true, result0 := p.linesRead }
            .next ((((s.mapCtl fun c => (c.dropPass).putJob j1)).writeDst j1
              (p.summary.map fun b => (false, b))).endIfDone slot)

/-! ## The commands of R191 -/

/-- Where a metadata region lies (R49, R51, R181): its first byte and its end. -/
def Ctl.metaRegion (c : Ctl) (region : Nat) : Option (Nat × Nat) :=
  let b := fun (f : Fld) => c.get f * 65536
  match region with
  | 1 => some (b R.MAP_TAG_BASE_GRAN, b R.MAP_CTR_BASE_GRAN)
  | 2 => some (b R.MAP_CTR_BASE_GRAN, b R.MAP_TREE_BASE_GRAN)
  | 3 => some (b R.MAP_TREE_BASE_GRAN, b R.MAP_STX_BASE_GRAN)
  | 4 => some (b R.MAP_STX_BASE_GRAN, b R.MAP_KPR_BASE_GRAN)
  | 5 => some (b R.MAP_KPR_BASE_GRAN, b R.MAP_SLACK_BASE_GRAN)
  | _ => none

/-- FRG_META_PASS (R181, R191): a pass over a metadata region is queued. -/
def frgMetaPassRun (h : Head) (p : Bytes) (c : Ctl) : Ctl :=
  match c.metaRegion (le p 0 1) with
  | none => c.finish h 0xC131 .invalidParameter []
  | some (lo, hi) =>
    if le p 8 8 % 64 ≠ 0 then c.finish h 0xC131 .invalidParameter []
    else c.claiming h 0xC131 p [blkEcc] fun c =>
      { c with frg.passes := c.frg.passes ++ [({ slot := none, head := h, bus := le p 8 8, pos := lo, stop := hi } : Pass)] }.finish
        h 0xC131 .ok []

def frgMetaPass (h : Head) (p : Bytes) (c : Ctl) : Ctl := c.ocs h 0xC131 { min := 16, stack := true } p (frgMetaPassRun h p)

def execFrgMetaPass (h : Head) (p : Bytes) (s : State) : Host.Outcome State Fault Refusal :=
  .next (s.mapCtl (frgMetaPass h p))

/-- The retirement of a die would be a second loss (R183, R191): the reserve is bound to another die, or will be at the next boundary by a
cause that waits for it. -/
def Ctl.secondDie (c : Ctl) (d : Nat) : Bool :=
  !c.reserveFor d || (!c.flag R.MAP_LAYOUT_RES_BOUND &&
    c.ecc.causes.any fun k => (decide (k.kind = 0) && decide (k.unit ≠ d)) || (decide (k.kind = 1) && decide (k.unit / 4 ≠ d)))

/-- DIE_RETIRE (R183, R191): the die is retired at the next beat boundary. -/
def dieRetireRun (h : Head) (p : Bytes) (c : Ctl) : Ctl :=
  let d := le p 0 1
  if c.nd ≤ d ∨ c.dieRetired d = true ∨ (c.secondDie d = true ∧ le p 1 1 ≠ 0x5A) then
    c.finish h 0xC132 .invalidParameter []
  else if c.flag R.ECC_MIG_ACTIVE then c.finish h 0xC132 .busy []
  else c.claiming h 0xC132 p [blkEcc] fun c => (c.addCause ⟨1, 0, d, false⟩).finish h 0xC132 .ok []

def dieRetire (h : Head) (p : Bytes) (c : Ctl) : Ctl := c.ocs h 0xC132 { min := 2, stack := true } p (dieRetireRun h p)

def execDieRetire (h : Head) (p : Bytes) (s : State) : Host.Outcome State Fault Refusal := .next (s.mapCtl (dieRetire h p))

/-- RETIRE_STATUS (R191). -/
def retireStatusRun (h : Head) (p : Bytes) (c : Ctl) : Ctl :=
  c.claiming h 0xC133 p [blkEcc] fun c =>
    c.finish h 0xC133 .ok (toLE 4 (c.wordAt h 0x150030) ++ toLE 4 c.migWord ++ toLE 4 (c.get R.ECC_MIG_FRONT_FRONT) ++
      toLE 8 (maskOf 64 fun n => c.flag (R.MAP_GRAN_LOST n)))

def retireStatus (h : Head) (p : Bytes) (c : Ctl) : Ctl := c.ocs h 0xC133 {} p (retireStatusRun h p)

def execRetireStatus (h : Head) (p : Bytes) (s : State) : Host.Outcome State Fault Refusal :=
  .next (s.mapCtl (retireStatus h p))

/-- A mire record in its 16 bytes (R177). -/
def MireRec.encode (r : MireRec) : Bytes := toLE 6 r.where_ ++ toLE 1 r.cause ++ toLE 1 r.source ++ toLE 8 r.time

/-- Records a mailbox payload of 2,048 bytes holds beside the 16-byte header. -/
def mireRecordsPerRead : Nat := 127

/-- MIRE_LOG_READ (R191): sequence numbers compare modulo 2^32; a number not yet written returns no record, and one that
the log does not hold starts at the oldest record. -/
def mireLogReadRun (h : Head) (p : Bytes) (c : Ctl) : Ctl :=
  c.claiming h 0xC130 p [blkEcc] fun c =>
    let next := c.get R.ECC_MIRE_SEQ_NEXT
    let oldest := match c.ecc.log with
      | r :: _ => r.seq
      | [] => next
    let first := le p 0 4
    let out := if (first + 2 ^ 32 - next) % 2 ^ 32 < 2 ^ 31 then
        toLE 4 next ++ toLE 4 next ++ toLE 4 oldest ++ toLE 4 0
      else
        let held := c.ecc.log.dropWhile fun r => decide (r.seq ≠ first)
        let recs := (if held.isEmpty then c.ecc.log else held).take (min (min 256 (le p 4 2)) mireRecordsPerRead)
        let start := if held.isEmpty then oldest else first
        toLE 4 start ++ toLE 4 next ++ toLE 4 oldest ++ toLE 4 recs.length ++
          recs.flatMap MireRec.encode
    c.finish h 0xC130 .ok out

def mireLogRead (h : Head) (p : Bytes) (c : Ctl) : Ctl := c.ocs h 0xC130 { min := 6 } p (mireLogReadRun h p)

def execMireLogRead (h : Head) (p : Bytes) (s : State) : Host.Outcome State Fault Refusal :=
  .next (s.mapCtl (mireLogRead h p))

end Sys2Proof.Machine
end

