-- ==== Sys2Proof/Machine/Heads.lean ====
section
/-! DEFINITION. Heads and their links (R239 to R256, R267 to R270): head states, fencing, adoption and rejoin, the holds
of held commands (R151, R220, R269), and platform time (R257 to R261). -/

namespace Sys2Proof.Machine

/-! ## Lanes of a head (R239, R283, R284) -/

/-- The lanes of a head. -/
def Ctl.lanesOf (c : Ctl) (h : Head) : List Nat :=
  if c.twoHeads then (match h with
    | .a => List.range 8
    | .b => (List.range 8).map fun i => 8 + i)
  else (match h with
    | .a => List.range 16
    | .b => [])

/-- The rails by number: 0 VDD_LOGIC, 1 VIN_IVR, 2 VPP, 3 VDD_PHY, 4 VDD_IO. -/
def railPhy : Nat := 3

/-- A near-end loop holds a lane (R282). -/
def Ctl.laneLooped (c : Ctl) (n : Nat) : Bool :=
  decide (c.get (R.PHYL_STATUS_LOOP n) = 1) || decide (c.get (R.PHYL_STATUS_LOOP n) = 2)

/-- All lanes of a head are held idle (R283): a rail is absent, the start has not reached link training, PERST# is
asserted, or the fence holds the link. -/
def Ctl.headHeld (c : Ctl) (h : Head) : Bool :=
  decide (c.rst.awaiting ≠ 8) || c.rst.railsOut.contains railPhy || (c.hd h).perst || (c.hd h).detectHold ||
    decide (c.hstate h = 6)

/-- A head does not train: its lanes are held, or a near-end loop holds one of them (R282, R283). -/
def Ctl.headBlocked (c : Ctl) (h : Head) : Bool := c.headHeld h || (c.lanesOf h).any c.laneLooped

/-- A lane is in Loopback, the device being the follower (R281). -/
def Ctl.laneFollows (c : Ctl) (n : Nat) : Bool := decide (c.get (R.PHYL_STATUS_LOOP n) = 3)

/-- The lanes of a head as R283 and R284 leave them: held each by itself, in Detect, in Loopback, or in the link. A held lane leaves
Loopback. -/
def Ctl.judgeLanes (c : Ctl) (h : Head) : Ctl :=
  let all := c.headHeld h
  (c.lanesOf h).foldl (fun c n =>
    let held := all || c.laneLooped n
    let follows := !held && c.laneFollows n
    let inLink := !held && c.flag (R.HD_STATE_LINK_UP h.num) && c.flag (R.PHYL_STATUS_IN_LINK n)
    let c1 := if c.laneFollows n && !follows then (c.set (R.PHYL_STATUS_LOOP n) 0).set (R.PHYL_STATUS_RATE n) 0 else c
    ((c1.set (R.PHYL_STATUS_RX_TERM n) (bit (!held))).set (R.PHYL_STATUS_TX_IDLE n) (bit (!(inLink || follows)))).set
      (R.PHYL_STATUS_IN_LINK n) (bit inLink)) c

/-- The partner has left Loopback: its lanes are in Detect again, at 2.5 GT/s. -/
def Ctl.leaveLoopback (c : Ctl) (h : Head) : Ctl :=
  ((c.lanesOf h).foldl (fun c n => if c.laneFollows n then (c.set (R.PHYL_STATUS_LOOP n) 0).set (R.PHYL_STATUS_RATE n) 0 else c) c).judgeLanes h

/-- A link of a head may run in this form (R273): a supported rate, a supported width within the head's lanes, and a flit mode of the
rate. Clocking and lane order are the partner's and bind nothing else. -/
def Ctl.linkLegal (c : Ctl) (h : Head) (k : LinkForm) : Bool :=
  decide (k.rate ≤ 5) && [1, 2, 4, 8, 16].contains ((c.lanesOf h).filter (tb k.lanes)).length &&
    decide (k.lanes = maskOf 16 fun n => tb k.lanes n && (c.lanesOf h).contains n) &&
    (k.flit || decide (k.rate ≠ 5)) && (!k.flit || decide (2 ≤ k.rate))

/-- A lane's adaptation is frozen (R276). -/
def Ctl.frozen (c : Ctl) (n : Nat) : Bool := match c.headOfLane n with
  | .a => c.flag R.PHYC_CFG_FREEZE_A
  | .b => c.flag R.PHYC_CFG_FREEZE_B

/-- A scan of a lane ends without completing (R280). -/
def Ctl.endScan (c : Ctl) (n : Nat) : Ctl :=
  if c.flag (R.PHYL_SCAN_CTL_BUSY n) then
    ((({ c with phy.scans := mapDel c.phy.scans n } : Ctl).set (R.PHYL_SCAN_CTL_BUSY n) 0).set
      (R.PHYL_SCAN_CTL_PAUSED n) 0).set (R.PHYL_SCAN_CTL_ABORTED n) 1
  else c

/-- What a retraining or the loss of the link ends on a lane (R277, R280): scan, sweep, margining and the validity of its
figure of merit. -/
def Ctl.endLaneWork (c : Ctl) (n : Nat) : Ctl :=
  { c.endScan n with phy := { (c.endScan n).phy with
    sweeping := c.phy.sweeping.filter fun x => decide (x ≠ n)
    fomPend := mapDel c.phy.fomPend n
    margin := c.phy.margin.filter fun x => decide (x ≠ n)
    fomDue := c.phy.fomDue.filter fun x => decide (x ≠ n)
    retrained := c.phy.retrained.filter fun x => decide (x ≠ n) } }.set (R.PHYL_FOM_VALID n) 0

/-- The place of a lane within its link. -/
def logicalLane (lanes : List Nat) (reversed : Bool) (n : Nat) : Nat :=
  let below := (lanes.filter fun x => decide (x < n)).length
  if reversed then lanes.length - 1 - below else below

/-- A link as it comes out of training (R273 to R277): each lane's rate and place, with adaptation from the presets, whose first values
land even on a frozen lane. -/
def Ctl.trainLanes (c : Ctl) (h : Head) (k : LinkForm) : Ctl :=
  let live := (c.lanesOf h).filter (tb k.lanes)
  let c0 := (c.lanesOf h).foldl (fun c n =>
    let c1 := (c.endLaneWork n).restartAdaptation n
    let c2 := (c1.set (R.PHYL_STATUS_IN_LINK n) (bit (tb k.lanes n))).set (R.PHYL_STATUS_RATE n) k.rate
    let c3 := (c2.set (R.PHYL_STATUS_REVERSED n) (bit k.reversed)).set (R.PHYL_STATUS_POL_INV n) (bit (tb k.polarity n))
    (c3.set (R.PHYL_STATUS_LOGICAL n) (if tb k.lanes n then logicalLane live k.reversed n else 0)).set
      (R.PHYL_STATUS_LOOP n) 0) (c.modHd h fun x => { x with flit := k.flit })
  { c0 with phy.retrained := live.filter c.frozen ++ c0.phy.retrained }

/-- The lanes of a link run at a rate (PHYL_STATUS.RATE). -/
def Ctl.setRates (c : Ctl) (lanes : List Nat) (rate : Nat) : Ctl := lanes.foldl (fun c n => c.set (R.PHYL_STATUS_RATE n) rate) c

/-! ## Platform time (R257 to R261) -/

/-- A number moved by a step, never below 0. -/
def shiftBy (d : Int) (n : Nat) : Nat := ((n : Int) + d).toNat

/-- A request, and a transfer, moved by a step of platform time. -/
def Req.shift (d : Int) (r : Req) : Req := { r with arrival := shiftBy d r.arrival, deadline := shiftBy d r.deadline }
def Xfer.shift (d : Int) (x : Xfer) : Xfer := { x with arrival := shiftBy d x.arrival, deadline := shiftBy d x.deadline }

/-- A signed value as a 64-bit field holds it. -/
def toS64 (d : Int) : Nat := (d % (2 ^ 64 : Int)).toNat

/-- The signed value of a 64-bit field. -/
def ofS64 (n : Nat) : Int := if n < 2 ^ 63 then (n : Int) else (n : Int) - 2 ^ 64

/-- A step of platform time (R261): every deadline the device holds moves with it, it is counted and reported, and the
beat grid moves. -/
def Ctl.timeStep (c : Ctl) (d : Int) : Ctl :=
  let now := shiftBy d c.now
  let c1 := { c with
    job.jobs := c.job.jobs.map fun (j : Job) => { j with deadline := j.deadline.map (shiftBy d) }
    stk.chans := c.stk.chans.map fun (e : Nat × ChanSt) =>
      (e.1, { e.2 with queue := e.2.queue.map (Req.shift d), waiting := e.2.waiting.map (Req.shift d) })
    stk.lanes := c.stk.lanes.map fun (e : Nat × LaneSt) =>
      (e.1, { e.2 with pending := e.2.pending.map (Xfer.shift d), waiting := e.2.waiting.map (Xfer.shift d) })
    stepped := true
    slew := 0
    slewAcc := 0 }
  (((c1.set R.TIM_NOW_VALUE now).bump R.TIM_STEP_CNT_STEPS).set R.TIM_LAST_STEP_VALUE (toS64 d)).eventAll logInfo 0x0204
    0xFFFF (toS64 d)

/-- The rate measured over the last two readings of the time head, within a thousandth of 1; with one reading it stays (R257; DESIGN CHOICE,
notes/assumptions/135.md). -/
def Ctl.measuredRate (c : Ctl) (t : Int) : Int := match c.lastRead with
  | some (h, ck, t0) =>
    if h = c.get R.TIM_STATUS_SOURCE ∧ ck < c.clock then
      let dt : Int := (c.clock : Int) - ck
      max (-1000000) (min 1000000 ((t - t0 - dt) * 1000000000 / dt))
    else c.rate
  | none => c.rate

/-- A reading of the time source: the rate is measured anew (R257), and the reading compared with platform time (R260): slewed up to
1,000 ns, else stepped. -/
def Ctl.timeReading (c0 : Ctl) (t : Int) : Ctl :=
  let c := { c0 with rate := c0.measuredRate t, lastRead := some (c0.get R.TIM_STATUS_SOURCE, c0.clock, t) }
  let err := t - (c.now : Int)
  if err.natAbs ≤ 1000 then { c with slew := err, slewAcc := 0 } else c.timeStep err

/-- A head is locked (R257), and its lock bit set. -/
def Ctl.locked (c : Ctl) : Head → Bool
  | .a => c.flag R.TIM_STATUS_A_LOCKED
  | .b => c.flag R.TIM_STATUS_B_LOCKED
def Ctl.setLocked (c : Ctl) (h : Head) (v : Nat) : Ctl := match h with
  | .a => c.set R.TIM_STATUS_A_LOCKED v
  | .b => c.set R.TIM_STATUS_B_LOCKED v

/-- The preferred head (TIM_CFG.PREFER). -/
def Ctl.preferred (c : Ctl) : Head := Head.ofNum (c.get R.TIM_CFG_PREFER)

/-- A head becomes the time head (R258): the count goes on as it stands, and the head's readings count from the offset
that its own exchanges have kept. -/
def Ctl.takeTime (c : Ctl) (h : Head) : Ctl :=
  let base := if c.flag R.TIM_STATUS_OFFSET_VALID then ofS64 (c.get R.TIM_OFFSET_VALUE) else 0
  let c1 := { c with timeBase := base, holdDue := none, preferDue := none, lastRead := none }
  ((((c1.set R.TIM_STATUS_SOURCE h.num).set R.TIM_STATUS_HOLDOVER 0).set R.TIM_STATUS_TIME_UNTRUSTED 0).set
    R.TIM_STATUS_OFFSET_VALID 0).eventAll logInfo 0x0202 h.num 0

/-- A head loses its lock (R257, R258): the time head's loss starts holdover. -/
def Ctl.loseLock (c : Ctl) (h : Head) : Ctl :=
  let c0 := c.modHd h fun x => { x with ptmMiss := 0, ptmOut := false, unlockAt := if c.locked h then c.clock else x.unlockAt }
  if c.locked h then
    let c1 := c0.setLocked h 0
    if c1.get R.TIM_STATUS_SOURCE = h.num then
      ({ c1 with holdDue := some (c1.clock + 10000000) }.set R.TIM_STATUS_HOLDOVER 1).eventAll logWarn 0x0201 h.num 0
    else c1.set R.TIM_STATUS_OFFSET_VALID 0
  else c0

/-- With no time head, a locked head that is not the preferred one (R258): it takes over once the preferred head has been unavailable
for 10 ms, at once where it has been so already. -/
def Ctl.standIn (c : Ctl) (h : Head) : Ctl :=
  let due := (c.hd h.other).unlockAt + 10000000
  if due ≤ c.clock then c.takeTime h else { c with preferDue := some due }

/-- PTM_EXCHANGE_START (R257): at a beat that is a multiple of PTM_PERIOD, an exchange starts on each head that has PTM
Enable and a link; the fourth in a row that gets no response loses the lock. -/
def ptmExchangeStart (c : Ctl) : Ctl :=
  c.forHeads fun h c =>
    let x := c.hd h
    if !x.ptmDue then c
    else
      let c0 := c.setHd h { x with ptmDue := false }
      if !x.ptmEn || !c.flag (R.HD_STATE_LINK_UP h.num) then c0
      else
        let miss := if x.ptmOut then x.ptmMiss + 1 else x.ptmMiss
        let c1 := if 4 ≤ miss then c0.loseLock h else c0.modHd h fun y => { y with ptmMiss := miss }
        (c1.modHd h fun y => { y with ptmOut := true }).emit (.ptmRequest h)

def execPtmExchangeStart (s : State) : Host.Outcome State Fault Refusal := .next (s.mapCtl ptmExchangeStart)

/-- PTM_RESPONSE (R257 to R260): a valid response with the head's PTM time locks the head; it moves platform time when the
head is, or becomes, the time head, and else gives TIM_OFFSET. -/
def ptmResponse (h : Head) (t : Nat) (c : Ctl) : Ctl :=
  if !(c.hd h).ptmOut then c
  else
    let c1 := (c.modHd h fun x => { x with ptmOut := false, ptmMiss := 0 }).setLocked h 1
    let src := c1.get R.TIM_STATUS_SOURCE
    if src = h.num then
      ({ c1 with holdDue := none }.set R.TIM_STATUS_HOLDOVER 0).timeReading ((t : Int) - c1.timeBase)
    else if src < 2 then
      (c1.set R.TIM_OFFSET_VALUE (toS64 ((t : Int) - (c1.now : Int)))).set R.TIM_STATUS_OFFSET_VALID 1
    else if c1.preferred = h then (c1.takeTime h).timeReading (t : Int)
    else if c1.preferDue.isSome ∨ c1.locked h.other = true then c1
    else
      let c2 := c1.standIn h
      if c2.get R.TIM_STATUS_SOURCE = h.num then c2.timeReading (t : Int) else c2

def execPtmResponse (h : Head) (t : Nat) (s : State) : Host.Outcome State Fault Refusal := .next (s.mapCtl (ptmResponse h t))

/-- HOLDOVER_EXPIRY (R258, R260): 10 ms after the loss of the time head, the other head takes over when it is locked, `t`
being its PTM time at that moment; else platform time runs free. -/
def holdoverExpiry (t : Nat) (c : Ctl) : Ctl :=
  match c.holdDue with
  | none => c
  | some due =>
    let c1 := c.passTo due
    let other := (Head.ofNum (c1.get R.TIM_STATUS_SOURCE)).other
    if c1.locked other then
      let c2 := c1.takeTime other
      c2.timeReading ((t : Int) - c2.timeBase)
    else
      (((({ c1 with holdDue := none, timeBase := 0, rate := 0, rateAcc := 0 }.set R.TIM_STATUS_HOLDOVER 0).set R.TIM_STATUS_SOURCE 2).set
        R.TIM_STATUS_TIME_UNTRUSTED 1).set R.TIM_STATUS_OFFSET_VALID 0).notePass.eventAll logWarn 0x0203 0xFFFF 0

def execHoldoverExpiry (t : Nat) (s : State) : Host.Outcome State Fault Refusal := .next (s.mapCtl (holdoverExpiry t))

/-- PREFERRED_HEAD_WAIT_EXPIRY (R258): with no time head, the other locked head takes over once the preferred head has
been unavailable for 10 ms. -/
def preferredHeadWaitExpiry (c : Ctl) : Ctl :=
  match c.preferDue with
  | none => c
  | some due =>
    let c1 := { c.passTo due with preferDue := none }
    let other := c1.preferred.other
    if c1.get R.TIM_STATUS_SOURCE = 2 ∧ c1.locked other = true ∧ c1.locked c1.preferred = false then c1.takeTime other else c1

def execPreferredHeadWaitExpiry (s : State) : Host.Outcome State Fault Refusal :=
  .next (s.mapCtl preferredHeadWaitExpiry)

/-- SWITCH (R258): the head that is not the time head takes over, when it is locked. -/
def Ctl.timSwitch (c : Ctl) : Ctl :=
  let src := c.get R.TIM_STATUS_SOURCE
  if src < 2 ∧ c.locked (Head.ofNum src).other = true then c.takeTime (Head.ofNum src).other else c

/-- A change of PREFER (R258): with no time head, a locked preferred head takes over, and a locked other head stands in for
it after its 10 ms. -/
def Ctl.preferChanged (c : Ctl) : Ctl :=
  if c.get R.TIM_STATUS_SOURCE < 2 then c
  else if c.locked c.preferred then c.takeTime c.preferred
  else if c.preferDue.isSome ∨ c.locked c.preferred.other = false then c
  else c.standIn c.preferred.other

/-! ## Link traffic (R246) -/

/-- What waited for a head's link goes out, in its original order (R246). -/
def Ctl.releaseLink (c : Ctl) (h : Head) : Ctl :=
  if c.linkReady h then
    let c1 := (c.hd h).waiting.foldl (fun c t => match t with
      | .cqe addr data => c.emit (.cqWrite h addr data)
      | .msix v => c.msix h v) (c.modHd h fun x => { x with waiting := [] })
    c1.pump
  else c

/-- A message of an output record, as it would wait again. -/
def Out.linkTx (o : Out) (h : Head) : Option LinkTx := match o with
  | .cqWrite h' addr data => if h' = h then some (.cqe addr data) else none
  | .msix h' v => if h' = h then some (.msix v) else none
  | _ => none

/-- The last `n` completion writes and messages of a head, oldest first, that its link had not acknowledged (R246). -/
def Ctl.unacked (c : Ctl) (h : Head) (n : Nat) : List LinkTx := ((c.outbox.filterMap fun o => o.linkTx h).take n).reverse

/-- THERMAL_RESUMED after a power-down (R318, R320): the die that CAUSE named at the shutdown, its governing temperature now, and STAGE. -/
def Ctl.resumedEvent (c : Ctl) (h : Head) (e : OwedEvent) : Ctl :=
  let d := c.rst.coolDie
  c.event h e.log kindVendor e.code d (e.info + (if d < 12 then c.get (R.THM_DIE_GOVERN d) else toS16 (c.governBase.getD 0)) +
    2 ^ 16 * c.get R.THM_STATUS_STAGE) e.flags

/-- Events kept for a head until its link trains (R188, R341): a health record under its reason, the others under their vendor
codes. -/
def Ctl.trained (c : Ctl) (h : Head) : Ctl :=
  (c.hd h).onTrain.foldl (fun c e => if e.code = 0x0406 then c.resumedEvent h e else
      c.event h e.log (if e.code < 0x100 then kindModule else kindVendor) e.code 0xFFFF e.info e.flags)
    (c.modHd h fun x => { x with onTrain := [] })

/-- A head arrives in UP (R245): it is admitted, the other head hears of it, and what waited goes out. -/
def Ctl.headUp (c : Ctl) (h : Head) : Ctl :=
  let c1 := ((c.set (R.HD_STATE_STATE h.num) 2).set (R.HD_STATE_LINK_UP h.num) 1).modHd h fun x =>
    { x with admitted := true, fenceOwed := false, credits := 2048 - c.memHeld h }
  ((c1.eventOther h logInfo 0x0101).trained h).releaseLink h

/-- The link of a head goes down (R246, R257, R280): its lanes leave the link and return to 2.5 GT/s, and its lock is lost. -/
def Ctl.linkLost (c : Ctl) (h : Head) : Ctl :=
  let c1 := ((c.lanesOf h).foldl (fun c n => (c.endLaneWork n).set (R.PHYL_STATUS_IN_LINK n) 0) c).setRates
    ((c.lanesOf h).filter fun n => !c.laneLooped n) 0
  let c2 := (c1.set (R.HD_STATE_LINK_UP h.num) 0).modHd h fun x => { x with linkRate := 0, l0p := false, ideUp := false, ioStreams := x.ioStreams.map fun (y : IoStream) => { y with state := 0 } }
  (c2.loseLock h).judgeLanes h

/-! ## Fencing (R247 to R251) -/

/-- ENABLE clears in every ring a head owns (R249). -/
def Ctl.disableRings (c : Ctl) (h : Head) : Ctl :=
  (List.range 64).foldl (fun c q =>
    let c1 := if c.sqOwner q = h then c.sqDisable q else c
    if c1.cqOwner q = h then c1.set (R.JRG_CQ_CFG_ENABLE q) 0 else c1) c

/-- The completions of a head that its slots hold from now on (R249): those not written, and those written and not acknowledged on its
link, each in a slot of its own again. Its waiting messages are dropped with its host (DESIGN CHOICE, notes/assumptions/136.md). -/
def Ctl.holdCompletions (c : Ctl) (h : Head) : Ctl :=
  let c1 := { c with job.jobs := c.job.jobs.map fun (j : Job) =>
    if j.owner = h ∧ j.phase = JobPhase.ended then { j with held := some h } else j }
  (c1.hd h).waiting.foldl (fun c t => match t with
    | .cqe _ b => match (List.range 8192).find? fun n => (c.jobAt n).isNone with
      | some n => { c with job.jobs := c.job.jobs ++ [Job.ofCompletion n h b] }
      | none => c
    | .msix _ => c) (c1.modHd h fun x => { x with waiting := [] })

/-- A fence of a head starts (R249): its requests are refused, its link is held in Detect, its rings stop, its running
jobs are stopped, its completions are held, and its metadata passes end (R181). -/
def Ctl.startFence (c : Ctl) (h : Head) (cause : Nat) : Ctl :=
  if c.fenced h ∨ c.hstate h = 6 then c
  else
    let c1 := ((c.set (R.HD_STATE_STATE h.num) 4).set (R.HD_STATE_FENCE_CAUSE h.num) cause).modHd h fun x =>
      { x with fenceAt := c.clock, detectHold := true }
    let c2 := (c1.disableRings h).linkLost h
    let c3 := { c2 with
      job.jobs := c2.job.jobs.map fun (j : Job) =>
        if j.owner = h ∧ j.phase = JobPhase.running ∧ j.stop = none then { j with stop := some stFenced } else j
      frg.passes := c2.frg.passes.filter fun p => p.slot.isSome || decide (p.head ≠ h) }
    ((c3.holdCompletions h).eventOther h logWarn 0x0103).fault (586 + h.num) 0

/-- The fence timeout of a head in ns, none when the timer is off (HDx_FENCE_CFG). -/
def Ctl.fenceNs (c : Ctl) (h : Head) : Option Nat :=
  let ms := c.geff (R.HD_FENCE_CFG_TIMEOUT_MS h.num)
  if ms = 0 then none else some (max 10 ms * 1000000)

/-- The fence timer of a head has expired. -/
def Ctl.fenceDue (c : Ctl) (h : Head) : Bool := match c.fenceNs h with
  | some n => decide ((c.hd h).downAt + n ≤ c.clock)
  | none => false

/-- FENCE_TIMER_EXPIRY (R247, R251): the timer of a head that is DOWN reaches its timeout; in a warm reset's quiesce it does not run. -/
def fenceTimerExpiry (h : Head) (c : Ctl) : Ctl :=
  if c.hstate h = 3 ∧ c.rst.quiesce = 0 then
    match c.fenceNs h with
    | some n => (c.passTo ((c.hd h).downAt + n)).startFence h 1
    | none => c
  else c

def execFenceTimerExpiry (h : Head) (s : State) : Host.Outcome State Fault Refusal := .next (s.mapCtl (fenceTimerExpiry h))

/-- The held completions of OCS jobs of a head that returns are delivered (R255, R256). -/
def Ctl.deliverHeld (c : Ctl) (h : Head) : Ctl :=
  (c.job.jobs.filter fun j => j.ocs && decide (j.owner = h) && decide (j.phase = .ended)).foldl Ctl.deliver c

/-- The unstarted jobs of a head that returns without having been adopted end with FENCED (R255). -/
def Ctl.endUnstarted (c : Ctl) (h : Head) : Ctl :=
  (c.job.jobs.filter fun j => decide (j.owner = h) && decide (j.phase ≠ .running) && decide (j.phase ≠ .ended)).foldl
    (fun c j => c.endJob j stFenced) c

/-- FENCE_COMPLETE (R249, R251, R256): 100 µs after its start: the head's running jobs have ended, it is FENCED, and
FENCE commands that wait for it succeed. In the one-head division the head returns through TRAINING. In a warm reset's quiesce it
is owed until the restart. -/
def fenceComplete (h : Head) (c : Ctl) : Ctl :=
  if c.hstate h ≠ 4 ∨ c.rst.quiesce ≠ 0 then c
  else
    let c0 := c.passTo ((c.hd h).fenceAt + 100000)
    let c1 := (c0.job.jobs.filter fun j => decide (j.owner = h) && decide (j.phase = .running)).foldl
      (fun c j => c.endJob j (j.stop.getD stFenced)) c0
    let c2 := (c1.set (R.HD_STATE_STATE h.num) 5).set (R.HD_FENCE_TIME_TIME h.num) c1.now
    let c3 := (c2.modHd h fun x => { x with detectHold := false }).judgeLanes h
    let c4 := c3.eventOther h logWarn 0x0104
    let c5 := match (c4.hd h.other).mbox.pend with
      | some p => if p.op = 0xC150 ∧ p.wait = .fence then c4.finish h.other 0xC150 .ok [] else c4
      | none => c4
    if c5.twoHeads then c5
    else ((c5.set (R.HD_STATE_STATE h.num) 1).endUnstarted h).deliverHeld h

def execFenceComplete (h : Head) (s : State) : Host.Outcome State Fault Refusal := .next (s.mapCtl (fenceComplete h))

/-! ## Link events (R245 to R247, R273, R274) -/

/-- PARTNER_DETECTED (R245): receiver detect finds a partner, and an ABSENT head enters TRAINING. -/
def partnerDetected (h : Head) (c : Ctl) : Ctl :=
  if c.headBlocked h then c
  else
    let c1 := (c.modHd h fun x => { x with partner := true }).leaveLoopback h
    if c1.hstate h = 0 then c1.set (R.HD_STATE_STATE h.num) 1 else c1

def execPartnerDetected (h : Head) (s : State) : Host.Outcome State Fault Refusal := .next (s.mapCtl (partnerDetected h))

/-- PARTNER_LOST (R245, R281): receiver detect finds no partner: Loopback ends, and a head in TRAINING returns to ABSENT. -/
def partnerLost (h : Head) (c : Ctl) : Ctl :=
  let c1 := c.leaveLoopback h
  if c.hstate h = 1 then (c1.modHd h fun x => { x with partner := false }).set (R.HD_STATE_STATE h.num) 0 else c1

def execPartnerLost (h : Head) (s : State) : Host.Outcome State Fault Refusal := .next (s.mapCtl (partnerLost h))

/-- The PHY PLL of a head is locked: only then does it train (R329). -/
def Ctl.phyLocked (c : Ctl) : Head → Bool
  | .a => c.flag R.CLK_STATUS_PHYA_LOCK
  | .b => c.flag R.CLK_STATUS_PHYB_LOCK

/-- DL_UP (R245, R251, R254, R273, R274, R329): the link of a head comes up in a form it supports. Below 8.0 GT/s it is not admitted; a fence timer that has
expired at the same moment fences; a FENCED head only shows its link, and hears what is kept for it when it rejoins. -/
def dlUp (h : Head) (k : LinkForm) (c : Ctl) : Ctl :=
  if c.headBlocked h ∨ c.phyLocked h = false ∨ c.flag (R.HD_STATE_LINK_UP h.num) ∨ c.hstate h = 4 ∨ c.linkLegal h k = false then c
  else if c.hstate h = 3 ∧ c.fenceDue h = true ∧ c.rst.quiesce = 0 then c.startFence h 1
  else if k.rate < 2 then
    let t := if c.hstate h = 3 then (c.hd h).downAt else c.clock
    let c1 := (c.modHd h fun x => { x with partner := true, linkRate := k.rate + 1, downAt := t }).setRates
      ((c.lanesOf h).filter (tb k.lanes)) k.rate
    if c1.hstate h = 0 then c1.set (R.HD_STATE_STATE h.num) 1 else c1
  else
    let c1 := (c.modHd h fun x => { x with partner := true, linkRate := k.rate + 1 }).trainLanes h k
    if c1.hstate h = 5 then
      ((c1.set (R.HD_STATE_LINK_UP h.num) 1).judgeLanes h).eventOther h logInfo 0x0101
    else (c1.headUp h).judgeLanes h

def execDlUp (h : Head) (k : LinkForm) (s : State) : Host.Outcome State Fault Refusal := .next (s.mapCtl (dlUp h k))

/-- DL_DOWN (R245, R246): the link of a head goes down, with `n` of its last completion writes and messages not
acknowledged: an UP head becomes DOWN and its fence timer starts. -/
def dlDown (h : Head) (n : Nat) (c : Ctl) : Ctl :=
  if !c.flag (R.HD_STATE_LINK_UP h.num) then c
  else
    let c1 := if c.hstate h = 2 then (c.set (R.HD_STATE_STATE h.num) 3).modHd h fun x =>
        { x with downAt := c.clock, waiting := c.unacked h n ++ x.waiting }
      else c
    let c2 := (c1.linkLost h).fault (584 + h.num) 0
    if c.hstate h = 2 then (c2.eventOther h logWarn 0x0102).failLink h else c2

def execDlDown (h : Head) (n : Nat) (s : State) : Host.Outcome State Fault Refusal := .next (s.mapCtl (dlDown h n))

/-- LINK_RETRAIN (R273 to R275, R277, R280): the partner retrains a link that is up. A link left below 8.0 GT/s is down for its head
(DEDUCED, notes/assumptions/137.md). -/
def linkRetrain (h : Head) (k : LinkForm) (c : Ctl) : Ctl :=
  if c.flag (R.HD_STATE_LINK_UP h.num) = false ∨ c.linkLegal h k = false then c
  else if k.rate < 2 then ((dlDown h 0 c).modHd h fun x => { x with linkRate := k.rate + 1, l0p := false }).setRates
      ((c.lanesOf h).filter (tb k.lanes)) k.rate
  else
    ((c.trainLanes h k).modHd h fun x => { x with linkRate := k.rate + 1, l0p := false }).judgeLanes h

def execLinkRetrain (h : Head) (k : LinkForm) (s : State) : Host.Outcome State Fault Refusal :=
  .next (s.mapCtl (linkRetrain h k))

/-- LOW_RATE_RETRAIN (R274): a link below 8.0 GT/s is retrained once every second. -/
def lowRateRetrain (h : Head) (c : Ctl) : Ctl :=
  let x := c.hd h
  if decide (1 ≤ x.linkRate) && decide (x.linkRate ≤ 2) && !c.flag (R.HD_STATE_LINK_UP h.num) then
    let t := if c.hstate h = 1 then x.downAt + 1000000000 else c.clock
    ((c.passTo t).modHd h fun y => { y with linkRate := 0 }).emit (.link h 2)
  else c

def execLowRateRetrain (h : Head) (s : State) : Host.Outcome State Fault Refusal := .next (s.mapCtl (lowRateRetrain h))

/-- L0P_REQUEST (R273): the partner asks for another width at 64.0 GT/s, and the device responds; `narrow` tells whether
the link then runs narrower. -/
def l0pRequest (h : Head) (narrow : Bool) (c : Ctl) : Ctl :=
  if c.flag (R.HD_STATE_LINK_UP h.num) && decide ((c.hd h).linkRate = 6) then
    (c.modHd h fun x => { x with l0p := narrow }).emit (.link h 3)
  else c

def execL0pRequest (h : Head) (narrow : Bool) (s : State) : Host.Outcome State Fault Refusal :=
  .next (s.mapCtl (l0pRequest h narrow))

/-- The end of a host's software on a link (R247): an admitted head is fenced at once; a head never admitted loses its
link. -/
def Ctl.hostGone (c : Ctl) (h : Head) : Ctl :=
  if (c.hd h).admitted && !c.fenced h then c.startFence h 3
  else
    let c1 := c.linkLost h
    if c1.hstate h = 1 then (c1.modHd h fun x => { x with partner := false }).set (R.HD_STATE_STATE h.num) 0 else c1

/-- A saturating count of a lane grows by a free value: how many errors a lane makes the spec does not give (R281). -/
def Ctl.growCount (c : Ctl) (f : Fld) : Ctl :=
  let (v, c1) := c.fresh
  c1.set f (min (2 ^ 32 - 1) (c1.get f + v % 2 ^ 32))

/-- The mismatches of the looped lanes (R281), and the FEC symbols corrected on lanes whose link runs in the flit mode that has FEC, as
they stand at a beat boundary or at the end of a loop (DESIGN CHOICE, notes/assumptions/138.md). -/
def Ctl.countPatterns (c : Ctl) : Ctl :=
  (List.range 16).foldl (fun c n =>
    let c1 := if c.laneLooped n then c.growCount (R.PHYL_PRBS_ERR_COUNT n) else c
    if c1.flag (R.PHYL_STATUS_IN_LINK n) && (c1.hd (c1.headOfLane n)).flit then c1.growCount (R.PHYL_FEC_CNT_COUNT n) else c1) c

/-- The near-end loop that runs, if any, ends (R282): its lanes return to Detect. -/
def Ctl.stopLoop (c0 : Ctl) : Ctl :=
  if c0.flag R.PHYC_LOOP_ACTIVE then
    let c := c0.countPatterns
    let all := List.range 16
    let c1 := all.foldl (fun c n => if c.laneLooped n then (c.set (R.PHYL_STATUS_LOOP n) 0).set (R.PHYL_STATUS_RATE n) 0 else c) c
    let c2 := (c1.set R.PHYC_LOOP_ACTIVE 0).set R.PHYC_LOOP_START 0
    (c2.judgeLanes .a).judgeLanes .b
  else c0

/-- A near-end loop on a head's lanes ends. -/
def Ctl.endLoop (c : Ctl) (h : Head) : Ctl := if (c.lanesOf h).any c.laneLooped then c.stopLoop else c

/-- The configuration space of a head, which its PERST#, a hot reset or a link disable resets with the locks of its HDM decoders (chapter 15,
R409); the sticky statuses of Advanced Error Reporting stay (PRESUMED, notes/assumptions/9.md). -/
def HeadSt.headReset (x : HeadSt) : HeadSt :=
  { x with
    bme := false, d3hot := false, ptmEn := false, extendedTag := false, tenBitTag := false, bar0 := 0, bar2 := 0
    msixTable := [], msixEn := false, msixMask := List.range 64, funcMask := false, msixPend := []
    uncFatal := true, mps := 128, mrrs := 512, relaxed := false
    ioStreams := [{}, {}, {}, {}, {}], hdm := [{}, {}, {}, {}] }

/-- PERST_ASSERT (R247, R282, R283): PERST# of a built head is asserted. -/
def perstAssert (h : Head) (c : Ctl) : Ctl :=
  if c.hstate h = 6 then c
  else (((c.endLoop h).modHd h fun x => { x.headReset with perst := true }).hostGone h).judgeLanes h

def execPerstAssert (h : Head) (s : State) : Host.Outcome State Fault Refusal := .next (s.mapCtl (perstAssert h))

/-- PERST_DEASSERT (R284): PERST# is released, and the lanes enter Detect when nothing else holds them. -/
def perstDeassert (h : Head) (c : Ctl) : Ctl :=
  if c.hstate h = 6 then c else (c.modHd h fun x => { x with perst := false }).judgeLanes h

def execPerstDeassert (h : Head) (s : State) : Host.Outcome State Fault Refusal := .next (s.mapCtl (perstDeassert h))

/-- A hot reset or a link disable arrives on a link that is up. -/
def Ctl.inBandReset (c : Ctl) (h : Head) : Ctl := if c.flag (R.HD_STATE_LINK_UP h.num) then (c.modHd h HeadSt.headReset).hostGone h else c

/-- HOT_RESET_RECEIVED (R247). -/
def execHotResetReceived (h : Head) (s : State) : Host.Outcome State Fault Refusal := .next (s.mapCtl fun c => c.inBandReset h)

/-- LINK_DISABLE_RECEIVED (R247). -/
def execLinkDisableReceived (h : Head) (s : State) : Host.Outcome State Fault Refusal :=
  .next (s.mapCtl fun c => c.inBandReset h)

/-- FUNCTION_LEVEL_RESET (R247, R294): the head's MSI-X Enable, Bus Master Enable and mailbox command in progress clear,
and it no longer tracks its background command. Its claims and holds for the command end. -/
def functionLevelReset (h : Head) (c : Ctl) : Ctl :=
  let held : Bool := match (c.hd h).mbox.pend with
    | some q => decide (q.wait = .hold)
    | none => false
  let c1 := { c with
    claims := c.claims.filter fun e => decide (e.2 ≠ h) || decide (256 ≤ e.1)
    stx.heldCtx := c.stx.heldCtx.filter fun e => decide (e.2 ≠ h) || c.stx.winHold.any fun w => decide (w.1 = h)
    sea.holdGran := if held then c.sea.holdGran.filter fun e => decide (e.2 ≠ h) ||
      c.sea.sealing.any fun j => decide (j.gran = e.1) && decide (j.bg = some h) else c.sea.holdGran
    job.slotWaiters := c.job.slotWaiters.filter fun x => decide (x ≠ h) }
  c1.modHd h fun x => { x with
    msixEn := false, bme := false, mbox := { x.mbox with pend := none, bgTracked := x.mbox.bg.isNone } }

def execFunctionLevelReset (h : Head) (s : State) : Host.Outcome State Fault Refusal :=
  .next (s.mapCtl (functionLevelReset h))

/-- The pending messages of vectors that nothing masks go out (R244). -/
def Ctl.releaseMsix (c : Ctl) (h : Head) : Ctl :=
  let x := c.hd h
  let due := (List.range 64).filter fun v => x.msixPend.contains v && !x.masks v
  due.foldl (fun c v => c.msix h v) (c.modHd h fun x => { x with msixPend := x.msixPend.filter fun y => !due.contains y })

/-- A vector's mask changed. -/
def Ctl.maskVector (c : Ctl) (h : Head) (v : Nat) (on : Bool) : Ctl :=
  if on then c.modHd h fun x => { x with msixMask := if x.msixMask.contains v then x.msixMask else v :: x.msixMask }
  else (c.modHd h fun x => { x with msixMask := x.msixMask.filter fun y => decide (y ≠ v) }).releaseMsix h

/-- Statuses of Advanced Error Reporting cleared by a mask; the first-error pointer goes with its bit. -/
def HeadSt.clearAer (x : HeadSt) (uncorrectable : Bool) (m : Nat) : HeadSt :=
  if uncorrectable then
    { x with
      aerUnc := x.aerUnc - (x.aerUnc &&& m)
      aerFirst := x.aerFirst.filter fun n => !tb m n }
  else { x with aerCor := x.aerCor - (x.aerCor &&& m) }

/-- What a head presents in its configuration space (R240, R242): the identity fields, the sizes of its two windows in bytes, the
capability fields of its DVSEC for CXL Devices, the entries of the Register Locator (register block, window and offset), and what it
supports of each other structure; no GPF DVSEC is there. -/
structure Identity where
  vendor : BitVec 16
  device : Nat
  revision : Nat
  classCode : Nat
  serial : List Nat
  bars : List Nat
  memCapable : Bool
  cacheCapable : Bool
  ioCapable : Bool
  hdmCount : Nat
  locator : List (Nat × Nat × Nat)
  cxlReset : Bool
  viral : Bool
  maxPayload : Nat
  extendedTag : Bool
  tenBitTag : Bool
  functionReset : Bool
  d3hot : Bool
  msixVectors : Nat
  aerFirstPointer : Bool
  aerHeaderLog : Bool
  aerMultiHeader : Bool
  ptmRequester : Bool
  ptmResponder : Bool
  doeMailboxes : Nat
  flexIo : Bool
  flexMem : Bool
  flexCache : Bool
  flits : List Nat
  gpf : Bool
  deriving DecidableEq

/-- The identity of a built head. The numbers of the register blocks in the locator are those of CXL (PRESUMED, notes/assumptions/9.md). -/
def Ctl.identity (c : Ctl) : Identity :=
  { vendor := Config.vendorId, device := c.get R.IDC_PART_ID_PART_NUMBER, revision := 0x11, classCode := 0x050210
    serial := (List.range 4).map fun n => c.get (R.IDC_UNIQUE_ID_ID n)
    bars := [2 ^ 24, 2 ^ 18], memCapable := true, cacheCapable := false, ioCapable := true, hdmCount := 1
    locator := [(1, 2, 0x30000), (3, 2, 0), (5, 0, 0)]
    cxlReset := false, viral := false, maxPayload := 512, extendedTag := true, tenBitTag := true, functionReset := true
    d3hot := true, msixVectors := 64, aerFirstPointer := true, aerHeaderLog := true, aerMultiHeader := false
    ptmRequester := true, ptmResponder := false, doeMailboxes := 1, flexIo := true, flexMem := true, flexCache := false
    flits := [68, 256], gpf := false }

/-- What a head's CXL device register block shows (R241, R288, R290): the Primary Mailbox's capability fields, whether its doorbell is
set and a background command runs with its progress, and the Mailbox Interfaces Ready bit of Memory Device Status. -/
structure DeviceBlock where
  payloadSize : Nat
  doorbellIrq : Bool
  backgroundIrq : Bool
  message : Nat
  doorbell : Bool
  background : Option Nat
  mailboxReady : Bool
  deriving DecidableEq

/-- The device register block of a head. -/
def Ctl.deviceBlock (c : Ctl) (h : Head) : DeviceBlock :=
  let m := (c.hd h).mbox
  { payloadSize := 11, doorbellIrq := true, backgroundIrq := true, message := 0
    doorbell := m.pend.isSome, background := m.bg.map fun b => b.percent, mailboxReady := c.flag R.IDC_FW_STAT_READY }

/-- The parts of a head's BAR2 window (R241). -/
inductive Bar2Part where
  | deviceBlock
  | doorbells
  | msixTable
  | msixPending
  | component
  | reserved
  deriving DecidableEq, Repr

/-- The part an offset of BAR2 lies in; the reserved one reads as zero and takes no write. -/
def bar2Part (off : Nat) : Bar2Part :=
  if off < 0x1000 then .deviceBlock
  else if 0x10000 ≤ off ∧ off < 0x10200 then .doorbells
  else if 0x20000 ≤ off ∧ off < 0x20400 then .msixTable
  else if 0x21000 ≤ off ∧ off < 0x21008 then .msixPending
  else if 0x30000 ≤ off ∧ off < 0x40000 then .component
  else .reserved

/-- CONFIG_SPACE_WRITE (R219, R240 to R242, R244, R246, R248, R257): served in every state of a built head. A Max_Payload_Size that R242
does not support is not taken (DESIGN CHOICE, notes/assumptions/139.md). -/
def configSpaceWrite (h : Head) (i : CfgItem) (c : Ctl) : Ctl :=
  if c.hstate h = 6 then c
  else match i with
    | .busMaster on => (c.modHd h fun x => { x with bme := on }).releaseLink h
    | .d3hot on => (c.modHd h fun x => { x with d3hot := on }).releaseLink h
    | .ptmEnable on =>
      let c1 := c.modHd h fun x => { x with ptmEn := on }
      if on then c1 else c1.loseLock h
    | .msixEnable on => c.modHd h fun x => { x with msixEn := on }
    | .msixMask v on => c.maskVector h v on
    | .functionMask on => (c.modHd h fun x => { x with funcMask := on }).releaseMsix h
    | .maxPayload n => if n = 128 ∨ n = 256 ∨ n = 512 then c.modHd h fun x => { x with mps := n } else c
    | .maxRead n => c.modHd h fun x => { x with mrrs := n }
    | .relaxed on => c.modHd h fun x => { x with relaxed := on }
    | .mailboxIrq d b => c.modHd h fun x => { x with mbox := { x.mbox with doorbellIrq := d, bgIrq := b } }
    | .uncFatal on => c.modHd h fun x => { x with uncFatal := on }
    | .bar second a => c.modHd h fun x => if second then { x with bar2 := a / 2 ^ 18 * 2 ^ 18 } else { x with bar0 := a / 2 ^ 24 * 2 ^ 24 }
    | .msixEntry v a d => if v < 64 then c.modHd h fun x => { x with msixTable := mapPut x.msixTable v (a, d) } else c
    | .extendedTag on => c.modHd h fun x => { x with extendedTag := on }
    | .tenBitTag on => c.modHd h fun x => { x with tenBitTag := on }
    | .aerClear unc m => c.modHd h fun x => x.clearAer unc m
    | .ideBlocks n p q => c.modHd h fun x => match x.ioStreams[n.val + 1]? with
      | some y => { x with ioStreams := x.ioStreams.set (n.val + 1) { y with blocks := [p, q] } }
      | none => x
    | .cxlIdeSkid on => c.modHd h fun x => { x with cxlIdeSkid := on }

def execConfigSpaceWrite (h : Head) (i : CfgItem) (s : State) : Host.Outcome State Fault Refusal :=
  .next (s.mapCtl (configSpaceWrite h i))

/-! ## Commands of R267 -/

/-- The head a byte names, none for another value. -/
def headByte (n : Nat) : Option Head := if n = 0 then some .a else if n = 1 then some .b else none

/-- FENCE (R251, R268): the other head is fenced; the command returns at fence-complete. -/
def fenceRun (h : Head) (p : Bytes) (c : Ctl) : Ctl :=
  if headByte (le p 0 1) = some h.other then
    if c.hstate h.other = 5 then c.finish h 0xC150 .ok []
    else (c.startFence h.other 2).await h 0xC150 p .fence c.clock
  else c.finish h 0xC150 .invalidParameter []

def fence (h : Head) (p : Bytes) (c : Ctl) : Ctl := c.ocs h 0xC150 { min := 1, dualCap := true } p (fenceRun h p)

def execFence (h : Head) (p : Bytes) (s : State) : Host.Outcome State Fault Refusal := .next (s.mapCtl (fence h p))

/-- ADOPT is accepted (R252, R268). -/
def Ctl.mayAdopt (c : Ctl) (h : Head) (p : Bytes) : Bool :=
  decide (headByte (le p 0 1) = some h.other) && decide (c.hstate h = 2) && c.fenced h.other &&
    !c.flag (R.HD_STATE_ADOPTED h.other.num)

/-- ADOPT (R252): carried out at the first beat boundary after fence-complete. -/
def adopt (h : Head) (p : Bytes) (c : Ctl) : Ctl :=
  c.ocs h 0xC151 { min := 1, dualCap := true } p fun c =>
    if c.mayAdopt h p then c.await h 0xC151 p .boundary c.clock else c.finish h 0xC151 .invalidParameter []

def execAdopt (h : Head) (p : Bytes) (s : State) : Host.Outcome State Fault Refusal := .next (s.mapCtl (adopt h p))

/-- HEAD_REJOIN is accepted (R255). -/
def Ctl.mayRejoin (c : Ctl) (h : Head) : Bool := decide (c.hstate h = 5) && c.flag (R.HD_STATE_LINK_UP h.num)

/-- HEAD_REJOIN (R255): carried out at the next beat boundary. -/
def headRejoin (h : Head) (p : Bytes) (c : Ctl) : Ctl :=
  c.ocs h 0xC152 { whileFenced := true, dualCap := true } p fun c =>
    if c.mayRejoin h then c.await h 0xC152 p .boundary c.clock else c.finish h 0xC152 .invalidParameter []

def execHeadRejoin (h : Head) (p : Bytes) (s : State) : Host.Outcome State Fault Refusal := .next (s.mapCtl (headRejoin h p))

/-- HEAD_STATUS (R267). -/
def headStatus (h : Head) (p : Bytes) (c : Ctl) : Ctl :=
  c.ocs h 0xC153 { whileFenced := true } p fun c =>
    c.finish h 0xC153 .ok (toLE 4 (c.wordAt h 0xB0000) ++ toLE 4 (c.wordAt h 0xC0000) ++ toLE 4 c.timStatus ++
      toLE 8 (c.get R.TIM_OFFSET_VALUE) ++ toLE 8 c.now)

def execHeadStatus (h : Head) (p : Bytes) (s : State) : Host.Outcome State Fault Refusal := .next (s.mapCtl (headStatus h p))

/-- PART_ASSIGN is accepted (R269). -/
def Ctl.mayAssign (c : Ctl) (h : Head) (p : Bytes) : Bool :=
  let g := le p 0 1
  let q := le p 1 1
  c.granUsable g && (decide (c.granOwner g = none) || decide (c.granOwner g = some h)) && !c.sealingNow g &&
    (if q = 0xFF then decide (c.get (R.SEA_GRAN_STATE g) = 0) else decide (q < 64) && decide (c.partOwner q = h))

/-- The granules of a partition. -/
def Ctl.granulesOf (c : Ctl) (q : Nat) : List Nat :=
  (List.range 64).filter fun g => c.flag (R.MAP_GRAN_ASSIGNED g) && decide (c.get (R.MAP_GRAN_PART g) = q)

/-- PART_GIVE is accepted (R269). -/
def Ctl.mayGive (c : Ctl) (h : Head) (p : Bytes) : Bool :=
  let q := le p 0 1
  decide (q < 64) && decide (c.partOwner q = h) && (match headByte (le p 1 1) with
    | some x => decide (c.hstate x = 2)
    | none => false) && (c.granulesOf q).all fun g => decide (c.get (R.SEA_GRAN_STATE g) = 0) && !c.sealingNow g

/-- The opcodes of PART_ASSIGN and PART_GIVE. -/
def opPartAssign : Nat := 0xC154
def opPartGive : Nat := 0xC155

/-- The granules a partition command concerns. -/
def Ctl.partGranules (c : Ctl) (op : Nat) (p : Bytes) : List Nat :=
  if op = opPartAssign then [le p 0 1] else c.granulesOf (le p 0 1)

/-- A partition command is accepted (R269). -/
def Ctl.mayPart (c : Ctl) (h : Head) (op : Nat) (p : Bytes) : Bool :=
  if op = opPartAssign then c.mayAssign h p else c.mayGive h p

/-- Running jobs touch one of these granules (R269). -/
def Ctl.jobsOn (c : Ctl) (gs : List Nat) : Bool :=
  c.job.jobs.any fun j => decide (j.phase = .running) && gs.any fun g => c.jobTouches j g

/-- PART_ASSIGN and PART_GIVE (R268, R269): claimed on MAP; held while running jobs are on the granules, and carried out
at the next beat boundary (R60). -/
def partRun (h : Head) (op : Nat) (p : Bytes) (c : Ctl) : Ctl :=
  if c.mayPart h op p then
    c.claiming h op p [blkMap] fun c =>
      let gs := c.partGranules op p
      if c.jobsOn gs then (gs.foldl (fun c g => c.holdGranule h g) c).await h op p .hold c.clock
      else c.await h op p .boundary c.clock
  else c.finish h op .invalidParameter []

/-- PART_ASSIGN. -/
def partAssign (h : Head) (p : Bytes) (c : Ctl) : Ctl := c.ocs h opPartAssign { min := 2 } p (partRun h opPartAssign p)
def execPartAssign (h : Head) (p : Bytes) (s : State) : Host.Outcome State Fault Refusal := .next (s.mapCtl (partAssign h p))

/-- PART_GIVE. -/
def partGive (h : Head) (p : Bytes) (c : Ctl) : Ctl := c.ocs h opPartGive { min := 2 } p (partRun h opPartGive p)
def execPartGive (h : Head) (p : Bytes) (s : State) : Host.Outcome State Fault Refusal := .next (s.mapCtl (partGive h p))

/-- The holds of a head's partition command end. -/
def Ctl.dropPartHolds (c : Ctl) (h : Head) (op : Nat) (p : Bytes) : Ctl :=
  (c.partGranules op p).foldl (fun c g => c.dropGranHold h g) c

/-- A held partition command judged again once the running jobs have ended. -/
def Ctl.resumePart (c : Ctl) (h : Head) (op : Nat) (p : Bytes) : Ctl :=
  if c.jobsOn (c.partGranules op p) then c
  else
    let c1 := c.dropPartHolds h op p
    if c1.mayPart h op p then c1.await h op p .boundary c1.clock else c1.finish h op .invalidParameter []

/-- A partition command takes effect (R60). -/
def Ctl.applyPart (c : Ctl) (op : Nat) (p : Bytes) : Ctl :=
  if op = opPartAssign then
    let g := le p 0 1
    if le p 1 1 = 0xFF then c.set (R.MAP_GRAN_ASSIGNED g) 0
    else (c.set (R.MAP_GRAN_ASSIGNED g) 1).set (R.MAP_GRAN_PART g) (le p 1 1)
  else c.setPartOwner (le p 0 1) (Head.ofNum (le p 1 1))

/-- HEAD_CFG (R268): the requester's fence timeout, PREFER and SWITCH, at the next beat boundary. -/
def headCfgRun (h : Head) (p : Bytes) (c : Ctl) : Ctl :=
  if headByte (le p 0 1) = some h then
    c.claiming h 0xC156 p [blkTim, if h = .a then blkHda else blkHdb] fun c => c.await h 0xC156 p .boundary c.clock
  else c.finish h 0xC156 .invalidParameter []

def headCfg (h : Head) (p : Bytes) (c : Ctl) : Ctl := c.ocs h 0xC156 { min := 6 } p (headCfgRun h p)
def execHeadCfg (h : Head) (p : Bytes) (s : State) : Host.Outcome State Fault Refusal := .next (s.mapCtl (headCfg h p))

/-- What HEAD_CFG sets. -/
def Ctl.applyHeadCfg (c : Ctl) (h : Head) (p : Bytes) : Ctl :=
  let c1 := ((c.set (R.HD_FENCE_CFG_TIMEOUT_MS h.num) (le p 2 2)).set R.TIM_CFG_PREFER (le p 4 1)).preferChanged
  if le p 5 1 = 1 then c1.timSwitch else c1

/-! ## Holds (R151, R220, R269) -/

/-- CTX_HOLD_RELEASE: a held command of a head is judged again and carried out or refused, once the running jobs that held
it have ended. -/
def ctxHoldRelease (h : Head) (w : HoldOf) (c : Ctl) : Ctl :=
  match w with
  | .window => c.resumeWin h
  | .background => c.resumeSeal h
  | .command => match (c.hd h).mbox.pend with
    | none => c
    | some p =>
      if p.wait ≠ .hold then c
      else if p.op = opUnseal then c.resumeUnseal h p.payload
      else if p.op = opPartAssign ∨ p.op = opPartGive then c.resumePart h p.op p.payload
      else c.resumeCtx h p.op p.payload

def execCtxHoldRelease (h : Head) (w : HoldOf) (s : State) : Host.Outcome State Fault Refusal :=
  .next (s.mapCtl (ctxHoldRelease h w))

/-- CTX_HOLD_TIMEOUT: a hold has lasted 100 ms, and its command returns BUSY. -/
def ctxHoldTimeout (h : Head) (w : HoldOf) (c : Ctl) : Ctl :=
  match w with
  | .window => c.dropWin h
  | .background => c.dropSeal h
  | .command => match (c.hd h).mbox.pend with
    | none => c
    | some p =>
      if p.wait ≠ .hold then c
      else
        let c1 := c.passTo (p.aux + 100000000)
        let c2 := if p.op = opUnseal then c1.dropGranHold h (le p.payload 0 1)
          else if p.op = opPartAssign ∨ p.op = opPartGive then c1.dropPartHolds h p.op p.payload
          else { c1 with stx.heldCtx := c1.stx.heldCtx.filter fun e => decide (e ≠ (le p.payload 0 4, h)) }
        c2.finish h p.op .busy []

def execCtxHoldTimeout (h : Head) (w : HoldOf) (s : State) : Host.Outcome State Fault Refusal :=
  .next (s.mapCtl (ctxHoldTimeout h w))

/-! ## Ownership at a beat boundary (R60, R252 to R255) -/

/-- An address of a job lies in the link's space (R253): in its descriptor, by what its operation uses, or in its
fragment list. -/
def Job.namesLink (j : Job) : Bool :=
  let src := decide (j.srcSpace = 1)
  let dst := decide (j.dstSpace = 1)
  let aux := decide (j.auxSpace = 1)
  let own := if j.isStripe then (j.hasList && src) || (j.fPacked && dst) || (decide (j.op = opUpdate) && aux)
    else if j.op = opHash then src || (decide (j.opt % 4 = 2) && (dst || (j.fCmp && aux)))
    else if j.op = opCopy then src || dst
    else if j.op = opFill ∨ j.op = opScrub then dst
    else false
  own || j.frags.any fun f => decide (f.space = 1)

/-- One job of an adopted head (R253): an OCS job is released; an unstarted one that names the link ends with FENCED; every
other belongs to the survivor. -/
def Ctl.adoptJob (c : Ctl) (heir : Head) (j : Job) : Ctl :=
  if j.ocs then (c.unreserve j.slot).dropJob j.slot
  else
    let j1 := { j with owner := heir, adopted := decide (j.phase = .listWait) }
    if j.phase = .ended then c.putJob j1
    else if j.namesLink then c.endJob j1 stFenced
    else c.putJob j1

/-- ADOPT takes effect (R252, R253, R221, R142): partitions, rings and key slots of the fenced head are the survivor's,
the context rewrite begins, and ADOPTED sets. -/
def Ctl.adoptFrom (c : Ctl) (dead : Head) : Ctl :=
  let heir := dead.other
  let all := match heir with
    | .a => 0
    | .b => 1
  let c1 := (List.range 64).foldl (fun c q => if c.partOwner q = dead then c.setPartOwner q heir else c) c
  let c2 := (c1.set R.JRG_OWNER_SQ_OWNER (all * (2 ^ 64 - 1))).set R.JRG_OWNER_CQ_OWNER (all * (2 ^ 64 - 1))
  let c3 := (List.range 1024).foldl (fun c s =>
    if c.flag (R.SEA_KEY_STAT_LIVE s) && decide (c.get (R.SEA_KEY_STAT_OWNER s) = dead.num) then
      let m := c.get (R.SEA_KEY_STAT_CXL_MASK s)
      let m1 := if tb m dead.num then setBit (clrBit m dead.num) heir.num else m
      (c.set (R.SEA_KEY_STAT_OWNER s) heir.num).set (R.SEA_KEY_STAT_CXL_MASK s) m1
    else c) c2
  let c4 := ((c3.set R.STX_ADOPT_ACTIVE 1).set R.STX_ADOPT_FROM dead.num).set R.STX_ADOPT_DONE 0
  let c5 := c4.set (R.HD_STATE_ADOPTED dead.num) 1
  let c6 := (c5.job.jobs.filter fun j => decide (j.owner = dead)).foldl (fun c j => c.adoptJob heir j) c5
  (c6.setDone dead []).eventAll logInfo 0x0105 dead.num 0

/-- HEAD_REJOIN takes effect (R255). -/
def Ctl.rejoin (c : Ctl) (h : Head) : Ctl :=
  let was := c.flag (R.HD_STATE_ADOPTED h.num)
  let c1 := c.set (R.HD_STATE_ADOPTED h.num) 0
  let c2 := if was then c1 else c1.endUnstarted h
  let c3 := c2.headUp h
  c3.deliverHeld h

/-- A head's ADOPT that waits takes effect at a boundary, after fence-complete and any rewrite under way (R142, R252). Where the other
head has rejoined meanwhile it is refused (DESIGN CHOICE, notes/assumptions/136.md). -/
def Ctl.adoptStep (h : Head) (c : Ctl) : Ctl :=
  match (c.hd h).mbox.pend with
  | none => c
  | some p =>
    if p.wait ≠ .boundary ∨ p.op ≠ 0xC151 then c
    else if c.fenced h.other = false then c.finish h 0xC151 .invalidParameter []
    else if c.hstate h.other = 5 ∧ c.flag R.STX_ADOPT_ACTIVE = false then (c.adoptFrom h.other).finish h 0xC151 .ok []
    else c

/-- A head's other command that waits for a beat boundary takes effect there and completes (R60, R255, R268). -/
def Ctl.ownershipOf (h : Head) (c : Ctl) : Ctl :=
  match (c.hd h).mbox.pend with
  | none => c
  | some p =>
    if p.wait ≠ .boundary then c
    else if p.op = opPartAssign ∨ p.op = opPartGive then (c.applyPart p.op p.payload).finish h p.op .ok []
    else if p.op = 0xC152 then
      (if c.mayRejoin h then (c.rejoin h).finish h 0xC152 .ok [] else c.finish h 0xC152 .invalidParameter [])
    else if p.op = 0xC156 then (c.applyHeadCfg h p.payload).finish h 0xC156 .ok []
    else c

/-- Order 1 of R263 without the granule states: the ownership changes that are pending, adoptions first, so that one takes effect at the
first boundary after its acceptance whatever its target asks for there (R252). -/
def Ctl.ownershipStep (c : Ctl) : Ctl := (c.forHeads fun h c => Ctl.adoptStep h c).forHeads fun h c => Ctl.ownershipOf h c

/-- CTX_REWRITE_DONE (R142, R265): the Keeper has rewritten OWNER in every entry of the adopted head. -/
def ctxRewriteDone (c : Ctl) : Ctl :=
  if c.flag R.STX_ADOPT_ACTIVE && decide (c.kpr.phase = 3) then
    c.rewriteContexts.eventAll logInfo 0x0106 (c.get R.STX_ADOPT_FROM) 0
  else c

def execCtxRewriteDone (s : State) : Host.Outcome State Fault Refusal := .next (s.mapCtl ctxRewriteDone)

end Sys2Proof.Machine
end

