-- ==== Sys2Proof/Machine/Phy.lean ====
section
/-! DEFINITION. The serial lanes (R275 to R282): adaptation, the figure of merit, margining, the eye scan and the test
loops. -/

namespace Sys2Proof.Machine

/-- A lane is in L0 and part of its head's link. -/
def Ctl.laneInLink (c : Ctl) (n : Nat) : Bool :=
  c.flag (R.PHYL_STATUS_IN_LINK n) && c.flag (R.HD_STATE_LINK_UP (c.headOfLane n).num)

/-- A lane runs at 64.0 GT/s, with three PAM4 eyes. -/
def Ctl.pam4 (c : Ctl) (n : Nat) : Bool := decide (c.get (R.PHYL_STATUS_RATE n) = 5)

/-! ## Adaptation (R275, R276) -/

/-- The limits of tap i, 0 for h1 (R275). -/
def tapLow (i : Nat) : Int := if i = 0 then -64 else -32
def tapHigh (i : Nat) : Int := if i = 0 then 63 else 31

/-- A tap kept within its limits. -/
def clampTap (i : Nat) (v : Int) : Int := max (tapLow i) (min (tapHigh i) v)

/-- A signed tap as its eight bits hold it. -/
def toS8 (v : Int) : Nat := (v % 256).toNat

/-- The field of fixed tap i of a lane. -/
def tapField (n i : Nat) : Fld := match i % 4 with
  | 0 => R.PHYL_DFE_TAP0 n (i / 4)
  | 1 => R.PHYL_DFE_TAP1 n (i / 4)
  | 2 => R.PHYL_DFE_TAP2 n (i / 4)
  | _ => R.PHYL_DFE_TAP3 n (i / 4)

/-- All fourteen taps of an update, the floating ones last. -/
def adaptedTaps (a : Adapted) : List Int := ((List.range 12).map fun i => a.taps.getD i 0) ++ [a.val0, a.val1]

/-- The position of a floating tap, 13 to 40 (R285). -/
def clampPos (n : Nat) : Nat := min 40 (max 13 n)

/-- ADAPTATION_UPDATE (R275, R276): a lane in its link takes the values adaptation has reached, unless frozen, when it takes those that a
retraining has reached and no more; DFE_SAT
stands while some tap has been at a limit for 1,024 updates in a row, and its setting raises source 404 + n. -/
def adaptationUpdate (n : Fin 16) (a : Adapted) (c0 : Ctl) : Ctl :=
  if !c0.laneInLink n || (c0.frozen n && !c0.phy.retrained.contains n.val) then c0
  else
    let c := { c0 with phy.retrained := c0.phy.retrained.filter fun x => decide (x ≠ n.val) }
    let taps := adaptedTaps a
    let c1 := (List.range 12).foldl (fun c i => c.set (tapField n i) (toS8 (clampTap i (taps.getD i 0)))) c
    let c2 := ((c1.set (R.PHYL_STATUS_CTLE n) a.ctle).set (R.PHYL_STATUS_GAIN n) a.gain)
    let c3 := ((c2.set (R.PHYL_DFE_FLT_F0_POS n) (clampPos a.pos0)).set (R.PHYL_DFE_FLT_F0_VAL n) (toS8 (clampTap 12 a.val0)))
    let c4 := ((c3.set (R.PHYL_DFE_FLT_F1_POS n) (clampPos a.pos1)).set (R.PHYL_DFE_FLT_F1_VAL n) (toS8 (clampTap 13 a.val1)))
    let c5 := (List.range 14).foldl (fun (c : Ctl) i =>
      let v := clampTap i (taps.getD i 0)
      let atEnd := decide (v = tapLow i) || decide (v = tapHigh i)
      let run := if atEnd then min 1024 ((mapGet c.phy.satRuns (n.val, i)).getD 0 + 1) else 0
      { c with phy.satRuns := mapPut c.phy.satRuns (n.val, i) run }) c4
    let sat := (List.range 14).any fun i => decide (1024 ≤ (mapGet c5.phy.satRuns (n.val, i)).getD 0)
    let c6 := c5.set (R.PHYL_STATUS_DFE_SAT n) (bit sat)
    if sat && !c.flag (R.PHYL_STATUS_DFE_SAT n) then c6.fault (404 + n) 0 else c6

def execAdaptationUpdate (n : Fin 16) (a : Adapted) (s : State) : Host.Outcome State Fault Refusal :=
  .next (s.mapCtl (adaptationUpdate n a))

/-! ## The figure of merit (R277) -/

/-- A scan or margining holds the offset sampler of a lane. -/
def Ctl.samplerHeld (c : Ctl) (n : Nat) : Bool := c.flag (R.PHYL_SCAN_CTL_BUSY n) || c.phy.margin.contains n

/-- FOM_SWEEP_START (R277): at a 256-beat boundary the sweep of a lane in its link starts, when nothing else holds the
sampler. -/
def fomSweepStart (n : Fin 16) (c : Ctl) : Ctl :=
  if c.phy.fomDue.contains n.val then
    let c1 := { c with phy.fomDue := c.phy.fomDue.filter fun x => decide (x ≠ n.val) }
    if c.laneInLink n && !c.samplerHeld n && !c.phy.sweeping.contains n.val then
      { c1 with phy.sweeping := n.val :: c1.phy.sweeping }
    else c1
  else c

def execFomSweepStart (n : Fin 16) (s : State) : Host.Outcome State Fault Refusal := .next (s.mapCtl (fomSweepStart n))

/-- Three eye heights in one number. -/
def packEyes (lower middle upper : Nat) : Nat := min 127 lower + 128 * min 127 middle + 16384 * min 127 upper

/-- FOM_SWEEP_END (R277): a sweep ends with three eye heights, or one at NRZ rates; they are written at the next beat
boundary. -/
def fomSweepEnd (n : Fin 16) (lower middle upper : Nat) (c : Ctl) : Ctl :=
  if c.phy.sweeping.contains n.val then
    let eyes := if c.pam4 n then packEyes lower middle upper else packEyes 0 middle 0
    { c with
      phy.sweeping := c.phy.sweeping.filter fun x => decide (x ≠ n.val)
      phy.fomPend := mapPut c.phy.fomPend n.val eyes }
  else c

def execFomSweepEnd (n : Fin 16) (lower middle upper : Nat) (s : State) : Host.Outcome State Fault Refusal :=
  .next (s.mapCtl (fomSweepEnd n lower middle upper))

/-- The figure of merit of three packed eyes. -/
def Ctl.fomOf (c : Ctl) (n eyes : Nat) : Nat :=
  if c.pam4 n then min (eyes % 128) (min (eyes / 128 % 128) (eyes / 16384)) else eyes / 128 % 128

/-- A figure of merit written at a beat boundary (R277): its deficit, and the fault of source 388 + n once per
crossing. -/
def Ctl.writeFom (c : Ctl) (n eyes : Nat) : Ctl :=
  let f := c.fomOf n eyes
  let low := c.get R.PHYC_CFG_FOM_LOW
  let was := c.flag (R.PHYL_FOM_VALID n) && decide (c.get (R.PHYL_FOM_FOM n) < low)
  let c1 := ((c.set (R.PHYL_FOM_VALID n) 1).set (R.PHYL_FOM_FOM n) f).set (R.PHYL_FOM_EYE_LOWER n) (eyes % 128)
  let c2 := (c1.set (R.PHYL_FOM_EYE_MIDDLE n) (eyes / 128 % 128)).set (R.PHYL_FOM_EYE_UPPER n) (eyes / 16384)
  let c3 := c2.set (R.PHYL_FOM_DEF_DEFICIT n) (max (c2.get (R.PHYL_FOM_DEF_DEFICIT n)) (127 - f))
  if decide (low ≠ 0) && decide (f < low) && !was then c3.fault (388 + n) f else c3

/-- At a beat boundary the figures of merit that wait are written, and at each 256th the next sweeps may start. -/
def Ctl.fomBoundary (c : Ctl) : Ctl :=
  let c1 := c.phy.fomPend.foldl (fun c e => c.writeFom e.1 e.2) { c with phy.fomPend := [] }
  if c.get R.TIM_BEAT_CNT_VALUE % 256 = 0 then { c1 with phy.fomDue := List.range 16 } else c1

/-! ## Margining and the eye scan (R278 to R280) -/

/-- What a head answers to the partner's margining commands for a lane (R278); M_MaxLanes is the number of lanes in the link. -/
def Ctl.marginParams (c : Ctl) (n : Nat) : MarginParams :=
  { voltageSupported := true, indUpDownVoltage := true, indLeftRightTiming := true, indErrorSampler := true
    numVoltageSteps := 64, numTimingSteps := 32, maxVoltageOffset := 40, maxTimingOffset := 50, sampleReporting := 0
    maxLanes := ((c.lanesOf (c.headOfLane n)).filter fun k => c.flag (R.PHYL_STATUS_IN_LINK k)).length }

/-- MARGINING_COMMAND (R278, R280): the head answers with its parameters, and the partner's margining takes the sampler of a lane in the link, pausing a scan and
ending a sweep; its end (`on` false) lets the scan go on. -/
def marginingCommand (n : Fin 16) (on : Bool) (c : Ctl) : Ctl :=
  if !c.laneInLink n then c
  else if on then
    let c1 := { c.emit (.margin (c.headOfLane n) n.val (c.marginParams n)) with
      phy.margin := if c.phy.margin.contains n.val then c.phy.margin else n.val :: c.phy.margin
      phy.sweeping := c.phy.sweeping.filter fun x => decide (x ≠ n.val) }
    if c.flag (R.PHYL_SCAN_CTL_BUSY n) then c1.set (R.PHYL_SCAN_CTL_PAUSED n) 1 else c1
  else { c with phy.margin := c.phy.margin.filter fun x => decide (x ≠ n.val) }.set (R.PHYL_SCAN_CTL_PAUSED n) 0

def execMarginingCommand (n : Fin 16) (on : Bool) (s : State) : Host.Outcome State Fault Refusal :=
  .next (s.mapCtl (marginingCommand n on))

/-- Points of an eye scan. -/
def scanPoints : Nat := 8192

/-- START written 1 in PHYL_SCAN_CTL_n (R279). -/
def Ctl.scanStart (c : Ctl) (n : Nat) : Ctl :=
  if c.flag (R.PHYL_SCAN_CTL_BUSY n) || !c.laneInLink n then c.set (R.PHYL_SCAN_CTL_REFUSED n) 1
  else
    let c1 := { c with phy := { c.phy with
      scans := mapPut c.phy.scans n scanPoints
      scanMem := c.phy.scanMem.filter fun e => decide (e.1.1 ≠ n)
      sweeping := c.phy.sweeping.filter fun x => decide (x ≠ n) } }
    (((c1.set (R.PHYL_SCAN_CTL_BUSY n) 1).set (R.PHYL_SCAN_CTL_DONE n) 0).set (R.PHYL_SCAN_CTL_ABORTED n) 0).set
      (R.PHYL_SCAN_CTL_PAUSED n) (bit (c.phy.margin.contains n))

/-- A stored byte of a scan. -/
def Ctl.scanByte (c : Ctl) (n p : Nat) : Nat := (mapGet c.phy.scanMem (n, p)).getD 0

/-- A scan found no mismatch at a voltage step of its centre column. -/
def Ctl.cleanStep (c : Ctl) (n v : Nat) : Bool := decide (c.scanByte n (128 * 32 + v) = 0)

/-- The clean steps of the centre column next to the slicer threshold, below it and above it. -/
def Ctl.centreBelow (c : Ctl) (n : Nat) : Nat := (((List.range 64).map fun i => 63 - i).takeWhile (c.cleanStep n)).length
def Ctl.centreAbove (c : Ctl) (n : Nat) : Nat := (((List.range 64).map fun i => 64 + i).takeWhile (c.cleanStep n)).length

/-- The voltage steps around the slicer threshold, in the centre column, at which a scan found no mismatch. -/
def Ctl.centreEye (c : Ctl) (n : Nat) : Nat := c.centreBelow n + c.centreAbove n

/-- The longest run of true in a list. -/
def longestRun (l : List Bool) : Nat :=
  (l.foldl (fun (e : Nat × Nat) b => if b then (e.1 + 1, max e.2 (e.1 + 1)) else (0, e.2)) (0, 0)).2

/-- The figure of merit from a finished scan (R279): the eye around the threshold is the clean run there, and at PAM4 the lower and the
upper eye are the longest clean runs of the column below and above it (DEDUCED, notes/assumptions/133.md). -/
def Ctl.scanFom (c : Ctl) (n : Nat) : Ctl :=
  let lo := c.centreBelow n
  let hi := c.centreAbove n
  let lower := longestRun ((List.range (64 - lo)).map (c.cleanStep n))
  let upper := longestRun ((List.range (64 - hi)).map fun i => c.cleanStep n (64 + hi + i))
  { c with phy.fomPend := mapPut c.phy.fomPend n (if c.pam4 n then packEyes lower (lo + hi) upper else packEyes 0 (lo + hi) 0) }

/-- EYE_SCAN_POINT_END (R279): the dwell of the next point ends with its mismatches, stored as a saturating byte; the last
point ends the scan. -/
def eyeScanPointEnd (n : Fin 16) (mismatches : Nat) (c : Ctl) : Ctl :=
  match mapGet c.phy.scans n.val with
  | none => c
  | some left =>
    if c.flag (R.PHYL_SCAN_CTL_PAUSED n) then c
    else
      let c1 := { c with phy.scanMem := mapPut c.phy.scanMem (n.val, scanPoints - left) (min 0xFF mismatches) }
      if left ≤ 1 then
        ((({ c1 with phy.scans := mapDel c1.phy.scans n.val } : Ctl).set (R.PHYL_SCAN_CTL_BUSY n) 0).set
          (R.PHYL_SCAN_CTL_DONE n) 1).scanFom n
      else { c1 with phy.scans := mapPut c1.phy.scans n.val (left - 1) }

def execEyeScanPointEnd (n : Fin 16) (mismatches : Nat) (s : State) : Host.Outcome State Fault Refusal :=
  .next (s.mapCtl (eyeScanPointEnd n mismatches))

/-- The word of PHYL_SCAN_DATA_n: the bytes of points IDX to IDX + 3. -/
def Ctl.scanWord (c : Ctl) (n : Nat) : Nat :=
  let p := c.get (R.PHYL_SCAN_IDX_IDX n) / 4 * 4
  leNat ((List.range 4).map fun i => BitVec.ofNat 8 (c.scanByte n (p + i)))

/-- A read of PHYL_SCAN_DATA_n adds 4 to IDX, wrapping from 8,188 to 0. -/
def Ctl.scanAdvance (c : Ctl) (n : Nat) : Ctl :=
  c.set (R.PHYL_SCAN_IDX_IDX n) ((c.get (R.PHYL_SCAN_IDX_IDX n) / 4 * 4 + 4) % scanPoints)

/-! ## Test loops (R281, R282) -/

/-- Every lane of a loop's mask belongs to a head that is ABSENT or FENCED (R282). -/
def Ctl.loopAllowed (c : Ctl) (mask : Nat) : Bool :=
  (maskList mask 16).all fun n =>
    decide (c.hstate (c.headOfLane n) = 0) || decide (c.hstate (c.headOfLane n) = 5)

/-- START written 1 in PHYC_LOOP (R282): the loop starts, or REFUSED sets; with MODE 0b00 or 0b11 nothing starts. -/
def Ctl.loopStart (c : Ctl) : Ctl :=
  let mode := c.get R.PHYC_LOOP_MODE
  let mask := c.get R.PHYC_LOOP_LANE_MASK
  let rate := min 5 (c.get R.PHYC_LOOP_RATE)
  if !c.loopAllowed mask then (c.set R.PHYC_LOOP_REFUSED 1).set R.PHYC_LOOP_START (c.get R.PHYC_LOOP_ACTIVE)
  else if mode ≠ 1 ∧ mode ≠ 2 then c.set R.PHYC_LOOP_START (c.get R.PHYC_LOOP_ACTIVE)
  else
    let c1 := ((c.stopLoop).set R.PHYC_LOOP_ACTIVE 1).set R.PHYC_LOOP_START 1
    let c2 := (maskList mask 16).foldl (fun c n =>
      (c.set (R.PHYL_STATUS_LOOP n) mode).set (R.PHYL_STATUS_RATE n) rate) c1
    let gone := fun (h : Head) (c : Ctl) => if (c.lanesOf h).any c.laneLooped then c.linkLost h else c
    (gone .b (gone .a c2))

/-- FAR_END_LOOPBACK_ENTRY (R281): the partner takes lanes of a link that is not up into Loopback, the device being the
follower, whose transmitters then send what its receivers decide, at a rate of the partner's choice, which the event does not tell
(notes/assumptions/148.md). -/
def farEndLoopbackEntry (h : Head) (mask : Nat) (c : Ctl) : Ctl :=
  if c.headBlocked h || c.flag (R.HD_STATE_LINK_UP h.num) then c
  else
    let lanes := (c.lanesOf h).filter (tb mask)
    let (v, c1) := c.fresh
    ((lanes.foldl (fun c n => c.set (R.PHYL_STATUS_LOOP n) 3) c1).setRates lanes (v % 6)).judgeLanes h

def execFarEndLoopbackEntry (h : Head) (mask : Nat) (s : State) : Host.Outcome State Fault Refusal :=
  .next (s.mapCtl (farEndLoopbackEntry h mask))

end Sys2Proof.Machine
end

