-- ==== Sys2Proof/Machine/Reset.lean ====
section
/-! DEFINITION. Clocks, reset and the start loop (chapter 15): power-on resets and failed attempts, rails, the oscillator and
the PLLs, the clock monitor, clock gating, and the beginning of a warm reset (R328 to R347). -/

namespace Sys2Proof.Machine

/-! ## Steps and attempts (R342, R344, R345) -/

/-- The step of R342 that a start event belongs to. -/
def stepOf : Nat → Nat
  | 0 => 1
  | 1 => 2
  | 2 => 2
  | 3 => 3
  | 4 => 5
  | 5 => 6
  | 6 => 8
  | 7 => 9
  | _ => 10

/-- The start goes on to the event `a` of RstSt.awaiting. -/
def Ctl.toStep (c : Ctl) (a : Nat) : Ctl :=
  ({ c with rst.awaiting := a }.set R.RST_BOOT_STATUS_STEP (stepOf a)).set R.RST_BOOT_STATUS_PHASE 0

/-- A start attempt is under way (R344). -/
def Ctl.starting (c : Ctl) : Bool := decide (1 ≤ c.rst.awaiting) && decide (c.rst.awaiting ≤ 7)

/-- The registers that no reset but the loss of VAUX touches (the auxiliary domain): boot status and sideband address. -/
def auxKeys : List Nat :=
  [R.RST_BOOT_STATUS_STEP.key, R.RST_BOOT_STATUS_PHASE.key, R.RST_BOOT_STATUS_CAUSE.key, R.RST_BOOT_STATUS_ATTEMPTS.key,
   R.RST_BOOT_INFO_ORIGIN.key, R.RST_BOOT_INFO_IMG_A.key, R.RST_BOOT_INFO_IMG_B.key, R.RST_BOOT_INFO_FUSE_MARGINAL.key,
   R.RST_BOOT_INFO_FALLBACK.key, R.RST_BOOT_INFO_KEPT.key, R.RST_BOOT_INFO_TORN.key, R.RST_BOOT_INFO_LAST_MS.key,
   R.SBP_STATUS_ADDRESS.key, R.SBP_STATUS_RELEASES.key] ++ (List.range 8).map fun w => (R.SBP_SCRATCH_DATA w).key

/-- A source of a sideband mirror is in reset: from a power-on reset to its release. -/
def Ctl.inReset (c : Ctl) : Bool :=
  decide (c.rst.awaiting = 0) || decide (c.rst.awaiting = 9) ||
    (decide (c.rst.awaiting = 10) && c.flag R.THM_STATUS_POWER_DOWN)

/-- A word of BAR0 as the sideband reads it. -/
def Ctl.barWord (c : Ctl) (off : Nat) : Nat := match findReg off with
  | some a => c.regValue a .a % 2 ^ 32
  | none => 0

/-- The head-state word of R390. -/
def Ctl.sbHeadState (c : Ctl) : Nat :=
  let b := fun (h : Head) => c.hstate h * 4 + c.get (R.HD_STATE_LINK_UP h.num) * 2 + c.get (R.HD_STATE_ADOPTED h.num)
  b .b * 2 ^ 27 + b .a * 2 ^ 11

/-- The record of the fault log as 16 bytes (R381). -/
def FltRec.encode (r : FltRec) : Bytes :=
  toLE 2 r.source ++ toLE 1 (r.sev + 4 * bit r.escalated) ++ toLE 1 r.react ++ toLE 4 r.info ++ toLE 8 r.time

/-- The mirror words of R390 by sideband offset: the thermal ones, which a hard trip does not stop, and the others. -/
def Ctl.mirrorThermal (c : Ctl) : List (Nat × Nat) :=
  let govern := fun (d : Nat) => if d < c.nd then c.get (R.THM_DIE_GOVERN d) else 0
  (0x30, c.barWord 0x60004) :: (0x58, c.barWord 0x60180) :: (List.range 6).map fun i =>
    (0x40 + 4 * i, govern (2 * i) + govern (2 * i + 1) * 2 ^ 16)
def Ctl.mirrorRest (c : Ctl) : List (Nat × Nat) :=
  [(0x00, c.barWord 0x40), (0x20, c.barWord 0x150030), (0x24, c.sbHeadState), (0x28, c.barWord 0x14),
   (0x34, c.barWord 0x70004), (0x70, c.barWord 0x80000), (0x74, c.barWord 0x80020)] ++
  (List.range 64).map fun i => (0x100 + 4 * i,
    leNat (((((c.flt.mirror[i / 4]?).map FltRec.encode).getD []).drop (4 * (i % 4))).take 4))

/-- Every domain but the auxiliary one reset (R337, R344): what stands in flash and in OTP, the pins and the auxiliary
domain stay; the flash record being written may be cut (R394). -/
def Ctl.powerReset (c : Ctl) : Ctl :=
  let c0 := c.cutFlashWrite
  let c1 := if c0.flag R.FLT_STATUS_ERRN && !c0.flt.tripHold then c0.emit (.errN false) else c0
  { part := c0.part
    headsStrap := c0.headsStrap
    regs := (if c0.flt.tripHold then [(R.FLT_STATUS_ERRN.key, 1)] else []) ++
      c0.regs.filter fun (e : Nat × Nat) => auxKeys.contains e.1
    clock := c0.clock
    free := c0.free
    outbox := c1.outbox
    flt := { tripHold := c0.flt.tripHold }
    hdA := { perst := c0.hdA.perst }
    hdB := { perst := c0.hdB.perst }
    kpr := { slotA := c0.kpr.slotA, slotB := c0.kpr.slotB }
    fus := { words := c0.fus.words }
    sea := { draws := c0.sea.draws }
    sbp := { c0.sbp with
      win := [], mapSince := false, writes := []
      mirror := if !c0.inReset then c0.mirrorRest ++ c0.mirrorThermal
        else if c0.rst.awaiting = 10 then c0.mirrorThermal ++ c0.sbp.mirror.filter fun e => (mapGet c0.mirrorThermal e.1).isNone
        else c0.sbp.mirror }
    rst := { c0.rst with warm := false, warmReq := none, heldReq := none, quiesce := 0, torn := [] } }

/-- A start begins from a power-on reset with ORIGIN `origin`, waiting for the event `a` (R337, R345). -/
def Ctl.powerOn (c : Ctl) (origin a : Nat) : Ctl :=
  let c1 := c.powerReset
  let c2 := ({ c1 with rst.fails := 0, rst.startedAt := c1.clock }.set R.RST_BOOT_STATUS_ATTEMPTS 0).set
    R.RST_BOOT_INFO_ORIGIN origin
  let c3 := ((c2.set R.RST_BOOT_INFO_FUSE_MARGINAL 0).set R.RST_BOOT_INFO_FALLBACK 0).set R.RST_BOOT_INFO_KEPT 0
  (c3.set R.RST_BOOT_INFO_TORN 0).toStep a

/-- The stack and everything in it lost with its power (R16). -/
def State.dark (s : State) (f : Ctl → Ctl) : State := { s with ctl := f s.ctl, mem := [], lines := [] }

/-- A power-on reset: its start waits for all six rails, at whose release of the reset HEADS is sampled again (R342 step 1, R412). -/
def State.powerOn (s : State) (origin : Nat) : State := s.dark fun c => c.powerOn origin 0

/-- The wait after a failed attempt in ns: 200 ms after cause 0x04, else min(10 ms * 2^(n - 1), 1,000 ms). -/
def retryWait (cause n : Nat) : Nat :=
  if cause = 4 then 200000000 else min (10000000 * 2 ^ (min n 8 - 1)) 1000000000

/-- A start attempt fails (R344): recorded in boot status, every domain but the auxiliary one reset, and a wait begins. -/
def Ctl.startFail (c : Ctl) (cause : Nat) : Ctl :=
  let n := c.rst.fails + 1
  let c1 := c.powerReset
  let c2 := { c1 with rst := { c1.rst with
    awaiting := 9, fails := n, retryDue := c1.clock + retryWait cause n } }
  ((c2.set R.RST_BOOT_STATUS_PHASE 1).set R.RST_BOOT_STATUS_CAUSE cause).bump R.RST_BOOT_STATUS_ATTEMPTS

/-- A start attempt fails, and the stack holds nothing. -/
def State.startFail (s : State) (cause : Nat) : State := s.dark fun c => c.startFail cause

/-- The start stops for good (R343, R359): PHASE 3. -/
def Ctl.startStop (c : Ctl) (cause : Nat) : Ctl :=
  ({ c with rst.awaiting := 10 }.set R.RST_BOOT_STATUS_PHASE 3).set R.RST_BOOT_STATUS_CAUSE cause

/-- START_RETRY_WAIT_EXPIRY (R344): the wait ends, and the next attempt begins at step 2. -/
def startRetryWaitExpiry (c : Ctl) : Ctl :=
  if c.rst.awaiting = 9 then (c.passTo c.rst.retryDue).toStep (if c.rst.oscStable then 2 else 1) else c

def execStartRetryWaitExpiry (s : State) : Host.Outcome State Fault Refusal := .next (s.mapCtl startRetryWaitExpiry)

/-! ## Rails (R337, R342, R413, R414) -/

/-- RAILS_IN_TOLERANCE (R342, R412): all six rails are within tolerance; 1 ms later power-on reset is released, and the HEADS
strap is sampled. -/
def railsInTolerance (heads : Bool) (c : Ctl) : Ctl :=
  let c1 := { c with rst.railsOut := [] }
  if c.rst.awaiting = 0 ∧ c.rst.vaux = true then
    let c2 := { c1 with rst.startedAt := c1.clock, headsStrap := heads }.pass 1000000
    c2.toStep (if c2.rst.oscStable then 2 else 1)
  else c1

def execRailsInTolerance (heads : Bool) (s : State) : Host.Outcome State Fault Refusal := .next (s.mapCtl (railsInTolerance heads))

/-- A rail out of tolerance. -/
def Ctl.railOut (c : Ctl) (r : Nat) : Ctl :=
  { c with rst.railsOut := if c.rst.railsOut.contains r then c.rst.railsOut else r :: c.rst.railsOut }

/-- RAIL_BROWN_OUT (R337, R413, R414): VDD_LOGIC (0), VIN_IVR (1) or VPP (2) falls below its brown-out level: a power-on
reset, whose start waits for the rails; VPP fails a start attempt instead. Without VAUX every domain is in reset already. -/
def execRailBrownOut (r : Fin 3) (s : State) : Host.Outcome State Fault Refusal :=
  if s.ctl.rst.vaux = false then .next (s.mapCtl fun c => c.railOut r)
  else if r.val = 2 ∧ s.ctl.starting = true then .next ((s.mapCtl fun c => c.railOut 2).startFail 1)
  else .next (s.dark fun c => (c.powerOn 6 0).railOut r)

/-- The links of both heads as they lose their lanes (R283, R414): an UP head goes DOWN, how many of its last writes were
not acknowledged being a free value. -/
def Ctl.lanesDown (c : Ctl) : Ctl :=
  c.forHeads fun h c =>
    let (n, c1) := c.fresh
    (dlDown h n c1).judgeLanes h

/-- The rails VDD_PHY and VDD_IO by number. -/
def railIo : Nat := 4

/-- The number of a rail that leaves tolerance above its brown-out level. -/
def railNum : LowRail → Nat
  | .vddPhy => railPhy
  | .vddIo => railIo
  | .vpp => 2

/-- RAIL_OUT_OF_TOLERANCE (R414): VDD_PHY, VDD_IO or VPP leaves tolerance: a start attempt fails. After a completed start the lanes idle
without VDD_PHY, flash accesses fail without VDD_IO, and VPP above its brown-out level has no outcome. -/
def execRailOutOfTolerance (r : LowRail) (s : State) : Host.Outcome State Fault Refusal :=
  if s.ctl.starting then .next ((s.mapCtl fun c => c.railOut (railNum r)).startFail 1)
  else .next (s.mapCtl fun c =>
    let c1 := c.railOut (railNum r)
    if c.rst.awaiting ≠ 8 then c1 else match r with
      | .vddPhy => c1.lanesDown
      | .vddIo => c1.fault 629 0
      | .vpp => c1)

/-- RAIL_RETURN (R414): a rail is back in tolerance: with VDD_PHY the lanes enter Detect, with VDD_IO flash accesses succeed. -/
def railReturn (r : LowRail) (c : Ctl) : Ctl :=
  let c1 := { c with rst.railsOut := c.rst.railsOut.filter fun n => decide (n ≠ (railNum r)) }
  match r with
  | .vddPhy => (c1.judgeLanes .a).judgeLanes .b
  | .vddIo => c1
  | .vpp => c1

def execRailReturn (r : LowRail) (s : State) : Host.Outcome State Fault Refusal := .next (s.mapCtl (railReturn r))

/-- VAUX_LOSS (R337, R345, R415): every domain resets, boot status included, and no pin is driven. -/
def vauxLoss (c : Ctl) : Ctl :=
  let c0 := c.powerReset
  let c1 := if c0.flt.tripHold then c0.emit (.errN false) else c0
  { c1 with
    regs := []
    flt := {}
    sbp := { recs := c1.sbp.recs }
    rst := { awaiting := 0, vaux := false } }

def execVauxLoss (s : State) : Host.Outcome State Fault Refusal := .next (s.dark vauxLoss)

/-- VAUX_RISE (R328, R384): VAUX reaches tolerance; the sideband answers at the address its straps give, and the
oscillator starts to count. -/
def vauxRise (sba : Fin 8) (c : Ctl) : Ctl :=
  if c.rst.vaux then c
  else ({ c with rst := { c.rst with vaux := true, vauxAt := c.clock } }.set R.SBP_STATUS_ADDRESS (0x58 + sba)).set
    R.RST_BOOT_STATUS_STEP 1

def execVauxRise (sba : Fin 8) (s : State) : Host.Outcome State Fault Refusal := .next (s.mapCtl (vauxRise sba))

/-- OSC_STABLE (R328): the oscillator has counted 65,536 cycles, 1,310.72 us from the rise of VAUX. -/
def oscStable (c : Ctl) : Ctl :=
  if c.rst.vaux = true ∧ c.rst.oscStable = false then
    let c1 := { c.passTo (c.rst.vauxAt + 1310720) with rst.oscStable := true }
    if c1.rst.awaiting = 1 then c1.toStep 2 else c1
  else c

def execOscStable (s : State) : Host.Outcome State Fault Refusal := .next (s.mapCtl oscStable)

/-- PLL_LOCK (R329, R342): the core and row PLLs lock `dt` ns on, within 50 us, and the start goes on to fuse sensing. -/
def pllLock (dt : Nat) (c : Ctl) : Ctl :=
  if c.rst.awaiting = 2 then
    (((c.pass (min dt 50000)).set R.CLK_STATUS_CORE_LOCK 1).set R.CLK_STATUS_ROW_LOCK 1).toStep 3
  else c

def execPllLock (dt : Nat) (s : State) : Host.Outcome State Fault Refusal := .next (s.mapCtl (pllLock dt))

/-- PLL_LOCK_TIMEOUT (R344): no lock within 200 us: cause 0x02. -/
def execPllLockTimeout (s : State) : Host.Outcome State Fault Refusal :=
  if s.ctl.rst.awaiting = 2 then .next ((s.mapCtl fun c => c.pass 200000).startFail 2) else .next s

/-- FUSE_WORD_READ_TIMEOUT (R344): a fuse word has not been read within 50 us: cause 0x03. -/
def execFuseWordReadTimeout (s : State) : Host.Outcome State Fault Refusal :=
  if s.ctl.rst.awaiting = 3 then .next (s.startFail 3) else .next s

/-! ## The clock monitor (R330 to R332) -/

/-- A head's REFCLK is qualified. -/
def Ctl.refQualified (c : Ctl) : Head → Bool
  | .a => c.flag R.CLK_MON_A_QUALIFIED
  | .b => c.flag R.CLK_MON_B_QUALIFIED

/-- A head's PHY PLL is locked. -/
def Ctl.setPhyLock (c : Ctl) (h : Head) (v : Nat) : Ctl := match h with
  | .a => c.set R.CLK_STATUS_PHYA_LOCK v
  | .b => c.set R.CLK_STATUS_PHYB_LOCK v

/-- The reference of R329: 1 REFCLK_A, 2 REFCLK_B, 0 the oscillator. -/
def Ctl.bestRef (c : Ctl) : Nat :=
  if c.refQualified .a then 1 else if c.twoHeads && c.refQualified .b then 2 else 0

/-- RC-1604 compatibility mode is in force. -/
def Ctl.compat (c : Ctl) : Bool := c.flag R.IDC_PART_ID_COMPAT_1604

/-- The core and row PLLs run on a head's REFCLK: after a warm reset before the monitor has qualified it again, too. -/
def Ctl.coreRef (c : Ctl) (h : Head) : Bool := decide (c.get R.CLK_STATUS_CORE_REF = h.num + 1) && !c.flag R.CLK_STATUS_COAST

/-- The core reference fails (R331, R332): the PLLs take the oscillator, or coast in compatibility mode. -/
def Ctl.coreRefFail (c : Ctl) : Ctl :=
  if c.compat then
    (c.set R.CLK_STATUS_COAST 1).eventAll logWarn 0x0502 0xFFFF 0 |>.fault 618 0
  else
    ((c.set R.CLK_STATUS_CORE_REF 0).emit (.clockSource 0)).raiseNmi.eventAll logWarn 0x0501 0xFFFF 0

/-- A qualified REFCLK fails (R330, R284): FAILED and FAILS, its fault, and the end of its head's link. -/
def Ctl.refFail (c : Ctl) (h : Head) : Ctl :=
  let c1 := match h with
    | .a => ((c.set R.CLK_MON_A_QUALIFIED 0).set R.CLK_MON_A_FAILED 1).bump R.CLK_MON_A_FAILS
    | .b => ((c.set R.CLK_MON_B_QUALIFIED 0).set R.CLK_MON_B_FAILED 1).bump R.CLK_MON_B_FAILS
  let (n, c2) := (c1.setPhyLock h 0).fresh
  let c3 := dlDown h n (c2.fault (616 + h.num) 0)
  if c3.coreRef h = true then c3.coreRefFail else c3

/-- One window of a REFCLK (R330): its count, its run of good windows, and qualification or failure. -/
def Ctl.monitorWindow (c : Ctl) (h : Head) (count : Nat) : Ctl :=
  let good := decide (496 ≤ count) && decide (count ≤ 528)
  let x := c.clk
  let c1 := match h with
    | .a => { c with clk := { x with goodA := if good then min 200 (x.goodA + 1) else 0,
                                     badA := if good then 0 else min 2 (x.badA + 1) } }.set
        R.CLK_MON_A_COUNT (min 1023 count)
    | .b => { c with clk := { x with goodB := if good then min 200 (x.goodB + 1) else 0,
                                     badB := if good then 0 else min 2 (x.badB + 1) } }.set
        R.CLK_MON_B_COUNT (min 1023 count)
  let runs := match h with
    | .a => (c1.clk.goodA, c1.clk.badA)
    | .b => (c1.clk.goodB, c1.clk.badB)
  if (c1.refQualified h || c1.coreRef h) && (decide (runs.2 = 2) || decide (count = 0)) then c1.refFail h
  else if !c1.refQualified h && decide (runs.1 = 200) then (match h with
    | .a => (c1.set R.CLK_MON_A_QUALIFIED 1).set R.CLK_MON_A_FAILED 0
    | .b => (c1.set R.CLK_MON_B_QUALIFIED 1).set R.CLK_MON_B_FAILED 0)
  else c1

/-- CLOCK_MONITOR_WINDOW (R330): a window ends with the cycles counted of REFCLK_A and REFCLK_B, the latter ignored in the
one-head division (R239). -/
def clockMonitorWindow (a b : Nat) (c : Ctl) : Ctl :=
  if c.clk.monitor then
    let c1 := c.monitorWindow .a a
    if c1.twoHeads then c1.monitorWindow .b b else c1
  else c

def execClockMonitorWindow (a b : Nat) (s : State) : Host.Outcome State Fault Refusal :=
  .next (s.mapCtl (clockMonitorWindow a b))

/-- At a quiet beat the PLLs take a newly qualified reference, and a coast ends (R329, R331, R332). -/
def Ctl.quietBeat (c : Ctl) : Ctl :=
  let r := c.bestRef
  if r = 0 ∨ (r = c.get R.CLK_STATUS_CORE_REF ∧ c.flag R.CLK_STATUS_COAST = false) then c
  else ((c.set R.CLK_STATUS_CORE_REF r).set R.CLK_STATUS_COAST 0).emit (.clockSource r)

/-- PHY_PLL_LOCK (R329): the PHY PLL of a head locks once its REFCLK is qualified. -/
def phyPllLock (h : Head) (c : Ctl) : Ctl :=
  if c.refQualified h && decide (c.hstate h ≠ 6) then c.setPhyLock h 1 else c

def execPhyPllLock (h : Head) (s : State) : Host.Outcome State Fault Refusal := .next (s.mapCtl (phyPllLock h))

/-! ## Clock gating (R333 to R335) -/

/-- The domain may be gated: on the RC-4812, and not the domain of a head that is not built. -/
def Ctl.gated (c : Ctl) (d : Nat) : Bool := decide (c.part = .rc4812) && tb c.allGates d

/-- GATE_OPEN (R334): the running Keeper opens a domain that has work pending. -/
def gateOpen (d : Fin 18) (c : Ctl) : Ctl :=
  if c.gated d && decide (c.kpr.phase = 3) then
    ({ c with clk.closing := c.clk.closing.filter fun x => decide (x ≠ d.val) }.set R.CLK_GATE_EN_EN
      (setBit (c.get R.CLK_GATE_EN_EN) d)).set R.CLK_GATE_STAT_OPEN (setBit (c.get R.CLK_GATE_STAT_OPEN) d)
  else c

def execGateOpen (d : Fin 18) (s : State) : Host.Outcome State Fault Refusal := .next (s.mapCtl (gateOpen d))

/-- GATE_IDLE_EXPIRY (R334, R335 step 1): a domain without work pending has been idle for IDLE_US, and the Keeper clears its bit. -/
def gateIdleExpiry (d : Fin 18) (c : Ctl) : Ctl :=
  if c.gated d && decide (c.kpr.phase = 3) && !c.flag R.CLK_GATE_POL_HOLD_OPEN && c.flag R.CLK_GATE_POL_IDLE_US &&
      tb (c.get R.CLK_GATE_EN_EN) d && !c.domainBusy d then
    { c with clk.closing := d.val :: c.clk.closing }.set R.CLK_GATE_EN_EN (clrBit (c.get R.CLK_GATE_EN_EN) d)
  else c

def execGateIdleExpiry (d : Fin 18) (s : State) : Host.Outcome State Fault Refusal := .next (s.mapCtl (gateIdleExpiry d))

/-- First offset of the register window that is gated as a domain's gate closes, 0 for none: CMB once all of [9:0] are closed. -/
def Ctl.gateWindow (c : Ctl) (d : Nat) : Nat :=
  if d < 10 then (if c.gateClosed 0x100000 then 0x100000 else 0) else if d = 12 then 0x140000 else 0

/-- An access still in progress at a window that closes ends (R335): a read of that window returns zeros to its head, a write is discarded.
-/
def Ctl.endLate (c : Ctl) (window : Nat) : LateAccess → Ctl
  | .read h off wide => if off / 65536 * 65536 = window then c.emit (.regValue h off (if wide then 8 else 4) 0) else c
  | .write => c

/-- GATE_CLOSE (R335 steps 2 and 3): the gate closes; an access still in progress at that moment (`late`) ends and is
reported. -/
def gateClose (d : Fin 18) (late : Option LateAccess) (c : Ctl) : Ctl :=
  if c.clk.closing.contains d.val then
    let c1 := { c with clk.closing := c.clk.closing.filter fun x => decide (x ≠ d.val) }.set R.CLK_GATE_STAT_OPEN
      (clrBit (c.get R.CLK_GATE_STAT_OPEN) d)
    match late with
    | none => c1
    | some x =>
      if c.gateWindow d = 0 then c1
      else (((c1.endLate (c.gateWindow d) x).bump R.CLK_GATED_ACC_CNT_EVENTS).eventAll logWarn 0x0503 0xFFFF (c.gateWindow d)).fault 619
        (c.gateWindow d)
  else c

def execGateClose (d : Fin 18) (late : Option LateAccess) (s : State) : Host.Outcome State Fault Refusal :=
  .next (s.mapCtl (gateClose d late))

/-- HOLD_OPEN written 1 (R334): every domain is open. -/
def Ctl.holdOpen (c : Ctl) : Ctl := if c.flag R.CLK_GATE_POL_HOLD_OPEN then c.openGates else c

/-! ## Warm reset and quiesce (R337 to R340) -/

/-- DEVICE_RESET (R346): with CONFIRM 0x5A it completes, and a warm reset begins 1 ms later. -/
def deviceReset (h : Head) (p : Bytes) (c : Ctl) : Ctl :=
  c.ocs h 0xC170 { min := 1 } p fun c =>
    if le p 0 1 = 0x5A then (c.finish h 0xC170 .ok []).askWarm 1 (c.clock + 1000000)
    else c.finish h 0xC170 .invalidParameter []

def execDeviceReset (h : Head) (p : Bytes) (s : State) : Host.Outcome State Fault Refusal := .next (s.mapCtl (deviceReset h p))

/-- BOOT_STATUS_GET (R346). -/
def bootStatusGet (h : Head) (p : Bytes) (c : Ctl) : Ctl :=
  c.ocs h 0xC171 {} p fun c =>
    c.finish h 0xC171 .ok ([0x20010, 0x20014, 0x20020, 0x10000].flatMap fun o => toLE 4 (c.wordAt h o))

def execBootStatusGet (h : Head) (p : Bytes) (s : State) : Host.Outcome State Fault Refusal :=
  .next (s.mapCtl (bootStatusGet h p))

/-- The steering of a repair in its window has been switched (R39, R40, R42): 1,000 ns after the start of the window, whose end is `due`.
-/
def Ctl.steered (c : Ctl) (r : RepairSt) : Bool :=
  decide (r.step = 1) && decide (r.due ≤ c.clock + (if r.unit < 48 then 6800 else 61400))

/-- A repair in service at the start of a quiesce (R42): its position, or a retry, stays marked for step 8 of the restart; steering that
has been switched is kept. -/
def Ctl.markRepairs (c : Ctl) : Ctl :=
  let marked := c.stk.repairs.map fun r => (r.unit, r.pos)
  let c1 := { c with
    stk.failing := (c.stk.failing ++ marked).eraseDups
    stk.switched := (c.stk.repairs.filter c.steered).map fun r => (r.unit, r.pos)
    stk.repairs := []
    stk.chans := c.stk.chans.map fun (e : Nat × ChanSt) => (e.1, { e.2 with
      closed := false
      queue := e.2.queue.filter fun r => decide (r.kind ≠ .correction)
      waiting := e.2.waiting.filter fun r => decide (r.kind ≠ .correction) }) }
  (List.range 4).foldl (fun c l => if c.laneState l = 2 then c.setLaneState l 1 else c) c1

/-- A commit or a bandwidth snapshot that is pending is dropped (R408): PENDING reads 0, REJECT and the shadows stay. -/
def Ctl.dropCommits (c : Ctl) : Ctl :=
  (({ c with stkPend := false, snapPend := false }.set R.MAP_COMMIT_PENDING 0).set R.QOS_SCHED_COMMIT_PENDING 0).set
    R.QOS_CLASS_COMMIT_PENDING 0

/-- Quiesce begins (R339 step 1): every head's lock counts as lost (R258), pending commits are dropped (R408), jobs stop and
post nothing, admission and fetching stop, and self-refresh is asked for. -/
def Ctl.beginQuiesce (c : Ctl) (origin : Nat) : Ctl :=
  let c1 := ((c.loseLock .a).loseLock .b).dropCommits
  let c2 := c1.markRepairs
  let c3 := { c2 with
    rst := { c2.rst with quiesce := 1, quiesceAt := c2.clock, warm := true, warmReq := none }
    stk.selfRef := if 2 ≤ c2.stk.selfRef then 2 else 1
    stk.srcPark := if c2.stk.selfRef < 2 ∧ c2.stk.srcPark = 1 then 3 else c2.stk.srcPark
    job := { c2.job with jobs := [], fetches := [], dma := [], doneA := [], doneB := [], slotWaiters := [] }
    dec := {}
    stx.pins := []
    stx.waiters := []
    stx.reserved := []
    frg := {} }.judgeFlush
  (c3.set R.STX_FREE_CNT_FREE (c3.get R.STX_FREE_CNT_FREE + c2.stx.reserved.length)).set R.RST_BOOT_INFO_ORIGIN origin

/-- WARM_RESET (R337 to R339): a warm reset that is due begins; in test mode it is a power-on reset (R367). -/
def execWarmReset (s : State) : Host.Outcome State Fault Refusal :=
  match s.ctl.rst.warmReq with
  | none => .next s
  | some o =>
    if s.ctl.rst.awaiting ≠ 8 ∨ s.ctl.rst.quiesce ≠ 0 then .next s
    else if s.ctl.cal.testMode then .next ((s.mapCtl fun c => c.passTo c.rst.warmAt).powerOn o)
    else .next (s.mapCtl fun c => (c.passTo c.rst.warmAt).beginQuiesce o)

/-- RST_CTL written with WARM and KEY 0xA5 (R337); WARM and KEY read 0. -/
def Ctl.rstCtl (c : Ctl) (w : Word) : Ctl :=
  if w.toNat / 2 ^ 24 = 0xA5 ∧ w.toNat % 2 = 1 then c.askWarm 5 c.clock else c

/-- The stack address of a place, by the comb region whose rows hold it, else by the linear map (R52, R53, R55). -/
def Ctl.unview (c : Ctl) (p : Place) : Nat :=
  let region := (List.range 16).find? fun n =>
    let b := (c.combRange n).1 / c.bandBytes
    c.combOn n && decide (4 * b ≤ p.row) && decide (p.row < 4 * (b + c.get (R.MAP_COMB_HI_BANDS n)))
  match region with
  | some n =>
    let base := (c.combRange n).1
    let j := (p.row - 4 * (base / c.bandBytes)) * 16 + p.bank
    base + (j * c.nch + p.chan) * 1024 + p.line * 64
  | none =>
    let s := c.get R.MAP_LIN_CFG_TIER_SHIFT
    let q := fun (f : Fld) => par (c.get f &&& p.row)
    let bk := (p.bank % 4) ^^^ (2 * q R.MAP_BANK_XOR1_MASK) ^^^ q R.MAP_BANK_XOR0_MASK
    let bg := (p.bank / 4) ^^^ (2 * q R.MAP_BG_XOR1_MASK) ^^^ q R.MAP_BG_XOR0_MASK
    let lane := (p.chan / 4 % 4) ^^^ (2 * q R.MAP_LANE_XOR1_MASK) ^^^ q R.MAP_LANE_XOR0_MASK
    let cid := (p.chan % 4) ^^^ (2 * q R.MAP_CH_XOR1_MASK) ^^^ q R.MAP_CH_XOR0_MASK
    let gl := 4 * p.row + bk
    let tier := p.chan / 16
    let g := match c.part with
      | .rc4812 => (gl / 2 ^ s * 3 + tier) * 2 ^ s + gl % 2 ^ s
      | .rc3208 => (gl / 2 ^ s * 2 + (tier ^^^ par (c.get R.MAP_TIER_XOR_MASK &&& p.row))) *
          2 ^ s + gl % 2 ^ s
    g * 65536 + lane * 16384 + bg * 4096 + cid * 1024 + p.line * 64

/-- The place whose row a reserve row holds (R59). -/
def Ctl.unreserve' (c : Ctl) (dr : Nat) (p : Place) : Place :=
  let td := p.chan / 4
  let k := if dr < td then td - 1 else td
  let i := ((p.row - c.resRowBase) * 64 + p.bank * 4 + p.chan % 4) * (c.nd - 1) + k
  ⟨4 * dr + i / 16 % 4, i % 16, i / 64, p.line⟩

/-- The row of a lost unit that a row of the removed granules holds (R189), if any. -/
def Ctl.unplaceOne (c : Ctl) (e : Placed) (p : Place) : Option Place :=
  let same := fun (q : Place) => decide (q.chan = p.chan) && decide (q.bank = p.bank) && decide (q.row = p.row)
  let isChan := decide (e.entry.kind = 1)
  let rows := if isChan then (List.range 65536).flatMap fun r => (List.range 16).map fun b => (⟨e.entry.unit, b, r, p.line⟩ : Place)
    else (List.range 65536).flatMap fun r => (List.range 64).map fun x => (⟨4 * e.entry.unit + x / 16, x % 16, r, p.line⟩ : Place)
  if (c.spareRows e).any same then
    rows.find? fun q => decide (((c.spareRows e)[c.rowRank c.remapNow.bound isChan q]?).map same = some true)
  else none

/-- The stack address served at a place (R59, R189). -/
def Ctl.addrAt (c : Ctl) (p : Place) : Nat :=
  if c.resRowBase ≤ p.row ∧ c.flag R.MAP_LAYOUT_RES_BOUND = true then
    c.unview (c.unreserve' (c.get R.MAP_LAYOUT_RES_DIE) p)
  else
    match c.ecc.placed.findSome? fun e => c.unplaceOne e p with
    | some q => if c.resRowBase ≤ q.row ∧ c.flag R.MAP_LAYOUT_RES_BOUND = true then
        c.unview (c.unreserve' (c.get R.MAP_LAYOUT_RES_DIE) q) else c.unview q
    | none => c.unview p

/-- The torn-line log of R340 as it stands: the lines whose column write is at a channel controller, and the rows whose lane
write is pending. -/
def Ctl.tornNow (c : Ctl) : List (Nat × Nat) :=
  (c.stk.chans.flatMap fun (e : Nat × ChanSt) =>
    ((e.2.queue.filter fun r => r.write).map fun r => (c.addrAt ⟨e.1, r.bank, r.row, r.line⟩, 1)) ++
      (e.2.flight.filter fun f => f.req.write && decide (c.ps < f.ends)).map fun f =>
        (c.addrAt ⟨e.1, f.req.bank, f.req.row, f.req.line⟩, f.bytes / 64)) ++
  (c.stk.lanes.flatMap fun (e : Nat × LaneSt) => (e.2.pending.filter fun x => x.write).map fun x =>
    (c.addrAt ⟨x.chan, x.bank, x.row, 0⟩, 16))

/-- Everything at the channel controllers and the lanes gone; panic falls with the fill (R159). -/
def Ctl.emptyQueues (c : Ctl) : Ctl :=
  { c with stk := { c.stk with
    chans := c.stk.chans.map fun (e : Nat × ChanSt) => (e.1, { e.2 with
      queue := [], waiting := [], banks := [], acts := [], cols := [], flight := [], window := none, starts := [], nextBank := 0 })
    lanes := c.stk.lanes.map fun (e : Nat × LaneSt) => (e.1, { e.2 with pending := [], waiting := [], landing := [], run := 0, chosen := false })
    ingest := []
    cells := [] } }.judgePanic

/-- Every request and row transfer that passed the mapper completes at its bank and counts as served (R166, R237, R319, R339): those in the
queues and under way, and those that wait for an entry, none of which is dropped (R154). -/
def Ctl.drained (c : Ctl) : Ctl :=
  let c1 := c.stk.chans.foldl (fun (c : Ctl) e =>
    (e.2.queue ++ e.2.waiting).foldl (fun c r => c.serve r.kind r.cls r.write 64)
      (e.2.flight.foldl (fun c f => c.serve f.req.kind f.req.cls f.req.write f.bytes) c)) c
  (c1.stk.lanes.foldl (fun (c : Ctl) e =>
    (e.2.pending ++ e.2.waiting).foldl (fun c x => c.serve (.port x.port) x.cls x.write 1024) c) c1).emptyQueues

/-- SELF_REFRESH_ENTERED (R166, R303, R319, R339): requests that passed the mapper have completed, merges included; contexts
and seal metadata are flushed; and the dies that were asked to are in self-refresh. -/
def execSelfRefreshEntered (s : State) : Host.Outcome State Fault Refusal :=
  if s.ctl.stk.selfRef = 1 then
    let s1 := s.ctl.ecc.merges.foldl (fun st m => (st.merge m.sa m.data).2) (s.mapCtl fun c => { c with ecc.merges := [] })
    let s2 := (s1.mapCtl fun c => c.ctxFlush c.stx.dirty.length).sealFlush (5 * s1.ctl.sea.dirty.length)
    .next (s2.mapCtl fun c => selfRefreshEntered c.drained)
  else .next s

/-- QUIESCE_FORCED (R339, R340): self-refresh has not been reached at 500 us: the always-on control puts every die into it,
and the torn-line log names the writes cut short. -/
def quiesceForced (c : Ctl) : Ctl :=
  if c.rst.quiesce = 1 ∧ c.stk.selfRef ≠ 2 then
    let c1 := c.passTo (c.rst.quiesceAt + 500000)
    let c2 := { c1 with rst.torn := c1.tornNow, rst.quiesce := 2 }
    let c3 := { c2.emptyQueues with stk.selfRef := 2, ecc.merges := [] }
    (((c3.set R.STK_SR_STAT_IN_SR (maskOf c3.nd fun d => !c3.stk.feedsOpen.contains d)).set R.STK_SR_STAT_DROPPED
      c3.parkDrops).set R.RST_QUIESCE_FORCED 1).fault 634 0
  else c

def execQuiesceForced (s : State) : Host.Outcome State Fault Refusal := .next (s.mapCtl quiesceForced)

end Sys2Proof.Machine
end

