-- ==== Sys2Proof/Machine/Signature.lean ====
section
/-! DEFINITION. The public-key functions that the spec names and does not restate: SHA-384 (FIPS 180-4) and the verification of an
ECDSA signature over the curve P-384 (FIPS 186-5), as R304 and R360 use them. A public key is x then y, a signature r then s, each of
48 bytes with the most significant first. -/

namespace Sys2Proof.Machine

/-! ## SHA-384 (FIPS 180-4) -/

/-- The 80 round constants: from the cube roots of the first 80 primes. -/
def sha384K : List Nat := (primesBelow 410).map (rootFraction 64 3)

/-- The initial hash value: from the square roots of the ninth to sixteenth primes. -/
def sha384Init : List Nat := ((primesBelow 54).drop 8).map (rootFraction 64 2)

/-- SHA-384 of a byte string: blocks of 128 bytes, words of 64 bits, 48 bytes of the result. -/
def sha384 (p : Bytes) : Bytes :=
  let form : ShaForm := ⟨64, sha384K, ([1, 8], 7), ([19, 61], 6), [28, 34, 39], [14, 18, 41]⟩
  (shaHash form sha384Init p).take 48

/-! ## The curve P-384 -/

/-- The prime of its field, the coefficient b, and the order of its base point. -/
def curveP : Nat := 2 ^ 384 - 2 ^ 128 - 2 ^ 96 + 2 ^ 32 - 1
def curveB : Nat := 0xB3312FA7E23EE7E4988E056BE3F82D19181D9C6EFE8141120314088F5013875AC656398D8A2ED19D2A85C8EDD3EC2AEF
def curveN : Nat := 0xFFFFFFFFFFFFFFFFFFFFFFFFFFFFFFFFFFFFFFFFFFFFFFFFC7634D81F4372DDF581A0DB248B0A77AECEC196ACCC52973

/-- A point in Jacobian coordinates: x over z squared and y over z cubed; z 0 is the point at infinity. -/
structure Point where
  x : Nat
  y : Nat
  z : Nat
  deriving DecidableEq, Repr

/-- The base point. -/
def basePoint : Point :=
  ⟨0xAA87CA22BE8B05378EB1C71EF320AD746E1D3B628BA79B9859F741E082542A385502F25DBF55296C3A545E3872760AB7,
   0x3617DE4A96262C6F5D9E98BF9292DC29F8F41DBD289A147CE9DA3113B5F0B8C00A60B1CE1D7E819D7A431D7C90EA0E5F, 1⟩

/-- Difference and product in the field. -/
def subP (a b : Nat) : Nat := (a + curveP - b) % curveP
def mulP (a b : Nat) : Nat := a * b % curveP

/-- Twice a point. -/
def Point.double (a : Point) : Point :=
  let y2 := mulP a.y a.y
  let s := mulP (4 * a.x) y2
  let m := mulP 3 (subP (mulP a.x a.x) (mulP (mulP a.z a.z) (mulP a.z a.z)))
  let x := subP (mulP m m) (2 * s % curveP)
  ⟨x, subP (mulP m (subP s x)) (mulP 8 (mulP y2 y2)), mulP (2 * a.y) a.z⟩

/-- The sum of two points. -/
def Point.add (a b : Point) : Point :=
  if a.z = 0 then b else if b.z = 0 then a else
  let za := mulP a.z a.z
  let zb := mulP b.z b.z
  let ua := mulP a.x zb
  let h := subP (mulP b.x za) ua
  let sa := mulP a.y (mulP zb b.z)
  let r := subP (mulP b.y (mulP za a.z)) sa
  if h = 0 then (if r = 0 then a.double else ⟨1, 1, 0⟩)
  else
    let h2 := mulP h h
    let h3 := mulP h h2
    let v := mulP ua h2
    let x := subP (subP (mulP r r) h3) (2 * v % curveP)
    ⟨x, subP (mulP r (subP v x)) (mulP sa h3), mulP h (mulP a.z b.z)⟩

/-- The sum of m times the base point and n times a point, over the lowest `k` bits of both, most significant first. -/
def twoMul (m n : Nat) (q both : Point) : Nat → Point → Point
  | 0, acc => acc
  | k + 1, acc =>
    let d := acc.double
    twoMul m n q both k
      (if m.testBit k then (if n.testBit k then d.add both else d.add basePoint) else if n.testBit k then d.add q else d)

/-- The power of a number modulo the order, over the lowest `k` bits of the exponent. -/
def powN (a e : Nat) : Nat → Nat → Nat
  | 0, acc => acc
  | k + 1, acc => powN a e k (if e.testBit k then acc * acc % curveN * a % curveN else acc * acc % curveN)

/-- A public key lies on the curve. -/
def onCurve (x y : Nat) : Bool :=
  decide (x < curveP) && decide (y < curveP) && decide (mulP y y = (mulP x (mulP x x) + 3 * (curveP - x) + curveB) % curveP)

/-- ECDSA on P-384 with SHA-384: a signature of 96 bytes over a message verifies under a public key of 96 bytes. -/
def ecdsaVerify (key msg sig : Bytes) : Bool :=
  let qx := ofBE (key.take 48)
  let qy := ofBE (key.drop 48)
  let r := ofBE (sig.take 48)
  let t := ofBE (sig.drop 48)
  if decide (key.length = 96) && decide (sig.length = 96) && onCurve qx qy && decide (0 < r) && decide (r < curveN) &&
      decide (0 < t) && decide (t < curveN) then
    let w := powN t (curveN - 2) 384 1
    let q : Point := ⟨qx, qy, 1⟩
    let sum := twoMul (ofBE (sha384 msg) * w % curveN) (r * w % curveN) q (basePoint.add q) 384 ⟨1, 1, 0⟩
    let z2 := mulP sum.z sum.z
    decide (sum.z ≠ 0) && (decide (sum.x = mulP r z2) || (decide (r + curveN < curveP) && decide (sum.x = mulP (r + curveN) z2)))
  else false

/-- The power of a number modulo the prime of the field. -/
def powP (a e : Nat) : Nat → Nat → Nat
  | 0, acc => acc
  | k + 1, acc => powP a e k (if e.testBit k then mulP (mulP acc acc) a else mulP acc acc)

/-- The coordinates x and y of a multiple of the base point. -/
def multiple (n : Nat) : Nat × Nat :=
  let p := twoMul n 0 basePoint basePoint 384 ⟨1, 1, 0⟩
  let i := powP p.z (curveP - 2) 384 1
  (mulP p.x (mulP i i), mulP p.y (mulP i (mulP i i)))

/-- The public key of a private one, 96 bytes. -/
def publicKey (d : Nat) : Bytes := toBE 48 (multiple d).1 ++ toBE 48 (multiple d).2

/-- ECDSA on P-384 with SHA-384: the signature of a message by the private key `d` with the nonce `k`. -/
def ecdsaSign (d k : Nat) (msg : Bytes) : Bytes :=
  let r := (multiple k).1 % curveN
  toBE 48 r ++ toBE 48 (powN k (curveN - 2) 384 1 * ((ofBE (sha384 msg) + r * d) % curveN) % curveN)

end Sys2Proof.Machine
end

