-- ==== Sys2Proof/Machine/Test.lean ====
section
/-! DEFINITION. Fuses, calibration and self-test (chapter 16): sensing and judging the OTP, reading and programming it, the
life cycle, recalibration, and the test engine (R348 to R370). -/

namespace Sys2Proof.Machine

/-! ## The OTP array (R348 to R352) -/

/-- A word of the OTP as the normal margin reads it. -/
def otpWord (l : List (Nat × Nat)) (a : Nat) : Nat := (mapGet l a).getD 0

/-- The words from `lo` up to, not including, `hi`. -/
def otpRange (l : List (Nat × Nat)) (lo hi : Nat) : List Nat := (List.range (hi - lo)).map fun i => otpWord l (lo + i)

/-- A region of R349: its first word, its check word, and its class. -/
structure Region where
  lo : Nat
  check : Nat
  cls : Nat
  deriving DecidableEq, Repr

/-- The regions with a check word, in the order of the lock fuses (R349, R353): SECURITY, KEY, CONFIG, CAL, REPAIR. -/
def otpRegions : List Region :=
  [⟨0x003, 0x03F, 1⟩, ⟨0x040, 0x04F, 2⟩, ⟨0x050, 0x05F, 3⟩, ⟨0x060, 0x1FF, 4⟩, ⟨0x200, 0x7EF, 5⟩]

/-- The class of a word (R349). -/
def wordClass (a : Nat) : Nat :=
  if a = 0 then 0 else if a < 0x040 then 1 else if a < 0x050 then 2 else if a < 0x060 then 3 else if a < 0x200 then 4
  else if a < 0x7F0 then 5 else 6

/-- The outcome of a region (R350, FUS_REGION_STAT): 3 holds a marginal word, 1 blank, 0 passed, 2 failed. -/
def regionStat (l : List (Nat × Nat)) (marginal : List Nat) (r : Region) : Nat :=
  let ws := otpRange l r.lo r.check
  if marginal.any fun a => decide (r.lo ≤ a) && decide (a ≤ r.check) then 3
  else if ws.all (fun w => decide (w = 0)) && decide (otpWord l r.check = 0) then 1
  else if crc32c (ws.flatMap (toLE 4)) = otpWord l r.check then 0 else 2

/-- The encoding of a life-cycle state (R357). -/
def lcCode : Nat → Nat
  | 0 => 0
  | 1 => 0xFF
  | 2 => 0xFFFF
  | 3 => 0xFFFFFF
  | _ => 0xFFFFFFFF

/-- The life-cycle state that a word encodes, none for an invalid one. -/
def lcOf (w : Nat) : Option Nat := (List.range 5).find? fun s => decide (lcCode s = w)

/-- The 64 bits of the SVN words. -/
def svnBits (l : List (Nat × Nat)) : Nat := otpWord l 1 + 2 ^ 32 * otpWord l 2

/-- MIN_SVN, and none for words that are no thermometer (R349). -/
def svnOf (l : List (Nat × Nat)) : Option Nat :=
  let n := popCount 64 (svnBits l)
  if svnBits l = 2 ^ n - 1 then some n else none

/-- A lock bit of FUS_LOCK.LOCKED. -/
def Ctl.locked5 (c : Ctl) (i : Nat) : Bool := tb (c.get R.FUS_LOCK_LOCKED) i

/-- LC_STATE. -/
def Ctl.lcState (c : Ctl) : Nat := c.get R.FUS_STATUS_LC_STATE

/-- A word, not marginal itself, of a region that passes its check word, be another word of it marginal or not (R350, R352). -/
def Ctl.fuseUsable (c : Ctl) (stat : Fld) (a : Nat) : Bool :=
  (decide (c.get stat = 0) || decide (c.get stat = 3)) && !c.fus.marginal.contains a &&
    otpRegions.any fun r => decide (r.lo ≤ a) && decide (a ≤ r.check) && decide (regionStat c.fus.shadow [] r = 0)

/-- A calibrated value that no flash record supplies (R314, R352, R361): whether a usable, programmed word of the CAL region spells it, and
the value, else the nominal one. Of dies, CAL holds regulator trims and the thermal model; `d` is 12 for the PHY. -/
def Ctl.calFallback (c : Ctl) (d cls item : Nat) : Bool × Nat :=
  let a := 0x0E0 + (Config.calPlace d cls item).val
  let w := otpWord c.fus.shadow a
  if decide (w ≠ 0) && decide (2 ≤ cls) && c.fuseUsable R.FUS_REGION_STAT_CAL a then (true, (Config.calSpelt w d cls item).toNat)
  else (false, (Config.nominalCal d cls item).toNat)

/-- The calibrated value of an element of a die in force (R361, R364): the selection that a record or a measurement has given, or else the
value of the next source. -/
def Ctl.calInForce (c : Ctl) (d cls item : Nat) : Nat :=
  match ((mapGet c.cal.sel d).getD []).find? fun x => decide (x.cls = cls) && decide (x.item = item) with
  | some x => x.value
  | none => (c.calFallback d cls item).2

/-- The trim leg of a PHY lane in force (R361, R396): `k` 0 the transmitter's, 1 the termination's. -/
def Ctl.phyLeg (c : Ctl) (lane k : Nat) : Nat :=
  match c.cal.legs.find? fun x => decide (x.item = 2 * lane + k) with
  | some x => x.value
  | none => (c.calFallback 12 3 (2 * lane + k)).2

/-- HEAD_MODE as sensed: bits [1:0] of word 0x050 (PRESUMED, notes/assumptions/31.md), 0b00 when ignored. -/
def Ctl.headMode (c : Ctl) : Nat :=
  if c.fuseUsable R.FUS_REGION_STAT_CONFIG 0x050 then otpWord c.fus.shadow 0x050 % 4 else 0

/-- FUSED_MAX as sensed: bits [7:0] of word 0x051 (PRESUMED, notes/assumptions/31.md), 24 when ignored. -/
def Ctl.fusedMax (c : Ctl) : Nat :=
  if c.fuseUsable R.FUS_REGION_STAT_CONFIG 0x051 then otpWord c.fus.shadow 0x051 % 256 else 24

/-- The division of R239: by HEAD_MODE, or by the HEADS strap; with two heads rings 32 to 63 are Head B's (R87). -/
def Ctl.divide (c : Ctl) : Ctl :=
  let m := c.headMode
  let two := if m = 1 then false else if m = 2 then true else c.headsStrap
  let rings := if two then 2 ^ 64 - 2 ^ 32 else 0
  (((((c.set R.JRG_OWNER_SQ_OWNER rings).set R.JRG_OWNER_CQ_OWNER rings).set R.IDC_OTP_ID_DIVISION (if two then 2 else 1)).set R.IDC_OTP_ID_FROM_STRAP (bit (m = 0 || m = 3))).set
    (R.HD_STATE_STATE 1) (if two then 0 else 6)).openGates

/-- What the shadows give at step 4 of every start (R311, R352, R353): the fuse limits, the sensors that are trimmed, and the locks, and on a power-on start the
division, identity and MIN_SVN. -/
def Ctl.loadShadows (c : Ctl) : Ctl :=
  let c1 := ((c.set R.STK_ACT_CFG_FUSED_MAX c.fusedMax).set R.PWR_STATUS_ACT_CAP (max 8 c.fusedMax)).set R.FUS_LOCK_FUSED (otpWord c.fus.shadow 0x7F0 % 32)
  let c2 := (List.range 4).foldl (fun c i => c.set (R.IDC_UNIQUE_ID_ID i) (otpWord c.fus.shadow (0x004 + i))) c1
  let c3 := (List.range 128).foldl (fun c n => c.set (R.THM_SENS_TRIMMED n)
    (bit (c.fuseUsable R.FUS_REGION_STAT_CAL (0x060 + n) && decide (otpWord c.fus.shadow (0x060 + n) ≠ 0)))) c2
  { (c3.set R.IDC_OTP_ID_SEAL_KEYS (bit (c3.get R.FUS_REGION_STAT_KEY = 0))).set R.CLK_STATUS_TRIMMED 1 with
    clk.monitor := true }

/-- The marginal words listed (R354). -/
def Ctl.listMarginal (c : Ctl) : List Nat → Nat → Ctl
  | [], _ => c
  | a :: t, i =>
    if 16 ≤ i then c
    else Ctl.listMarginal (((c.set (R.FUS_MARGINAL_VALID i) 1).set (R.FUS_MARGINAL_CLASS i) (wordClass a)).set
      (R.FUS_MARGINAL_ADDR i) a) t (i + 1)

/-- The outcomes of the regions, with the faults of R354. A region whose check fails raises its fault also where it holds a marginal word,
which is what FUS_REGION_STAT then shows (DESIGN CHOICE, notes/assumptions/129.md). -/
def Ctl.judgeRegions (c : Ctl) : Ctl :=
  let st := otpRegions.map (regionStat c.fus.shadow c.fus.marginal)
  let c1 := ((((c.set R.FUS_REGION_STAT_SECURITY (st.getD 0 0)).set R.FUS_REGION_STAT_KEY (st.getD 1 0)).set
    R.FUS_REGION_STAT_CONFIG (st.getD 2 0)).set R.FUS_REGION_STAT_CAL (st.getD 3 0)).set R.FUS_REGION_STAT_REPAIR (st.getD 4 0)
  let c2 := c.fus.marginal.foldl (fun c a => c.fault 624 a) c1
  let c3 := otpRegions.foldl (fun c r => if regionStat c.fus.shadow [] r = 2 then c.fault 625 r.lo else c) c2
  let c4 := (c3.set R.FUS_STATUS_MARGINAL (min 0xFF c.fus.marginal.length)).listMarginal c.fus.marginal 0
  if c.fus.marginal.isEmpty then c4 else c4.set R.RST_BOOT_INFO_FUSE_MARGINAL 1

/-- What step 4 makes a start failure with cause 0x04 (R352). -/
def Ctl.fuseFailure (c : Ctl) : Bool :=
  let m := c.fus.marginal
  let lc := lcOf (otpWord c.fus.shadow 0)
  m.any (fun a => decide (a < 0x003)) || lc.isNone || (svnOf c.fus.shadow).isNone ||
    decide (c.get R.FUS_REGION_STAT_SECURITY = 3) ||
    (decide (c.get R.FUS_REGION_STAT_SECURITY ≠ 0) && decide (lc ≠ some 0))

/-- FUSE_SENSING_DONE (R348 to R354, R359): the words are sensed, `weak` naming the bits that do not read at the strict margin;
step 4 judges them. A life-cycle or security failure ends the attempt; any other part goes on to the ROM. -/
def execFuseSensingDone (weak : List (Nat × Nat)) (s : State) : Host.Outcome State Fault Refusal :=
  if s.ctl.rst.awaiting ≠ 3 then .next s
  else
    let c := s.ctl.pass 24676000
    let marginal := (List.range 0x7F1).filter fun a => decide (otpWord c.fus.words a &&& otpWord weak a ≠ 0)
    let c1 := ({ c with fus := { c.fus with shadow := c.fus.words, marginal := marginal } }.set
      R.RST_BOOT_STATUS_STEP 4).judgeRegions
    if c1.fuseFailure then .next ({ s with ctl := c1 }.startFail 4)
    else
      let c2 := (c1.loadShadows.divide.set R.FUS_LOCK_LOCKED (otpWord c1.fus.shadow 0x7F0 % 32)).set
        R.FUS_STATUS_MIN_SVN ((svnOf c1.fus.shadow).getD 0)
      .next { s with ctl := { c2.toStep 4 with kpr.phase := 1 } }

/-! ## Reading and programming (R355, R356, R358, R370) -/

/-- A word that no read shows (R355): a UDS word (PRESUMED at 0x008 to 0x00F, notes/assumptions/31.md) or a KEY word. -/
def secretWord (a : Nat) : Bool := (decide (0x008 ≤ a) && decide (a ≤ 0x00F)) || (decide (0x040 ≤ a) && decide (a ≤ 0x04F))

/-- FUSE_READ (R355): one word at both margins, `weak` being its bits that do not read at the strict one. -/
def fuseRead (h : Head) (p : Bytes) (weak : Nat) (c : Ctl) : Ctl :=
  c.ocs h 0xC180 { min := 2 } p fun c =>
    let a := le p 0 2
    let n := otpWord c.fus.words a
    let st := n - (n &&& weak)
    if 0x7F1 ≤ a then c.finish h 0xC180 .invalidParameter []
    else if secretWord a then c.finish h 0xC180 .ok (toLE 8 0 ++ toLE 1 2)
    else c.finish h 0xC180 .ok (toLE 4 n ++ toLE 4 st ++ toLE 1 (bit (decide (n ≠ st))))

def execFuseRead (h : Head) (p : Bytes) (weak : Nat) (s : State) : Host.Outcome State Fault Refusal :=
  .next (s.mapCtl (fuseRead h p weak))

/-- A word programmed with `bits` (R356), `stuck` being bits that will not blow: whether every bit did, and the new state. -/
def Ctl.blow (c : Ctl) (a bits stuck : Nat) : Bool × Ctl :=
  let old := otpWord c.fus.words a
  let want := bits - (bits &&& old)
  let bad := want &&& stuck
  let c1 := { c with fus.words := mapPut c.fus.words a (old + (want - bad)) }
  if bad = 0 then (true, c1) else (false, c1.fault 626 a)

/-- The region lock over a word (R353): its bit of FUS_LOCK.LOCKED is set. -/
def Ctl.wordLocked (c : Ctl) (a : Nat) : Bool :=
  let k := wordClass a
  decide (1 ≤ k) && decide (k ≤ 5) && decide (3 ≤ a) && c.locked5 (k - 1)

/-- A fuse command's states (R370): MANUFACTURE and RMA, and BLANK through the sideband. -/
def Ctl.fuseState (c : Ctl) (sideband : Bool) : Bool :=
  if sideband then decide (c.lcState = 0) else decide (c.lcState = 1) || decide (c.lcState = 3)

/-- FUSE_PROGRAM carried out (R356, R370). -/
def Ctl.doProgram (c : Ctl) (sideband : Bool) (a bits stuck : Nat) : Bool × Ctl :=
  if !c.fuseState sideband ∨ a < 3 ∨ 0x7F1 ≤ a ∨ c.wordLocked a = true then (false, c) else c.blow a bits stuck

/-- FUSE_LOCK carried out (R353, R370): one lock fuse. -/
def Ctl.doLock (c : Ctl) (sideband : Bool) (i stuck : Nat) : Bool × Ctl :=
  if !c.fuseState sideband ∨ 5 ≤ i then (false, c) else c.blow 0x7F0 (2 ^ i) stuck

/-- The bits a target encoding adds blown one at a time from the most significant downward (R358), up to the first that
fails. -/
def Ctl.blowDown (c : Ctl) (target stuck : Nat) : Nat → Bool × Ctl
  | 0 => (true, c)
  | n + 1 =>
    let old := otpWord c.fus.words 0
    if !tb target n ∨ tb old n = true then c.blowDown target stuck n
    else if tb stuck n then (false, c.fault 626 0)
    else Ctl.blowDown { c with fus.words := mapPut c.fus.words 0 (old + 2 ^ n) } target stuck n

/-- The transitions of R360, `auth` telling whether the authorisation verifies. -/
def Ctl.lcAllowed (c : Ctl) (sideband : Bool) (target : Nat) (auth : Bool) : Bool :=
  let lc := c.lcState
  let fused := c.get R.FUS_LOCK_FUSED
  if sideband then decide (lc = 0) && decide (target = 1) && decide (c.get R.FUS_REGION_STAT_SECURITY = 0) && tb fused 0
  else if lc = 1 ∧ target = 2 then decide (fused / 2 % 16 = 15)
  else if lc = 2 ∧ target = 3 then auth
  else decide (target = 4) && decide (1 ≤ lc) && decide (lc ≤ 3)

/-- Every live key erased and every sealed granule ERASED, before an RMA transition (R360). A KEY_ERASE
that waits completes. -/
def Ctl.eraseAllKeys (c : Ctl) : Ctl :=
  let c1 := (c.sea.erasing.map Prod.fst).foldl (fun c s => keyZeroiseDone s c) c
  ((c1.sea.keys.map Prod.fst).foldl (fun c s => if c.flag (R.SEA_KEY_STAT_LIVE s) then c.zeroise s else c) c1).eraseGranules

/-- LC_ADVANCE carried out (R358, R360). -/
def Ctl.doAdvance (c : Ctl) (sideband : Bool) (target : Nat) (auth : Bool) (stuck : Nat) : Bool × Ctl :=
  if !c.lcAllowed sideband target auth then (false, c)
  else (if target = 3 then c.eraseAllKeys else c).blowDown (lcCode target) stuck 32

/-- The completion of a fuse command. -/
def Ctl.fuseDone (h : Head) (op : Nat) (r : Bool × Ctl) : Ctl := r.2.finish h op (if r.1 then .ok else .invalidParameter) []

/-- FUSE_PROGRAM (R356, R370). -/
def fuseProgram (h : Head) (p : Bytes) (stuck : Nat) (c : Ctl) : Ctl :=
  c.ocs h 0xC181 { min := 8 } p fun c => Ctl.fuseDone h 0xC181 (c.doProgram false (le p 0 2) (le p 4 4) stuck)

def execFuseProgram (h : Head) (p : Bytes) (stuck : Nat) (s : State) : Host.Outcome State Fault Refusal :=
  .next (s.mapCtl (fuseProgram h p stuck))

/-- FUSE_LOCK (R353, R370). -/
def fuseLock (h : Head) (p : Bytes) (stuck : Nat) (c : Ctl) : Ctl :=
  c.ocs h 0xC182 { min := 1 } p fun c => Ctl.fuseDone h 0xC182 (c.doLock false (le p 0 1) stuck)

def execFuseLock (h : Head) (p : Bytes) (stuck : Nat) (s : State) : Host.Outcome State Fault Refusal :=
  .next (s.mapCtl (fuseLock h p stuck))

/-- The authorisation of an RMA transition (R360): bytes 99:4 of the payload, a signature by the running image's firmware key over the
unique identity and the byte 0x03. -/
def Ctl.rmaAuthorised (c : Ctl) (p : Bytes) : Bool :=
  ecdsaVerify (c.slot (c.get R.IDC_FW_STAT_RUNNING)).image.key (toLE 16 c.uniqueId ++ [0x03]) ((p.drop 4).take 96)

/-- LC_ADVANCE (R358, R360). -/
def lcAdvance (h : Head) (p : Bytes) (stuck : Nat) (c : Ctl) : Ctl :=
  c.ocs h 0xC183 { min := 4 } p fun c =>
    Ctl.fuseDone h 0xC183 (c.doAdvance false (le p 0 1) (c.rmaAuthorised p) stuck)

/-- LC_ADVANCE: its payload is `p`, the state asked for, and then `auth`, the authorisation. -/
def execLcAdvance (h : Head) (p auth : Bytes) (stuck : Nat) (s : State) : Host.Outcome State Fault Refusal :=
  .next (s.mapCtl (lcAdvance h (p ++ auth) stuck))

/-! ## Calibration (R361 to R365) -/

/-- The next measurement starts: the lowest die that waits, one at a time, and none in thermal stage 4, in self-refresh or without a running Keeper (R363, R365). -/
def Ctl.calStart (c : Ctl) : Ctl :=
  if c.cal.current.isSome ∨ c.get R.THM_STATUS_STAGE = 4 ∨ c.stk.selfRef ≠ 0 ∨ c.kpr.phase ≠ 3 then c
  else match (List.range 12).find? fun d => c.cal.queue.contains d with
    | some d => { c with cal := { c.cal with
        current := some d, windows := 0, pair := false, queue := c.cal.queue.filter fun x => decide (x ≠ d) } }
    | none => c

/-- The calibration windows at beat `n` (R363): a pair of quiet beats that has ended counts, when it began with its die being measured, and no
channel of the die in a repair window; stage 4 pauses the count (R365). -/
def Ctl.calWindow (c : Ctl) (n : Nat) : Ctl :=
  let c1 := if refreshBeat n ∧ c.cal.pair = true then
      { c with cal.pair := false, cal.windows := min 32 (c.cal.windows + 1) } else c
  if n % 4 = 2 then
    { c1 with cal.pair := decide (c1.get R.THM_STATUS_STAGE ≠ 4) && c1.cal.current.any fun d =>
        (List.range 4).all fun i => !(c1.chan (4 * d + i)).closed }
  else c1

/-- A die queued for recalibration. -/
def Ctl.calQueue (c : Ctl) (d : Nat) : Ctl :=
  if c.cal.queue.contains d ∨ c.cal.current = some d then c else { c with cal.queue := d :: c.cal.queue }

/-- The governing temperature of a die in units of 0.25 C. -/
def Ctl.governOf (c : Ctl) (d : Nat) : Int := signedOf 16 (c.get (R.THM_DIE_GOVERN d))

/-- DELTA_C in force: 1 is taken as 2, 0 is off. -/
def Ctl.deltaC (c : Ctl) : Nat :=
  let d := c.get R.CAL_CFG_DELTA_C
  if d = 1 then 2 else d

/-- At a thermal sample the dies whose temperature has moved are queued (R363). -/
def Ctl.calJudge (c : Ctl) : Ctl :=
  let c1 := (List.range c.nd).foldl (fun c d =>
    let far := (c.governOf d - signedOf 16 (c.get (R.CAL_DIE_T_CAL d))).natAbs
    if decide (c.deltaC ≠ 0) && !c.flag R.CAL_CFG_HOLD && decide (4 * c.deltaC < far) && !c.stk.feedsOpen.contains d &&
        !c.dieRetired d && decide (c.stk.selfRef ≠ 2) then c.calQueue d else c) c
  c1.calStart

/-- CAL_RUN (R363, R370). -/
def calRun (h : Head) (p : Bytes) (c : Ctl) : Ctl :=
  c.ocs h 0xC184 { min := 1 } p fun c =>
    if c.nd ≤ le p 0 1 then c.finish h 0xC184 .invalidParameter []
    else ((c.calQueue (le p 0 1)).calStart).finish h 0xC184 .ok []

def execCalRun (h : Head) (p : Bytes) (s : State) : Host.Outcome State Fault Refusal := .next (s.mapCtl (calRun h p))

/-- An item that calibration of a die may select: of an element of its channels in service, of its lane while that is in
service, or of its regulators (R362, R365). -/
def Ctl.calItemOk (c : Ctl) (d : Nat) (x : CalItem) : Bool :=
  if x.cls = 0 then decide (x.item / 38 < 4) && !c.chanRetired (4 * d + x.item / 38) && decide (x.value < 32)
  else if x.cls = 1 then decide (x.item < 8) && c.laneUp (d % 4) && decide (x.value < 32)
  else decide (x.cls = 2) && decide (x.item < 4)

/-- A selection at an end of its range (R362): 0 or 31 of a tap or a lane leg; of a regulator, whose range the spec does not state, one
that `ends` names. -/
def CalItem.railed (ends : List Nat) (x : CalItem) : Bool :=
  if x.cls < 2 then decide (x.value = 0) || decide (x.value = 31) else ends.contains x.item

/-- CAL_MEASUREMENT_END (R362 to R365): the 32 windows of the die being measured have ended with the best selections found;
`ends` names the items of its regulators whose best selection lies at the end of its range. RAIL shows whether a selection does,
and the fault names the kind of the first. -/
def calMeasurementEnd (found : List CalItem) (ends : List Nat) (c : Ctl) : Ctl :=
  match c.cal.current with
  | none => c
  | some d =>
    if c.get R.THM_STATUS_STAGE = 4 ∨ c.cal.windows < 32 then c
    else
      let sel := found.filter (c.calItemOk d)
      let c1 := ((c.set (R.CAL_DIE_T_CAL d) (c.get (R.THM_DIE_GOVERN d))).bump (R.CAL_DIE_COUNT d)).set (R.CAL_DIE_SOURCE d) 3
      let c2 := { c1 with cal := { c1.cal with
        current := none, pair := false, todo := mapPut c1.cal.todo d sel } }
      let c3 := match sel.find? (CalItem.railed ends) with
        | some x => (c2.set (R.CAL_DIE_RAIL d) 1).fault (248 + d) x.cls
        | none => c2.set (R.CAL_DIE_RAIL d) 0
      c3.calStart

def execCalMeasurementEnd (found : List CalItem) (ends : List Nat) (s : State) : Host.Outcome State Fault Refusal :=
  .next (s.mapCtl (calMeasurementEnd found ends))

/-- No request stands at the channels of a die and no transfer for it at its lane (R364). -/
def Ctl.dieIdle (c : Ctl) (d : Nat) : Bool :=
  ((List.range 4).all fun i => (c.chan (4 * d + i)).queue.isEmpty) && !((c.lane (d % 4)).pending.any fun x => decide (x.chan / 4 = d))

/-- A selection of a regulator as the next boundary may take it: a trim moves by at most 10 mV, a phase map changes whole (R364). -/
def Ctl.trimTowards (c : Ctl) (d : Nat) (x : CalItem) : CalItem :=
  let now := c.calInForce d 2 x.item
  if 2 ≤ x.item then x else { x with value := max (now - (Config.trimStep + 1)) (min (now + (Config.trimStep + 1)) x.value) }

/-- A selection of a die in force on its own, the measured one still to come (R364). -/
def Ctl.putSel (c : Ctl) (d : Nat) (x : CalItem) : Ctl :=
  let old := ((mapGet c.cal.sel d).getD []).filter fun y => !(decide (y.cls = x.cls) && decide (y.item = x.item))
  { c with cal.sel := mapPut c.cal.sel d (x :: old) }

/-- The corrections of a die that come into force at a beat boundary (R364): all of them when the die is idle, else its regulators' one
step on. -/
def Ctl.calStep (c : Ctl) (d : Nat) : Ctl :=
  if c.dieIdle d then c.applyCal d fun _ => true
  else
    let l := ((mapGet c.cal.todo d).getD []).filter fun x => decide (x.cls = 2)
    let c1 := (l.filter fun x => decide (c.trimTowards d x ≠ x)).foldl (fun c x => c.putSel d (c.trimTowards d x)) c
    c1.applyCal d fun x => decide (x.cls = 2) && decide (c.trimTowards d x = x)

/-- The corrections that come into force at a beat boundary (R364, R365). -/
def Ctl.calBoundary (c : Ctl) : Ctl :=
  if c.get R.THM_STATUS_STAGE = 4 then c else (c.cal.todo.map Prod.fst).foldl Ctl.calStep c

/-! ## The test engine (R367 to R369) -/

/-- TEST_ENTER (R367). -/
def testEnter (h : Head) (p : Bytes) (c : Ctl) : Ctl :=
  c.ocs h 0xC185 {} p fun c =>
    if c.fuseState false && c.flag R.IDC_KPR_STAT_PARKED && decide (c.stk.selfRef = 2) then
      { c with cal.testMode := true }.finish h 0xC185 .ok []
    else c.finish h 0xC185 .invalidParameter []

def execTestEnter (h : Head) (p : Bytes) (s : State) : Host.Outcome State Fault Refusal := .next (s.mapCtl (testEnter h p))

/-- A target of R368. -/
def Ctl.bistTarget (c : Ctl) (t : Nat) : Bool :=
  decide (t = 1) || decide (t = 2) || (decide (0x10 ≤ t) && decide (t < 0x10 + c.nd)) || decide (t = 0x20)

/-- A test starts. -/
def Ctl.bistStart (c : Ctl) (t : Nat) (by_ : Option Head) : Ctl :=
  (({ c with cal.test := some (t, by_) }.set R.BST_STATUS_BUSY 1).set R.BST_STATUS_PASS 0).set R.BST_STATUS_FAIL 0

/-- BIST_RUN (R367, R368, R370). -/
def bistRun (h : Head) (p : Bytes) (c : Ctl) : Ctl :=
  c.ocs h 0xC186 { min := 1, background := true } p fun c =>
    if !c.cal.testMode || !c.bistTarget (le p 0 1) then c.finish h 0xC186 .invalidParameter []
    else if c.cal.test.isSome then c.finish h 0xC186 .busy []
    else (c.bistStart (le p 0 1) (some h)).startBg h 0xC186 p 0

def execBistRun (h : Head) (p : Bytes) (s : State) : Host.Outcome State Fault Refusal := .next (s.mapCtl (bistRun h p))

/-- START written 1 in BST_CTL (R367, R368): in test mode the target runs; outside it, nothing. -/
def Ctl.bstCtl (c : Ctl) (w : Word) : Ctl :=
  let t := c.get R.BST_CTL_TARGET
  if w.toNat / 2 ^ 31 = 1 ∧ c.cal.testMode = true ∧ c.bistTarget t = true ∧ c.cal.test = none then c.bistStart t none else c

/-- The spares of a base-die SRAM macro that are left (R366): 8 rows, or 4 columns. -/
def Ctl.sramSpares (c : Ctl) (m : Nat) (col : Bool) : Nat :=
  (if col then 4 else 8) - ((c.cal.sramFuse ++ c.cal.sramSoft).filter fun u => decide (u.1 = m) && (tb u.2 16 == col)).length

/-- A failing position that a test or a training may repair: a position of a built channel or of a lane group, or, with a unit of 80 more
than its number, a row or (bit 16) a column of a base-die SRAM macro; and one that no repair has recorded (R36, R366). -/
def Ctl.mayFail (c : Ctl) (u : Nat × Nat) : Bool :=
  if u.1 < 80 then (decide (48 ≤ u.1) || decide (u.1 < c.nch)) && validPosition u.1 u.2 && !(c.failedPositions u.1).contains u.2
  else decide (u.1 < 336) && decide (u.2 < 2 ^ 17) && !(c.cal.sramFuse ++ c.cal.sramSoft).contains (u.1 - 80, u.2)

/-- The spares that a failing position's group or macro has left. -/
def Ctl.sparesOf (c : Ctl) (u : Nat × Nat) : Nat := if u.1 < 80 then c.sparesFor u.1 else c.sramSpares (u.1 - 80) (tb u.2 16)

/-- A soft repair of a failing position recorded (R36, R37, R366). -/
def Ctl.softRepair (c : Ctl) (u : Nat × Nat) : Ctl :=
  if u.1 < 48 then c.recordColRepair u.1 u.2 2
  else if 80 ≤ u.1 then { c with cal.sramSoft := c.cal.sramSoft ++ [(u.1 - 80, u.2)] }
  else
    let l := (u.1 - 48) / 8
    let g := (u.1 - 48) % 8
    ({ c with stk.lanePos := c.stk.lanePos ++ [u], stk.laneBad := c.stk.laneBad ++ [u] }.bump (R.ROWL_GRP_STATUS_SOFT_REP l g)).set
      (R.ROWL_GRP_STATUS_SPARES_LEFT l g) (c.get (R.ROWL_GRP_STATUS_SPARES_LEFT l g) - 1)

/-- Failing positions repaired soft in turn: how many were, and how many found no spare. A position that is recorded already counts in
neither. -/
def Ctl.repairAll (r : Nat × Nat × Ctl) (u : Nat × Nat) : Nat × Nat × Ctl :=
  if r.2.2.mayFail u = false then r
  else if r.2.2.sparesOf u = 0 then (r.1, r.2.1 + 1, r.2.2)
  else (r.1 + 1, r.2.1, r.2.2.softRepair u)

/-- The positions that a target reaches (R368): SRAM BIST the macros, stack BIST of a die its channels and its lane's groups, TSV stress
every group. -/
def bistReaches (t : Nat) (u : Nat × Nat) : Bool :=
  if t = 2 then decide (80 ≤ u.1)
  else if t = 0x20 then decide (u.1 < 80)
  else decide (0x10 ≤ t) && decide (t < 0x20) && (decide (u.1 < 48 ∧ u.1 / 4 = t - 0x10) ||
    decide (48 ≤ u.1 ∧ u.1 < 80 ∧ (u.1 - 48) / 8 = (t - 0x10) % 4))

/-- Sealed granules. -/
def Ctl.sealedCount (c : Ctl) : Nat := ((List.range 64).filter fun g => decide (c.get (R.SEA_GRAN_STATE g) ≠ 0)).length

/-- A stack test has written every row of a die: no user line of a granule that is not sealed holds defined data (R367,
R371). -/
def State.bistWipe (s : State) : State :=
  (List.range 64).foldl (fun st g =>
    if st.ctl.get (R.SEA_GRAN_STATE g) = 0 then st.forget (g * GiB) (min ((g + 1) * GiB) st.ctl.userEnd) else st) s

/-- BIST_DONE (R367, R368): the running test ends. `found` are the failing positions, which are repaired soft; logic BIST passes when
every MISR matches (`pass`), every other target when all its failing positions are repaired. -/
def execBistDone (pass : Bool) (found : List (Nat × Nat)) (s : State) : Host.Outcome State Fault Refusal :=
  match s.ctl.cal.test with
  | none => .next s
  | some (t, by_) =>
    let stack := decide (0x10 ≤ t) && decide (t < 0x20)
    let s1 := if stack then s.bistWipe else s
    .next (s1.mapCtl fun c =>
      let (made, left, c1) := (found.filter (bistReaches t)).foldl Ctl.repairAll (0, 0, { c with cal.test := none })
      let good := if t = 1 then pass else decide (left = 0)
      let c2 := ((c1.set R.BST_STATUS_BUSY 0).set R.BST_STATUS_PASS (bit good)).set R.BST_STATUS_FAIL (bit (!good))
      let c3 := (c2.set R.BST_STATUS_REPAIRS (min 0xFFFF made)).set R.BST_STATUS_SKIPPED (if stack then c.sealedCount else 0)
      match by_ with
      | some h => c3.finishBg h .ok
      | none => c3)

/-! ## REPAIR_COMMIT (R369) -/

/-- The soft column repairs of a channel. -/
def Ctl.softCols (c : Ctl) (ch : Nat) : List Nat :=
  (if c.get (R.TSV_CH_REPAIR_SRC0 ch) = 2 then [c.get (R.TSV_CH_REPAIR_SKIP0 ch)] else []) ++
    (if c.get (R.TSV_CH_REPAIR_SRC1 ch) = 2 then [c.get (R.TSV_CH_REPAIR_SKIP1 ch)] else [])

/-- Two positions to a word. -/
def inPairs : List Nat → List (List Nat)
  | a :: b :: t => [a, b] :: inPairs t
  | [a] => [[a]]
  | [] => []

/-- The repair words that REPAIR_COMMIT needs, each with the words it may take and its positions (R349): one column word per
channel, eight words per lane group, and one of the others for each base-die SRAM repair. -/
def Ctl.repairWords (c : Ctl) : List (List Nat × List Nat) :=
  ((List.range c.nch).filterMap fun ch => match c.softCols ch with
    | [] => none
    | l => some ([0x200 + ch], l)) ++
  ((List.range 32).flatMap fun g =>
    (inPairs ((c.stk.lanePos.filter fun u => decide (u.1 = 48 + g)).map Prod.snd)).map fun l =>
      ((List.range 8).map fun i => 0x230 + 8 * g + i, l)) ++
  c.cal.sramSoft.map fun u => ((List.range 0x4BF).map (0x330 + ·), [80 + u.1, u.2])

/-- Each repair given a free word, in order; none when one has none. A word is free whose shadow reads 0, as every use of a fuse value after
step 4 reads the shadow (R348). -/
def Ctl.placeRepairs (c : Ctl) : List (List Nat × List Nat) → List Nat → Option (List (Nat × List Nat))
  | [], _ => some []
  | (ws, l) :: t, used =>
    match ws.find? fun a => decide (otpWord c.fus.shadow a = 0) && !used.contains a with
    | none => none
    | some a => match c.placeRepairs t (a :: used) with
      | some r => some ((a, l) :: r)
      | none => none

/-- REPAIR_COMMIT (R369, R370): every soft repair in force is programmed into REPAIR, `stuck` being words whose bits will not
blow. How a word spells its positions the spec does not say. -/
def repairCommit (h : Head) (p : Bytes) (stuck : List (Nat × Nat)) (c : Ctl) : Ctl :=
  c.ocs h 0xC187 {} p fun c =>
    if !c.fuseState false ∨ c.locked5 4 = true then c.finish h 0xC187 .invalidParameter []
    else match c.placeRepairs c.repairWords [] with
      | none => c.finish h 0xC187 .invalidParameter []
      | some l =>
        let r := l.foldl (fun (r : Bool × Ctl) e =>
          let q := r.2.blow e.1 (Config.repairWord e.2) (otpWord stuck e.1)
          (r.1 && q.1, q.2)) (true, c)
        if r.1 then r.2.finish h 0xC187 .ok (toLE 4 l.length) else r.2.finish h 0xC187 .invalidParameter []

def execRepairCommit (h : Head) (p : Bytes) (stuck : List (Nat × Nat)) (s : State) : Host.Outcome State Fault Refusal :=
  .next (s.mapCtl (repairCommit h p stuck))

end Sys2Proof.Machine
end

