-- ==== Sys2Proof/Machine/Thermal.lean ====
section
/-! DEFINITION. Thermal management and power (chapter 14): sensors, the stack model, canaries, stages, orderly shutdown, the
hard trip, rail telemetry and the power ceiling (R311 to R326). -/

namespace Sys2Proof.Machine

/-! ## Readings (R311 to R313) -/

/-- A sensor number names a sensor that is built: of a built die, or of the base die. -/
def Ctl.sensBuilt (c : Ctl) (n : Nat) : Bool := (decide (n / 8 < c.nd) || decide (96 ≤ n)) && decide (n < 128)

/-- A die has no readings: its feeds are open. -/
def Ctl.dieOpen (c : Ctl) (d : Nat) : Bool := c.stk.feedsOpen.contains d

/-- Trusted sensors of a die. -/
def Ctl.trustedOf (c : Ctl) (d : Nat) : List Nat :=
  ((List.range 8).map fun i => 8 * d + i).filter fun n => c.flag (R.THM_SENS_TRUSTED n)

/-- A core die is sensor-governed (R313). -/
def Ctl.sensorGoverned (c : Ctl) (d : Nat) : Bool := !c.dieOpen d && decide (5 ≤ (c.trustedOf d).length)

/-- A core die is model-governed. -/
def Ctl.modelGoverned (c : Ctl) (d : Nat) : Bool := !c.dieOpen d && decide ((c.trustedOf d).length < 5)

/-- The estimate of a die in C. -/
def Ctl.estimate (c : Ctl) (d : Nat) : Rat := (mapGet c.thm.t d).getD 0

/-- An estimate in units of 0.25 C, rounded down. -/
def quarters (t : Rat) : Int := (t * 4).floor

/-- The governing temperature of a core die (R313, R320). -/
def Ctl.governNow (c : Ctl) (d : Nat) : Int :=
  if c.dieOpen d then (maxOf (c.baseTemps 96 120)).getD 0
  else if c.sensorGoverned d then (maxOf ((c.trustedOf d).map c.sensTemp)).getD 0
  else quarters (c.estimate d)

/-- The registers of the readings brought up to date: TRUSTED, SENSOR_MAX, GOVERN, SRC, THM_BASE, and the model-governed
sets. -/
def Ctl.showTemps (c : Ctl) : Ctl :=
  let c1 := (List.range 128).foldl (fun c n =>
    c.set (R.THM_SENS_TRUSTED n) (bit (c.flag (R.THM_SENS_VALID n) && !c.thm.distrusted.contains n && decide (n < 96)))) c
  let c2 := (List.range c1.nd).foldl (fun c d =>
    let valid := ((List.range 8).map fun i => 8 * d + i).filter fun n => c.flag (R.THM_SENS_VALID n) && !c.dieOpen d
    let hot := match maxOf (valid.map fun n => signedOf 16 (c.get (R.THM_SENS_READING n))) with
      | some v => toS16 v
      | none => 0x8000
    ((((c.set (R.THM_DIE_SENSOR_MAX d) hot).set (R.THM_DIE_GOVERN d) (toS16 (c.governNow d))).set (R.THM_DIE_SRC d)
      (bit (c.modelGoverned d))).set (R.THM_DIE_TRUSTED d) (maskOf 8 fun i => c.flag (R.THM_SENS_TRUSTED (8 * d + i)))).set
        (R.THM_DIE_FEEDS_OPEN d) (bit (c.dieOpen d))) c1
  let m := maskOf c2.nd c2.modelGoverned
  let show_ := fun (l : List Int) => match maxOf l with
    | some v => toS16 v
    | none => 0x8000
  (((c2.set R.THM_STATUS_DISTRUSTED m).set R.STK_REF_RATE_MODEL m).set R.THM_BASE_FOOT_MAX (show_ (c2.baseTemps 96 120))).set
    R.THM_BASE_SHELF_MAX (show_ (c2.baseTemps 120 128))

/-! ## Stages (R316 to R318, R322) -/

/-- GUARD_C, HYST_C, DISTRUST_C in C, and the grace and release times in ns, as in force (THM_CFG). -/
def Ctl.guardC (c : Ctl) : Nat := c.geff R.THM_CFG_GUARD_C
def Ctl.hystC (c : Ctl) : Nat := max 1 (c.geff R.THM_CFG_HYST_C)
def Ctl.distrustC (c : Ctl) : Nat := max 2 (c.geff R.THM_CFG_DISTRUST_C)
def Ctl.graceNs (c : Ctl) : Nat := 100000 * min 500 (max 1 (c.geff R.THM_CFG_GRACE))
def Ctl.releaseNs (c : Ctl) : Nat := 1000000 * min 100 (max 1 (c.geff R.THM_CFG_RELEASE_MS))

/-- What the thresholds see: die (0xF the base die), governing temperature, and how much its thresholds are lowered. -/
structure Governed where
  die : Nat
  temp : Int
  lower : Int
  deriving DecidableEq, Repr

/-- The governing temperatures that count: core dies with closed feeds, and the base die. -/
def Ctl.governed (c : Ctl) : List Governed :=
  (((List.range c.nd).filter fun d => !c.dieOpen d).map fun d =>
    Governed.mk d (c.governNow d) (if c.modelGoverned d then 4 * (c.guardC : Int) else 0)) ++
  (match c.governBase with
    | some v => [Governed.mk 0xF v 0]
    | none => [])

/-- The threshold of a governed die in units of 0.25 C: `core` for a core die, `base` for the base die, in C. -/
def Governed.limit (g : Governed) (core base : Int) : Int := if g.die = 0xF then 4 * base else 4 * core - g.lower

/-- At or above its request threshold, below it by HYST_C, at or above its shutdown threshold, at or below its resumption
value. -/
def Governed.asks (g : Governed) : Bool := decide (g.limit 95 105 ≤ g.temp)
def Governed.calm (g : Governed) (hyst : Nat) : Bool := decide (g.temp < g.limit 95 105 - 4 * hyst)
def Governed.shuts (g : Governed) : Bool := decide (g.limit 105 115 ≤ g.temp)
def Governed.resumes (g : Governed) : Bool := decide (g.temp ≤ g.limit 90 100)

/-- A core die at or above the power-down threshold. -/
def Ctl.tooHot (c : Ctl) : Bool := c.governed.any fun g => decide (g.die ≠ 0xF) && decide (g.limit 112 0 ≤ g.temp)

/-- The notification of R318: an event record and, where enabled, a message on every head that is not fenced. `lost` is byte
15. -/
def Ctl.thermalEvent (c : Ctl) (log code die lost : Nat) : Ctl :=
  let temp := if die = 0xF then toS16 (c.governBase.getD 0) else toS16 (c.governNow die)
  let c1 := c.eventAll log code die (temp + 2 ^ 16 * c.get R.THM_STATUS_STAGE + 2 ^ 24 * lost)
  c1.forHeads fun h c => if c.live h then (match h with
    | .a => if c.flag R.THM_IRQ_A_IEN then c.msix .a (c.get R.THM_IRQ_A_VECTOR) else c
    | .b => if c.flag R.THM_IRQ_B_IEN then c.msix .b (c.get R.THM_IRQ_B_VECTOR) else c) else c

/-- The die of the last rise of STAGE. -/
def Ctl.cause (c : Ctl) : Nat := c.get R.THM_STATUS_CAUSE

/-- STAGE set; the factor thm of R232 changes with it, and the outstanding requests below which credits are returned (R317). -/
def Ctl.setStage (c : Ctl) (n : Nat) : Ctl := (c.set R.THM_STATUS_STAGE n).forHeads (Ctl.keepCredits c)

/-- The timers of the stages stopped. -/
def Ctl.stopTimers (c : Ctl) : Ctl :=
  { c with thm := { c.thm with graceDue := none, escalDue := none, releaseDue := none } }

/-- A rise of STAGE to 1, with CAUSE (R316). -/
def Ctl.stageOne (c : Ctl) (die : Nat) : Ctl :=
  let c1 := ((c.setStage 1).set R.THM_STATUS_CAUSE die).stopTimers
  (({ c1 with thm.graceDue := some (c.clock + c.graceNs) } : Ctl).thermalEvent logWarn 0x0401 die 0).fault 608 die

/-- The escalation timer as stage 2 leaves it (R316). -/
def Ctl.escalate (c : Ctl) : Ctl :=
  if c.governed.any Governed.asks then
    (if c.thm.escalDue.isSome then c else { c with thm.escalDue := some (c.clock + c.graceNs) })
  else { c with thm.escalDue := none }

/-- A change to stage 2 or 3, with its notification (R316, R318). -/
def Ctl.stageEnforced (c : Ctl) (n : Nat) : Ctl :=
  let up := decide (c.get R.THM_STATUS_STAGE < n)
  let die := match c.governed.find? Governed.asks with
    | some g => if up then g.die else c.cause
    | none => c.cause
  let c1 := ((c.setStage n).stopTimers).set R.THM_STATUS_CAUSE (if c.get R.THM_STATUS_STAGE = 0 then die else c.cause)
  let c2 := c1.thermalEvent logWarn 0x0402 c1.cause 0
  let c3 := if up then c2.fault 609 c2.cause else c2
  if n = 2 then c3.escalate else c3

/-- A fall to stage 0 (R316). -/
def Ctl.stageClear (c : Ctl) : Ctl := ((c.setStage 0).stopTimers).thermalEvent logInfo 0x0403 c.cause 0

/-- An orderly shutdown starts (R319): STAGE 4, and every unstarted job is aborted. -/
def Ctl.startShutdown (c : Ctl) (die : Nat) : Ctl :=
  let c1 := (((c.setStage 4).set R.THM_STATUS_CAUSE die).stopTimers)
  let c2 := { c1 with thm.shutAt := some c.clock, thm.shutStep := 0, thm.resumeSince := none }
  let c3 := (c2.thermalEvent logFail 0x0405 die 0).fault 610 die
  (c3.job.jobs.filter fun j => decide (j.phase ≠ .running)).foldl (fun c j => c.abortJob j stAborted) c3

/-- The stage judged after a change of the governing temperatures (R316, R320, R322). -/
def Ctl.judgeStage (c : Ctl) : Ctl :=
  let l := c.governed
  let stage := c.get R.THM_STATUS_STAGE
  let hyst := c.hystC
  if stage = 4 then
    let cool := (l.all Governed.resumes) &&
      (!c.flag R.THM_STATUS_POWER_DOWN || (List.range c.nd).all fun d => !c.dieOpen d || decide (c.governNow d ≤ 360))
    { c with thm.resumeSince := if cool then some (c.thm.resumeSince.getD c.clock) else none }
  else match l.find? Governed.shuts with
    | some g => c.startShutdown g.die
    | none =>
      if stage = 0 then (match l.find? Governed.asks with
        | some g => c.stageOne g.die
        | none => c)
      else if stage = 1 then (if l.all fun g => g.calm hyst then c.stageClear else c)
      else
        let c1 := if stage = 2 then c.escalate else c
        if l.all fun g => g.calm hyst then
          { c1 with thm.releaseDue := some (c1.thm.releaseDue.getD (c1.clock + c1.releaseNs)) }
        else { c1 with thm.releaseDue := none }

/-- The release time has passed: the stage falls by one. -/
def Ctl.releaseStage (c : Ctl) : Ctl :=
  if c.get R.THM_STATUS_STAGE = 3 then (c.stageEnforced 2).judgeStage else c.stageClear.judgeStage

/-- New distrusted dies are reported (R318). -/
def Ctl.reportDistrust (c : Ctl) (was : Nat) : Ctl :=
  (List.range c.nd).foldl (fun c d =>
    if c.modelGoverned d && !tb was d then c.thermalEvent logWarn 0x0404 d 0 else c) c

/-- Temperatures shown, new distrust reported, and the stage judged. -/
def Ctl.settleTemps (c : Ctl) : Ctl :=
  let was := c.get R.THM_STATUS_DISTRUSTED
  (c.showTemps.reportDistrust was).judgeStage

/-! ## Power-down and the hard trip (R319, R321) -/

/-- Every feed of the core dies open. -/
def Ctl.openAll (c : Ctl) : Ctl := (List.range c.nd).foldl (fun c d => c.openFeeds d) c

/-- What the stack held and what the base-die SRAMs hold, lost (R16): contexts and their cache, the mire log and its staging, counters,
tags and tree of the sealed memory with their cache, the decode-matrix cache, what waits at the controllers, and the bytes of eye scans. -/
def Ctl.loseContents (c : Ctl) : Ctl :=
  { c with
    stx := { sections := c.stx.sections }
    ecc.log := [], ecc.staging := [], ecc.merges := []
    dec := {}
    sea.ctrs := [], sea.tags := [], sea.under := [], sea.covers := [], sea.cached := [], sea.dirty := []
    stk.chans := c.stk.chans.map fun (e : Nat × ChanSt) => (e.1, {})
    stk.lanes := [], stk.ingest := [], stk.cells := []
    phy.scanMem := [] }

/-- The stack powered down (R319): POWER_DOWN sets, and every stack content is lost (R16). -/
def State.powerDown (s : State) : State :=
  s.dark fun c => ({ c.openAll.loseContents with thm.shutStep := 3 }.set R.THM_STATUS_POWER_DOWN 1).showTemps

/-- The registers of the thermal block. -/
def thermalKey (k : Nat) : Bool := decide (0x60000 * 8 ≤ k) && decide (k < 0x70000 * 8)

/-- A hard trip (R321): every feed opens, the base die is held in reset but for the sensor and trip logic and the sideband,
every content is lost, and resumption is that of a power-down. -/
def Ctl.trip (c : Ctl) (hot : Int × Nat × Bool) : Ctl :=
  let c1 := c.powerReset
  let c2 := { c1 with
    regs := (c.regs.filter fun (e : Nat × Nat) => thermalKey e.1) ++ c1.regs
    thm := { c.thm with shutAt := some c.clock, shutStep := 3, resumeSince := none, graceDue := none, escalDue := none,
                        releaseDue := none }
    rst := { c1.rst with awaiting := 10, tripped := true }
    sbp.trip := 2 ^ 31 + hot.2.1 * 2 ^ 24 + bit hot.2.2 * 2 ^ 23 + toS16 hot.1 }
  let c3 := ((c2.openAll.set R.THM_STATUS_STAGE 4).set R.THM_STATUS_POWER_DOWN 1).showTemps
  ({ c3 with flt.tripHold := true }.set R.FLT_STATUS_ERRN 1).emit (.errN true)

/-- The first entry with the greatest temperature. -/
def hottest : List (Int × Nat × Bool) → Option (Int × Nat × Bool)
  | [] => none
  | e :: l => match hottest l with
    | none => some e
    | some m => some (if m.1 ≤ e.1 then e else m)

/-- What trips the device, if anything (R312, R321): a conversion of 120 C or more, or an estimate of 120 C less GUARD_C: the
value, the die (15 the base die) and whether the model tripped. -/
def Ctl.tripping (c : Ctl) (fresh : List Nat) : Option (Int × Nat × Bool) :=
  let byModel := ((List.range c.nd).filter fun d => !c.dieOpen d).map fun d => (quarters (c.estimate d), d, true)
  hottest (((fresh.map fun n => (c.sensTemp n, if n < 96 then n / 8 else 15, false)).filter fun e => decide (480 ≤ e.1)) ++
    byModel.filter fun e => decide (480 - 4 * (c.guardC : Int) ≤ e.1))


/-- What follows a change of temperatures: a hard trip, or the judgement of the stage with, in stage 4, a parked stack's
power-down. -/
def State.thermalJudge (s : State) (fresh : List Nat) : State :=
  match (if s.ctl.get R.THM_STATUS_POWER_DOWN = 1 ∧ s.ctl.rst.awaiting = 10 then none else s.ctl.tripping fresh) with
  | some hot => s.dark fun c => c.trip hot
  | none =>
    let s1 := s.mapCtl Ctl.settleTemps
    if s1.ctl.get R.THM_STATUS_STAGE = 4 ∧ s1.ctl.thm.shutStep = 2 ∧ s1.ctl.tooHot = true then s1.powerDown else s1

/-! ## Conversions and samples (R311, R312, R314) -/

/-- One sensor's conversion (R312): a temperature in units of 0.25 C, or no count. -/
def Ctl.convert (c : Ctl) (n : Nat) (r : Option Int) : Ctl :=
  if !c.sensBuilt n || (decide (n < 96) && c.dieOpen (n / 8)) then c
  else
    let was := c.flag (R.THM_SENS_VALID n)
    let bad := fun (c : Ctl) => let c1 := c.set (R.THM_SENS_VALID n) 0
      if was then c1.fault (260 + n) 1 else c1
    match r with
    | some v =>
      let c1 := { c with thm.missed := mapDel c.thm.missed n }.set (R.THM_SENS_READING n) (toS16 v)
      if decide (-160 ≤ v) && decide (v ≤ 600) then c1.set (R.THM_SENS_VALID n) 1 else bad c1
    | none =>
      let k := min 3 ((mapGet c.thm.missed n).getD 0 + 1)
      let c1 := { c with thm.missed := mapPut c.thm.missed n k }
      if k = 3 then bad c1 else c1

/-- The device's sensors run: VAUX is up and the start has begun. -/
def Ctl.sensing (c : Ctl) : Bool := c.rst.vaux && decide (c.rst.awaiting ≠ 0)

/-- SENSOR_CONVERSION (R311 to R313, R316, R321): every sensor converts; the list gives sensor n at place n. -/
def execSensorConversion (r : List (Option Int)) (s : State) : Host.Outcome State Fault Refusal :=
  if s.ctl.sensing then
    let s1 := s.mapCtl fun c => (List.range 128).foldl (fun c n => c.convert n ((r[n]?).getD none)) c
    .next (s1.thermalJudge ((List.range 128).filter fun n => s1.ctl.sensBuilt n && ((r[n]?).getD none).isSome &&
      !(decide (n < 96) && s1.ctl.dieOpen (n / 8))))
  else .next s

/-- A parameter of the model of a die (R314, R361, R396): from its record, else from OTP or the ROM. -/
def Ctl.param (c : Ctl) (d i : Nat) : Int :=
  let v := (c.calFallback d 4 i).2
  (mapGet c.thm.params (d, i)).getD (if 3 ≤ i then signedOf 16 v else (v : Int))

/-- The mean of a list. -/
def mean (l : List Rat) : Option Rat := if l.isEmpty then none else some (l.sum / l.length)

/-- The reading of a core-die sensor with its site offset, in C. -/
def Ctl.siteTemp (c : Ctl) (n : Nat) : Rat := (c.sensTemp n + c.param (n / 8) (4 + n % 8) : Int) / 4

/-- foot_mean; with no valid footprint sensor, which the spec does not provide for, a free value. -/
def Ctl.footMean (c : Ctl) : Rat :=
  (mean ((c.baseTemps 96 120).map fun v => (v : Rat) / 4)).getD (Config.measured c.free)

/-- The power of a die in W, from the rail means over the sample. -/
def Ctl.diePower (c : Ctl) (d : Nat) : Rat :=
  if c.dieOpen d ∨ c.thm.updates = 0 then 0
  else match mapGet c.thm.rails d with
    | some (a, b, v) => (105 / 100 * a + 45 / 100 * b + 25 / 10 * v) / 1000 / c.thm.updates
    | none => 0

/-- The temperature of neighbour j of R314: the die below D0 is the base die's footprint. -/
def Ctl.neighbour (c : Ctl) (j : Nat) : Rat :=
  if c.sensorGoverned j then (mean ((c.trustedOf j).map c.siteTemp)).getD (c.estimate j) else c.estimate j

/-- The target of a die (R314). -/
def Ctl.target (c : Ctl) (d : Nat) : Rat :=
  let below := if d = 0 then c.footMean else c.neighbour (d - 1)
  let rlo : Rat := c.param d 0 / 1000
  let rhi : Rat := c.param d 1 / 1000
  let p := (List.range c.nd).map c.diePower
  if d + 1 < c.nd then (below / rlo + c.neighbour (d + 1) / rhi + c.diePower d) / (1 / rlo + 1 / rhi)
  else
    let total : Rat := (if c.thm.updates = 0 then 0 else (c.thm.inputs : Rat) / 16 / c.thm.updates) + 15 / 10
    let pBase := total - p.sum
    below - rlo * (pBase + (p.take d).sum)

/-- The new estimate of a die. -/
def Ctl.newEstimate (c : Ctl) (d : Nat) : Rat :=
  if c.dieOpen d then c.footMean
  else
    let t := c.estimate d
    let t1 := t + (c.target d - t) * (9984 / 10) / (c.param d 2 + 9984 / 10)
    if (mapGet c.thm.floor d).getD 0 = 0 then t1 else max t1 ((c.param d 3 : Rat) / 4)

/-- A counter of samples in a row. -/
def runOf (l : List (Nat × Nat)) (n : Nat) (on : Bool) : List (Nat × Nat) :=
  if on then mapPut l n (min 16 ((mapGet l n).getD 0 + 1)) else mapDel l n

/-- One core-die sensor judged at a sample (R312); calm samples count while it is distrusted. -/
def Ctl.judgeSensor (c : Ctl) (n : Nat) : Ctl :=
  let valid := c.flag (R.THM_SENS_VALID n) && !c.dieOpen (n / 8)
  let gap := c.estimate (n / 8) - c.siteTemp n
  let low := valid && decide ((c.distrustC : Rat) < gap)
  let near := valid && decide (gap ≤ ((c.distrustC / 2 : Nat) : Rat)) && decide (-gap ≤ ((c.distrustC / 2 : Nat) : Rat))
  let is := c.thm.distrusted.contains n
  let c1 := { c with thm := { c.thm with low := runOf c.thm.low n low, calm := runOf c.thm.calm n (is && near) } }
  if !is && decide (4 ≤ (mapGet c1.thm.low n).getD 0) then
    { c1 with thm.distrusted := n :: c1.thm.distrusted, thm.calm := mapDel c1.thm.calm n }.fault (260 + n) 2
  else if is && decide (16 ≤ (mapGet c1.thm.calm n).getD 0) then
    { c1 with thm.distrusted := c1.thm.distrusted.filter fun x => decide (x ≠ n) }
  else c1

/-- The temperature that decides a die's refresh rate, exactly (R163): its sensors', or the model's estimate. -/
def Ctl.refreshTemp (c : Ctl) (d : Nat) : Rat := if c.modelGoverned d && !c.dieOpen d then c.estimate d else (c.governNow d : Rat) / 4

/-- The refresh rate of a die decided at a sample (R163). -/
def Ctl.judgeRefresh (c : Ctl) (d : Nat) : Ctl :=
  let double := tb (c.get R.STK_REF_RATE_DOUBLE) d
  let g := c.refreshTemp d
  let c1 := { c with thm.cool := runOf c.thm.cool d (decide (g ≤ 83)) }
  if decide (85 < g) then c1.set R.STK_REF_RATE_DOUBLE (setBit (c1.get R.STK_REF_RATE_DOUBLE) d)
  else if double && decide (2 ≤ (mapGet c1.thm.cool d).getD 0) then
    c1.set R.STK_REF_RATE_DOUBLE (clrBit (c1.get R.STK_REF_RATE_DOUBLE) d)
  else c1

/-- The model's step (R314): every die from the previous sample, and the sums start again. -/
def Ctl.modelStep (c : Ctl) : Ctl :=
  let new := (List.range c.nd).map fun d => (d, c.newEstimate d)
  let c1 := new.foldl (fun (c : Ctl) (e : Nat × Rat) => c.set (R.THM_DIE_MODEL e.1) (toS16 (quarters e.2))) c
  { c1 with free := c1.free + 1, thm := { c1.thm with
    t := new, rails := [], inputs := 0, updates := 0
    floor := (c1.thm.floor.map fun (e : Nat × Nat) => (e.1, e.2 - 1)).filter fun e => decide (0 < e.2) } }

/-- THERMAL_SAMPLE (R312 to R316, R163, R363): at a beat that is a multiple of 256 every estimate is computed, sensors are
judged, refresh rates decided, and dies queued for recalibration. -/
def execThermalSample (s : State) : Host.Outcome State Fault Refusal :=
  if s.ctl.thm.sampleDue then
    let s1 := s.mapCtl fun c =>
      let c1 := { c with thm.sampleDue := false }.modelStep
      (List.range (8 * c1.nd)).foldl (fun c n => c.judgeSensor n) c1
    let s2 := s1.thermalJudge []
    .next (s2.mapCtl fun c =>
      let c1 := (List.range c.nd).foldl (fun c d => c.judgeRefresh d) c
      let due := match c1.thm.releaseDue with
        | some t => decide (t ≤ c1.clock)
        | none => false
      (if due then c1.releaseStage else c1).calJudge)
  else .next s

/-- CANARY_CHECK (R315): before a canary refresh of one of a die's channels the Keeper reads its canary row and rewrites its pattern;
`failed` tells that a line needed correction or was uncorrectable. -/
def canaryCheck (d : Nat) (failed : Bool) (c : Ctl) : Ctl :=
  if failed && decide (c.kpr.phase = 3) && decide (d < c.nd) && !c.dieOpen d && (List.range 4).any (fun i => c.canaryDue (4 * d + i)) then
    let low := ((List.range 8).map fun i => 8 * d + i).filter fun n =>
      c.flag (R.THM_SENS_VALID n) && decide (c.sensTemp n < c.param d 3 - 4 * (c.distrustC : Int)) && !c.thm.distrusted.contains n
    let c1 := low.foldl (fun (c : Ctl) n => { c with
      thm.distrusted := n :: c.thm.distrusted, thm.calm := mapDel c.thm.calm n }.fault (260 + n) 2) c
    let c2 := ({ c1 with thm.floor := mapPut c1.thm.floor d 16 }.bump (R.THM_CANARY_FAILS d)).fault 612 d
    c2.settleTemps
  else c

def execCanaryCheck (d : Nat) (failed : Bool) (s : State) : Host.Outcome State Fault Refusal :=
  .next (s.mapCtl (canaryCheck d failed))

/-! ## Timers (R316) -/

/-- GRACE_TIMER_EXPIRY (R316): stage 1 becomes stage 2, or 0 when no die is still at its request threshold. -/
def graceTimerExpiry (c : Ctl) : Ctl :=
  match c.thm.graceDue with
  | none => c
  | some t =>
    let c1 := c.passTo t
    if c1.governed.any Governed.asks then c1.stageEnforced 2 else c1.stageClear

def execGraceTimerExpiry (s : State) : Host.Outcome State Fault Refusal := .next (s.mapCtl graceTimerExpiry)

/-- ESCALATION_TIMER_EXPIRY (R316): stage 2 becomes stage 3. -/
def escalationTimerExpiry (c : Ctl) : Ctl :=
  match c.thm.escalDue with
  | none => c
  | some t => if c.get R.THM_STATUS_STAGE = 2 then (c.passTo t).stageEnforced 3 else c

def execEscalationTimerExpiry (s : State) : Host.Outcome State Fault Refusal := .next (s.mapCtl escalationTimerExpiry)

/-- RELEASE_TIMER_EXPIRY (R316): every die has stayed calm for RELEASE_MS; while a die is model-governed the next sample
decides instead. -/
def releaseTimerExpiry (c : Ctl) : Ctl :=
  match c.thm.releaseDue with
  | none => c
  | some t => if (List.range c.nd).any c.modelGoverned then c else (c.passTo t).releaseStage

def execReleaseTimerExpiry (s : State) : Host.Outcome State Fault Refusal := .next (s.mapCtl releaseTimerExpiry)

/-! ## Orderly shutdown (R319, R320) -/

/-- SHUTDOWN_JOB_ABORT (R319): at t0 + 500 us every running job is aborted. -/
def shutdownJobAbort (c : Ctl) : Ctl :=
  match c.thm.shutAt with
  | none => c
  | some t =>
    if c.thm.shutStep ≠ 0 then c
    else
      let c1 := { c.passTo (t + 500000) with thm.shutStep := 1 }
      (c1.job.jobs.filter fun j => decide (j.phase = .running)).foldl (fun c j => c.abortJob j stAborted) c1

def execShutdownJobAbort (s : State) : Host.Outcome State Fault Refusal := .next (s.mapCtl shutdownJobAbort)

/-- SHUTDOWN_STOP_DECISION (R319, R322): at t0 + 520 us the stack is powered down when a core die is at its power-down
threshold, and else parked with every segment kept; a stack that a host has parked stays as it is. -/
def execShutdownStopDecision (s : State) : Host.Outcome State Fault Refusal :=
  match s.ctl.thm.shutAt with
  | none => .next s
  | some t =>
    if s.ctl.thm.shutStep ≠ 1 then .next s
    else
      let s1 := s.mapCtl fun c => { c.passTo (t + 520000) with thm.shutStep := 2 }
      if s1.ctl.tooHot then .next ((s1.mapCtl fun c => c.pass 2000).powerDown)
      else if s1.ctl.stk.srcPark = 1 then .next s1
      else .next (s1.mapCtl fun c => { c with stk.srcPark := 2, stk.selfRef := if c.stk.selfRef = 2 then 2 else 1 })

/-- THERMAL_RESUME (R320): temperatures have stayed at their resumption values for 1 s. A powered-down stack starts anew, and
its bring-up owes THERMAL_RESUMED to each head; a parked one leaves self-refresh, unless a host parked it. -/
def execThermalResume (s : State) : Host.Outcome State Fault Refusal :=
  match s.ctl.thm.resumeSince with
  | none => .next s
  | some t =>
    if s.ctl.get R.THM_STATUS_STAGE ≠ 4 ∨ s.ctl.thm.shutStep < 2 then .next s
    else if s.ctl.flag R.THM_STATUS_POWER_DOWN then
      .next ((s.mapCtl fun c => { c.passTo (t + 1000000000) with rst.coolDie := c.cause }).powerOn (if s.ctl.rst.tripped then 4 else 3))
    else .next (s.mapCtl fun c =>
      let c1 := (c.passTo (t + 1000000000)).setStage 0
      let c2 := { c1 with thm := { c1.thm with shutAt := none, shutStep := 0, resumeSince := none } }
      let c3 := if c2.stk.srcPark = 1 then c2
        else { c2 with stk.srcPark := 0, stk.selfRef := if c2.stk.selfRef = 0 then 0 else 3 }
      (c3.thermalEvent logInfo 0x0406 c3.cause 0).calStart)

/-! ## Rails and the power ceiling (R323 to R325) -/

/-- A phase dropped (R323): its spare takes its place, or the regulator runs short. -/
def Ctl.dropPhase (c : Ctl) (e : Nat × Nat) : Ctl :=
  if c.nd ≤ e.1 ∨ 2 ≤ e.2 then c
  else if c.thm.spares.contains e then
    (c.set R.PWR_REG_STAT_SHORT (setBit (c.get R.PWR_REG_STAT_SHORT) e.1)).fault (236 + e.1) e.2
  else { c with thm.spares := e :: c.thm.spares }.set R.PWR_REG_STAT_SPARE_USED (setBit (c.get R.PWR_REG_STAT_SPARE_USED) e.1)

/-- RAIL_TELEMETRY_UPDATE (R323): feed currents, input powers, and phases out of balance. -/
def railTelemetryUpdate (m : Telemetry) (c : Ctl) : Ctl :=
  let c1 := (List.range c.nd).foldl (fun (c : Ctl) d =>
    let x := if c.dieOpen d then (0, 0, 0) else m.dies.getD d (0, 0, 0)
    let y := (mapGet c.thm.rails d).getD (0, 0, 0)
    (({ c with thm.rails := mapPut c.thm.rails d (y.1 + x.1, y.2.1 + x.2.1, y.2.2 + x.2.2) }.set (R.PWR_DIE_VDD_MA d)
      (min 0xFFFF x.1)).set (R.PWR_DIE_VDDQ_MA d) (min 0xFFFF x.2.1)).set (R.PWR_DIE_VPP_MA d) (min 0xFFFF x.2.2)) c
  let c2 := (((c1.set R.PWR_INPUT_VIN_IVR (min 0xFFFF m.vin)).set R.PWR_INPUT_VDD_LOGIC (min 0xFFFF m.logic)).set
    R.PWR_INPUT_VDD_PHY (min 0xFFFF m.phy)).set R.PWR_INPUT_VPP (min 0xFFFF m.vpp)
  let c3 := { c2 with thm.inputs := c2.thm.inputs + m.vin + m.logic + m.phy + m.vpp, thm.updates := c2.thm.updates + 1 }
  m.badPhases.foldl Ctl.dropPhase c3

def execRailTelemetryUpdate (m : Telemetry) (s : State) : Host.Outcome State Fault Refusal :=
  .next (s.mapCtl (railTelemetryUpdate m))

/-- The power ceiling in W (PWR_CFG). -/
def Ctl.ceilingW (c : Ctl) : Nat := min 115 (max 60 (c.geff R.PWR_CFG_CEILING_W))

/-- The total power in W (R323): the four input powers and 1.5 W. -/
def Ctl.totalPower (c : Ctl) : Rat :=
  ((c.get R.PWR_INPUT_VIN_IVR + c.get R.PWR_INPUT_VDD_LOGIC + c.get R.PWR_INPUT_VDD_PHY + c.get R.PWR_INPUT_VPP : Nat) : Rat) / 16 +
    15 / 10

/-- DUTY after an update (R324). -/
def Ctl.nextDuty (c : Ctl) (avg : Rat) : Nat :=
  let d := c.get R.PWR_STATUS_DUTY
  let top := if c.get R.PWR_REG_STAT_SHORT = 0 then 64 else 48
  if (c.ceilingW : Rat) < avg then max 8 (d - 4) else if avg < (c.ceilingW : Rat) - 3 ∧ d < top then d + 1 else d

/-- POWER_CEILING_UPDATE (R324, R325): AVG_POWER, DUTY, FLOOR and ACT_CAP. -/
def powerCeilingUpdate (c : Ctl) : Ctl :=
  let avg := c.thm.avg + Config.powerWeight * (c.totalPower - c.thm.avg)
  let duty := c.nextDuty avg
  let floor := decide (duty = 8) && decide ((c.ceilingW : Rat) < avg)
  let c1 := { c with thm.avg := avg }
  let c2 := ((c1.set R.PWR_STATUS_AVG_POWER (min 0xFFFF (avg * 16).floor.toNat)).set R.PWR_STATUS_DUTY duty).set
    R.PWR_STATUS_ACT_CAP (max 8 ((c.get R.STK_ACT_CFG_FUSED_MAX * duty + 63) / 64))
  let c3 := c2.set R.PWR_STATUS_FLOOR (bit floor)
  if floor && !c.flag R.PWR_STATUS_FLOOR then (c3.thermalEvent logWarn 0x0407 0xF 0).fault 613 0xF else c3

def execPowerCeilingUpdate (s : State) : Host.Outcome State Fault Refusal := .next (s.mapCtl powerCeilingUpdate)

/-- THERMAL_GET (R326). -/
def thermalGet (h : Head) (p : Bytes) (c : Ctl) : Ctl :=
  c.ocs h 0xC160 {} p fun c =>
    c.finish h 0xC160 .ok (toLE 4 (c.wordAt h 0x60004) ++ toLE 4 (c.wordAt h 0x70004) ++ toLE 4 (c.wordAt h 0x70000) ++
      ((List.range 12).flatMap fun d => toLE 8 (if d < c.nd then c.wideAt h (0x60100 + 8 * d) else 0)) ++
      toLE 4 (c.wordAt h 0x60180))

def execThermalGet (h : Head) (p : Bytes) (s : State) : Host.Outcome State Fault Refusal := .next (s.mapCtl (thermalGet h p))

end Sys2Proof.Machine
end

