-- ==== Sys2Proof/Machine/Keeper.lean ====
section
/-! DEFINITION. The Keeper and its own commands (chapter 13): images, restarts and READY, identity and health, control levels,
records in flash, the stack park, PHY_LOOP and the firmware commands of OCS (R287 to R309). -/

namespace Sys2Proof.Machine

/-! ## Images (R304 to R306) -/

/-- The select record as it will stand once the writes that wait are done. -/
def Ctl.selNext (c : Ctl) : SelRec :=
  match (c.sbp.writes.filter fun w => decide (w.kind = 1)).getLast? with
  | some w => ⟨le w.body 0 1 % 2, le w.body 1 1, le w.body 2 1, le w.body 3 1 % 2⟩
  | none => c.selRec

/-- The state of a slot in a select record, and a record with it changed. -/
def SelRec.state (r : SelRec) (i : Nat) : Nat := if i = 0 then r.stateA else r.stateB
def SelRec.setState (r : SelRec) (i v : Nat) : SelRec := if i = 0 then { r with stateA := v } else { r with stateB := v }

/-- The digest of Yunapel's firmware key in the SECURITY region: words 0x010 to 0x01B, in the order in which R349 lists its contents
(PRESUMED, notes/assumptions/30.md). -/
def Ctl.keyDigest (c : Ctl) : Bytes := (List.range 12).flatMap fun i => toLE 4 (otpWord c.fus.shadow (0x010 + i))

/-- What the signature of an image covers (R304): the rest of its header. The fields stand in the order in which R304 lists them
(DESIGN CHOICE, notes/assumptions/149.md). -/
def imageSigned (x : Image) : Bytes :=
  toLE 1 (bit x.rinros) ++ [x.major, x.minor] ++ toLE 2 x.patch.toNat ++ toLE 1 x.svn.val ++ toLE 4 x.body.length ++ x.digest ++ x.key ++
    x.rest

/-- The longest body of an image (R304), and the size of a slot of the flash (R393). -/
def bodyMax : Nat := 3 * 2 ^ 20
def slotBytes : Nat := 13 * 2 ^ 18

/-- The checks that the ROM makes of an image (R304), in the coding of RST_BOOT_INFO.IMG_A and its order. What is longer than an image can be
is none. -/
def Ctl.imageCause (c : Ctl) : Option Image → Nat
  | none => 1
  | some x =>
    if bodyMax < x.body.length then 1
    else if sha384 x.key ≠ c.keyDigest then 2
    else if ecdsaVerify x.key (imageSigned x) x.signature = false then 3
    else if sha384 x.body ≠ x.digest then 4
    else if x.rinros then 0 else 5

/-- A slot that holds what the flash has in it, checked. -/
def Ctl.checkImage (c : Ctl) (x : Option Image) : ImgSlot := { cause := c.imageCause x, image := x.getD {} }

/-- The result of R304 for a slot, in the coding of RST_BOOT_INFO.IMG_A: its SVN is judged against MIN_SVN last. -/
def Ctl.imgCause (c : Ctl) (i : Nat) : Nat :=
  if (c.slot i).cause ≠ 0 then (c.slot i).cause else if (c.slot i).image.svn.val < c.get R.FUS_STATUS_MIN_SVN then 6 else 0

/-- A slot passes R304. -/
def Ctl.imgOk (c : Ctl) (i : Nat) : Bool := decide (c.imgCause i = 0)

/-- The version of a slot laid out as IDC_FW_VER; 0 when the slot fails R304. -/
def Ctl.imgVersion (c : Ctl) (i : Nat) : Nat :=
  if c.imgOk i then (c.slot i).image.major.toNat * 2 ^ 24 + (c.slot i).image.minor.toNat * 2 ^ 16 + (c.slot i).image.patch.toNat else 0

/-- The slot running, and the state it runs in: 0 confirmed, 1 on trial, 2 fallback. -/
def Ctl.runSlot (c : Ctl) : Nat := c.get R.IDC_FW_STAT_RUNNING
def Ctl.runState (c : Ctl) : Nat := c.get R.IDC_FW_STAT_STATE

/-- OTHER_VALID follows the slot that is not running. -/
def Ctl.showOther (c : Ctl) : Ctl := c.set R.IDC_FW_STAT_OTHER_VALID (bit (c.imgOk (1 - c.runSlot)))

/-- The first candidate of a boot and its state (R305): in a start the slot that the select record names, or the other while
FLASH_SEL is high; at a Keeper restart the slot kept for it. -/
def Ctl.firstImage (c : Ctl) : Nat × Nat :=
  match c.kpr.bootNext with
  | some e => e
  | none =>
    let r := c.selRec
    let i := if c.kpr.flashSel then 1 - r.selected else r.selected
    (i, if r.state i = 1 then 1 else 0)

/-- The ROM runs for a start, or for a Keeper restart. -/
def Ctl.romForStart (c : Ctl) : Bool := decide (c.rst.awaiting = 4)

/-- The result of a slot in boot status. -/
def Ctl.setImgResult (c : Ctl) (i v : Nat) : Ctl := if i = 0 then c.set R.RST_BOOT_INFO_IMG_A v else c.set R.RST_BOOT_INFO_IMG_B v

/-- A slot is loaded and runs in a state (R288, R305). The first load of an attempt that R287 times is that of an image not on trial. -/
def Ctl.loadImage (c : Ctl) (i state : Nat) : Ctl :=
  let x := (c.slot i).image
  let rolled := c.kpr.rolled || (decide (state = 2) && decide (c.runState ≠ 2))
  let c1 := { c with kpr := { c.kpr with
    phase := 2, bootNext := none, loadAt := c.clock, firstAt := if state = 1 then c.kpr.firstAt else some (c.kpr.firstAt.getD c.clock), rolled := rolled } }
  let c2 := ((c1.set R.IDC_FW_VER_MAJOR x.major.toNat).set R.IDC_FW_VER_MINOR x.minor.toNat).set R.IDC_FW_VER_PATCH x.patch.toNat
  let c3 := ((c2.set R.IDC_FW_STAT_RUNNING i).set R.IDC_FW_STAT_STATE state).set R.IDC_FW_STAT_SVN x.svn.val
  (if state = 2 then c3.set R.RST_BOOT_INFO_FALLBACK 1 else c3).showOther

/-- The life-cycle decision of step 7 (R353, R359): DEPLOYED locks every region, SCRAPPED stops the start. -/
def Ctl.lifeCycle (c : Ctl) : Ctl :=
  let lc := (lcOf (otpWord c.fus.shadow 0)).getD 0
  let c1 := c.set R.FUS_STATUS_LC_STATE lc
  if lc = 4 then ({ c1 with kpr.phase := 0 }.set R.RST_BOOT_STATUS_STEP 7).startStop 0x0B
  else (if lc = 2 then c1.set R.FUS_LOCK_LOCKED 0x1F else c1).toStep 5

/-- What step 5 learns of the flash (R392): its JEDEC identifier, its capacity of 16 to 64 MiB and its read mode, which are the
board's: free values. -/
def Ctl.readSfdp (c : Ctl) : Ctl :=
  let (v, c1) := c.fresh
  ((c1.set R.SPI_STATUS_JEDEC_ID (v / 6)).set R.SPI_STATUS_CAP_LOG2 (24 + v % 3)).set R.SPI_STATUS_MODE (v / 3 % 2)

/-- The base-die SRAM self-test of step 5 (R366): at a power-on start the fuse repairs are applied first, and the faults found are repaired
soft; none is left without a spare. A warm start tests the Keeper SRAM only. `sram` names faults by macro and row or (bit 16) column. -/
def Ctl.sramTest (c : Ctl) (sram : List (Nat × Nat)) : Nat × Nat × Ctl :=
  let fused := (((List.range 0x4BF).map (0x330 + ·)).filter fun a => decide (otpWord c.fus.shadow a ≠ 0) &&
    c.fuseUsable R.FUS_REGION_STAT_REPAIR a).map fun a => Config.sramRepair (otpWord c.fus.shadow a)
  let c1 := if c.rst.warm then c else { c with cal.sramFuse := fused }
  (sram.filter fun u => !c.rst.warm || Config.keeperMacro u.1).foldl (fun r u => Ctl.repairAll r (80 + u.1, u.2)) (0, 0, c1)

/-- The ROM derives the device identity key from the UDS in MANUFACTURE and DEPLOYED (R307, R359): its private half, from 1 to the order of
the curve less 1. The place of the UDS is PRESUMED (notes/assumptions/31.md). -/
def Ctl.deriveKey (c : Ctl) : Ctl :=
  let lc := (lcOf (otpWord c.fus.shadow 0)).getD 0
  let uds : Bytes := (List.range 8).flatMap fun i => toLE 4 (otpWord c.fus.shadow (0x008 + i))
  { c with kpr.idKey := if lc = 1 ∨ lc = 2 then some (Config.identityKey uds % (curveN - 1) + 1) else none }

/-- A BLANK part loads no image: after the self-test of step 5 its start stops at step 7 with CAUSE 0 (R359). -/
def Ctl.stopBlank (c : Ctl) : Ctl := ({ c with kpr.phase := 0 }.set R.RST_BOOT_STATUS_STEP 7).startStop 0

/-- IMAGE_ACCEPTED (R304, R305, R359, R366, R412): after `dt` ns, within the bound of steps 5 and 6, the ROM has found `a` and `b`
in the slots, checked them and runs the first candidate, or the other in state FALLBACK. In a start the FLASH_SEL strap is sampled as `sel`,
a base-die SRAM fault of `sram` beyond its macro's spares fails the attempt with cause 0x05, and the life-cycle state then decides; a BLANK
part makes the self-test and stops. No image is read while VDD_IO is out (R414). -/
def execImageAccepted (sram : List (Nat × Nat)) (sel : Bool) (a b : Option Image) (dt : Nat) (s : State) :
    Host.Outcome State Fault Refusal :=
  if s.ctl.kpr.phase ≠ 1 then .next s
  else if s.ctl.romForStart ∧ (s.ctl.sramTest sram).2.1 ≠ 0 then .next (s.startFail 5)
  else if s.ctl.romForStart ∧ otpWord s.ctl.fus.shadow 0 = 0 then
    .next { s with ctl := (((s.ctl.sramTest sram).2.2).pass (min dt 120000000)).stopBlank }
  else if s.ctl.rst.railsOut.contains railIo then .next s
  else
    let start := s.ctl.romForStart
    let c0 := if start then (s.ctl.sramTest sram).2.2.deriveKey else s.ctl
    let c := { c0 with kpr := { c0.kpr with
      slotA := c0.checkImage a, slotB := c0.checkImage b, flashSel := if start then sel else s.ctl.kpr.flashSel } }
    let (i, st) := c.firstImage
    if !c.imgOk i && !c.imgOk (1 - i) then .next s
    else
      let second := !c.imgOk i
      let c1 := (if start then c.readSfdp else c).pass (min dt (if second then 235000000 else 120000000))
      let c2 := if start then (c1.setImgResult i (c1.imgCause i)).setImgResult (1 - i) 0 else c1
      let c3 := if second then c2.loadImage (1 - i) 2 else c2.loadImage i st
      .next { s with ctl := if start then c3.lifeCycle else c3 }

/-- NEITHER_IMAGE_PASSES (R305, R344): both slots fail R304: in a start the attempt fails with cause 0x07. A BLANK part looks at none. -/
def execNeitherImagePasses (a b : Option Image) (s : State) : Host.Outcome State Fault Refusal :=
  if s.ctl.kpr.phase ≠ 1 ∨ (s.ctl.romForStart = true ∧ otpWord s.ctl.fus.shadow 0 = 0) then .next s
  else
    let c := { s.ctl with kpr := { s.ctl.kpr with slotA := s.ctl.checkImage a, slotB := s.ctl.checkImage b } }
    if c.imgOk 0 || c.imgOk 1 then .next s
    else if c.starting then
      .next ({ s with ctl := (c.setImgResult 0 (c.imgCause 0)).setImgResult 1 (c.imgCause 1) }.startFail 7)
    else .next { s with ctl := c }

/-- The FRU body copied into SB_FRU, the rest zero (R397). -/
def Ctl.copyFru (c : Ctl) : Ctl := { c with sbp.fru := padTo 1024 ((c.record 7).getD []), sbp.fruDue := false }

/-- A retirement record whose write was cut is written again (R186; DEDUCED, notes/assumptions/132.md). -/
def Ctl.recordAgain (c : Ctl) : Ctl :=
  if c.ecc.entries = [] ∨ c.record 5 = some (retBody c.ecc.entries) ∨ (c.sbp.writes.any fun w => decide (w.kind = 5)) = true then c
  else { c with sbp.writes := c.sbp.writes ++ [⟨5, retBody c.ecc.entries, none, false, none⟩] }

/-- KEEPER_READY (R288, R342): the image reaches READY `dt` ns after its load at the latest bound of 2 s: the mailboxes are
served, a restart and a roll-back are reported, and a held NMI is raised. -/
def keeperReady (dt : Nat) (c : Ctl) : Ctl :=
  if c.kpr.phase = 2 then
    let c0 := c.pass (min dt 2000000000)
    let c1 := { c0 with kpr := { c0.kpr with
      phase := 3, restarted := false, rolled := false, nmiHeld := false, readyAt := c0.clock } }.set R.IDC_FW_STAT_READY 1
    let c2 := if c.kpr.restarted then (c1.bump R.IDC_KPR_STAT_RESTARTS).eventAll logWarn 0x0301 0xFFFF 0 else c1
    let c3 := if c.kpr.rolled then c2.eventAll logWarn 0x0305 0xFFFF 0 else c2
    let c4 := if c.kpr.nmiHeld then c3.emit .nmi else c3
    let c5 := (if c4.sbp.fruDue then c4.copyFru else c4).recordAgain
    if c5.rst.awaiting = 5 then c5.toStep 6 else c5
  else c

def execKeeperReady (dt : Nat) (s : State) : Host.Outcome State Fault Refusal := .next (s.mapCtl (keeperReady dt))

/-- IMAGE_READY_TIMEOUT (R287, R305, R344): an image on trial that is not READY within 2 s of its load suffers a Keeper restart; a start
whose confirmed image is not READY within 2 s of its first load, held in reset or not, fails with cause 0x08. -/
def execImageReadyTimeout (s : State) : Host.Outcome State Fault Refusal :=
  if s.ctl.kpr.phase = 2 ∧ s.ctl.runState = 1 then
    .next (s.mapCtl fun c => (c.passTo (c.kpr.loadAt + 2000000000)).keeperRestart)
  else if (s.ctl.kpr.phase = 2 ∨ s.ctl.kpr.phase = 4) ∧ s.ctl.starting = true then
    .next ((s.mapCtl fun c => c.passTo (c.kpr.firstAt.getD c.kpr.loadAt + 2000000000)).startFail 8)
  else .next s

/-- The select record that confirms the running image. -/
def Ctl.confirmRec (c : Ctl) : SelRec :=
  { (c.selNext.setState c.runSlot 2) with selected := c.runSlot, confirmed := c.runSlot }

/-- TRIAL_CONFIRM_TIMEOUT (R305): an image on trial has been in service for 60 s without a Keeper restart. -/
def trialConfirmTimeout (c : Ctl) : Ctl :=
  if c.kpr.phase = 3 ∧ c.runState = 1 then
    let c1 := c.passTo (c.kpr.readyAt + 60000000000)
    (c1.set R.IDC_FW_STAT_STATE 0).writeRecord 1 c1.confirmRec.body none
  else c

def execTrialConfirmTimeout (s : State) : Host.Outcome State Fault Refusal := .next (s.mapCtl trialConfirmTimeout)

/-! ## Keeper faults (R287) -/

/-- A lock-step mismatch or a watchdog expiry: the ROM of a start fails the attempt with cause 0x05, and an image is restarted;
a Keeper in reset has neither. -/
def State.keeperFault (s : State) (src : Nat) : State :=
  match s.ctl.kpr.phase with
  | 1 => if s.ctl.starting then (s.mapCtl fun c => c.fault src 0).startFail 5 else s.mapCtl fun c => c.fault src 0
  | 2 => s.mapCtl fun c => c.fault src 0
  | 3 => s.mapCtl fun c => c.fault src 0
  | _ => s

/-- LOCK_STEP_MISMATCH (R287): source 620. -/
def execLockStepMismatch (s : State) : Host.Outcome State Fault Refusal := .next (s.keeperFault 620)

/-- WATCHDOG_EXPIRY (R287): source 621. -/
def execWatchdogExpiry (s : State) : Host.Outcome State Fault Refusal := .next (s.keeperFault 621)

/-! ## Identity and health (R298, R309) -/

/-- The levels of a head as LEVEL of R298 gives them. -/
def Ctl.levelByte (c : Ctl) : Head → Nat
  | .a => c.get R.IDC_CTRL_LEVEL_A_EXPERT + 2 * c.get R.IDC_CTRL_LEVEL_A_LOCK
  | .b => c.get R.IDC_CTRL_LEVEL_B_EXPERT + 2 * c.get R.IDC_CTRL_LEVEL_B_LOCK

/-- OCS_IDENTIFY (R298). -/
def ocsIdentify (h : Head) (p : Bytes) (c : Ctl) : Ctl :=
  c.ocs h 0xC000 {} p fun c =>
    c.finish h 0xC000 .ok (toLE 2 0x0100 ++ toLE 2 0 ++ toLE 4 (c.wordAt h 0x40) ++ toLE 4 (c.wordAt h 0x60) ++
      toLE 1 c.runSlot ++ toLE 1 c.runState ++ toLE 1 (c.get R.IDC_FW_STAT_SVN) ++ toLE 1 (c.get R.FUS_STATUS_MIN_SVN) ++
      ((List.range 4).flatMap fun i => toLE 4 (c.get (R.IDC_UNIQUE_ID_ID i))) ++
      toLE 1 (c.get R.IDC_PART_ID_COMPAT_1604) ++ toLE 1 (bit (decide (((c.record 2).map fun r => le r 0 1) = some 1))) ++
      toLE 1 (c.levelByte h) ++ toLE 1 0 ++ toLE 4 (c.get R.IDC_KPR_STAT_RESTARTS) ++
      toLE 4 (c.get R.RST_BOOT_STATUS_ATTEMPTS))

def execOcsIdentify (h : Head) (p : Bytes) (s : State) : Host.Outcome State Fault Refusal := .next (s.mapCtl (ocsIdentify h p))

/-- The advisory byte of HEALTH_GET. -/
def Ctl.advisory (c : Ctl) : Nat :=
  bit (decide (c.runState = 2)) + 2 * bit (decide (c.runState = 1)) + 4 * bit (!c.imgOk (1 - c.runSlot)) +
    8 * bit (!c.hasSeal) + 16 * c.get R.TIM_STATUS_TIME_UNTRUSTED + 32 * c.get R.RST_BOOT_INFO_FUSE_MARGINAL +
    64 * bit (decide (c.get R.IDC_KPR_STAT_RESTARTS ≠ 0)) + 128 * c.get R.IDC_KPR_STAT_PARKED

/-- HEALTH_GET (R308, R309). -/
def healthGet (h : Head) (p : Bytes) (c : Ctl) : Ctl :=
  c.ocs h 0xC001 {} p fun c =>
    let removed := maskOf 64 fun g => c.ecc.entries.any fun e => tb e.mask g
    c.finish h 0xC001 .ok (toLE 4 (c.wordAt h 0x150030) ++ toLE 1 (c.get R.THM_STATUS_STAGE) ++ toLE 1 c.advisory ++ toLE 2 0 ++
      toLE 8 removed ++ toLE 4 (c.wordAt h 0x14))

def execHealthGet (h : Head) (p : Bytes) (s : State) : Host.Outcome State Fault Refusal := .next (s.mapCtl (healthGet h p))

/-! ## Control levels (R301) -/

/-- LEVEL_CHANGED. -/
def Ctl.levelChanged (c : Ctl) (h : Head) : Ctl := c.eventAll logInfo 0x0306 h.num 0

/-- The expert and lock fields of a head. -/
def expertField : Head → Fld
  | .a => R.IDC_CTRL_LEVEL_A_EXPERT
  | .b => R.IDC_CTRL_LEVEL_B_EXPERT
def lockField : Head → Fld
  | .a => R.IDC_CTRL_LEVEL_A_LOCK
  | .b => R.IDC_CTRL_LEVEL_B_LOCK

/-- LEVEL_SET (R301). -/
def levelSet (h : Head) (p : Bytes) (c : Ctl) : Ctl :=
  c.ocs h 0xC002 { min := 1 } p fun c =>
    let v := le p 0 1
    if 2 ≤ v then c.finish h 0xC002 .invalidParameter []
    else if c.get (expertField h) = v then c.finish h 0xC002 .ok []
    else if c.flag (lockField h) then c.finish h 0xC002 .invalidParameter []
    else ((c.set (expertField h) v).levelChanged h).finish h 0xC002 .ok []

def execLevelSet (h : Head) (p : Bytes) (s : State) : Host.Outcome State Fault Refusal := .next (s.mapCtl (levelSet h p))

/-- LEVEL_LOCK (R301). -/
def levelLock (h : Head) (p : Bytes) (c : Ctl) : Ctl :=
  c.ocs h 0xC003 {} p fun c =>
    if c.flag (lockField h) then c.finish h 0xC003 .ok []
    else ((c.set (lockField h) 1).levelChanged h).finish h 0xC003 .ok []

def execLevelLock (h : Head) (p : Bytes) (s : State) : Host.Outcome State Fault Refusal := .next (s.mapCtl (levelLock h p))

/-! ## Records in flash (R302) -/

/-- COMPAT_SET (R302). -/
def compatSet (h : Head) (p : Bytes) (c : Ctl) : Ctl :=
  c.ocs h 0xC004 { min := 1 } p fun c =>
    if 2 ≤ le p 0 1 then c.finish h 0xC004 .invalidParameter []
    else (c.await h 0xC004 p .flash c.clock).writeRecord 2 (p.take 1) (some h)

def execCompatSet (h : Head) (p : Bytes) (s : State) : Host.Outcome State Fault Refusal := .next (s.mapCtl (compatSet h p))

/-- MAP_RECORD_SET (R302): written, or erased. -/
def mapRecordSet (h : Head) (p : Bytes) (c : Ctl) : Ctl :=
  c.ocs h 0xC005 { min := 22 } p fun c =>
    if 2 ≤ le p 0 1 ∨ 4 ≤ le p 1 1 then c.finish h 0xC005 .invalidParameter []
    else (c.await h 0xC005 p .flash c.clock).writeRecord 3 ((p.drop 1).take 21) (some h) (decide (le p 0 1 = 1))

def execMapRecordSet (h : Head) (p : Bytes) (s : State) : Host.Outcome State Fault Refusal := .next (s.mapCtl (mapRecordSet h p))

/-- The code of MAP_RECORD_GET for the record now in flash. -/
def Ctl.mapRecordCode (c : Ctl) (r : FlashRec) : Nat :=
  if c.usable r = false ∨ 4 ≤ le r.body 0 1 then 3 else if c.sbp.mapSince then 2 else 1

/-- MAP_RECORD_GET (R297). -/
def mapRecordGet (h : Head) (p : Bytes) (c : Ctl) : Ctl :=
  c.ocs h 0xC006 {} p fun c =>
    match c.sbp.recs.find? fun r => decide (r.kind = 3) with
    | none => c.finish h 0xC006 .ok (List.replicate 22 0)
    | some r => c.finish h 0xC006 .ok (toLE 1 (c.mapRecordCode r) ++ padTo 21 r.body)

def execMapRecordGet (h : Head) (p : Bytes) (s : State) : Host.Outcome State Fault Refusal := .next (s.mapCtl (mapRecordGet h p))

/-! ## The stack park (R303) -/

/-- STACK_PARK may start. -/
def Ctl.mayPark (c : Ctl) (h : Head) : Bool :=
  c.job.jobs.isEmpty && (c.hd h.other).mbox.bg.isNone && !c.flag R.ECC_MIG_ACTIVE && !c.flag R.STX_ADOPT_ACTIVE &&
    c.frg.passes.isEmpty && !c.stackAway && decide (c.stk.selfRef = 0)

/-- STACK_PARK (R303): PARKED sets, fetch and admission stop, and the dies are sent into self-refresh. -/
def stackPark (h : Head) (p : Bytes) (c : Ctl) : Ctl :=
  c.ocs h 0xC007 { background := true } p fun c =>
    if c.mayPark h then
      (({ c with stk.srcPark := 1, stk.selfRef := 1 }.set R.IDC_KPR_STAT_PARKED 1).eventAll logInfo 0x0303 0xFFFF 0).startBg h
        0xC007 p 0
    else c.finish h 0xC007 .busy []

def execStackPark (h : Head) (p : Bytes) (s : State) : Host.Outcome State Fault Refusal := .next (s.mapCtl (stackPark h p))

/-- A head's STACK_PARK runs. -/
def Ctl.parking (c : Ctl) (h : Head) : Bool := match (c.hd h).mbox.bg with
  | some g => decide (g.op = 0xC007)
  | none => false

/-- PARK_COMPLETE (R303): every die is in self-refresh, and the background command completes. -/
def parkComplete (c : Ctl) : Ctl :=
  if c.stk.selfRef = 2 then c.forHeads fun h c => if c.parking h then c.finishBg h .ok else c else c

def execParkComplete (s : State) : Host.Outcome State Fault Refusal := .next (s.mapCtl parkComplete)

/-- A command to leave the park waits for the dies to be in self-refresh: they leave it. -/
def Ctl.leavePark (c : Ctl) : Ctl :=
  let waits := bothHeads.any fun h => match (c.hd h).mbox.pend with
    | some p => decide (p.op = opUnpark) && decide (p.wait = .commit)
    | none => false
  if waits && decide (c.stk.selfRef = 2) then { c with stk.selfRef := 3 } else c

/-- STACK_UNPARK (R303, R322): the dies leave self-refresh, and the command completes when they have and R167 is applied. -/
def stackUnpark (h : Head) (p : Bytes) (c : Ctl) : Ctl :=
  c.ocs h opUnpark {} p fun c =>
    if c.get R.THM_STATUS_STAGE = 4 ∨ c.cal.testMode = true then c.finish h opUnpark .busy []
    else if c.flag R.IDC_KPR_STAT_PARKED then (c.await h opUnpark p .commit c.clock).leavePark
    else c.finish h opUnpark .ok []

def execStackUnpark (h : Head) (p : Bytes) (s : State) : Host.Outcome State Fault Refusal := .next (s.mapCtl (stackUnpark h p))

/-! ## PHY_LOOP (R282, R303) -/

/-- PHYC_LOOP written by a head: its fields, then what START asks for. -/
def Ctl.writeLoop (c : Ctl) (h : Head) (v : Nat) (configOk : Bool) : Ctl :=
  match findReg 0xD0010 with
  | none => c
  | some a =>
    let was := c.get R.PHYC_LOOP_START
    let c1 := c.writeFields a h v configOk
    if !configOk then c1
    else if tb v 31 then c1.loopStart
    else (c1.set R.PHYC_LOOP_START was).stopLoop

/-- The PRBS error counts of all lanes, read and so cleared. -/
def Ctl.readPrbs (c : Ctl) : Bytes × Ctl :=
  (List.range 16).foldl (fun (e : Bytes × Ctl) n =>
    let f := R.PHYL_PRBS_ERR_COUNT n
    (e.1 ++ toLE 4 (e.2.get f), e.2.set f 0)) ([], c)

/-- PHY_LOOP run (R303). -/
def phyLoopRun (h : Head) (p : Bytes) (c : Ctl) : Ctl :=
  c.claiming h 0xC009 p [blkPhy] fun c =>
    let v := le p 0 4
    let refused := tb v 31 && !c.loopAllowed (v % 65536)
    let c1 := c.writeLoop h v true
    let (out, c2) := c1.readPrbs
    c2.finish h 0xC009 (if refused then .invalidParameter else .ok) (toLE 4 (c1.wordAt h 0xD0010) ++ out)

def phyLoop (h : Head) (p : Bytes) (c : Ctl) : Ctl := c.ocs h 0xC009 { min := 4 } p (phyLoopRun h p)

def execPhyLoop (h : Head) (p : Bytes) (s : State) : Host.Outcome State Fault Refusal := .next (s.mapCtl (phyLoop h p))

/-! ## Firmware commands of OCS (R305, R306) -/

/-- SVN of a slot as FW_STATUS gives it. -/
def Ctl.svnByte (c : Ctl) (i : Nat) : Nat := if c.imgOk i then (c.slot i).image.svn.val else 0xFF

/-- FW_STATUS (R305). -/
def fwStatus (h : Head) (p : Bytes) (c : Ctl) : Ctl :=
  c.ocs h 0xC020 {} p fun c =>
    c.finish h 0xC020 .ok (toLE 4 (c.imgVersion 0) ++ toLE 4 (c.imgVersion 1) ++ toLE 1 (c.svnByte 0) ++ toLE 1 (c.svnByte 1) ++
      toLE 1 c.selRec.selected ++ toLE 1 c.runSlot ++ toLE 1 c.runState ++ toLE 1 (c.get R.FUS_STATUS_MIN_SVN) ++
      toLE 2 (match c.kpr.xferHead with
        | some x => x.num
        | none => 0xFFFF))

def execFwStatus (h : Head) (p : Bytes) (s : State) : Host.Outcome State Fault Refusal := .next (s.mapCtl (fwStatus h p))

/-- FW_CONFIRM (R305): the image on trial is confirmed once the select record is written. -/
def fwConfirm (h : Head) (p : Bytes) (c : Ctl) : Ctl :=
  c.ocs h 0xC021 {} p fun c =>
    if c.runState = 1 then (c.await h 0xC021 p .flash c.clock).writeRecord 1 c.confirmRec.body (some h)
    else c.finish h 0xC021 .ok []

def execFwConfirm (h : Head) (p : Bytes) (s : State) : Host.Outcome State Fault Refusal := .next (s.mapCtl (fwConfirm h p))

/-- The select record that selects a slot for the next start (R305, R306): the running image stays confirmed if it is,
any other is on trial when it boots. -/
def Ctl.selectRec (c : Ctl) (i : Nat) : SelRec :=
  let r := c.selNext
  { (if i = r.confirmed ∧ i = c.runSlot then r else r.setState i 1) with selected := i }

/-- FW_SELECT (R306). -/
def fwSelect (h : Head) (p : Bytes) (c : Ctl) : Ctl :=
  c.ocs h 0xC022 { min := 1 } p fun c =>
    let i := le p 0 1
    if 2 ≤ i ∨ c.imgOk i = false then c.finish h 0xC022 .invalidParameter []
    else (c.await h 0xC022 p .flash c.clock).writeRecord 1 (c.selectRec i).body (some h)

def execFwSelect (h : Head) (p : Bytes) (s : State) : Host.Outcome State Fault Refusal := .next (s.mapCtl (fwSelect h p))

/-- FW_SVN_COMMIT (R306, R348, R356): the thermometer of MIN_SVN is blown up to the value, `stuck` naming the bits of the two SVN
words that fail. -/
def fwSvnCommit (h : Head) (p : Bytes) (stuck : Nat) (c : Ctl) : Ctl :=
  c.ocs h 0xC023 { min := 1 } p fun c =>
    let v := le p 0 1
    if v ≤ c.get R.FUS_STATUS_MIN_SVN ∨ c.get R.IDC_FW_STAT_SVN < v ∨ c.runState ≠ 0 ∨ 64 < v then
      c.finish h 0xC023 .invalidParameter []
    else
      let (ok1, c1) := c.blow 1 ((2 ^ v - 1) % 2 ^ 32) (stuck % 2 ^ 32)
      let (ok2, c2) := if ok1 then c1.blow 2 ((2 ^ v - 1) / 2 ^ 32) (stuck / 2 ^ 32) else (false, c1)
      if ok1 && ok2 then ((c2.set R.FUS_STATUS_MIN_SVN v).showOther).finish h 0xC023 .ok []
      else c2.finish h 0xC023 .invalidParameter []

def execFwSvnCommit (h : Head) (p : Bytes) (stuck : Nat) (s : State) : Host.Outcome State Fault Refusal :=
  .next (s.mapCtl (fwSvnCommit h p stuck))

/-! ## Opcodes and background progress (R294, R296) -/

/-- The OCS opcodes the device implements (R296). -/
def ocsOpcodes : List Nat :=
  [0xC000, 0xC001, 0xC002, 0xC003, 0xC004, 0xC005, 0xC006, 0xC007, 0xC008, 0xC009, 0xC010, 0xC011, 0xC020, 0xC021, 0xC022,
   0xC023, 0xC100, 0xC101, 0xC102, 0xC110, 0xC111, 0xC112, 0xC120, 0xC121, 0xC122, 0xC123, 0xC124, 0xC125, 0xC126,
   0xC130, 0xC131, 0xC132, 0xC133, 0xC140, 0xC141, 0xC142, 0xC143, 0xC144, 0xC145, 0xC146, 0xC150, 0xC151, 0xC152, 0xC153,
   0xC154, 0xC155, 0xC156, 0xC160, 0xC170, 0xC171, 0xC180, 0xC181, 0xC182, 0xC183, 0xC184, 0xC185, 0xC186, 0xC187, 0xC190,
   0xC191, 0xC1A0, 0xC1A1, 0xC1A2]

/-- OCS_UNSUPPORTED_OPCODE (R296): an opcode of the OCS range that no chapter defines. -/
def ocsUnsupportedOpcode (h : Head) (op : Nat) (p : Bytes) (c : Ctl) : Ctl :=
  if 0xC000 ≤ op ∧ op ≤ 0xC3FF ∧ ocsOpcodes.contains op = false then
    c.ocs h op {} p fun c => c.finish h op .unsupported []
  else c

def execOcsUnsupportedOpcode (h : Head) (op : Nat) (p : Bytes) (s : State) : Host.Outcome State Fault Refusal :=
  .next (s.mapCtl (ocsUnsupportedOpcode h op p))

/-- BACKGROUND_PROGRESS_UPDATE (R294): the percent complete of a head's background command. -/
def backgroundProgressUpdate (h : Head) (percent : Nat) (c : Ctl) : Ctl :=
  c.modHd h fun x => { x with mbox := { x.mbox with bg := x.mbox.bg.map fun (g : BgCmd) => { g with percent := min 100 percent } } }

def execBackgroundProgressUpdate (h : Head) (percent : Nat) (s : State) : Host.Outcome State Fault Refusal :=
  .next (s.mapCtl (backgroundProgressUpdate h percent))

end Sys2Proof.Machine
end

