-- ==== Sys2Proof/Machine/Standard.lean ====
section
/-! DEFINITION. The standard mailbox commands of a CXL memory device that each head supports, and its DOE mailbox (R242, R243,
R244, R264, R306, R307). Opcodes, layouts and return codes are those of the CXL specification (PRESUMED,
notes/assumptions/9.md). -/

namespace Sys2Proof.Machine

/-! ## The checks of a standard command -/

/-- A standard command: ignored while a command of the head is in progress; else completed by hardware while the Keeper does
not run (R292), refused with the fenced code from a fenced head that R248 does not admit, refused for a short payload (Return
Code 0x16), or carried out. -/
def State.std (s : State) (h : Head) (op : Nat) (fenceOk : Bool) (min : Nat) (p : Bytes) (run : State → State) : State :=
  if s.ctl.mboxFree h then
    if s.ctl.kpr.phase ≠ 3 then s.mapCtl fun c => c.finish h op .keeperDown []
    else if s.ctl.fenced h && !fenceOk then s.mapCtl fun c => c.finish h op .fenced []
    else if p.length < min then s.mapCtl fun c => c.finishAs h op 0x16 0 []
    else run s
  else s

/-- The same for a command that leaves the stack's lines alone. -/
def Ctl.std (c : Ctl) (h : Head) (op : Nat) (fenceOk : Bool) (min : Nat) (p : Bytes) (run : Ctl → Ctl) : Ctl :=
  if c.mboxFree h then
    if c.kpr.phase ≠ 3 then c.finish h op .keeperDown []
    else if c.fenced h && !fenceOk then c.finish h op .fenced []
    else if p.length < min then c.finishAs h op 0x16 0 []
    else run c
  else c

/-- Success, and an error of the standard. -/
def Ctl.stdOk (c : Ctl) (h : Head) (op : Nat) (out : Bytes) : Ctl := c.finishAs h op 0 0 out
def Ctl.stdErr (c : Ctl) (h : Head) (op rc : Nat) : Ctl := c.finishAs h op rc 0 []

/-- Bytes of a number written with the first byte first. -/
def hexBytes (l : List Nat) : Bytes := l.map (BitVec.ofNat 8)

/-! ## Identity, health and time (R243) -/

/-- The revision string of a slot, 16 characters. -/
def Ctl.revision (c : Ctl) (i : Nat) : Bytes :=
  if c.imgOk i then padTo 16 (Config.revisionText (c.slot i).image.major.toNat (c.slot i).image.minor.toNat (c.slot i).image.patch.toNat) else List.replicate 16 0

/-- IDENTIFY_MEMORY_DEVICE (R243): IDC_USER_MIB rounded down to a multiple of 256 MiB, all of it volatile. -/
def identifyMemoryDevice (h : Head) (p : Bytes) (c : Ctl) : Ctl :=
  c.std h 0x4000 true 0 p fun c =>
    let n := c.wordAt h 0x14 / 256
    c.stdOk h 0x4000 (c.revision c.runSlot ++ toLE 8 n ++ toLE 8 n ++ toLE 8 0 ++ toLE 8 0 ++
      ((List.range 4).flatMap fun _ => toLE 2 128) ++ toLE 4 0 ++ toLE 3 0 ++ toLE 2 0 ++ toLE 1 0 ++ toLE 1 0)

def execIdentifyMemoryDevice (h : Head) (p : Bytes) (s : State) : Host.Outcome State Fault Refusal :=
  .next (s.mapCtl (identifyMemoryDevice h p))

/-- The health indications of R188: Maintenance Needed, Performance Degraded, Hardware Replacement Needed. -/
def Ctl.healthBits (c : Ctl) : Nat :=
  let st := c.get R.ECC_HEALTH_STATE
  bit (decide (st = 1)) + 2 * bit (decide (st = 1) && (List.range 4).any fun l => decide (c.laneState l = 3)) + 4 * bit (decide (2 ≤ st))

/-- GET_HEALTH_INFO (R188, R308). -/
def getHealthInfo (h : Head) (p : Bytes) (c : Ctl) : Ctl :=
  c.std h 0x4200 true 0 p fun c =>
    c.stdOk h 0x4200 (toLE 1 c.healthBits ++ toLE 1 0 ++ toLE 1 0 ++ toLE 1 0xFF ++ toLE 2 0x7FFF ++ toLE 4 0 ++ toLE 4 0 ++ toLE 4 0)

def execGetHealthInfo (h : Head) (p : Bytes) (s : State) : Host.Outcome State Fault Refusal := .next (s.mapCtl (getHealthInfo h p))

/-- GET_TIMESTAMP (R243): platform time. -/
def getTimestamp (h : Head) (p : Bytes) (c : Ctl) : Ctl :=
  c.std h 0x0300 false 0 p fun c => c.stdOk h 0x0300 (toLE 8 c.now)

def execGetTimestamp (h : Head) (p : Bytes) (s : State) : Host.Outcome State Fault Refusal := .next (s.mapCtl (getTimestamp h p))

/-- SET_TIMESTAMP (R243): recorded in TIM_TS_SET; platform time stays. -/
def setTimestamp (h : Head) (p : Bytes) (c : Ctl) : Ctl :=
  c.std h 0x0301 false 8 p fun c => (c.set R.TIM_TS_SET_VALUE (le p 0 8)).stdOk h 0x0301 []

def execSetTimestamp (h : Head) (p : Bytes) (s : State) : Host.Outcome State Fault Refusal := .next (s.mapCtl (setTimestamp h p))

/-! ## Event logs (R244, R264, R265, R379) -/

/-- The UUIDs of the record types: Yunapel's (R379), General Media and Memory Module. -/
def recordUuid (kind : Nat) : Bytes :=
  if kind = kindMedia then
    hexBytes [0xfb, 0xcd, 0x0a, 0x77, 0xc2, 0x60, 0x41, 0x7f, 0x85, 0xa9, 0x08, 0x8b, 0x16, 0x21, 0xeb, 0xa6]
  else if kind = kindModule then
    hexBytes [0xfe, 0x92, 0x74, 0x75, 0xdd, 0x59, 0x43, 0x39, 0xa5, 0x86, 0x79, 0xba, 0xb1, 0x13, 0xb7, 0x74]
  else hexBytes [0x5c, 0x1e, 0x7a, 0x04, 0x2b, 0x9d, 0x4f, 0x63, 0xa8, 0xe1, 0x0d, 0x47, 0xc3, 0xb9, 0xf2, 0x15]

/-- The body of an event record of 128 bytes after its 48-byte header: the vendor data of R265 and R379, or the line's stack
address with the descriptor of an uncorrectable event and its memory-event type, or the module's
health, with the mask of removed granules and their number behind it (R189, R190; notes/assumptions/105.md). -/
def EventRec.body (r : EventRec) : Bytes :=
  -- media ECC error for a line that became mired, data path error for a discarded write (PRESUMED, notes/assumptions/9.md)
  if r.kind = kindMedia then toLE 8 (r.info * 64) ++ toLE 1 1 ++ toLE 1 (if fltClass (r.code - 0x1000) = 2 then 2 else 0)
  else if r.kind = kindModule then toLE 19 0 ++ toLE 8 r.info ++ toLE 1 r.flags
  else toLE 2 r.code ++ toLE 2 r.headNo ++ toLE 8 r.time ++ toLE 8 r.info ++ toLE 1 r.flags

/-- An event record as Get Event Records returns it. -/
def EventRec.encode (log : Nat) (r : EventRec) : Bytes :=
  padTo 128 (recordUuid r.kind ++ toLE 1 128 ++ toLE 3 log ++ toLE 2 r.handle ++ toLE 2 0 ++ toLE 8 r.time ++ toLE 16 0 ++ r.body)

/-- A head's event log by number. -/
def Ctl.eventLog (c : Ctl) (h : Head) (log : Nat) : EventLog := ((c.hd h).logs[log]?).getD {}

/-- A head's event log changed. -/
def Ctl.setEventLog (c : Ctl) (h : Head) (log : Nat) (l : EventLog) : Ctl :=
  c.modHd h fun x => { x with logs := x.logs.set log l }

/-- GET_EVENT_RECORDS (R264): the oldest records, 15 at most in a payload of 2 KiB; they stay in the log. -/
def getEventRecords (h : Head) (p : Bytes) (c : Ctl) : Ctl :=
  c.std h 0x0100 true 1 p fun c =>
    let k := le p 0 1
    if 4 ≤ k then c.stdErr h 0x0100 2
    else
      let l := c.eventLog h k
      let some' := l.recs.take 15
      c.stdOk h 0x0100 (toLE 1 (bit (decide (l.overflow ≠ 0)) + 2 * bit (decide (15 < l.recs.length))) ++ toLE 1 0 ++
        toLE 2 l.overflow ++ toLE 8 l.firstOverflow ++ toLE 8 l.lastOverflow ++ toLE 2 some'.length ++ toLE 10 0 ++
        some'.flatMap (EventRec.encode k))

def execGetEventRecords (h : Head) (p : Bytes) (s : State) : Host.Outcome State Fault Refusal :=
  .next (s.mapCtl (getEventRecords h p))

/-- The handles a Clear Event Records names. -/
def clearHandles (p : Bytes) : List Nat := (List.range (le p 2 1)).map fun i => le p (6 + 2 * i) 2

/-- A log without its oldest records, its overflow gone with them. -/
def EventLog.clear (l : EventLog) (n : Nat) : EventLog :=
  { l with recs := l.recs.drop n, overflow := 0, firstOverflow := 0, lastOverflow := 0 }

/-- CLEAR_EVENT_RECORDS (R264): the oldest records, named by their handles in order, or after an overflow all of them. -/
def clearEventRecords (h : Head) (p : Bytes) (c : Ctl) : Ctl :=
  c.std h 0x0101 true 6 p fun c =>
    let k := le p 0 1
    let l := c.eventLog h k
    let hs := clearHandles p
    if 4 ≤ k then c.stdErr h 0x0101 2
    else if tb (le p 1 1) 0 then
      (if l.overflow = 0 then c.stdErr h 0x0101 2
       else (c.setEventLog h k (l.clear l.recs.length)).stdOk h 0x0101 [])
    else if hs = (l.recs.take hs.length).map EventRec.handle ∧ hs.length ≤ l.recs.length then
      (c.setEventLog h k (if hs.isEmpty then l else l.clear hs.length)).stdOk h 0x0101 []
    else c.stdErr h 0x0101 0xE

def execClearEventRecords (h : Head) (p : Bytes) (s : State) : Host.Outcome State Fault Refusal :=
  .next (s.mapCtl (clearEventRecords h p))

/-- GET_EVENT_INTERRUPT_POLICY (R244): one byte per log. -/
def getEventInterruptPolicy (h : Head) (p : Bytes) (c : Ctl) : Ctl :=
  c.std h 0x0102 false 0 p fun c =>
    c.stdOk h 0x0102 ((List.range 4).flatMap fun k => toLE 1 (c.eventLog h k).policy)

def execGetEventInterruptPolicy (h : Head) (p : Bytes) (s : State) : Host.Outcome State Fault Refusal :=
  .next (s.mapCtl (getEventInterruptPolicy h p))

/-- SET_EVENT_INTERRUPT_POLICY (R244): the mode and vector of each log. -/
def setEventInterruptPolicy (h : Head) (p : Bytes) (c : Ctl) : Ctl :=
  c.std h 0x0103 false 4 p fun c =>
    ((List.range 4).foldl (fun (c : Ctl) k => c.setEventLog h k { c.eventLog h k with policy := le p k 1 }) c).stdOk h 0x0103 []

def execSetEventInterruptPolicy (h : Head) (p : Bytes) (s : State) : Host.Outcome State Fault Refusal :=
  .next (s.mapCtl (setEventInterruptPolicy h p))

/-! ## Logs (R243, R296) -/

/-- The UUID of the Command Effects Log. -/
def celUuid : Bytes :=
  hexBytes [0x0d, 0xa9, 0xc0, 0xb5, 0xbf, 0x41, 0x4b, 0x78, 0x8f, 0x79, 0x96, 0xb1, 0x62, 0x3b, 0x3f, 0x17]

/-- The standard commands of R243 by opcode. -/
def stdOpcodes : List Nat :=
  [0x0100, 0x0101, 0x0102, 0x0103, 0x0200, 0x0201, 0x0202, 0x0300, 0x0301, 0x0400, 0x0401, 0x4000, 0x4200, 0x4300]

/-- The Command Effects Log (R296): every command the device implements, with the effects it states. -/
def celBytes : Bytes := (stdOpcodes ++ ocsOpcodes).flatMap fun op => toLE 2 op ++ toLE 2 (Config.commandEffects op)

/-- GET_SUPPORTED_LOGS (R243): the Command Effects Log alone. -/
def getSupportedLogs (h : Head) (p : Bytes) (c : Ctl) : Ctl :=
  c.std h 0x0400 false 0 p fun c => c.stdOk h 0x0400 (toLE 2 1 ++ toLE 6 0 ++ celUuid ++ toLE 4 celBytes.length)

def execGetSupportedLogs (h : Head) (p : Bytes) (s : State) : Host.Outcome State Fault Refusal :=
  .next (s.mapCtl (getSupportedLogs h p))

/-- GET_LOG (R243, R296): a piece of the Command Effects Log. -/
def getLog (h : Head) (p : Bytes) (c : Ctl) : Ctl :=
  c.std h 0x0401 false 24 p fun c =>
    if p.take 16 = celUuid ∧ le p 16 4 + le p 20 4 ≤ celBytes.length ∧ le p 20 4 ≤ 2048 then
      c.stdOk h 0x0401 ((celBytes.drop (le p 16 4)).take (le p 20 4))
    else c.stdErr h 0x0401 2

def execGetLog (h : Head) (p : Bytes) (s : State) : Host.Outcome State Fault Refusal := .next (s.mapCtl (getLog h p))

/-! ## The poison list (R243) -/

/-- The mired lines of a head's partitions that the mire log still holds, with the cause of each, from an address on over a
number of lines. -/
def State.poisonList (s : State) (h : Head) (from_ lines : Nat) : List (Nat × Nat) :=
  let all := (s.ctl.ecc.log ++ s.ctl.ecc.staging).filterMap fun r =>
    if r.cause < 0x10 ∧ from_ ≤ r.where_ * 64 ∧ r.where_ * 64 < from_ + 64 * lines ∧ s.ctl.mayReach h (r.where_ * 64) = true then
      (match s.status (r.where_ * 64) with
        | .mired k => some (r.where_ * 64, k)
        | .good => none
        | .neverWritten => none)
    else none
  all.eraseDups

/-- A media error record: the address with the poison's source, and its length in lines. -/
def poisonRecord (e : Nat × Nat) : Bytes := toLE 8 (e.1 + (if e.2 = 5 then 1 else 2)) ++ toLE 4 1 ++ toLE 4 0

/-- Media error records that a payload holds. -/
def poisonPerRead : Nat := 126

/-- GET_POISON_LIST (R243): the records of a range, 126 at a time; a repeated query gives the next ones. -/
def getPoisonList (h : Head) (p : Bytes) (s : State) : State :=
  s.std h 0x4300 false 16 p fun s =>
    let a := le p 0 8 / 64 * 64
    let n := le p 8 8
    if s.ctl.userEnd ≤ a then s.mapCtl fun c => c.stdErr h 0x4300 0xF
    else
      let l := s.poisonList h a n
      let skip := match (s.ctl.hd h).poisonAt with
        | some q => if q.1 = a ∧ q.2.1 = n then q.2.2 else 0
        | none => 0
      let now := (l.drop skip).take poisonPerRead
      let more := decide (skip + now.length < l.length)
      s.mapCtl fun c =>
        (c.modHd h fun x => { x with poisonAt := if more then some (a, n, skip + now.length) else none }).stdOk h 0x4300
          (toLE 1 (bit more) ++ toLE 1 0 ++ toLE 8 0 ++ toLE 2 now.length ++ toLE 20 0 ++ now.flatMap poisonRecord)

def execGetPoisonList (h : Head) (p : Bytes) (s : State) : Host.Outcome State Fault Refusal := .next (getPoisonList h p s)

/-! ## Firmware (R306) -/

/-- GET_FW_INFO (R306): two slots, the one running and the one selected for the next start. -/
def getFwInfo (h : Head) (p : Bytes) (c : Ctl) : Ctl :=
  c.std h 0x0200 true 0 p fun c =>
    c.stdOk h 0x0200 (toLE 1 2 ++ toLE 1 (c.runSlot + 1 + 8 * (c.selRec.selected + 1)) ++ toLE 1 1 ++ toLE 13 0 ++
      c.revision 0 ++ c.revision 1 ++ List.replicate 32 0)

def execGetFwInfo (h : Head) (p : Bytes) (s : State) : Host.Outcome State Fault Refusal := .next (s.mapCtl (getFwInfo h p))

/-- A firmware transfer ends without an image: the slot is invalid. -/
def Ctl.dropTransfer (c : Ctl) : Ctl :=
  (({ c with kpr.xferHead := none, kpr.xferData := [] } : Ctl).setSlot c.kpr.xferSlot {}).showOther

/-- A part of an image taken: the slot that is not running is being written. -/
def Ctl.takePart (c : Ctl) (h : Head) (data : Bytes) (first : Bool) : Ctl :=
  ({ c with kpr := { c.kpr with
    xferHead := some h, xferSlot := 1 - c.runSlot, xferData := if first then data else c.kpr.xferData ++ data, xferAt := c.clock } } :
    Ctl).setSlot (1 - c.runSlot) {} |>.showOther

/-- The last part is in: the slot is checked under R304, and an image that fails is left invalid. -/
def Ctl.endTransfer (c : Ctl) (h : Head) : Ctl :=
  let x := c.checkImage (Config.imageSpelt c.kpr.xferData)
  let c1 := (({ c with kpr.xferHead := none, kpr.xferData := [] } : Ctl).setSlot c.kpr.xferSlot x).showOther
  if c1.imgOk c.kpr.xferSlot then c1.stdOk h 0x0201 []
  else ((c1.setSlot c.kpr.xferSlot { x with cause := c1.imgCause c.kpr.xferSlot }).showOther).finishAs h 0x0201 0xA Ocs.fwRejected.num []

/-- TRANSFER_FW (R306): byte 0 the action (0 the whole image, 1 the first part, 2 a further part, 3 the last part, 4 abort),
byte 1 the slot, bytes 7:4 the offset in units of 128 bytes, the data from byte 128 on. Data beyond the slot (R393) is refused. -/
def transferFw (h : Head) (p : Bytes) (c : Ctl) : Ctl :=
  c.std h 0x0201 false 128 p fun c =>
    let action := le p 0 1
    let data := p.drop 128
    let last := decide (action = 0) || decide (action = 3)
    let busy := fun (c : Ctl) => c.finishAs h 0x0201 8 Ocs.busy.num []
    if 5 ≤ action then c.stdErr h 0x0201 2
    else if c.rst.railsOut.contains railIo then c.stdErr h 0x0201 4
    else match c.kpr.xferHead with
      | some x =>
        if x ≠ h ∨ action ≤ 1 then busy c
        else if action = 4 then c.dropTransfer.stdOk h 0x0201 []
        else if last = true ∧ le p 1 1 ≠ c.kpr.xferSlot + 1 then c.stdErr h 0x0201 0xB
        else if le p 4 4 * 128 ≠ c.kpr.xferData.length then c.stdErr h 0x0201 9
        else if slotBytes < c.kpr.xferData.length + data.length then c.stdErr h 0x0201 2
        else if action = 3 then (c.takePart h data false).endTransfer h
        else (c.takePart h data false).stdOk h 0x0201 []
      | none =>
        if 2 ≤ action then c.stdErr h 0x0201 9
        else if action = 0 ∧ le p 1 1 ≠ 2 - c.runSlot then c.stdErr h 0x0201 0xB
        else if le p 4 4 ≠ 0 then c.stdErr h 0x0201 9
        else if slotBytes < data.length then c.stdErr h 0x0201 2
        else if action = 0 then (c.takePart h data true).endTransfer h
        else (c.takePart h data true).stdOk h 0x0201 []

/-- TRANSFER_FW: its payload is `p`, the standard's header, and then `img`, the part's bytes of the image. -/
def execTransferFw (h : Head) (p img : Bytes) (s : State) : Host.Outcome State Fault Refusal :=
  .next (s.mapCtl (transferFw h (p ++ img)))

/-- FW_TRANSFER_TIMEOUT (R306): a transfer has received no part for 10 s. -/
def fwTransferTimeout (c : Ctl) : Ctl :=
  if c.kpr.xferHead.isSome then (c.passTo (c.kpr.xferAt + 10000000000)).dropTransfer else c

def execFwTransferTimeout (s : State) : Host.Outcome State Fault Refusal := .next (s.mapCtl fwTransferTimeout)

/-- What keeps an online activation from starting at all (R306). -/
def Ctl.activationBusy (c : Ctl) : Bool :=
  c.flag R.ECC_MIG_ACTIVE || c.flag R.STX_ADOPT_ACTIVE || ((List.range 64).any fun g => decide (c.get (R.SEA_GRAN_STATE g) = 1)) ||
    (c.hd .a).mbox.bg.isSome || (c.hd .b).mbox.bg.isSome || c.kpr.xferHead.isSome

/-- The Keeper restarts into a slot, its image on trial (R306): the command completes first. -/
def Ctl.goOnline (c : Ctl) (h : Head) (i : Nat) : Ctl :=
  let c1 := (c.stdOk h 0x0202 []).rebootKeeper i 1
  c1.writeRecord 1 (c1.selNext.setState i 1).body none

/-- The opcode of Activate FW. -/
def opActivate : Nat := 0x0202

/-- An online activation that waits for the other head's command: it goes on when that has ended, and returns BUSY after
100 ms. -/
def Ctl.resumeActivate (c : Ctl) (h : Head) : Ctl :=
  match (c.hd h).mbox.pend with
  | none => c
  | some q =>
    if q.op ≠ opActivate ∨ q.wait ≠ .reset then c
    else if c.activationBusy then c.finishAs h opActivate 6 Ocs.busy.num []
    else if (c.hd h.other).mbox.pend.isNone then c.goOnline h (le q.payload 1 1 - 1)
    else if q.aux + 100000000 ≤ c.clock then c.finishAs h opActivate 6 Ocs.busy.num []
    else c

/-- ACTIVATE_FW (R306): byte 0 the action (0 online, 1 offline), byte 1 the slot. -/
def activateFw (h : Head) (p : Bytes) (c : Ctl) : Ctl :=
  c.std h opActivate false 2 p fun c =>
    let i := le p 1 1 - 1
    if 2 ≤ le p 0 1 then c.stdErr h opActivate 2
    else if le p 1 1 = 0 ∨ 2 < le p 1 1 then c.stdErr h opActivate 0xB
    else if c.imgOk i = false then c.finishAs h opActivate 0xA Ocs.fwRejected.num []
    else if le p 0 1 = 1 then (c.await h opActivate p .flash c.clock).writeRecord 1 (c.selectRec i).body (some h)
    else if c.activationBusy then c.finishAs h opActivate 6 Ocs.busy.num []
    else (c.await h opActivate p .reset c.clock).resumeActivate h

def execActivateFw (h : Head) (p : Bytes) (s : State) : Host.Outcome State Fault Refusal := .next (s.mapCtl (activateFw h p))

/-! ## Any other standard command, and DOE (R243, R294, R307) -/

/-- STD_UNSUPPORTED_COMMAND (R243): Return Code Unsupported; for Request Abort Background Operation also the OCS code
UNSUPPORTED (R294). -/
def stdUnsupportedCommand (h : Head) (op : Nat) (p : Bytes) (c : Ctl) : Ctl :=
  if (0xC000 ≤ op ∧ op ≤ 0xC3FF) ∨ stdOpcodes.contains op = true then c
  else c.std h op false 0 p fun c => c.finishAs h op 3 (if op = 0x0005 then Ocs.unsupported.num else 0) []

def execStdUnsupportedCommand (h : Head) (op : Nat) (p : Bytes) (s : State) : Host.Outcome State Fault Refusal :=
  .next (s.mapCtl (stdUnsupportedCommand h op p))

/-- The keys of a stream set, which makes it secure on a link that is up, or stopped (R219). -/
def HeadSt.ideKeyed (x : HeadSt) (w : IdeStream) (on up : Bool) : HeadSt := match w.index with
  | none => { x with ideUp := on && up, ideInsecure := if on then false else x.ideInsecure }
  | some n => if on then (if up then x.setStream n 1 fun _ => true else x) else x.setStream n 0 fun st => decide (st = 1)

/-- The algorithms of R307 by the bits that SPDM 1.2 gives them (PRESUMED, notes/assumptions/9.md): ECDSA P-384, SHA-384, ECDHE P-384,
AES-256-GCM. -/
def spdmAlgorithms : Bytes := toLE 4 0x80 ++ toLE 4 2 ++ toLE 2 0x10 ++ toLE 2 2

/-- What GET_MEASUREMENTS reports (R307), each a SHA-384 digest: the ROM, the running image's header and body, and the CONFIG words of the
OTP (DEDUCED, notes/assumptions/134.md). -/
def Ctl.measurements (c : Ctl) : Bytes :=
  let x := (c.slot c.runSlot).image
  Config.romDigest ++ sha384 ((imageSigned x) ++ x.signature) ++ x.digest ++
    sha384 ((List.range 16).flatMap fun i => toLE 4 (otpWord c.fus.shadow (0x050 + i)))

/-- DOE_REQUEST (R219, R307, R359): an object for CDAT, SPDM or IDE key management is served by the running Keeper. IDE keys are
programmed only within a secure session, and set or end CXL IDE on the head's link; a part in RMA offers only CDAT. -/
def doeRequest (h : Head) (o : DoeObject) (c : Ctl) : Ctl :=
  if c.kpr.phase ≠ 3 ∨ (c.lcState = 3 ∧ o ≠ .cdat) then c
  else match o with
    | .cdat => c.emit (.doe h 0)
    | .spdm => c.emit (.doe h 1)
    | .session on => (c.modHd h fun x => { x with spdm := on }).emit (.doe h 2)
    | .ideKeys w on =>
      if (c.hd h).spdm then (c.modHd h fun x => x.ideKeyed w on (decide (c.hstate h = 2))).emit (.doe h 3)
      else c
    | .algorithms => c.emit (.doe h 4 spdmAlgorithms)
    -- the chain of slot 0 is the body of the identity record
    | .certificate => c.emit (.doe h 5 ((c.record 6).getD []))
    | .measurements => c.emit (.doe h 6 c.measurements)
    -- the nonce of the signature is a free value
    | .challenge t => match c.kpr.idKey with
        | some d =>
          let (v, c1) := c.fresh
          c1.emit (.doe h 7 (ecdsaSign d (v % (curveN - 1) + 1) t))
        | none => c

def execDoeRequest (h : Head) (o : DoeObject) (s : State) : Host.Outcome State Fault Refusal := .next (s.mapCtl (doeRequest h o))

end Sys2Proof.Machine
end

