-- ==== Sys2Proof/Machine/Start.lean ====
section
/-! DEFINITION. The end of a quiesce and the last steps of a start (chapter 15): what a warm reset keeps (R8, R337, R339), TSV
training and repair (R36, R37, R42, R43, R187), and stack bring-up (R21, R24, R48 to R54, R146, R186, R188, R193, R217, R314,
R341, R343, R361). -/

namespace Sys2Proof.Machine

/-! ## QUIESCE_COMPLETE (R337, R339) -/

/-- The field of the register map at a bit address. -/
def fieldAt (k : Nat) : Option FieldRow := match findReg (k / 8) with
  | some a => (a.row.fields a.i a.j).find? fun r => decide (r.fld.key = k)
  | none => none

/-- The fault collector, whose registers R376 and R377 keep. -/
def keptBlocks : List Nat := [0x8]

/-- Single fields that keep their value though no table marks them: the auxiliary domain, the PLLs that R342 keeps running
(notes/assumptions/28.md), what R410 fixes until the next power-on start, the sticky locks of R353, the fuse repairs, the state of the
dies, the holdover of R258, ABORTED of a scan that the warm reset ended (R279), the REJECT bits and the shadow of the activate limits (R408),
and what a start loads for the thermal logic, which runs on (chapter 14): TRIMMED and CANARY_TEMP. -/
def keptKeys : List Nat :=
  auxKeys ++
  [R.CLK_STATUS_CORE_REF.key, R.CLK_STATUS_COAST.key, R.CLK_STATUS_CORE_LOCK.key, R.CLK_STATUS_ROW_LOCK.key,
   R.IDC_COMPAT_CLK_COAST.key, R.IDC_COMPAT_ERRN_LATCH.key, R.FUS_LOCK_LOCKED.key,
   R.IDC_OTP_ID_DIVISION.key, R.IDC_OTP_ID_FROM_STRAP.key,
   R.STK_PASR_MASK_FORCED.key, R.STK_SR_STAT_IN_SR.key, R.STK_SR_STAT_DROPPED.key, R.TIM_STATUS_HOLDOVER.key,
   R.MAP_COMMIT_REJECT.key, R.STK_COMMIT_REJECT.key, R.QOS_SCHED_COMMIT_REJECT.key, R.QOS_CLASS_COMMIT_REJECT.key,
   R.STK_ACT_CFG_SH_ROW_SHARE.key, R.STK_ACT_CFG_SH_ACT_MAX.key] ++
  ((List.range 128).map fun n => (R.THM_SENS_TRIMMED n).key) ++ ((List.range 12).map fun d => (R.THM_CANARY_CANARY_TEMP d).key) ++
  ((List.range 4).flatMap fun l => (List.range 8).map fun g => (R.ROWL_GRP_STATUS_FUSE_REP l g).key) ++
  (List.range 16).map fun n => (R.PHYL_SCAN_CTL_ABORTED n).key

/-- A field keeps its value over a warm reset (R8). -/
def warmKeeps (k : Nat) : Bool :=
  keptKeys.contains k || keptBlocks.contains (k / 524288) || (match fieldAt k with
    | some r => r.kept
    | none => false)

/-- What a warm reset leaves of a head (R245, R246, R251, R254): its admission, pins, configuration space, event logs and decoders, and the
mailbox's interrupt enables; mailbox commands end unanswered. A head caught FENCING has its fence-complete still owed. -/
def HeadSt.warm (x : HeadSt) (owed : Bool) : HeadSt :=
  { x with
    ptmMiss := 0, ptmOut := false, spdm := false, fenceOwed := owed, detectHold := false, ptmDue := false
    ideUp := false, ioStreams := x.ioStreams.map fun (y : IoStream) => { y with state := 0 }
    waiting := []
    mbox := { doorbellIrq := x.mbox.doorbellIrq, bgIrq := x.mbox.bgIrq } }

/-- The state of a head after the reset (R251): FENCED stays, FENCING becomes FENCED, and every other head built restarts at
TRAINING. In the one-head division a fence leads back to TRAINING (R256). -/
def Ctl.warmState (c : Ctl) (h : Head) : Nat :=
  if c.hstate h = 6 then 6 else if c.fenced h && c.twoHeads then 5 else 1

/-- The main and Keeper domains reset (R337): registers by their tables, and beside them what the always-on, refresh-timer and
auxiliary domains hold. The SQ tails and CQ heads that doorbells have written are kept with the rings they belong to: the spec names ENABLE
and the SQ head alone (DESIGN CHOICE, notes/assumptions/122.md). -/
def Ctl.mainReset (c : Ctl) : Ctl :=
  let kept := c.regs.filter fun (e : Nat × Nat) => warmKeeps e.1
  let c1 : Ctl := { c with
    regs := kept, eff := kept, snap := [], claims := [], stkPend := false, snapPend := false
    hdA := c.hdA.warm (decide (c.hstate .a = 4))
    hdB := c.hdB.warm (decide (c.hstate .b = 4))
    kpr := { phase := 1, slotA := c.kpr.slotA, slotB := c.kpr.slotB, nmiHeld := c.kpr.nmiHeld }
    job := { rings := c.job.rings.map fun (e : Nat × RingSt) => (e.1, { sqTail := e.2.sqTail, cqHead := e.2.cqHead }) }
    dec := {}
    stx := { entries := c.stx.entries, sections := c.stx.sections }
    stk := { failing := c.stk.failing, switched := c.stk.switched, lanePos := c.stk.lanePos, laneBad := c.stk.laneBad,
             feedsOpen := c.stk.feedsOpen, selfRef := 2, srcPark := c.stk.srcPark, canarySkip := c.stk.canarySkip }
    ecc := { c.ecc with merges := [] }
    frg := {}
    sea := { c.sea with dirty := [], cached := [], sealing := [], unseals := [], holdGran := [] }
    qos := {}
    clk := {}
    cal := { sel := c.cal.sel, legs := c.cal.legs, written := c.cal.written, sramFuse := c.cal.sramFuse, sramSoft := c.cal.sramSoft } }
  (bothHeads.foldl (fun (c' : Ctl) h => c'.set (R.HD_STATE_STATE h.num) (c.warmState h)) c1).openGates

/-- A flash record write in progress is cut, as at every Keeper reset (R289), and the links end (R283, R339). -/
def Ctl.quiesceEnd (c : Ctl) : Ctl :=
  let c0 := (List.range 16).foldl (fun (c : Ctl) n => c.set (R.PHYL_SCAN_CTL_ABORTED n) 0) c.cutFlashWrite
  let c1 := (c0.stopLoop.linkLost .a).linkLost .b
  let c2 := c1.mainReset
  let us := min 0xFFFF ((c.clock - c.rst.quiesceAt) / 1000)
  let c3 := (c2.set R.RST_QUIESCE_TIME_US us).set R.RST_QUIESCE_FORCED (bit (decide (c.rst.quiesce = 2)))
  let c4 := (c3.judgeRegions.loadShadows.set R.RST_BOOT_STATUS_ATTEMPTS 0).set R.RST_BOOT_INFO_FUSE_MARGINAL (bit (!c3.fus.marginal.isEmpty))
  let c5 := ((c4.set R.RST_BOOT_INFO_FALLBACK 0).set R.RST_BOOT_INFO_KEPT 0).set R.RST_BOOT_INFO_TORN 0
  ({ c5 with rst := { c5.rst with quiesce := 0, startedAt := c.rst.quiesceAt, fails := 0, warm := true } }).toStep 4

/-- QUIESCE_COMPLETE (R339): the reset of the main and Keeper domains, `t` ns from the reset decision within the bound of
431 us once the dies are in self-refresh, or 510 us from it when the quiesce was forced; the warm start begins. -/
def quiesceComplete (t : Nat) (c : Ctl) : Ctl :=
  if c.rst.quiesce = 1 ∧ c.stk.selfRef = 2 then (c.passTo (c.rst.quiesceAt + min t 431000)).quiesceEnd
  else if c.rst.quiesce = 2 then (c.passTo (c.rst.quiesceAt + 510000)).quiesceEnd
  else c

def execQuiesceComplete (t : Nat) (s : State) : Host.Outcome State Fault Refusal := .next (s.mapCtl (quiesceComplete t))

/-! ## The retirement record and the layout -/

/-- The entries of the retirement record in flash (R395). -/
def Ctl.recordEntries (c : Ctl) : List RetEntry := match c.record 5 with
  | some b => (List.range (min 64 (le b 0 4))).map fun i =>
      ⟨le b (4 + 16 * i) 1, le b (5 + 16 * i) 1, le b (6 + 16 * i) 1, le b (12 + 16 * i) 8⟩
  | none => []

/-- The record names a die, or a channel or its die (R187). -/
def namesDie (l : List RetEntry) (d : Nat) : Bool := l.any fun e => decide (e.kind = 0) && decide (e.unit = d)
def namesChan (l : List RetEntry) (ch : Nat) : Bool :=
  namesDie l (ch / 4) || l.any fun e => decide (e.kind = 1) && decide (e.unit = ch)

/-- Capability 0x0020 is present (R24, R359): the KEY region passed, and the state is MANUFACTURE or DEPLOYED. -/
def Ctl.sealPresent (c : Ctl) : Bool :=
  c.flag R.IDC_OTP_ID_SEAL_KEYS && (decide (c.lcState = 1) || decide (c.lcState = 2))

/-- A flash record of a kind stands in flash and is not usable. -/
def Ctl.recordBad (c : Ctl) (kind : Nat) : Bool := c.sbp.recs.any fun r => decide (r.kind = kind) && !c.usable r

/-- The seal budget of the start (R50, R193), with fault 556 for a record that fails its check. -/
def Ctl.startBudget (c : Ctl) : Nat × Ctl :=
  if !c.sealPresent then (0, c)
  else match c.record 4 with
    | some b => (min (le b 0 1) c.maxBudget, c)
    | none => (c.maxBudget, if c.recordBad 4 then c.fault 556 0 else c)

/-- T(B) of R49, in MiB. -/
def treeMiB (b : Nat) : Nat := if b = 0 then 0 else 2 ^ ((List.range 8).find? fun k => decide (b * 2336 ≤ 1024 * 2 ^ k)).getD 7

/-- The layout of R48 to R51 for a seal budget, and the granules of the user region (R60). -/
def Ctl.setLayout (c : Ctl) (b : Nat) : Ctl :=
  let stx := match c.part with
    | .rc4812 => 44512 * 16
    | .rc3208 => 28096 * 16
  let tree := stx - 16 * treeMiB b
  let ctr := tree - 256 * b
  let tag := ctr - 2048 * b
  let c1 := (((c.set R.MAP_LAYOUT_SEAL_BUDGET b).set R.MAP_TAG_BASE_GRAN tag).set R.MAP_CTR_BASE_GRAN ctr).set
    R.MAP_TREE_BASE_GRAN tree
  let c2 := (((c1.set R.MAP_STX_BASE_GRAN stx).set R.MAP_KPR_BASE_GRAN (stx + 4096)).set R.MAP_SLACK_BASE_GRAN
    (stx + 8192)).set R.MAP_MAPPED_END_GRAN (match c.part with
      | .rc4812 => 0xAFFF8
      | .rc3208 => 0x70000)
  let mib := tag / 16
  let c3 := (List.range 64).foldl (fun c n => (c.set (R.MAP_GRAN_PRESENT n) (bit (decide (1024 * n < mib)))).set
    (R.MAP_GRAN_SIZE_MIB n) (min 1024 (mib - 1024 * n))) c2
  let forced := maskOf 8 fun n => decide (n = 7) || decide (tag * 65536 < (c3.segment n).2)
  (c3.set R.IDC_USER_MIB_USER_MIB mib).set R.STK_PASR_MASK_FORCED forced

/-- The masks of the linear map in the order of the map record (R54, R302). -/
def mapMasks : List Fld :=
  [R.MAP_LANE_XOR0_MASK, R.MAP_LANE_XOR1_MASK, R.MAP_CH_XOR0_MASK, R.MAP_CH_XOR1_MASK, R.MAP_BG_XOR0_MASK, R.MAP_BG_XOR1_MASK,
   R.MAP_BANK_XOR0_MASK, R.MAP_BANK_XOR1_MASK, R.MAP_TIER_XOR_MASK]

/-- The linear map of the start (R54): from the map record, or the reset values, with fault 578 for a record that is ignored. -/
def Ctl.setMap (c : Ctl) : Ctl := match c.record 3 with
  | none => if c.recordBad 3 then c.fault 578 0 else c
  | some b =>
    if 3 < le b 0 1 then c.fault 578 0
    else
      let c1 := (c.set R.MAP_LIN_CFG_RECORD 1).set R.MAP_LIN_CFG_TIER_SHIFT (le b 0 1)
      (List.range 9).foldl (fun c i => match mapMasks[i]? with
        | some f => if i = 8 ∧ c.part = .rc4812 then c else c.set f (le b (3 + 2 * i) 2)
        | none => c) c1

/-- One entry of the retirement record applied (R186): the first loss binds the reserve, a placed one removes its granules, one
not absorbed leaves its rows unplaced; the feeds of a retired die stay open. -/
def Ctl.applyEntry (c : Ctl) (e : RetEntry) : Ctl :=
  let c1 := c.setRetired e.kind e.unit
  let c2 := if e.kind = 0 then c1.openFeeds e.unit else c1
  if e.second = 0 then
    (c2.set R.MAP_LAYOUT_RES_BOUND 1).set R.MAP_LAYOUT_RES_DIE (if e.kind = 0 then e.unit else e.unit / 4)
  else if e.second = 1 then
    let c3 := ((List.range 64).filter (tb e.mask)).foldl Ctl.removeGranule c2
    { c3 with ecc.placed := c3.ecc.placed ++ [c1.placedNow e] }
  else { c2 with ecc.unplaced := (e.kind, e.unit) :: c2.ecc.unplaced }

/-- The health state and reason that an entry gives (R188). -/
def RetEntry.health (e : RetEntry) : Nat × Nat :=
  if e.second = 0 then (1, if e.kind = 0 then 1 else 3) else if e.second = 1 then (2, 5) else (3, 7)

/-- The retirement record applied (R186, R188). -/
def Ctl.applyRecord (c : Ctl) : Ctl :=
  let l := c.recordEntries
  let c1 := l.foldl Ctl.applyEntry { c with ecc.entries := l }
  let c2 := l.foldl (fun c e => c.raiseHealth e.health.1 e.health.2) c1
  c2.set R.ECC_HEALTH_GRAN_REMOVED (popCount 64 (maskOf 64 fun n => c2.flag (R.MAP_GRAN_LOST n)))

/-- A unit that the start finds lost is retired before any data are written (R43, R186): no migration runs for it. -/
def Ctl.retireAtStart (c : Ctl) (k : RetCause) : Ctl :=
  let c1 := { c.retire k with ecc.moves := [] }.set R.ECC_MIG_ACTIVE 0
  if k.kind = 0 then c1.openFeeds k.unit else c1

/-! ## TSV_TRAINING_DONE (R36, R37, R42, R43) -/

/-- Every group without a repair (R42). -/
def Ctl.initRepairs (c : Ctl) : Ctl :=
  let c1 := (List.range c.nch).foldl (fun c ch => ((c.set (R.TSV_CH_REPAIR_SKIP0 ch) 0x3F).set (R.TSV_CH_REPAIR_SKIP1 ch)
    0x3F).set (R.TSV_CH_REPAIR_SPARES_LEFT ch) 2) c
  (List.range 32).foldl (fun c g => c.set (R.ROWL_GRP_STATUS_SPARES_LEFT (g / 8) (g % 8)) 16) c1

/-- A group that needs more repairs than it has spares: its channel or lane is retired (R41, R43). -/
def Ctl.loseUnit (c : Ctl) (unit : Nat) : Ctl :=
  if unit < 48 then c.addCause ⟨3, 1, unit, false⟩ else c.addCause ⟨4, 2, (unit - 48) / 8, false⟩

/-- A failed position of a unit (a channel, or 48 + 8 * lane + group) repaired from the fuses. -/
def Ctl.fuseRepair (c : Ctl) (u : Nat × Nat) : Ctl :=
  if c.mayFail u = false then c
  else if u.1 < 48 then
    (if c.get (R.TSV_CH_REPAIR_SPARES_LEFT u.1) = 0 then c.loseUnit u.1 else c.recordColRepair u.1 u.2 1)
  else
    let l := (u.1 - 48) / 8
    let g := (u.1 - 48) % 8
    if c.get (R.ROWL_GRP_STATUS_SPARES_LEFT l g) = 0 then c.loseUnit u.1
    else ({ c with stk.laneBad := c.stk.laneBad ++ [u] }.bump (R.ROWL_GRP_STATUS_FUSE_REP l g)).set (R.ROWL_GRP_STATUS_SPARES_LEFT l g)
      (c.get (R.ROWL_GRP_STATUS_SPARES_LEFT l g) - 1)

/-- The repairs of a usable, programmed word of the REPAIR region (R349, R352). -/
def Ctl.repairsOf (c : Ctl) (unit a : Nat) : List (Nat × Nat) :=
  let w := otpWord c.fus.shadow a
  if c.fuseUsable R.FUS_REGION_STAT_REPAIR a && decide (w ≠ 0) then (Config.repairPositions w).map fun p => (unit, p) else []

/-- The fuse repairs (R37, R43 step 2). -/
def Ctl.fuseRepairs (c : Ctl) : Ctl :=
  let cols := (List.range c.nch).flatMap fun ch => c.repairsOf ch (0x200 + ch)
  let lanes := (List.range 256).flatMap fun i => c.repairsOf (48 + i / 8) (0x230 + i)
  (cols ++ lanes).foldl Ctl.fuseRepair c

/-- A position that training finds failing: a soft repair, or the loss of its unit. -/
def Ctl.trainRepair (c : Ctl) (u : Nat × Nat) : Ctl :=
  if c.mayFail u = false then c else if c.sparesOf u = 0 then c.loseUnit u.1 else c.softRepair u

/-- The losses of a training can be absorbed (R43, R190): retired over the layout and the record of this start, none is left
unplaced. -/
def Ctl.absorbs (c : Ctl) : Bool :=
  let c1 := (c.setLayout c.startBudget.1).setMap.applyRecord
  decide ((c.ecc.causes.foldl Ctl.retireAtStart c1).ecc.unplaced.length = c1.ecc.unplaced.length)

/-- A repair that a warm reset left pending (R42): reported as found in service. -/
def Ctl.pendingRepair (c : Ctl) (u : Nat × Nat) : Ctl :=
  let l := (u.1 - 48) / 8
  let g := (u.1 - 48) % 8
  if u.2 = retryPos then c
  else if c.sparesFor u.1 = 0 then c.loseUnit u.1
  else (if u.1 < 48 then c.recordColRepair u.1 u.2 3 else c.recordLaneRepair l g u.2).fault (144 + u.1) u.2

/-- A repair of step 8 fails its continuity test or retrain at the restart (R39, R42): the position taken over is recorded as failed, and
the repair is retried in a window; without a spare the unit is lost (R41). -/
def Ctl.takenOver (c : Ctl) (u : Nat × Nat) : Ctl :=
  if validPosition u.1 u.2 = false ∨ (c.failedPositions u.1).contains u.2 = true then c
  else if c.sparesFor u.1 = 0 then c.loseUnit u.1
  else
    let c1 := if u.1 < 48 then c.recordColRepair u.1 u.2 3 else c.recordLaneRepair ((u.1 - 48) / 8) ((u.1 - 48) % 8) u.2
    { c1 with stk.repairs := c1.stk.repairs ++ [RepairSt.mk u.1 retryPos 0 0] }

/-- TSV_TRAINING_DONE (R42, R43, R187): step 8 ends after `dt` ns within its bound. At a power-on start `feeds` are the dies whose
feed failed its check, `pairOpen` tells of a command, address or clock signal with both TSVs open, and `found` lists the failing
positions by unit; a failure that R43 names ends the attempt with cause 0x09. At a warm start the pending repairs are made. -/
def execTsvTrainingDone (feeds : List Nat) (pairOpen : Bool) (found : List (Nat × Nat)) (dt : Nat) (s : State) :
    Host.Outcome State Fault Refusal :=
  if s.ctl.rst.awaiting ≠ 6 then .next s
  else if s.ctl.rst.warm then
    .next (s.mapCtl fun c =>
      let c1 := c.pass (min dt 200000)
      let c2 := c1.stk.failing.foldl Ctl.pendingRepair { c1 with stk.switched := [] }
      ((found.filter fun u => c1.stk.failing.any fun f => decide (f.1 = u.1)).foldl Ctl.takenOver { c2 with stk.failing := [] }).toStep 7)
  else
    let c := s.ctl
    let l := c.recordEntries
    let dies := ((List.range c.nd).filter fun d => feeds.contains d && !namesDie l d)
    let bound := match c.part with
      | .rc4812 => 1970000
      | .rc3208 => 1470000
    let tooMany := match c.part with
      | .rc4812 => decide (2 ≤ dies.length)
      | .rc3208 => !dies.isEmpty
    let c0 := dies.foldl (fun c d => c.addCause ⟨2, 0, d, false⟩) (c.pass (min dt bound))
    let c1 := c0.initRepairs.fuseRepairs
    let seen := found.filter fun u => (decide (48 ≤ u.1) && decide (u.1 < 80)) ||
      (decide (u.1 < c.nch) && !namesChan l u.1 && !dies.contains (u.1 / 4))
    let c2 := seen.foldl Ctl.trainRepair c1
    if tooMany || pairOpen || !c2.absorbs then .next (s.startFail 9) else .next { s with ctl := c2.toStep 7 }

/-! ## STACK_BRINGUP_DONE (R341, R343) -/

/-- The capability chain of R21 and R24: identifier, first byte, length of the body, and whether it is present. -/
def Ctl.caps (c : Ctl) : List (Nat × Nat × Nat × Bool) :=
  [(0x0001, 0x0000, 62, true), (0x0010, 0x0100, 14, true), (0x0011, 0x0140, 6, true), (0x0020, 0x0180, 14, c.sealPresent),
   (0x0030, 0x01C0, 14, true), (0x0040, 0x0200, 14, c.twoHeads), (0x0050, 0x0240, 14, true), (0x0060, 0x0280, 2, c.compat)]

/-- One header of the chain written: capability version 1. -/
def Ctl.writeCap (c : Ctl) (id off dw next : Nat) : Ctl :=
  (((c.set ⟨8 * off + 16, 16, 0⟩ id).set ⟨8 * off + 12, 4, 0⟩ 1).set ⟨8 * off, 12, 0⟩ dw).set ⟨8 * off + 32, 24, 0⟩ next

/-- The headers of a list of present capabilities, each NEXT naming the following one. -/
def Ctl.writeCaps (c : Ctl) : List (Nat × Nat × Nat × Bool) → Ctl
  | [] => c
  | e :: t => (c.writeCap e.1 e.2.1 e.2.2.1 ((t.head?.map fun n => n.2.1).getD 0)).writeCaps t

/-- The chain built (R21, R24). -/
def Ctl.buildChain (c : Ctl) : Ctl := c.writeCaps (c.caps.filter fun e => e.2.2.2)

/-- RC-1604 compatibility mode from its record (R25, R302, R410). -/
def Ctl.setCompat (c : Ctl) : Ctl :=
  let on := bit (decide (le ((c.record 2).getD []) 0 1 = 1))
  ((c.set R.IDC_PART_ID_COMPAT_1604 on).set R.IDC_COMPAT_CLK_COAST on).set R.IDC_COMPAT_ERRN_LATCH on

/-- The entries of a calibration record (R396). -/
def calEntries (b : Bytes) : List CalItem := (List.range (min 8192 (le b 2 2))).map fun i =>
  let v := le b (4 + 4 * i) 4
  ⟨v / 4096 % 16, v % 4096, v / 65536⟩

/-- The elements of a die that the CAL region may supply (R349): its regulators and its thermal model. -/
def otpElements : List (Nat × Nat) := ((List.range 4).map fun i => (2, i)) ++ (List.range 12).map fun i => (4, i)

/-- The phase maps of a die that a record or OTP gives bring their spare phases into use (R44). -/
def Ctl.loadPhases (c : Ctl) (d : Nat) : Ctl :=
  let given := [2, 3].filter fun i => (((mapGet c.cal.sel d).getD []).any fun x => decide (x.cls = 2) && decide (x.item = i)) ||
    (c.calFallback d 2 i).1
  c.usePhases d (given.map fun i => CalItem.mk 2 i (c.calInForce d 2 i))

/-- A die's calibration loaded (R361, R364, R396): what its record gives is in force, and every other value comes from the next source
(`Ctl.calInForce`, `Ctl.param`). Without a usable record T_CAL, which the spec does not state then, is a free value, and SOURCE is OTP when
any value of the die comes from there (DESIGN CHOICE, notes/assumptions/129.md). -/
def Ctl.loadCal (c : Ctl) (d : Nat) : Ctl := match c.record (16 + d) with
  | some b =>
    let l := calEntries b
    let model := (l.filter fun x => decide (x.cls = 4)).map fun x =>
      ((d, x.item), if 3 ≤ x.item then signedOf 16 x.value else (x.value : Int))
    let c1 := { c with
      cal.sel := mapPut c.cal.sel d (l.filter fun x => decide (x.cls < 3))
      thm.params := model ++ c.thm.params }
    ((c1.loadPhases d).set (R.CAL_DIE_T_CAL d) (le b 0 2)).set (R.CAL_DIE_SOURCE d) 2
  | none =>
    let otp := otpElements.any fun e => (c.calFallback d e.1 e.2).1
    let (v, c1) := (c.loadPhases d).measure
    (c1.set (R.CAL_DIE_T_CAL d) v).set (R.CAL_DIE_SOURCE d) (bit otp)

/-- The PHY legs of the base record (R396); those it lacks come from the next source (`Ctl.phyLeg`). -/
def Ctl.loadLegs (c : Ctl) : Ctl :=
  { c with cal.legs := ((c.record 8).map fun b => (calEntries b).filter fun x => decide (x.cls = 3)).getD [] }

/-- The thermal model at a power-on start (R314, R315): each die starts at its hottest valid reading, or at foot_mean. -/
def Ctl.startModel (c : Ctl) (d : Nat) : Ctl :=
  let hot := maxOf (((List.range 8).filter fun i => c.flag (R.THM_SENS_VALID (8 * d + i))).map fun i => c.sensTemp (8 * d + i))
  let t : Rat := if c.dieOpen d then c.footMean else (hot.map fun v => (v : Rat) / 4).getD c.footMean
  ({ c with thm.t := mapPut c.thm.t d t }.set (R.THM_CANARY_CANARY_TEMP d) (toS16 (c.param d 3))).set (R.THM_DIE_MODEL d)
    (toS16 (quarters t))

/-- The ERR_N pin is let go when its pulse is over and nothing holds it: no hard trip, in compatibility mode no source that
asserted it and is not acknowledged, else no pulse that ended with HOLD 1 and waits for RELEASE (R377). -/
def Ctl.judgeErrN (c : Ctl) : Ctl :=
  let kept := if c.flag R.IDC_COMPAT_ERRN_LATCH then c.flt.errnBy.any c.srcPending else c.flt.held
  if c.flag R.FLT_STATUS_ERRN && !(c.flt.tripHold || c.flt.pulseEnd.isSome || kept) then
    ({ c with flt.errnBy := [], flt.released := false, flt.held := false }.set R.FLT_STATUS_ERRN 0).emit (.errN false)
  else c

/-- An event kept for a head until its link trains. -/
def Ctl.owe (c : Ctl) (e : OwedEvent) : Ctl :=
  c.forHeads fun h c => if c.hstate h = 6 then c else c.modHd h fun x => { x with onTrain := x.onTrain ++ [e] }

/-- The log that a health state's record goes to. -/
def healthLog (state : Nat) : Nat := if state = 1 then logWarn else if state = 2 then logFail else logFatal

/-- Bring-up at a power-on start (R343): layout, map, retirements, chain, stripe table, calibration, the thermal model, and what is
owed to the heads: the health record of R188, THERMAL_RESUMED of R320, and source 611 for a hard trip. -/
def Ctl.powerBringup (c : Ctl) : Ctl :=
  let (b, c1) := c.startBudget
  let c2 := (List.range 4).foldl (fun c l => c.setLaneState l 1) ((c1.setLayout b).setMap.applyRecord)
  let c3 := (c2.ecc.causes.foldl Ctl.retireAtStart { c2 with ecc.causes := [] }).setCompat.buildChain
  let c4 := { c3 with
    stx := {}
    sea.kTree := c3.sea.draws
    sea.draws := c3.sea.draws + 1 }.set R.STX_FREE_CNT_FREE ctxCount
  let c5 := ((List.range c4.nd).foldl Ctl.loadCal c4).loadLegs
  let c6 := ((List.range c5.nd).foldl Ctl.startModel c5).showTemps
  let c7 := if c6.get R.ECC_HEALTH_STATE = 0 then c6 else
    c6.owe ⟨healthLog (c6.get R.ECC_HEALTH_STATE), c6.get R.ECC_HEALTH_REASON, maskOf 64 fun n => c6.flag (R.MAP_GRAN_LOST n),
      c6.get R.ECC_HEALTH_GRAN_REMOVED⟩
  let origin := c7.get R.RST_BOOT_INFO_ORIGIN
  let c8 := if origin = 3 ∨ origin = 4 then c7.owe ⟨logInfo, 0x0406, 2 ^ 24, 0⟩ else c7
  let c9 := if c8.rst.tripped then { c8 with rst.tripped := false }.fault 611 (c8.sbp.trip / 2 ^ 24 % 16) else c8
  { c9 with flt.tripHold := false }.judgeErrN

/-- The staged mire records moved into the log (R177). -/
def Ctl.drainMires (c : Ctl) : Ctl :=
  let log := c.ecc.log ++ c.ecc.staging
  { c with ecc.log := log.drop (log.length - 1048576), ecc.staging := [] }

/-- A line named by the torn-line log (R341): mired with cause 0x04 and source 5, its record straight in the mire log. -/
def State.tearLine (s : State) (sa : Nat) : State :=
  (s.storeMired sa 4).mapCtl fun c =>
    let r : MireRec := ⟨c.get R.ECC_MIRE_SEQ_NEXT, sa / 64, 4, 5, c.now⟩
    let c1 := { c with ecc.log := (c.ecc.log ++ [r]).drop ((c.ecc.log ++ [r]).length - 1048576) }.set R.ECC_MIRE_SEQ_NEXT
      (c.get R.ECC_MIRE_SEQ_NEXT + 1)
    let c2 := c1.lineFault (48 + (c1.place sa).chan) sa
    if c2.inStripeTable sa then c2.loseCtx ((sa - c2.ctxAddr 0) / 64) else c2

/-- Context sections whose bit is still set (R146): every entry LOST. -/
def Ctl.loseSections (c : Ctl) : Ctl :=
  let c1 := c.stx.sections.foldl (fun c t => (List.range 1024).foldl (fun c i =>
    if c.ctxEntry (1024 * t + i) = .lost then c.bump R.STX_LOST_CNT_LOST else c.loseCtx (1024 * t + i)) c) c
  { c1 with stx.sections := [] }

/-- Sealed granules at a warm restart (R217): unflushed and SEALING granules are UNVERIFIABLE, erases complete. -/
def Ctl.judgeSealed (c : Ctl) : Ctl :=
  let dirty := c.get R.SEA_DIRTY_MAP_DIRTY
  let c1 := (List.range 64).foldl (fun c g =>
    let st := c.get (R.SEA_GRAN_STATE g)
    if (st = 2 ∧ tb dirty g = true) ∨ st = 1 then
      { c with sea.unv := c.sea.unv.filter fun u => decide (u.gran ≠ g) }.set (R.SEA_GRAN_STATE g) 3 else c) c.applyToUnv
  ((c1.sea.erasing.foldl (fun c e => c.zeroise e.1) c1).set R.SEA_DIRTY_MAP_DIRTY 0).eraseGranules

/-- Every die leaves self-refresh (R166, R303), unless a thermal shutdown keeps it there (R322); a host park ends. -/
def State.warmDies (s : State) : State :=
  let parked := decide (s.ctl.stk.srcPark = 1) || decide (s.ctl.stk.srcPark = 3)
  let s1 := if s.ctl.get R.THM_STATUS_STAGE = 4 then
      s.mapCtl fun c => { c with thm.shutStep := max 2 c.thm.shutStep }
    else
      let s2 := s.mapCtl fun c => { c.windowOnAll with stk.selfRef := 0 }.set R.STK_SR_STAT_IN_SR 0
      s2.dropSegments (s2.ctl.get R.STK_SR_STAT_DROPPED)
  s1.mapCtl fun c =>
    let c1 := { c with stk.srcPark := 0 }.set R.IDC_KPR_STAT_PARKED 0
    if parked then c1.owe ⟨logInfo, 0x0304, 0, 0⟩ else c1

/-- The fence-complete of a head whose fence the reset ended (R251). -/
def Ctl.endOwedFence (h : Head) (c : Ctl) : Ctl :=
  if (c.hd h).fenceOwed then
    ((c.set (R.HD_FENCE_TIME_TIME h.num) c.now).modHd h fun x => { x with fenceOwed := false }).eventOther h logWarn 0x0104
  else c

/-- Bring-up at a warm start (R341, R343). -/
def State.warmBringup (s : State) : State :=
  let torn := s.ctl.rst.torn
  let n := torn.length
  let s0 := s.mapCtl Ctl.drainMires
  let s1 := torn.foldl (fun st e => (List.range e.2).foldl (fun st i => st.tearLine (e.1 + 64 * i)) st) s0
  let s2 := (s1.mapCtl fun c => c.loseSections.judgeSealed).warmDies
  s2.mapCtl fun c =>
    let c1 := (({ c with rst.torn := [] }.set R.RST_QUIESCE_TORN n).set R.RST_BOOT_INFO_TORN (bit (decide (n ≠ 0)))).set
      R.RST_BOOT_INFO_KEPT (bit (!c.flag R.THM_STATUS_POWER_DOWN))
    let c2 := (c1.buildChain.forHeads Ctl.endOwedFence).owe ⟨logInfo, 0x0504, c.get R.RST_BOOT_INFO_ORIGIN + n * 2 ^ 32, 0⟩
    if n = 0 then c2 else c2.fault 633 n

/-- The start is complete (R232, R284, R342, R345): QOS_SUSTAIN is set, the lanes enter Detect, and a warm reset that was held begins. -/
def Ctl.startComplete (c : Ctl) : Ctl :=
  let ms := min 0xFFFF ((c.clock - c.rst.startedAt) / 1000000)
  let c1 := ({ c with rst := { c.rst with
    fails := 0, warm := false, warmReq := c.rst.heldReq, warmAt := c.clock, heldReq := none } }.toStep 8).set
      R.RST_BOOT_INFO_LAST_MS ms
  ((c1.setSustain.set R.RST_BOOT_STATUS_PHASE 2).judgeLanes .a).judgeLanes .b

/-- STACK_BRINGUP_DONE (R343, R344): step 9 ends after `dt` ns within its bound; a die that fails its initialisation (`bad`)
fails the attempt with cause 0x0A. -/
def execStackBringupDone (bad : Bool) (dt : Nat) (s : State) : Host.Outcome State Fault Refusal :=
  if s.ctl.rst.awaiting ≠ 7 then .next s
  else if bad then .next (s.startFail 0x0A)
  else
    let s1 := s.mapCtl fun c => c.pass (min dt (if c.rst.warm then 3000000 else 5000000))
    .next ((if s1.ctl.rst.warm then s1.warmBringup else s1.mapCtl Ctl.powerBringup).mapCtl Ctl.startComplete)

end Sys2Proof.Machine
end

