-- ==== Sys2Proof/Machine/Collector.lean ====
section
/-! DEFINITION. The fault collector's commands and timers (chapter 17): acknowledgement, the fault log, the ERR_N pin, and the
end of a comb-engine block reset (R375 to R377, R381, R382). -/

namespace Sys2Proof.Machine

/-! ## Acknowledgement (R376, R377, R382) -/

/-- The pending bit of a source cleared, without a judgement of the pin. -/
def Ctl.clearSource (c : Ctl) (n : Nat) : Ctl :=
  c.set (R.FLT_PEND_PEND (n / 32)) (clrBit (c.get (R.FLT_PEND_PEND (n / 32))) (n % 32))

/-- The latest occurrence of a source was routed to a head, or to none (R382). -/
def Ctl.mayAck (c : Ctl) (h : Head) (n : Nat) : Bool :=
  let r := (mapGet c.flt.routed n).getD 0
  decide (r = 0) || tb r h.num

/-- FAULT_ACK run (R382): a named source, or every source that the requester may acknowledge. -/
def faultAckRun (h : Head) (p : Bytes) (c : Ctl) : Ctl :=
  let n := le p 0 2
  if n = 0xFFFF then
    let l := (List.range 640).filter fun n => c.srcPending n && c.mayAck h n
    (l.foldl Ctl.clearSource c).judgeErrN.finish h 0xC191 .ok []
  else if 639 < n then c.finish h 0xC191 .invalidParameter []
  else if !c.srcPending n then c.finish h 0xC191 .ok []
  else if c.mayAck h n then (c.clearSource n).judgeErrN.finish h 0xC191 .ok []
  else c.finish h 0xC191 .invalidParameter []

def faultAck (h : Head) (p : Bytes) (c : Ctl) : Ctl := c.ocs h 0xC191 { min := 2 } p (faultAckRun h p)

def execFaultAck (h : Head) (p : Bytes) (s : State) : Host.Outcome State Fault Refusal := .next (s.mapCtl (faultAck h p))

/-! ## FAULT_LOG_READ (R381, R382) -/

/-- Records a FAULT_LOG_READ returns at most. -/
def faultRecordsPerRead : Nat := 127

/-- FAULT_LOG_READ run (R382): sequence numbers compare modulo 2^32; a number not yet written returns no record, and one that
the log holds no longer starts at the oldest record. -/
def faultLogReadRun (h : Head) (p : Bytes) (c : Ctl) : Ctl :=
  let next := c.get R.FLT_LOG_SEQ_NEXT
  let log := c.flt.log.reverse
  let first := le p 0 4
  let out := if (first + 2 ^ 32 - next) % 2 ^ 32 < 2 ^ 31 then toLE 4 next ++ toLE 4 next ++ toLE 8 0
    else
      let held := log.dropWhile fun r => decide (r.seq ≠ first)
      let recs := (if held.isEmpty then log else held).take (min faultRecordsPerRead (le p 4 2))
      let start := if held.isEmpty then (match log with
          | r :: _ => r.seq
          | [] => next) else first
      toLE 4 start ++ toLE 4 next ++ toLE 8 0 ++ recs.flatMap FltRec.encode
  c.finish h 0xC190 .ok out

def faultLogRead (h : Head) (p : Bytes) (c : Ctl) : Ctl := c.ocs h 0xC190 { min := 6 } p (faultLogReadRun h p)

def execFaultLogRead (h : Head) (p : Bytes) (s : State) : Host.Outcome State Fault Refusal :=
  .next (s.mapCtl (faultLogRead h p))

/-! ## The ERR_N pin (R377) -/

/-- RELEASE written 1 (R377): the pin is let go, at the end of its pulse at the earliest; in compatibility mode a release has
no effect. -/
def Ctl.errnRelease (c : Ctl) : Ctl :=
  if c.flag R.IDC_COMPAT_ERRN_LATCH || !c.flag R.FLT_STATUS_ERRN then c
  else { c with flt.released := true, flt.held := false }.judgeErrN

/-- ERRN_PULSE_END (R377): the pulse ends, and the pin is let go unless something holds it. -/
def errnPulseEnd (c : Ctl) : Ctl := match c.flt.pulseEnd with
  | some t =>
    let c1 := c.passTo t
    { c1 with flt.pulseEnd := none, flt.held := c1.flag R.FLT_ERRN_HOLD && !c1.flt.released }.judgeErrN
  | none => c

def execErrnPulseEnd (s : State) : Host.Outcome State Fault Refusal := .next (s.mapCtl errnPulseEnd)

/-! ## CMB_DISPATCH_RESUME (R375) -/

/-- CMB_DISPATCH_RESUME (R375): 100 us after a comb-engine block reset, dispatch resumes. -/
def cmbDispatchResume (c : Ctl) : Ctl :=
  if c.job.stopped then
    let c1 := c.passTo (c.job.stopAt + 100000)
    { c1 with job.stopped := false }
  else c

def execCmbDispatchResume (s : State) : Host.Outcome State Fault Refusal := .next (s.mapCtl cmbDispatchResume)

end Sys2Proof.Machine
end

