-- ==== Sys2Proof/Machine/Sideband.lean ====
section
/-! DEFINITION. The two-wire sideband and the flash (chapter 18): the sideband space, write and read transactions, the releases of
R388, the fuse window, the FRU commands, and the end of a flash record write (R384 to R398). -/

namespace Sys2Proof.Machine

/-! ## The sideband space (R390, R391) -/

/-- The fuse window is open: a BLANK part that has stopped at step 7 (R359, R391). -/
def Ctl.winOpen (c : Ctl) : Bool :=
  decide (c.rst.awaiting = 10) && decide (c.get R.RST_BOOT_STATUS_STEP = 7) && decide (otpWord c.fus.shadow 0 = 0) &&
    !c.flag R.THM_STATUS_POWER_DOWN

/-- A byte of the fuse window. -/
def Ctl.winByte (c : Ctl) (i : Nat) : Nat := (mapGet c.sbp.win i).getD 0

/-- A mirror word (R390): live, or the last value while its source is in reset; the thermal mirrors go on after a hard trip, and the bit
of ERR_N, whose pin the auxiliary domain drives, is always live (R377, R381). -/
def Ctl.mirrorWord (c : Ctl) (w : Nat) : Nat :=
  match mapGet c.mirrorThermal w with
  | some v => if c.inReset && decide (c.rst.awaiting ≠ 10) then (mapGet c.sbp.mirror w).getD 0 else v
  | none =>
    if c.inReset then
      let v := (mapGet c.sbp.mirror w).getD 0
      if w = 0x70 then v % 2 ^ 31 + 2 ^ 31 * c.get R.FLT_STATUS_ERRN else v
    else (mapGet c.mirrorRest w).getD 0

/-- A word of the sideband space (R390). -/
def Ctl.sbWord (c : Ctl) (w : Nat) : Nat :=
  if w = 0x04 then 1
  else if w = 0x10 then c.barWord 0x20010
  else if w = 0x14 then c.barWord 0x20014
  else if w = 0x60 then c.sbp.trip
  else if 0x200 ≤ w ∧ w < 0x220 then c.get (R.SBP_SCRATCH_DATA ((w - 0x200) / 4))
  else if 0x400 ≤ w ∧ w < 0x800 then le c.sbp.fru (w - 0x400) 4
  else if 0x1000 ≤ w ∧ w < 0x1020 then
    (if c.winOpen then (List.range 4).foldl (fun v i => v + c.winByte (w - 0x1000 + i) * 256 ^ i) 0 else 0)
  else c.mirrorWord w

/-- A byte of the sideband space. -/
def Ctl.sbByte (c : Ctl) (o : Nat) : BitVec 8 := BitVec.ofNat 8 (c.sbWord (o / 4 * 4) / 256 ^ (o % 4))

/-! ## Transactions (R385 to R389) -/

/-- SB_READ_TRANSACTION (R385, R387): `n` bytes from the pointer, which advances past them. -/
def sbRead (n : Nat) (c : Ctl) : Ctl :=
  if c.rst.vaux then
    let a := c.sbp.pointer
    { c with sbp.pointer := (a + n) % 65536 }.emit (.sideband a ((List.range n).map fun i => c.sbByte ((a + i) % 65536)))
  else c

def execSbReadTransaction (n : Nat) (s : State) : Host.Outcome State Fault Refusal := .next (s.mapCtl (sbRead n))

/-- The offsets that the data bytes of a write reach, in order: the pointer advances within its 32-byte page (R386). -/
def pageOffset (a i : Nat) : Nat := a / 32 * 32 + (a + i) % 32

/-- One data byte committed (R386, R390): a scratch byte, the clearing of TRIPPED, or a byte of the open fuse window; any other
is discarded. -/
def Ctl.sbPut (c : Ctl) (o : Nat) (b : BitVec 8) : Ctl :=
  if 0x200 ≤ o ∧ o < 0x220 then
    let f := R.SBP_SCRATCH_DATA ((o - 0x200) / 4)
    let old := c.get f / 256 ^ (o % 4) % 256
    c.set f (c.get f - old * 256 ^ (o % 4) + b.toNat * 256 ^ (o % 4))
  else if o = 0x63 ∧ b.toNat.testBit 7 = true then { c with sbp.trip := clrBit c.sbp.trip 31 }
  else if 0x1000 ≤ o ∧ o < 0x1010 ∧ c.winOpen = true then { c with sbp.win := mapPut c.sbp.win (o - 0x1000) b.toNat }
  else c

/-- The command of the fuse window carried out (R391): its OCS code and the state; `stuck` are bits that will not blow. -/
def Ctl.winRun (c : Ctl) (stuck : Nat) : Nat × Ctl :=
  let p : Bytes := (List.range 12).map fun i => BitVec.ofNat 8 (c.winByte (4 + i))
  let code := fun (r : Bool × Ctl) => (if r.1 then Ocs.ok.num else Ocs.invalidParameter.num, r.2)
  match c.winByte 0 + 256 * c.winByte 1 with
  | 0xC181 => code (c.doProgram true (le p 0 2) (le p 4 4) stuck)
  | 0xC182 => code (c.doLock true (le p 0 1) stuck)
  | 0xC183 => code (c.doAdvance true (le p 0 1) false stuck)
  | _ => (Ocs.invalidParameter.num, c)

/-- A commit that wrote byte 0x1001 starts the command (R391), which ends with its status. -/
def Ctl.winStart (c : Ctl) (stuck : Nat) : Ctl :=
  let (k, c1) := c.winRun stuck
  { c1 with sbp.win := mapPut (mapPut c1.sbp.win 0x10 (k % 256)) 0x11 (k / 256) }

/-- SB_WRITE_TRANSACTION (R385, R386): the bytes after the address, ended by STOP or by a repeated START. -/
def sbWrite (p : Bytes) (stop : Bool) (stuck : Nat) (c : Ctl) : Ctl :=
  if c.rst.vaux = false ∨ p.length < 2 then c
  else
    let a := le p 0 2
    let d := p.drop 2
    if d.isEmpty ∨ stop = false then { c with sbp.pointer := a }
    else
      let offs := (List.range d.length).map (pageOffset a)
      let buffer := (offs.zip d).foldl (fun m e => mapPut m e.1 e.2) []
      let c1 := buffer.foldl (fun c e => c.sbPut e.1 e.2) c
      let c2 := { c1 with sbp.pointer := pageOffset a d.length }
      if c.winOpen = true ∧ offs.contains 0x1001 = true then c2.winStart stuck else c2

def execSbWriteTransaction (p : Bytes) (stop : Bool) (stuck : Nat) (s : State) : Host.Outcome State Fault Refusal :=
  .next (s.mapCtl (sbWrite p stop stuck))

/-- SB_BUS_CLEAR (R388): SDA is released and the partial transaction discarded. A transaction is one command here, so nothing of a
partial one stands in State, and the pointer keeps its value. -/
def execSbBusClear (s : State) : Host.Outcome State Fault Refusal := .next s

/-- A release after a 25 ms timeout (R388): counted, and reported while the collector is not in reset. -/
def Ctl.sbTimeout (c : Ctl) : Ctl :=
  if c.rst.vaux then
    let c1 := c.bump R.SBP_STATUS_RELEASES
    if c.inReset then c1 else c1.fault 630 0
  else c

/-- SB_SCL_TIMEOUT (R388): SCL has been low for more than 25 ms. -/
def execSbSclTimeout (s : State) : Host.Outcome State Fault Refusal := .next (s.mapCtl Ctl.sbTimeout)

/-- SB_SDA_TIMEOUT (R388): the device has held SDA low with SCL high for more than 25 ms. -/
def execSbSdaTimeout (s : State) : Host.Outcome State Fault Refusal := .next (s.mapCtl Ctl.sbTimeout)

/-! ## Pins (R415) -/

/-- What the device does at a pin. -/
inductive PinState where
  | highZ
  | input
  | target
  | released
  | asserted
  | selectHigh
  | parked
  | driven
  deriving DecidableEq, Repr

/-- A rail but VAUX is absent. -/
def Ctl.railAbsent (c : Ctl) : Bool := decide (c.rst.awaiting = 0) || !c.rst.railsOut.isEmpty

/-- REFCLK inputs, straps with PERST#, the sideband's pins and ERR_N. -/
def Ctl.refclkPin (c : Ctl) : PinState := if c.rst.vaux && !c.railAbsent then .input else .highZ
def Ctl.strapPin (c : Ctl) : PinState := if c.rst.vaux then .input else .highZ
def Ctl.sidebandPin (c : Ctl) : PinState := if c.rst.vaux then .target else .highZ
def Ctl.errnPin (c : Ctl) : PinState :=
  if !c.rst.vaux then .highZ else if c.flag R.FLT_STATUS_ERRN then .asserted else .released

/-- The SPI pins: SPI_CS# alone driven high, all parked with SPI_CS# high and SCK and IO low, or driven. -/
def Ctl.spiPin (c : Ctl) : PinState :=
  if !c.rst.vaux || c.rst.railsOut.contains railIo then .highZ
  else if c.railAbsent then .selectHigh
  else if c.rst.awaiting = 8 ∨ c.rst.awaiting = 4 then .driven
  else .parked

/-! ## The flash (R392, R394) -/

/-- FLASH_ANSWER_TIMEOUT (R392, R344): the flash does not answer its SFDP read within 10 ms of step 5, or its tables are
unfit: source 629, and the attempt fails with cause 0x06. -/
def execFlashAnswerTimeout (s : State) : Host.Outcome State Fault Refusal :=
  if s.ctl.rst.awaiting = 4 then .next ((s.mapCtl fun c => (c.pass 10000000).fault 629 0).startFail 6) else .next s

/-- What a record written changes beside the flash: the FRU copy (R397), the map record's mark (R303), and the state of an image
whose confirmation was asked for (R305). -/
def Ctl.recordStands (c : Ctl) (w : FlashWrite) : Ctl :=
  if w.kind = 7 then c.copyFru
  else if w.kind = 3 then { c with sbp.mapSince := true }
  else if w.kind = 1 then
    (match w.by_ with
      | some h => (match (c.hd h).mbox.pend with
          | some p => if p.op = 0xC021 then c.set R.IDC_FW_STAT_STATE 0 else c
          | none => c)
      | none => c)
  else c

/-- The command that waits for a flash record write completes with a code. -/
def Ctl.answerFlash (c : Ctl) (by_ : Option Head) (o : Ocs) : Ctl := match by_ with
  | some h => (match (c.hd h).mbox.pend with
      | some p => if p.wait = .flash then c.finish h p.op o [] else c
      | none => c)
  | none => c

/-- FLASH_RECORD_WRITTEN (R289, R302, R394): the write in progress ends: `ok` tells whether the read-back agrees, which it does not
while VDD_IO is out of tolerance (R414). -/
def flashRecordWritten (ok : Bool) (c : Ctl) : Ctl := match c.sbp.writes with
  | [] => c
  | w :: t =>
    if c.kpr.phase ≠ 3 then c
    else
      let good := ok && !c.rst.railsOut.contains railIo
      let others := c.sbp.recs.filter fun r => decide (r.kind ≠ w.kind)
      let recs := if good && w.erase then others else c.flashRec w.kind (c.writeBody w) (!good) :: others
      let c1 := { c with sbp.writes := t, sbp.recs := recs }
      if good then (c1.recordStands w).answerFlash w.by_ .ok
      else ((if w.kind = 7 then c1.judgeFru else c1).fault 628 (min 8 w.kind)).answerFlash w.by_ .flashError

def execFlashRecordWritten (ok : Bool) (s : State) : Host.Outcome State Fault Refusal :=
  .next (s.mapCtl (flashRecordWritten ok))

/-! ## Commands (R398) -/

/-- A FRU range is refused (R398). -/
def fruBad (off len : Nat) : Bool := decide (len = 0) || decide (1024 < off + len)

/-- FRU_WRITE (R302, R398): the record is rewritten, and the command waits for the flash. -/
def fruWrite (h : Head) (p : Bytes) (c : Ctl) : Ctl :=
  c.ocs h 0xC1A0 { min := 4 } p fun c =>
    let off := le p 0 2
    let len := le p 2 2
    if fruBad off len || decide (p.length < 4 + len) then c.finish h 0xC1A0 .invalidParameter []
    else (c.await h 0xC1A0 p .flash c.clock).writeRecord 7 ((p.drop 4).take len) (some h) false (some off)

def execFruWrite (h : Head) (p : Bytes) (s : State) : Host.Outcome State Fault Refusal := .next (s.mapCtl (fruWrite h p))

/-- FRU_READ (R398): bytes of the FRU record, zero where it holds none; while VDD_IO is out the flash access fails (R414). -/
def fruRead (h : Head) (p : Bytes) (c : Ctl) : Ctl :=
  c.ocs h 0xC1A1 { min := 4 } p fun c =>
    let off := le p 0 2
    let len := le p 2 2
    if fruBad off len then c.finish h 0xC1A1 .invalidParameter []
    else if c.rst.railsOut.contains railIo then c.finish h 0xC1A1 .flashError []
    else c.finish h 0xC1A1 .ok ((padTo 1024 ((c.record 7).getD [])).drop off |>.take len)

def execFruRead (h : Head) (p : Bytes) (s : State) : Host.Outcome State Fault Refusal := .next (s.mapCtl (fruRead h p))

/-- FLASH_INFO (R398): what SPI_STATUS and SPI_RECORDS show. -/
def flashInfo (h : Head) (p : Bytes) (c : Ctl) : Ctl :=
  c.ocs h 0xC1A2 {} p fun c =>
    c.finish h 0xC1A2 .ok (toLE 3 (c.view R.SPI_STATUS_JEDEC_ID) ++ toLE 1 (c.view R.SPI_STATUS_CAP_LOG2) ++
      toLE 1 (c.view R.SPI_STATUS_MODE) ++ toLE 1 (c.view R.SPI_RECORDS_USABLE))

def execFlashInfo (h : Head) (p : Bytes) (s : State) : Host.Outcome State Fault Refusal := .next (s.mapCtl (flashInfo h p))

end Sys2Proof.Machine
end

