-- ==== Sys2Proof/Machine/Memory.lean ====
section
/-! DEFINITION. CXL.mem requests of the heads (R61, R174, R176, R194, R200, R225, R248, R303, R319) and the commit of an HDM decoder
(R62). -/

namespace Sys2Proof.Machine

/-! ## Admission -/

/-- A CXL.mem request of a head reaches the device: its link is up, not in D3hot (R242) and not in the insecure state of
R219, and no reset is under way (R339). -/
def Ctl.memArrives (c : Ctl) (h : Head) : Bool :=
  c.flag (R.HD_STATE_LINK_UP h.num) && !(c.hd h).d3hot && !(c.hd h).ideInsecure && decide (c.rst.awaiting = 8) &&
    decide (c.rst.quiesce = 0)

/-- A request refused because its head is fenced (R248), or because the stack is parked (R303) or shut down (R319), counted
where each rule counts it; none when nothing refuses it. -/
def Ctl.memShut (c : Ctl) (h : Head) : Option Ctl :=
  if c.fenced h then some (c.bump (R.HD_FENCED_DROP_CNT_DROPS h.num))
  else if c.flag R.IDC_KPR_STAT_PARKED || decide (c.get R.THM_STATUS_STAGE = 4) then
    let c1 := if c.flag R.IDC_KPR_STAT_PARKED then c.dropCount h R.IDC_PARK_DROP_CNT_A_DROPS R.IDC_PARK_DROP_CNT_B_DROPS else c
    some (if c.get R.THM_STATUS_STAGE = 4 then c1.dropCount h R.THM_SHUT_DROP_CNT_A_DROPS R.THM_SHUT_DROP_CNT_B_DROPS else c1)
  else none

/-- A CXL.mem request of a head carries the handle of a key slot (R200). -/
def Ctl.memHandle (c : Ctl) (h : Head) (slot : Nat) : Bool :=
  tb (c.get (R.SEA_KEY_STAT_CXL_MASK slot)) h.num && (decide (c.geff R.SEA_CFG_REQUIRE_IDE = 0) || (c.hd h).ideUp)

/-- The seal refuses a CXL.mem request to a line (R194, R200). -/
def Ctl.memDenied (c : Ctl) (h : Head) (sa : Nat) : Bool :=
  match c.sealAt sa with
  | 0 => false
  | 2 => !c.memHandle h (c.get (R.SEA_GRAN_KEY_SLOT (granOf sa)))
  | _ => true

/-- A partition violation (R61, R378): source 576 or 577, to the head that made the request. -/
def Ctl.violation (c : Ctl) (h : Head) (sa : Nat) : Ctl := c.fault (576 + h.num) (sa / 64) (.only h)

/-- A seal refusal (R194): counted, with source 551. -/
def Ctl.sealRefusal (c : Ctl) (h : Head) (sa : Nat) : Ctl :=
  (c.dropCount h R.SEA_DENY_CNT_A_DENIED R.SEA_DENY_CNT_B_DENIED).lineFault 551 sa

/-! ## CXL_MEM_READ -/

/-- The answer to a read. -/
def Ctl.answerRead (c : Ctl) (h : Head) (dpa : Nat) (poison : Bool) (data : Bytes) : Ctl := c.emit (.memRead h dpa poison data)

/-- A refused read returns zeros with poison. -/
def Ctl.poisonRead (c : Ctl) (h : Head) (dpa : Nat) : Ctl := c.answerRead h dpa true (List.replicate 64 0)

/-- The completion of a write on the link. -/
def Ctl.answerWrite (c : Ctl) (h : Head) (dpa : Nat) : Ctl := c.emit (.memWriteDone h dpa)

/-! ## An admitted request served -/

/-- A write that the mapper takes stands in the ingest buffer under its class (R159, R225). -/
def Ctl.takeWrite (c : Ctl) (r : MemReq) : Ctl := (c.fillIngest (r.dpa / 64) r.cls).answerWrite r.head r.dpa

/-- A request has passed the mapper with its class (R225): at most 4,096 of both heads are outstanding. -/
def Ctl.notePassed (c : Ctl) (r : MemReq) : Ctl :=
  let l := c.stk.passed ++ [(r.head, r.dpa / 64, r.cls)]
  { c with stk.passed := l.drop (l.length - 4096) }

/-- A read of the line at a DPA (R61, R175, R194, R200); a partial write that waits for the line goes first (R174). -/
def State.serveRead (s : State) (r : MemReq) : State :=
  let sa := r.dpa / 64 * 64
  let s0 := s.mergesOf sa
  if s0.ctl.memDenied r.head sa then
    let s1 := if s0.ctl.sealAt sa = 3 then s0.mireOnce sa 3 r.head.num else s0
    s1.mapCtl fun c => (c.sealRefusal r.head sa).poisonRead r.head r.dpa
  else
    let (x, s1) := s0.readChecked sa r.head.num
    s1.mapCtl fun c => (c.notePassed r).answerRead r.head r.dpa x.poison x.data

/-- A write of a whole line, or of poison (R61, R175, R176, R194, R210). -/
def State.serveWrite (s : State) (r : MemReq) (poison : Bool) (data : Bytes) : State :=
  let sa := r.dpa / 64 * 64
  if s.ctl.memDenied r.head sa then s.mapCtl fun c => (c.sealRefusal r.head sa).answerWrite r.head r.dpa
  else
    let s0 := s.mergesOf sa
    let x := if poison then s0.writePoisonLine sa r.head.num else s0.writeLine sa (padTo 64 data)
    x.2.mapCtl fun c => c.takeWrite r

/-- A partial write (R174): the enabled bytes of a line, by offset, wait to be merged with it. -/
def Ctl.servePartial (c : Ctl) (r : MemReq) (data : List (Nat × BitVec 8)) : Ctl :=
  let sa := r.dpa / 64 * 64
  if c.memDenied r.head sa then (c.sealRefusal r.head sa).answerWrite r.head r.dpa
  else { c with ecc.merges := c.ecc.merges ++ [Merge.mk sa data r.cls r.head] }.notePassed r |>.takeWrite r

/-- A request refused with this control state: a read returns zeros with poison, a write completes on the link as usual. -/
def Ctl.refuseMem (c : Ctl) (r : MemReq) : Ctl := match r.kind with
  | .read => c.poisonRead r.head r.dpa
  | _ => c.answerWrite r.head r.dpa

/-- An admitted request is served, one carried out under an older view answered; one that waited until its head was fenced no longer lands (R248). -/
def State.serveMem (s : State) (r : MemReq) : State :=
  if s.ctl.fenced r.head then s.mapCtl fun c => (c.bump (R.HD_FENCED_DROP_CNT_DROPS r.head.num)).refuseMem r
  else match r.old, r.kind with
    | some x, .read => s.mapCtl fun c => c.answerRead r.head r.dpa x.1 x.2
    | some _, _ => s.mapCtl fun c => c.takeWrite r
    | none, .read => s.serveRead r
    | none, .write poison data => s.serveWrite r poison data
    | none, .partialWrite data => s.mapCtl fun c => c.servePartial r data

/-! ## Requests that a change of views overtakes (R57) -/

/-- A waiting request whose line changes its view is carried out on the array under the old one; its answer is kept until its class lets
it go. -/
def State.carryRequest (s : State) (r : MemReq) : State × MemReq :=
  let sa := r.dpa / 64 * 64
  let s0 := s.mergesOf sa
  match r.kind with
  | .read =>
    let (x, s1) := s0.readChecked sa r.head.num
    (s1, { r with old := some (x.poison, x.data) })
  | .write poison data =>
    ((if poison then s0.writePoisonLine sa r.head.num else s0.writeLine sa (padTo 64 data)).2, { r with old := some (poison, data) })
  | .partialWrite data => ((s0.merge sa data).2, { r with old := some (false, []) })

/-- The requests that wait at the mapper, and the partial writes that wait for their merge, where a change of views reaches them. One that
is refused at that boundary is refused for good: it never reaches the stack under the new view (DEDUCED, notes/assumptions/140.md). -/
def State.carryOld (s : State) (ch : List (Nat × Nat)) : State :=
  let within := fun sa : Nat => ch.any fun v => decide (v.1 ≤ sa) && decide (sa < v.2)
  if ch.isEmpty then s
  else
    let s1 := (s.ctl.ecc.merges.filter fun m => within m.sa).foldl (fun st m => st.mergesOf m.sa) s
    let (s2, l) := s1.ctl.stk.memWait.foldl (fun (a : State × List MemReq) r =>
      if within (r.dpa / 64 * 64) && r.old.isNone then
        if a.1.ctl.memDenied r.head (r.dpa / 64 * 64) || a.1.ctl.fenced r.head then (a.1.serveMem r, a.2)
        else
          let (st, r1) := a.1.carryRequest r
          (st, a.2 ++ [r1])
      else (a.1, a.2 ++ [r])) (s1, [])
    s2.mapCtl fun c => { c with stk.memWait := l }

/-! ## Waiting requests of a blocked class (R230) -/

/-- A request waits for a gate (R334): for a seal pipeline, or for the link layer and CXL controller of Head B. -/
def Ctl.gateHolds (c : Ctl) (h : Head) (sa : Nat) : Bool := c.sealGated sa || (decide (h = .b) && !c.domainOpen 17)

/-- A request has to wait behind those of `l`: its class is blocked, its page is under re-encryption (R206), a move
of its row holds it (R184, R185), a merge of a blocked class stands before it (R230), or an earlier request to its line waits (R157). -/
def Ctl.memWaits (c : Ctl) (l : List MemReq) (r : MemReq) : Bool :=
  decide (c.get (R.QOS_CLASS_CFG_LIMIT r.cls) = 0) || c.pageBusy r.dpa || c.gateHolds r.head r.dpa || c.mergeHeld r.dpa || c.moveHolds (decide (r.kind ≠ .read)) r.dpa ||
    l.any fun x => decide (x.dpa / 64 = r.dpa / 64)

/-- The waiting requests that may now be served are, in their order: those whose class is no longer blocked, and those of a
fenced head. -/
def State.serveWaits (s : State) : State :=
  let awake := s.ctl.stackAwake && !s.ctl.flag R.IDC_KPR_STAT_PARKED
  s.ctl.stk.memWait.foldl (fun st r =>
    if st.ctl.fenced r.head || (awake && !st.ctl.memWaits st.ctl.stk.memWait r) then st.serveMem r
    else st.mapCtl fun c => { c with stk.memWait := c.stk.memWait ++ [r] }) (s.mapCtl fun c => { c with stk.memWait := [] })

/-- PAGE_REENCRYPTION (R206): the re-encryption that a minor counter overflow started on the page of a stack address
ends; `bad` lists lines of the page, 0 to 63, that failed a check, with the cause each keeps. The requests that waited for the page
are served. -/
def execPageReencryption (sa : Nat) (bad : List (Nat × Nat)) (s : State) : Host.Outcome State Fault Refusal :=
  .next (if s.ctl.pageBusy sa then (s.reencrypt (sa / 4096) bad).serveWaits else s)

/-! ## Rows of a move (R184, R185) -/

/-- The row at the front lands; the requests that waited for it are served. -/
def State.rowLanded (s : State) : State := (s.mapCtl Ctl.advanceFront).serveWaits

/-- MIGRATION_ROW_LANDED (R184, R189, R201): the row at the front lands at its new place; the lines of it that failed a check, named
by their stack addresses, are mired with source 4. A move pauses while the Keeper is not running (R289). -/
def execMigrationRowLanded (bad : List (Nat × Nat)) (s : State) : Host.Outcome State Fault Refusal :=
  let c := s.ctl
  if c.flag R.ECC_MIG_ACTIVE && decide (c.get R.ECC_MIG_KIND ≠ 3) && c.movesRun then
    .next (bad.foldl State.migratedBad s).rowLanded
  else .next s

/-- ABRUPT_FILL_ROW (R185): the row at the front of an abrupt fill is written mired at its reserve place. -/
def execAbruptFillRow (s : State) : Host.Outcome State Fault Refusal :=
  let c := s.ctl
  if c.flag R.ECC_MIG_ACTIVE && decide (c.get R.ECC_MIG_KIND = 3) && c.movesRun then .next s.rowLanded else .next s

/-! ## CXL_MEM_READ, CXL_MEM_WRITE and CXL_MEM_PARTIAL_WRITE -/

/-- No credit is left for a request: its host holds none (R230, R317), or the ingest buffer is full and it is a write (R159). -/
def Ctl.noCredit (c : Ctl) (r : MemReq) : Bool :=
  decide (c.creditsHeld r.head = 0) ||
    (decide (r.kind ≠ .read) && c.ingestFull)

/-- A request waits at the mapper, and holds its credit (R230). -/
def Ctl.waitMem (c : Ctl) (r : MemReq) : Ctl :=
  { c.modHd r.head fun x => { x with credits := c.creditsHeld r.head - 1 } with stk.memWait := c.stk.memWait ++ [r] }

/-- A request at the mapper (R61, R225, R230, R248, R303, R319): it does not arrive; it is refused; it waits; or it is served. -/
def State.memRequest (s : State) (h : Head) (dpa : Nat) (k : MemKind) : State :=
  let r : MemReq := { head := h, dpa := dpa, cls := s.ctl.memClass h (dpa / 64 * 64), kind := k }
  if s.ctl.memArrives h = false ∨ s.ctl.noCredit r = true then s
  else match s.ctl.memShut h with
    | some c => { s with ctl := (c.spendCredit h).refuseMem r }
    | none =>
      if s.ctl.mayReach h (dpa / 64 * 64) = false then s.mapCtl fun c => ((c.spendCredit h).violation h (dpa / 64 * 64)).refuseMem r
      else if s.ctl.memWaits s.ctl.stk.memWait r then s.mapCtl fun c => c.waitMem r
      else (s.mapCtl fun c => c.spendCredit h).serveMem r

/-- CXL_MEM_READ. -/
def execCxlMemRead (h : Head) (dpa : Nat) (s : State) : Host.Outcome State Fault Refusal := .next (s.memRequest h dpa .read)

/-- CXL_MEM_WRITE: a write of a whole line, or of poison. -/
def execCxlMemWrite (h : Head) (dpa : Nat) (poison : Bool) (data : Bytes) (s : State) : Host.Outcome State Fault Refusal :=
  .next (s.memRequest h dpa (.write poison data))

/-- CXL_MEM_PARTIAL_WRITE: the enabled bytes of a line by offset. -/
def execCxlMemPartialWrite (h : Head) (dpa : Nat) (data : List (Nat × BitVec 8)) (s : State) :
    Host.Outcome State Fault Refusal :=
  .next (s.memRequest h dpa (.partialWrite data))

/-! ## HDM_DECODER_COMMIT (R62) -/

/-- 256 MiB, the unit of a decoder's base, size and skip. -/
def hdmUnit : Nat := 268435456

/-- Where the DPA range of a head's decoder `n` starts: past the ranges and skips of the decoders before it. -/
def HeadSt.dpaStart (x : HeadSt) (n : Nat) : Nat :=
  ((x.hdm.take n).filter fun d => d.committed).foldl (fun a d => max a (d.dpa + d.size)) 0

/-- The interleave ways and granularities supported. -/
def hdmWays : List Nat := [1, 2, 4, 8]
def hdmGrans : List Nat := [256, 512, 1024, 2048, 4096, 8192, 16384]

/-- A commit of a decoder with these settings is refused (R62). -/
def Ctl.hdmBad (c : Ctl) (h : Head) (n size skip ways gran : Nat) : Bool :=
  let lo := (c.hd h).dpaStart n + skip * hdmUnit
  let hi := lo + size * hdmUnit / (max 1 ways)
  !hdmWays.contains ways || !hdmGrans.contains gran ||
    decide ((c.userEnd + hdmUnit - 1) / hdmUnit * hdmUnit < hi) ||
    (List.range 4).any fun i => decide (i ≠ n) && (match (c.hd h).hdm[i]? with
      | some d => d.committed && decide (lo < d.dpa + d.size) && decide (d.dpa < hi)
      | none => false)

/-- HDM_DECODER_COMMIT (R62): decoder `n` of a head is committed with a base, a size and a skip in units of 256 MiB, its interleave ways
and granularity, and lock on commit; or Error Not Committed sets. A locked decoder is not changed. -/
def hdmCommit (h : Head) (n base size skip ways gran : Nat) (lock : Bool) (c : Ctl) : Ctl :=
  match (c.hd h).hdm[n]? with
  | none => c
  | some d =>
    if d.locked then c
    else if c.hdmBad h n size skip ways gran then
      let d' : HdmDecoder := { d with committed := false, errNotCommitted := true, lockOnCommit := lock }
      c.modHd h fun x => { x with hdm := x.hdm.set n d' }
    else
      let lo := (c.hd h).dpaStart n + skip * hdmUnit
      let d' : HdmDecoder :=
        { base := base * hdmUnit, dpa := lo, ways := ways, gran := gran, size := size * hdmUnit / ways, skip := skip * hdmUnit,
          committed := true, errNotCommitted := false, locked := lock, lockOnCommit := lock }
      c.modHd h fun x => { x with hdm := x.hdm.set n d' }

def execHdmDecoderCommit (h : Head) (n : Fin 4) (base size skip ways gran : Nat) (lock : Bool) (s : State) :
    Host.Outcome State Fault Refusal := .next (s.mapCtl (hdmCommit h n base size skip ways gran lock))

end Sys2Proof.Machine
end

