-- ==== Sys2Proof/Machine/RegWrite.lean ====
section
/-! DEFINITION. Accesses to BAR0 and what they start (R8 to R12, R19, R20, R33, R56, R82, R87 to R89, R123, R152, R169, R233,
R237, R258, R279, R282, R285, R337, R368, R376, R377), and the OCS commands CFG_READ and CFG_WRITE (R299, R300). -/

namespace Sys2Proof.Machine

/-! ## Bits of a word -/

/-- The value that a 32-bit word gives a field of its register. -/
def bitsOf (f : Fld) (v : Nat) : Nat := v / 2 ^ (f.key % 32) % 2 ^ f.width

/-- A 32-bit word with the value of one field replaced. -/
def withBits (f : Fld) (x v : Nat) : Nat := v - bitsOf f v * 2 ^ (f.key % 32) + x % 2 ^ f.width * 2 ^ (f.key % 32)

/-- The byte offset of the word that holds a field. -/
def offsetOf (f : Fld) : Nat := f.key % 2 ^ 40 / 32 * 4

/-! ## Reads -/

/-- A read of one word of BAR0: PHYL_SCAN_DATA_n returns the next four points and advances IDX (R279); any other word as
`Ctl.readWord`. -/
def Ctl.busRead (c : Ctl) (q : Requester) (off : Nat) : Nat × Ctl :=
  let n := (off - 0xE0000) / 0x1000
  if 0xE0000 ≤ off ∧ off < 0xF0000 ∧ off = offsetOf (R.PHYL_SCAN_DATA_DATA n) then (c.scanWord n, c.scanAdvance n)
  else c.readWord q off

/-- An access of R12: a word at a multiple of 4, or 64 bits at a multiple of 8. -/
def aligned (off : Nat) (wide : Bool) : Bool := decide (off % (if wide then 8 else 4) = 0)

/-- A head reads BAR0; what it gets is sent to it. -/
def busReadFor (h : Head) (off : Nat) (wide : Bool) (c : Ctl) : Ctl :=
  if wide && c.gateClosed off then
    let (v, c1) := c.readWide (.head h) off
    c1.emit (.regValue h off 8 v)
  else
  let (lo, c1) := c.busRead (.head h) off
  if wide then
    let (hi, c2) := c1.busRead (.head h) (off + 4)
    c2.emit (.regValue h off 8 (lo + hi * 2 ^ 32))
  else c1.emit (.regValue h off 4 lo)

/-- BAR0 is 16 MiB. -/
def barOffset (off : Nat) : Nat := off % 0x1000000

/-- A read of another alignment, which R12 calls a host error: a free value returns, and nothing else happens (DESIGN CHOICE,
notes/assumptions/14.md). -/
def misread (h : Head) (off : Nat) (wide : Bool) (c : Ctl) : Ctl :=
  let (v, c1) := c.fresh
  if wide then c1.emit (.regValue h off 8 (v % 2 ^ 64)) else c1.emit (.regValue h off 4 (v % 2 ^ 32))

/-- A read of BAR0 (R12); on an insecure stream it is refused without data (R219). -/
def readBar (h : Head) (off : Nat) (wide : Bool) (s : State) : Host.Outcome State Fault Refusal :=
  if s.ctl.ioRefused h ((s.ctl.hd h).bar0 + barOffset off) then .next s
  else .next (s.mapCtl (if aligned off wide then busReadFor h (barOffset off) wide else misread h (barOffset off) wide))

/-- RC_FIELD_READ (R9, R10): a read of a 32-bit word of BAR0 returns it and clears its RC fields. -/
def execRcFieldRead (h : Head) (off : Nat) (s : State) : Host.Outcome State Fault Refusal := readBar h off false s

/-- SNAPSHOT_READ (R12): a read of the low word, of the high word, or of both words of a 64-bit register. -/
def execSnapshotRead (h : Head) (off : Nat) (wide : Bool) (s : State) : Host.Outcome State Fault Refusal :=
  readBar h off wide s

/-- SCAN_DATA_READ (R279). -/
def execScanDataRead (h : Head) (n : Fin 16) (s : State) : Host.Outcome State Fault Refusal :=
  readBar h (offsetOf (R.PHYL_SCAN_DATA_DATA n)) false s

/-! ## What a write starts -/

/-- The commit registers of R407, by their COMMIT field, their REJECT field, and what a COMMIT sets. -/
def Ctl.askCommit (c : Ctl) (off : Nat) : Ctl :=
  if off = offsetOf R.STK_COMMIT_COMMIT then { c with stkPend := true }
  else if off = offsetOf R.MAP_COMMIT_COMMIT then c.set R.MAP_COMMIT_PENDING 1
  else if off = offsetOf R.QOS_SCHED_COMMIT_COMMIT then c.set R.QOS_SCHED_COMMIT_PENDING 1
  else if off = offsetOf R.QOS_CLASS_COMMIT_COMMIT then c.set R.QOS_CLASS_COMMIT_PENDING 1
  else c

/-- The REJECT field of the commit register at an offset. -/
def rejectAt (off : Nat) : Option Fld :=
  if off = offsetOf R.STK_COMMIT_COMMIT then some R.STK_COMMIT_REJECT
  else if off = offsetOf R.MAP_COMMIT_COMMIT then some R.MAP_COMMIT_REJECT
  else if off = offsetOf R.QOS_SCHED_COMMIT_COMMIT then some R.QOS_SCHED_COMMIT_REJECT
  else if off = offsetOf R.QOS_CLASS_COMMIT_COMMIT then some R.QOS_CLASS_COMMIT_REJECT
  else none

/-- TAKE (R237): DONE clears and a snapshot is taken at the next boundary; one that is pending stays as it is. -/
def Ctl.askSnapshot (c : Ctl) : Ctl := { c with snapPend := true }.set R.QOS_BW_SNAP_CTL_DONE 0

/-- A window command of R152; while one waits with BUSY set another does nothing. -/
def Ctl.winCommand (c : Ctl) (h : Head) (cmd : Nat) : Ctl :=
  if c.flag (R.STX_WIN_CTL_BUSY h.num) then c
  else if cmd = 1 then winRead h c
  else if cmd = 2 then winWrite h c
  else c

/-- A write of PHYC_CFG changes FREEZE of the writer's own lanes only; the change of the other head's is discarded and
counted (R285). -/
def Ctl.keepFreeze (c old : Ctl) (h : Head) : Ctl :=
  let f := match h with
    | .a => R.PHYC_CFG_FREEZE_B
    | .b => R.PHYC_CFG_FREEZE_A
  if c.get f = old.get f then c else (c.set f (old.get f)).bump R.PHYC_LOOP_DROPS

/-- What a performed write of the word at `off` starts, its fields having been written: `old` is the device before it. -/
def Ctl.afterWrite (c old : Ctl) (h : Head) (off v : Nat) : Ctl :=
  let isAt := fun (f : Fld) => decide (off = offsetOf f) && decide (bitsOf f v = 1)
  let lane := (off - 0xE0000) / 0x1000
  if (rejectAt off).isSome then (if v % 2 = 1 then c.askCommit off else c)
  else if isAt R.QOS_BW_SNAP_CTL_TAKE then c.askSnapshot
  else if isAt R.CMB_DMC_FLUSH_FLUSH then c.dmcFlush
  else if off = offsetOf R.JRG_ABORT_SQ then c.jrgAbort (bitsOf R.JRG_ABORT_SQ v) (bitsOf R.JRG_ABORT_CID v)
  else if isAt R.TIM_CMD_SWITCH then c.timSwitch
  else if off = offsetOf R.TIM_CFG_PREFER then c.preferChanged
  else if isAt R.FLT_ERRN_RELEASE then c.errnRelease
  else if off = offsetOf R.RST_CTL_WARM then c.rstCtl (BitVec.ofNat 32 v)
  else if off = offsetOf R.BST_CTL_START then c.bstCtl (BitVec.ofNat 32 v)
  else if off = offsetOf R.CLK_GATE_POL_HOLD_OPEN then c.holdOpen
  else if off = offsetOf R.PHYC_CFG_FREEZE_A then c.keepFreeze old h
  else if off = offsetOf (R.STX_WIN_CTL_CMD 0) then c.winCommand h (bitsOf (R.STX_WIN_CTL_CMD 0) v)
  else if 0xE0000 ≤ off ∧ off < 0xF0000 ∧ isAt (R.PHYL_SCAN_CTL_START lane) = true then c.scanStart lane
  else match ringAt off with
    | none => c
    | some (sq, q) =>
      if sq then (if off = offsetOf (R.JRG_SQ_CFG_ENABLE q) then c.sqCfgWritten q (old.flag (R.JRG_SQ_CFG_ENABLE q)) else c)
      else if off = offsetOf (R.JRG_CQ_CFG_ENABLE q) then c.cqCfgWritten q (old.flag (R.JRG_CQ_CFG_ENABLE q))
      else c

/-- A field of an enabled ring that a write has changed holds a free value: a host error of R125. -/
def Ctl.strayField (old : Ctl) (c : Ctl) (f : Fld) : Ctl :=
  if c.get f = old.get f then c
  else
    let (v, c1) := c.fresh
    c1.set f v

/-- CQ of an enabled SQ that a write has changed: a free value where that CQ belongs to the SQ's owner, else it stays, since a host error
reaches no ring of the other head (R5, R125). -/
def Ctl.strayCq (old : Ctl) (c : Ctl) (q : Nat) : Ctl :=
  let f := R.JRG_SQ_CFG_CQ q
  if c.get f = old.get f then c
  else
    let (v, c1) := c.fresh
    let c2 := c1.set f v
    if c2.cqOwner (c2.get f) = c.sqOwner q then c2 else c1.set f (old.get f)

/-- BASE, SIZE and CQ of a ring that was enabled, after a write of its registers (R5, R125; DESIGN CHOICE,
notes/assumptions/14.md). -/
def Ctl.strayRing (c old : Ctl) (off : Nat) : Ctl :=
  match ringAt off with
  | some (true, q) =>
    if old.flag (R.JRG_SQ_CFG_ENABLE q) then
      Ctl.strayCq old ([R.JRG_SQ_BASE_BASE q, R.JRG_SQ_CFG_SIZE q].foldl (Ctl.strayField old) c) q
    else c
  | some (false, q) =>
    if old.flag (R.JRG_CQ_CFG_ENABLE q) then [R.JRG_CQ_BASE_BASE q, R.JRG_CQ_CFG_SIZE q].foldl (Ctl.strayField old) c else c
  | none => c

/-- A write of one word that reaches its register (R9): its fields, those that keep fixed bits, and what it starts. Without
`configOk` only the status fields are written (R20). Holes and units not built take no write (R46, R405). -/
def Ctl.writeReg (c : Ctl) (h : Head) (off v : Nat) (configOk : Bool) : Ctl :=
  match findReg off with
  | none => c
  | some a =>
    -- the test engine takes writes only in test mode (R367)
    if c.hiddenReg off || (decide (off / 65536 = 5) && !c.cal.testMode) then c
    else if off = 0xD0010 then c.writeLoop h v configOk
    else
      let c1 := ((c.writeFields a h v configOk).strayRing c off).fixFields off
      let c2 := if 0x80100 ≤ off ∧ off < 0x80150 then c1.judgeErrN else c1
      if configOk then c2.afterWrite c h off v else c2

/-! ## Writes of a head -/

/-- One word of a head's own write, by the fate its checks give it. -/
def Ctl.busWriteWord (c : Ctl) (h : Head) (off v : Nat) (fate : WriteFate) : Ctl :=
  match fate with
  | .perform => c.writeReg h off v true
  | .statusOnly => c.writeReg h off v false
  | .discard => c

/-- A head writes BAR0: 32 bits, or the two words of an aligned 64-bit write, low word first. A write whose words both
count as dropped counts once. -/
def Ctl.busWrite (c : Ctl) (h : Head) (off : Nat) (wide : Bool) (v : Nat) : Ctl :=
  let lo := v % 2 ^ 32
  let hi := v / 2 ^ 32 % 2 ^ 32
  let (f0, c0) := c.judgeWrite h off lo
  let c1 := c0.busWriteWord h off lo f0
  if wide then
    let (f1, c2) := c1.judgeWrite h (off + 4) hi
    (if f0 = .perform || (findReg off).isNone then c2 else c1).busWriteWord h (off + 4) hi f1
  else c1

/-- A write of BAR0. One of another alignment, which R12 calls a host error, does nothing (DESIGN CHOICE,
notes/assumptions/14.md). -/
def writeBar (h : Head) (off : Nat) (wide : Bool) (v : Nat) (s : State) : Host.Outcome State Fault Refusal :=
  .next (if aligned off wide then s.mapCtl fun c => c.busWrite h (barOffset off) wide v else s)

/-- REGISTER_WRITE (R9): 32 bits, or 64 when `wide`. -/
def execRegisterWrite (h : Head) (off : Nat) (wide : Bool) (v : Nat) (s : State) : Host.Outcome State Fault Refusal :=
  writeBar h off wide v s

/-- A write of the register that holds a field, the field being `x` and the other bits those of `w`. -/
def writeBarField (h : Head) (f : Fld) (x : Nat) (w : Word) (s : State) : Host.Outcome State Fault Refusal :=
  writeBar h (offsetOf f) false (withBits f x w.toNat) s

/-- STK_COMMIT (R33). -/
def execStkCommit (h : Head) (w : Word) (s : State) : Host.Outcome State Fault Refusal :=
  writeBarField h R.STK_COMMIT_COMMIT 1 w s

/-- MAP_COMMIT (R56). -/
def execMapCommit (h : Head) (w : Word) (s : State) : Host.Outcome State Fault Refusal :=
  writeBarField h R.MAP_COMMIT_COMMIT 1 w s

/-- QOS_SCHED_COMMIT (R169). -/
def execQosSchedCommit (h : Head) (w : Word) (s : State) : Host.Outcome State Fault Refusal :=
  writeBarField h R.QOS_SCHED_COMMIT_COMMIT 1 w s

/-- QOS_CLASS_COMMIT (R233). -/
def execQosClassCommit (h : Head) (w : Word) (s : State) : Host.Outcome State Fault Refusal :=
  writeBarField h R.QOS_CLASS_COMMIT_COMMIT 1 w s

/-- QOS_BW_SNAP_TAKE (R237). -/
def execQosBwSnapTake (h : Head) (w : Word) (s : State) : Host.Outcome State Fault Refusal :=
  writeBarField h R.QOS_BW_SNAP_CTL_TAKE 1 w s

/-- CMB_DMC_FLUSH (R82). -/
def execCmbDmcFlush (h : Head) (w : Word) (s : State) : Host.Outcome State Fault Refusal :=
  writeBarField h R.CMB_DMC_FLUSH_FLUSH 1 w s

/-- SQ_ENABLE (R88). -/
def execSqEnable (h : Head) (q : Fin 64) (w : Word) (s : State) : Host.Outcome State Fault Refusal :=
  writeBarField h (R.JRG_SQ_CFG_ENABLE q) 1 w s

/-- SQ_DISABLE (R89). -/
def execSqDisable (h : Head) (q : Fin 64) (w : Word) (s : State) : Host.Outcome State Fault Refusal :=
  writeBarField h (R.JRG_SQ_CFG_ENABLE q) 0 w s

/-- CQ_ENABLE (R88). -/
def execCqEnable (h : Head) (q : Fin 64) (w : Word) (s : State) : Host.Outcome State Fault Refusal :=
  writeBarField h (R.JRG_CQ_CFG_ENABLE q) 1 w s

/-- CQ_DISABLE (R89). -/
def execCqDisable (h : Head) (q : Fin 64) (w : Word) (s : State) : Host.Outcome State Fault Refusal :=
  writeBarField h (R.JRG_CQ_CFG_ENABLE q) 0 w s

/-- JRG_ABORT (R123): the jobs of ring `q` that carry `cid`. -/
def execJrgAbort (h : Head) (q : Fin 64) (cid : BitVec 16) (s : State) : Host.Outcome State Fault Refusal :=
  writeBarField h R.JRG_ABORT_SQ q (cid.setWidth 32) s

/-- STX_WIN_READ (R152): CMD 0b01. -/
def execStxWinRead (h : Head) (w : Word) (s : State) : Host.Outcome State Fault Refusal :=
  writeBarField h (R.STX_WIN_CTL_CMD 0) 1 w s

/-- STX_WIN_WRITE (R152): CMD 0b10. -/
def execStxWinWrite (h : Head) (w : Word) (s : State) : Host.Outcome State Fault Refusal :=
  writeBarField h (R.STX_WIN_CTL_CMD 0) 2 w s

/-- TIM_SWITCH (R258). -/
def execTimSwitch (h : Head) (w : Word) (s : State) : Host.Outcome State Fault Refusal :=
  writeBarField h R.TIM_CMD_SWITCH 1 w s

/-- EYE_SCAN_START (R279). -/
def execEyeScanStart (h : Head) (n : Fin 16) (w : Word) (s : State) : Host.Outcome State Fault Refusal :=
  writeBarField h (R.PHYL_SCAN_CTL_START n) 1 w s

/-- NEAR_END_LOOP_START (R282). -/
def execNearEndLoopStart (h : Head) (w : Word) (s : State) : Host.Outcome State Fault Refusal :=
  writeBarField h R.PHYC_LOOP_START 1 w s

/-- NEAR_END_LOOP_STOP (R282). -/
def execNearEndLoopStop (h : Head) (w : Word) (s : State) : Host.Outcome State Fault Refusal :=
  writeBarField h R.PHYC_LOOP_START 0 w s

/-- RST_CTL_WARM (R337): WARM 1, with the KEY that `w` gives. -/
def execRstCtlWarm (h : Head) (w : Word) (s : State) : Host.Outcome State Fault Refusal :=
  writeBarField h R.RST_CTL_WARM 1 w s

/-- BIST_START (R368): START 1, with the TARGET that `w` gives. -/
def execBistStart (h : Head) (w : Word) (s : State) : Host.Outcome State Fault Refusal :=
  writeBarField h R.BST_CTL_START 1 w s

/-- FLT_PEND_ACK (R376): a write of FLT_PEND_i. -/
def execFltPendAck (h : Head) (i : Fin 20) (w : Word) (s : State) : Host.Outcome State Fault Refusal :=
  writeBar h (offsetOf (R.FLT_PEND_PEND i)) false w.toNat s

/-- ERRN_RELEASE (R377). -/
def execErrnRelease (h : Head) (w : Word) (s : State) : Host.Outcome State Fault Refusal :=
  writeBarField h R.FLT_ERRN_RELEASE 1 w s

/-! ## CFG_READ (R299) -/

/-- An offset that CFG_READ and CFG_WRITE take: a multiple of 4 below 16 MiB. -/
def cfgOffsetOk (off : Nat) : Bool := decide (off % 4 = 0) && decide (off < 0x1000000)

/-- The reads of a CFG_READ, in order. -/
def Ctl.cfgReads (c : Ctl) (h : Head) : List Nat → Bytes × Ctl
  | [] => ([], c)
  | off :: t =>
    let (v, c1) := c.busRead (.command h) off
    let (rest, c2) := c1.cfgReads h t
    (toLE 4 v ++ rest, c2)

/-- CFG_READ run: its snapshots end with it. -/
def cfgReadRun (h : Head) (p : Bytes) (c : Ctl) : Ctl :=
  let n := le p 0 1
  let offs := (List.range n).map fun i => le p (4 + 4 * i) 4
  if n = 0 ∨ 64 < n ∨ p.length < 4 + 4 * n ∨ (offs.all cfgOffsetOk) = false then c.finish h 0xC010 .invalidParameter []
  else
    let (out, c1) := c.cfgReads h offs
    { c1 with snap := c1.snap.filter fun e => decide (e.1 / 2 ^ 32 ≠ 2 + h.num) }.finish h 0xC010 .ok out

def cfgRead (h : Head) (p : Bytes) (c : Ctl) : Ctl := c.ocs h 0xC010 { min := 4 } p (cfgReadRun h p)

def execCfgRead (h : Head) (p : Bytes) (s : State) : Host.Outcome State Fault Refusal := .next (s.mapCtl (cfgRead h p))

/-! ## CFG_WRITE (R300) -/

/-- The live registers of the paired fields (R407). -/
def livePaired (off : Nat) : Bool :=
  decide (off = 0x320100) || (decide (0x160100 ≤ off) && decide (off < 0x160180)) ||
    (decide (0xA0840 ≤ off) && decide (off < 0xA0854)) || decide (off = 0xA0880) ||
    (decide (0xA0100 ≤ off) && decide (off < 0xA0120)) || decide (off = 0xA0140) ||
    (decide (0xA0200 ≤ off) && decide (off < 0xA0280))

/-- The block window an offset lies in, none in a hole between the windows (R404, R405). -/
def windowOf (off : Nat) : Option Nat :=
  let b := off / 65536
  if b ≤ 0x0E ∨ (0x10 ≤ b ∧ b ≤ 0x16) ∨ (0x20 ≤ b ∧ b ≤ 0x2B) ∨ (0x30 ≤ b ∧ b ≤ 0x32) ∨ b = 0x40 ∨ b = 0x41 then
    some (blockOf off) else none

/-- A window write names an entry that the other head owns (R152). -/
def Ctl.windowForeign (c : Ctl) (h : Head) (off v : Nat) : Bool :=
  decide (off = offsetOf (R.STX_WIN_CTL_CMD 0)) && decide (bitsOf (R.STX_WIN_CTL_CMD 0) v = 2) &&
    match c.ctxEntry (bitsOf (R.STX_WIN_CTL_INDEX 0) v) with
    | .main m => !c.ownsCtx h m.owner && (c.ctxMain (bitsOf (R.STX_WIN_CTL_INDEX 0) v)).isSome
    | .ext o _ _ => !c.ownsCtx h o
    | _ => false

/-- An entry for which the whole command is refused (R300 step 1). -/
def Ctl.cfgBad (c : Ctl) (h : Head) (e : Nat × Nat) : Bool :=
  !cfgOffsetOk e.1 || [3, 5, 0x40, 0x41].contains (e.1 / 65536) || livePaired e.1 || decide (c.foreign h e.1 e.2 ≠ 0) ||
    c.windowForeign h e.1 e.2

/-- The entries of a CFG_WRITE: offset and value. -/
def cfgEntries (p : Bytes) : List (Nat × Nat) := (List.range (le p 0 1)).map fun i => (le p (4 + 8 * i) 4, le p (8 + 8 * i) 4)

/-- One entry written by the Keeper for a head: a closed window discards and counts it (R334). -/
def Ctl.cfgEntry (c : Ctl) (h : Head) (off v : Nat) : Ctl :=
  if c.gateClosed off then c.bump R.CLK_GATED_ACC_CNT_ACCESSES else c.writeReg h off v true

/-- The entries still to write, the first being number `i` (R300 steps 2 and 3): an entry that writes a COMMIT bit clears
REJECT, and the command waits for the boundary that judges it. -/
def Ctl.cfgRun (h : Head) (p : Bytes) : List (Nat × Nat) → Nat → Ctl → Ctl
  | [], i, c => c.finish h 0xC011 .ok (toLE 4 i)
  | (off, v) :: t, i, c =>
    match (if v % 2 = 1 then rejectAt off else none) with
    | some f => ((c.set f 0).cfgEntry h off v).await h 0xC011 p .commit i
    | none => Ctl.cfgRun h p t (i + 1) (c.cfgEntry h off v)

/-- CFG_WRITE run: refused whole, or under the claims of every block window named. -/
def cfgWriteRun (h : Head) (p : Bytes) (c : Ctl) : Ctl :=
  let n := le p 0 1
  let es := cfgEntries p
  if n = 0 ∨ 64 < n ∨ p.length < 4 + 8 * n ∨ (es.any fun e => c.cfgBad h e) = true then c.finish h 0xC011 .invalidParameter []
  else c.claiming h 0xC011 p ((es.filterMap fun e => windowOf e.1).eraseDups) (Ctl.cfgRun h p es 0)

/-- A CFG_WRITE whose commit has been judged goes on, or stops with INVALID_PARAMETER and the entries before the commit
(R300 step 3). -/
def Ctl.resumeCfg (h : Head) (c : Ctl) : Ctl :=
  match (c.hd h).mbox.pend with
  | none => c
  | some q =>
    if q.op ≠ 0xC011 ∨ q.wait ≠ .commit then c
    else match (cfgEntries q.payload).drop q.aux with
      | [] => c.finish h 0xC011 .ok (toLE 4 q.aux)
      | e :: t =>
        match rejectAt e.1 with
        | some f => if c.flag f then c.finish h 0xC011 .invalidParameter (toLE 4 q.aux) else c.cfgRun h q.payload t (q.aux + 1)
        | none => c.cfgRun h q.payload t (q.aux + 1)

/-- CFG_WRITE. -/
def cfgWrite (h : Head) (p : Bytes) (c : Ctl) : Ctl := c.ocs h 0xC011 { min := 4 } p (cfgWriteRun h p)

def execCfgWrite (h : Head) (p : Bytes) (s : State) : Host.Outcome State Fault Refusal := .next (s.mapCtl (cfgWrite h p))

end Sys2Proof.Machine
end

