-- ==== Sys2Proof/Machine/Beat.lean ====
section
/-! DEFINITION. The beat (R261 to R263): where the next boundary lies, and what the device does there, in the order of R263. -/

namespace Sys2Proof.Machine

/-! ## The grid (R164, R262) -/

/-- The next boundary that is acted on, counted from instant 0 of platform time: after a step, one closer than 1,950 ns to the
boundary before it is passed over. -/
def Ctl.nextBeat (c : Ctl) : Nat :=
  let n := max (c.now / 3900 + 1) (c.lastBeatNo + 1)
  if c.stepped && decide (c.clock + (n * 3900 - c.now) < c.lastBeat + 1950) then n + 1 else n

/-- Time passes ns by ns, at most `n` of them, until platform time reaches `t`. -/
def Ctl.creep (t : Nat) : Nat → Ctl → Ctl
  | 0, c => c
  | n + 1, c => if t ≤ c.now then c else Ctl.creep t n (c.pass 1)

/-- Time passes until platform time reaches `t`: in one go to where neither slew nor rate can have passed it, then ns by ns. -/
def Ctl.reach (c : Ctl) (t : Nat) : Ctl :=
  let d := t - c.now
  Ctl.creep t (d / 100 + 16) (c.pass (d - (d / 500 + 2)))

/-- A boundary comes: time reaches it, and TIM_BEAT_CNT counts it. -/
def Ctl.tick (c : Ctl) : Ctl :=
  let n := c.nextBeat
  let c1 := c.reach (n * 3900)
  { c1 with lastBeat := c1.clock, lastBeatNo := n, stepped := false }.bump R.TIM_BEAT_CNT_VALUE

/-- The count of boundaries is a multiple of `k`. -/
def Ctl.beatMultiple (c : Ctl) (k : Nat) : Bool := decide (c.get R.TIM_BEAT_CNT_VALUE % k = 0)

/-- The boundaries are counted: the part is out of its power-on reset, with a running oscillator. -/
def Ctl.beats (c : Ctl) : Bool := !c.inReset && decide (c.rst.awaiting ≠ 1) && decide (c.rst.awaiting ≠ 10)

/-! ## What takes effect at a boundary -/

/-- Fields that take effect at a boundary do so (R182 for the thresholds while there are no windows, R38). -/
def Ctl.takeFields (c : Ctl) : Ctl :=
  let c1 := { c with eff := c.regs }
  (if c1.ecc.window = 0 ∧ c1.get R.ECC_RET_CFG_WINDOW ≠ 0 then c1.newWindow else c1).judgePositions

/-! ## Repair windows (R39, R40) -/

/-- A column repair takes its window of 2 beats: the channel closes with its banks precharged. A retired channel's is dropped. A window waits
until no neighbour refresh is pending on the channel, which it would delay (R161, R165). -/
def Ctl.openColumnWindow (c : Ctl) (n : Nat) (r : RepairSt) : Ctl :=
  let x := c.chan r.unit
  if c.chanRetired r.unit then { c with stk.repairs := c.stk.repairs.filter fun y => decide (y ≠ r) }
  else if n % 4 = 2 ∧ x.starts = [] ∧ x.window = none ∧ x.closed = false ∧ x.banks.all (fun e => decide (e.2.nref = 0)) = true then
    { c.setChan r.unit { x with closed := true, banks := x.banks.map fun (e : Nat × BankSt) =>
        (e.1, if e.2.openRow.isSome then { e.2 with openRow := none, preAt := some c.ps, hits := 0 } else e.2) } with
      stk.repairs := c.stk.repairs.map fun (y : RepairSt) => if y = r then { r with step := 1, due := c.clock + 7800 } else y }
  else c

/-- A lane repair takes its window of 16 beats: the lane leaves service. A retired lane's is dropped. -/
def Ctl.openLaneWindow (c : Ctl) (r : RepairSt) : Ctl :=
  let l := (r.unit - 48) / 8
  if c.laneState l = 3 then { c with stk.repairs := c.stk.repairs.filter fun y => decide (y ≠ r) }
  else { c.setLaneState l 2 with
    stk.repairs := c.stk.repairs.map fun (y : RepairSt) => if y = r then { r with step := 1, due := c.clock + 62400 } else y }

/-- The repairs that wait for a window, as the running Keeper places them at beat `n`. -/
def Ctl.placeWindows (c : Ctl) (n : Nat) : Ctl :=
  if c.movesRun then
    (c.stk.repairs.filter fun r => decide (r.step = 0)).foldl (fun c r =>
      if r.unit < 48 then c.openColumnWindow n r else c.openLaneWindow r) c
  else c

/-! ## Commands that wait -/

/-- The run of a command that waited for a claim. -/
def rerunOf (h : Head) (p : Bytes) (op : Nat) : Option (Ctl → Ctl) :=
  if op = 0xC110 then some (ringCreateRun h p)
  else if op = 0xC111 then some (ringDeleteRun h p)
  else if op = 0xC112 then some (ringAssignRun h p)
  else if op = 0xC130 then some (mireLogReadRun h p)
  else if op = 0xC131 then some (frgMetaPassRun h p)
  else if op = 0xC132 then some (dieRetireRun h p)
  else if op = 0xC133 then some (retireStatusRun h p)
  else if op = opPartAssign ∨ op = opPartGive then some (partRun h op p)
  else if op = 0xC156 then some (headCfgRun h p)
  else if op = 0xC009 then some (phyLoopRun h p)
  else if op = opSeal ∨ op = opReseal then some (sealRun h op p)
  else if op = opUnseal then some (unsealRun h p)
  else if op = 0xC141 then some (keyCreateRun h p)
  else if op = 0xC142 then some (keyEraseRun h p)
  else if op = 0xC140 then some (sealBudgetRun h p)
  else if op = 0xC146 then some (sealStatusRun h p)
  else if op = 0xC011 then some (cfgWriteRun h p)
  else none

/-- The bound within which a command that waits for a claim runs or returns BUSY (R293, R295). -/
def claimBound (op : Nat) : Nat :=
  if op = 0xC130 ∨ op = 0xC133 ∨ op = 0xC146 ∨ op = 0xC111 ∨ op = opSeal ∨ op = opReseal then 1000000
  else if op = 0xC140 then 100000000 else 2000000

/-- A command that waits for a claim runs once the claim is free, or returns BUSY at its bound. -/
def Ctl.rerun (c : Ctl) (h : Head) : Ctl :=
  match (c.hd h).mbox.pend with
  | none => c
  | some q =>
    match (if q.wait = .slot then rerunOf h q.payload q.op else none) with
    | none => c
    | some run =>
      let c1 := run (c.modHd h fun x => { x with mbox := { x.mbox with pend := none } })
      match (c1.hd h).mbox.pend with
      | some r =>
        if r.wait = .slot then
          (if q.aux + claimBound q.op ≤ c.clock then c.finish h q.op .busy [] else c)
        else c1
      | none => c1

/-- The blocks that a head's command waits for, set. -/
def Ctl.setWaitBlocks (c : Ctl) (h : Head) (l : List Nat) : Ctl :=
  c.modHd h fun x => { x with mbox := { x.mbox with waitBlocks := l } }

/-- The clock of the doorbell of a head's command that waits for a claim. -/
def Ctl.waitsSince (c : Ctl) (h : Head) : Nat := match (c.hd h).mbox.pend with
  | some q => q.aux
  | none => 0

/-- The commands that wait for a claim, looked at again at each beat boundary (DESIGN CHOICE, notes/assumptions/100.md), in the order of their doorbells, Head A's first of two together (R293): the first is not held
back by what the second waits for. -/
def Ctl.rerunAll (c : Ctl) : Ctl :=
  let h : Head := if c.waitsSince .b < c.waitsSince .a then .b else .a
  let l := (c.hd h.other).mbox.waitBlocks
  (((c.setWaitBlocks h.other []).rerun h).setWaitBlocks h.other l).rerun h.other

/-- A command whose record still waits for another record's write returns BUSY 100 ms after its start, and its record is not written
(R295). -/
def Ctl.flashBound (h : Head) (c : Ctl) : Ctl :=
  match (c.hd h).mbox.pend with
  | none => c
  | some q =>
    if q.wait = .flash ∧ q.aux + 100000000 ≤ c.clock ∧ (c.sbp.writes.drop 1).any (fun (w : FlashWrite) => decide (w.by_ = some h)) = true then
      { c with sbp.writes := c.sbp.writes.take 1 ++ (c.sbp.writes.drop 1).filter fun (w : FlashWrite) => decide (w.by_ ≠ some h) }.finish h q.op
        .busy []
    else c

/-- The commands that wait for a boundary or for another command go on. -/
def Ctl.serveWaiting (c : Ctl) : Ctl :=
  let c1 := c.leavePark.forHeads Ctl.resumeCfg
  (c1.rerunAll.forHeads Ctl.flashBound).forHeads fun h c => c.resumeActivate h

/-! ## Blocked classes (R230) -/

/-- A job has a request to the stack that its class holds back: of its fragment list, its context line, its data or its packed output; of a
SCRUB, whose reads are the Forager's, the summary alone (R224, R230). -/
def Ctl.jobAsks (c : Ctl) (j : Job) : Bool :=
  j.stop.isNone && match j.phase with
  | .listWait => decide (j.srcSpace = 0)
  | .ctxWait => true
  | .running =>
    if j.op = opScrub then decide (j.dstSpace = 0) && c.frg.passes.head?.any fun p => decide (p.slot = some j.slot) && p.over
    else (!j.computed && !j.ranges.isEmpty) || !j.packBuf.isEmpty
  | _ => false

/-- A request of a class waits: outside a queue, at the mapper, for its merge, or in a job. -/
def Ctl.blockedWaits (c : Ctl) (k : Nat) : Bool :=
  c.classWaits k || (c.stk.memWait.any fun r => decide (r.cls = k)) || (c.ecc.merges.any fun m => decide (m.cls = k)) ||
    c.job.jobs.any fun j => decide (j.cls = k) && c.jobAsks j

/-- Blocked classes with a waiting request: BLOCKED_WAIT, and source 600 at the first such boundary. -/
def Ctl.judgeBlocked (c : Ctl) : Ctl :=
  (List.range 8).foldl (fun c k =>
    let b := decide (c.get (R.QOS_CLASS_CFG_LIMIT k) = 0) && c.blockedWaits k
    let was := c.flag (R.QOS_CLASS_STAT_BLOCKED_WAIT k)
    let c1 := c.set (R.QOS_CLASS_STAT_BLOCKED_WAIT k) (bit b)
    if b && !was then c1.fault 600 k else c1) c

/-! ## Row lanes out of service (R35, R40) -/

/-- Transfers of lanes out of service are dropped, and the jobs they served go on in column mode. -/
def Ctl.clearLanes (c : Ctl) : Ctl := ((List.range 4).foldl Ctl.dropXfers c).judgeModes

/-! ## The order of R263 -/

/-- Order 1: ownership changes, granule states, and the retirements that wait for a boundary (R183). -/
def State.beatOwnership (s : State) : State :=
  ((s.mapCtl Ctl.ownershipStep).sealBoundary).mapCtl fun c => c.retireStep.takeFields.clearLanes

/-- Order 2: the commits in the order of R408 and the class steps of R236; during a quiesce pending commits are dropped. The
requests that a blocked class held back are served under the classes as they then stand. -/
def State.beatCommits (s : State) : State :=
  (if s.ctl.rst.quiesce = 0 then (s.carryOld s.ctl.mapChanges).applyMap else s.mapCtl Ctl.dropCommits).mapCtl (fun c =>
    c.applyStk.applySched.classSteps.judgeModes.judgeBlocked)

/-- Order 3 and 4: refresh windows, and the thermal sample at a multiple of 256. -/
def Ctl.beatRefresh (prev n : Nat) (c : Ctl) : Ctl :=
  let c1 := c.dueWindows prev n
  if c1.beatMultiple 256 then { c1 with thm.sampleDue := true } else c1

/-- Order 5: repair windows first, then what calibration does (R363, R364) and a change of reference (R329). -/
def Ctl.beatQuiet (n : Nat) (c : Ctl) : Ctl :=
  let c1 := ((c.placeWindows n).clearLanes.calBoundary).calWindow n
  if refreshBeat n then c1 else c1.quietBeat.calStart

/-- Mired lines of the stripe table whose entry has been established again and written back are good (R152, R176). -/
def State.healTable (s : State) : State :=
  let c := s.ctl
  let back := fun ln : Nat =>
    let x := (ln * 64 - c.ctxAddr 0) / 64
    c.inStripeTable (ln * 64) && decide (c.ctxEntry x ≠ .lost) && !c.stx.dirty.contains x
  { s with lines := s.lines.filter fun e => !(e.2.isMired && back e.1) }

/-- Order 6: the Forager's slice, and the flushes of R145 and R216. -/
def State.beatFlush (s : State) : State :=
  let s1 := s.mapCtl Ctl.foragerSlice
  if s1.ctl.stk.selfRef ≤ 1 then (s1.mapCtl fun c => c.ctxFlush 256).healTable.sealFlush 64 else s1

/-- Order 7: PTM exchanges fall due, figures of merit are written (R277), and the lanes' error counts stand as they are by then. -/
def Ctl.beatPtm (c : Ctl) : Ctl :=
  let due := c.beatMultiple (max 1 (c.get R.TIM_CFG_PTM_PERIOD))
  (if due then c.forHeads fun h c => c.modHd h fun x => { x with ptmDue := true } else c).fomBoundary.countPatterns

/-- BEAT_BOUNDARY (R263). Until a start completes the boundaries are counted, thermal samples fall due in a warm one, and the
PLLs follow the clock monitor at quiet beats (R329). -/
def beatBoundary (s : State) : State :=
  if !s.ctl.beats then s
  else
    let prev := s.ctl.lastBeatNo
    let s1 := s.mapCtl fun c => c.tick.settleAll
    let n := s1.ctl.lastBeatNo
    if s1.ctl.rst.awaiting ≠ 8 then
      s1.mapCtl fun c =>
        let c1 := if c.beatMultiple 256 && c.rst.warm then { c with thm.sampleDue := true } else c
        if c1.clk.monitor && !refreshBeat n then c1.quietBeat else c1
    else ((s1.beatOwnership.beatCommits.serveWaits.mapCtl fun c => (c.beatRefresh prev n).beatQuiet n).beatFlush).mapCtl
      fun c => c.beatPtm.serveWaiting

def execBeatBoundary (s : State) : Host.Outcome State Fault Refusal := .next (beatBoundary s)

end Sys2Proof.Machine
end

