-- ==== Sys2Proof/Machine/Dispatch.lean ====
section
/-! DEFINITION. One arm per command, each one direct call of its meaning. -/

namespace Sys2Proof.Machine

/-- The effect of one command on everything but the queue. -/
def exec (i : Instr) (s : State) : Host.Outcome State Fault Refusal :=
  match i with
  | .registerWrite h off wide v => Sys2Proof.Machine.execRegisterWrite h off wide v s
  | .rcFieldRead h off => Sys2Proof.Machine.execRcFieldRead h off s
  | .snapshotRead h off wide => Sys2Proof.Machine.execSnapshotRead h off wide s
  | .beatBoundary => Sys2Proof.Machine.execBeatBoundary s
  | .stkCommit h w => Sys2Proof.Machine.execStkCommit h w s
  | .mapCommit h w => Sys2Proof.Machine.execMapCommit h w s
  | .qosSchedCommit h w => Sys2Proof.Machine.execQosSchedCommit h w s
  | .qosClassCommit h w => Sys2Proof.Machine.execQosClassCommit h w s
  | .qosBwSnapTake h w => Sys2Proof.Machine.execQosBwSnapTake h w s
  | .thermalSample => Sys2Proof.Machine.execThermalSample s
  | .refreshWindow ch => Sys2Proof.Machine.execRefreshWindow ch s
  | .perBankRefresh ch => Sys2Proof.Machine.execPerBankRefresh ch s
  | .requestEnqueue src sa write step => Sys2Proof.Machine.execRequestEnqueue src sa write step s
  | .channelCommandIssue ch dt => Sys2Proof.Machine.execChannelCommandIssue ch dt s
  | .laneCycle l dt => Sys2Proof.Machine.execLaneCycle l dt s
  | .laneRowLanded l => Sys2Proof.Machine.execLaneRowLanded l s
  | .lineReadCheck sa source lane flips => Sys2Proof.Machine.execLineReadCheck sa source lane flips s
  | .thresholdWindowBoundary => Sys2Proof.Machine.execThresholdWindowBoundary s
  | .partialWriteMerge => Sys2Proof.Machine.execPartialWriteMerge s
  | .mireLogDrain => Sys2Proof.Machine.execMireLogDrain s
  | .foragerPassEnd => Sys2Proof.Machine.execForagerPassEnd s
  | .migrationRowLanded bad => Sys2Proof.Machine.execMigrationRowLanded bad s
  | .abruptFillRow => Sys2Proof.Machine.execAbruptFillRow s
  | .columnRepairReopen ch taken => Sys2Proof.Machine.execColumnRepairReopen ch taken s
  | .laneRepairReturn l g taken => Sys2Proof.Machine.execLaneRepairReturn l g taken s
  | .feedOvercurrent d feed => Sys2Proof.Machine.execFeedOvercurrent d feed s
  | .inverterFillDone ok => Sys2Proof.Machine.execInverterFillDone ok s
  | .decodeWayWaitEnd slot => Sys2Proof.Machine.execDecodeWayWaitEnd slot s
  | .cmbDmcFlush h w => Sys2Proof.Machine.execCmbDmcFlush h w s
  | .sqDoorbell h q index => Sys2Proof.Machine.execSqDoorbell h q index s
  | .cqDoorbell h q index => Sys2Proof.Machine.execCqDoorbell h q index s
  | .ringFetchTurn => Sys2Proof.Machine.execRingFetchTurn s
  | .descriptorFetched q f => Sys2Proof.Machine.execDescriptorFetched q f s
  | .fragmentListFetched slot => Sys2Proof.Machine.execFragmentListFetched slot s
  | .jobDispatch bad => Sys2Proof.Machine.execJobDispatch bad s
  | .macPass bad => Sys2Proof.Machine.execMacPass bad s
  | .dmaReadCompletion tag data bad => Sys2Proof.Machine.execDmaReadCompletion tag data bad s
  | .dmaWriteAck tag => Sys2Proof.Machine.execDmaWriteAck tag s
  | .dmaRequestError tag => Sys2Proof.Machine.execDmaRequestError tag s
  | .dmaCompletionTimeout tag => Sys2Proof.Machine.execDmaCompletionTimeout tag s
  | .jobEnd slot => Sys2Proof.Machine.execJobEnd slot s
  | .completionPost slot => Sys2Proof.Machine.execCompletionPost slot s
  | .cqCoalesceTimeout q => Sys2Proof.Machine.execCqCoalesceTimeout q s
  | .completionWriteFail q st => Sys2Proof.Machine.execCompletionWriteFail q st s
  | .sqEnable h q w => Sys2Proof.Machine.execSqEnable h q w s
  | .sqDisable h q w => Sys2Proof.Machine.execSqDisable h q w s
  | .cqEnable h q w => Sys2Proof.Machine.execCqEnable h q w s
  | .cqDisable h q w => Sys2Proof.Machine.execCqDisable h q w s
  | .jrgAbort h q cid => Sys2Proof.Machine.execJrgAbort h q cid s
  | .jobSubmit h p => Sys2Proof.Machine.execJobSubmit h p s
  | .jobSubmitWaitExpiry h => Sys2Proof.Machine.execJobSubmitWaitExpiry h s
  | .jobSubmitSlotTimeout h => Sys2Proof.Machine.execJobSubmitSlotTimeout h s
  | .ocsSlotGranted => Sys2Proof.Machine.execOcsSlotGranted s
  | .jobQuery h p => Sys2Proof.Machine.execJobQuery h p s
  | .jobAbort h p => Sys2Proof.Machine.execJobAbort h p s
  | .ringCreate h p => Sys2Proof.Machine.execRingCreate h p s
  | .ringDelete h p => Sys2Proof.Machine.execRingDelete h p s
  | .ringDeleteDrained h => Sys2Proof.Machine.execRingDeleteDrained h s
  | .ringAssign h p => Sys2Proof.Machine.execRingAssign h p s
  | .ctxAlloc h p => Sys2Proof.Machine.execCtxAlloc h p s
  | .ctxRead h p => Sys2Proof.Machine.execCtxRead h p s
  | .ctxWrite h p => Sys2Proof.Machine.execCtxWrite h p s
  | .ctxMark h p => Sys2Proof.Machine.execCtxMark h p s
  | .ctxRetire h p => Sys2Proof.Machine.execCtxRetire h p s
  | .ctxFree h p => Sys2Proof.Machine.execCtxFree h p s
  | .ctxAssign h p => Sys2Proof.Machine.execCtxAssign h p s
  | .ctxHoldRelease h w => Sys2Proof.Machine.execCtxHoldRelease h w s
  | .ctxHoldTimeout h w => Sys2Proof.Machine.execCtxHoldTimeout h w s
  | .stxWinRead h w => Sys2Proof.Machine.execStxWinRead h w s
  | .stxWinWrite h w => Sys2Proof.Machine.execStxWinWrite h w s
  | .ctxLineFetched slot => Sys2Proof.Machine.execCtxLineFetched slot s
  | .ctxWayWaitEnd slot => Sys2Proof.Machine.execCtxWayWaitEnd slot s
  | .ctxRewriteDone => Sys2Proof.Machine.execCtxRewriteDone s
  | .selfRefreshEntered => Sys2Proof.Machine.execSelfRefreshEntered s
  | .selfRefreshExited => Sys2Proof.Machine.execSelfRefreshExited s
  | .cxlMemRead h dpa => Sys2Proof.Machine.execCxlMemRead h dpa s
  | .cxlMemWrite h dpa poison data => Sys2Proof.Machine.execCxlMemWrite h dpa poison data s
  | .cxlMemPartialWrite h dpa data => Sys2Proof.Machine.execCxlMemPartialWrite h dpa data s
  | .hdmDecoderCommit h n base size skip ways gran lock => Sys2Proof.Machine.execHdmDecoderCommit h n base size skip ways gran lock s
  | .sealBudgetSet h p => Sys2Proof.Machine.execSealBudgetSet h p s
  | .keyCreate h p => Sys2Proof.Machine.execKeyCreate h p s
  | .keyErase h p => Sys2Proof.Machine.execKeyErase h p s
  | .keyZeroiseDone slot => Sys2Proof.Machine.execKeyZeroiseDone slot s
  | .sealGranule h p => Sys2Proof.Machine.execSealGranule h p s
  | .reseal h p => Sys2Proof.Machine.execReseal h p s
  | .sealFillDone g => Sys2Proof.Machine.execSealFillDone g s
  | .unseal h p => Sys2Proof.Machine.execUnseal h p s
  | .sealStatus h p => Sys2Proof.Machine.execSealStatus h p s
  | .sealMetadataArrival sa source fetched tag => Sys2Proof.Machine.execSealMetadataArrival sa source fetched tag s
  | .pageReencryption sa bad => Sys2Proof.Machine.execPageReencryption sa bad s
  | .ideIntegrityFailure h stream => Sys2Proof.Machine.execIdeIntegrityFailure h stream s
  | .partnerDetected h => Sys2Proof.Machine.execPartnerDetected h s
  | .dlUp h k => Sys2Proof.Machine.execDlUp h k s
  | .dlDown h n => Sys2Proof.Machine.execDlDown h n s
  | .linkRetrain h k => Sys2Proof.Machine.execLinkRetrain h k s
  | .fenceTimerExpiry h => Sys2Proof.Machine.execFenceTimerExpiry h s
  | .fenceComplete h => Sys2Proof.Machine.execFenceComplete h s
  | .perstAssert h => Sys2Proof.Machine.execPerstAssert h s
  | .perstDeassert h => Sys2Proof.Machine.execPerstDeassert h s
  | .hotResetReceived h => Sys2Proof.Machine.execHotResetReceived h s
  | .linkDisableReceived h => Sys2Proof.Machine.execLinkDisableReceived h s
  | .functionLevelReset h => Sys2Proof.Machine.execFunctionLevelReset h s
  | .configSpaceWrite h item => Sys2Proof.Machine.execConfigSpaceWrite h item s
  | .fence h p => Sys2Proof.Machine.execFence h p s
  | .adopt h p => Sys2Proof.Machine.execAdopt h p s
  | .headRejoin h p => Sys2Proof.Machine.execHeadRejoin h p s
  | .headStatus h p => Sys2Proof.Machine.execHeadStatus h p s
  | .partAssign h p => Sys2Proof.Machine.execPartAssign h p s
  | .partGive h p => Sys2Proof.Machine.execPartGive h p s
  | .headCfg h p => Sys2Proof.Machine.execHeadCfg h p s
  | .ptmExchangeStart => Sys2Proof.Machine.execPtmExchangeStart s
  | .ptmResponse h t => Sys2Proof.Machine.execPtmResponse h t s
  | .holdoverExpiry t => Sys2Proof.Machine.execHoldoverExpiry t s
  | .preferredHeadWaitExpiry => Sys2Proof.Machine.execPreferredHeadWaitExpiry s
  | .timSwitch h w => Sys2Proof.Machine.execTimSwitch h w s
  | .identifyMemoryDevice h p => Sys2Proof.Machine.execIdentifyMemoryDevice h p s
  | .getHealthInfo h p => Sys2Proof.Machine.execGetHealthInfo h p s
  | .getEventRecords h p => Sys2Proof.Machine.execGetEventRecords h p s
  | .clearEventRecords h p => Sys2Proof.Machine.execClearEventRecords h p s
  | .getEventInterruptPolicy h p => Sys2Proof.Machine.execGetEventInterruptPolicy h p s
  | .setEventInterruptPolicy h p => Sys2Proof.Machine.execSetEventInterruptPolicy h p s
  | .getSupportedLogs h p => Sys2Proof.Machine.execGetSupportedLogs h p s
  | .getLog h p => Sys2Proof.Machine.execGetLog h p s
  | .getTimestamp h p => Sys2Proof.Machine.execGetTimestamp h p s
  | .setTimestamp h p => Sys2Proof.Machine.execSetTimestamp h p s
  | .getPoisonList h p => Sys2Proof.Machine.execGetPoisonList h p s
  | .getFwInfo h p => Sys2Proof.Machine.execGetFwInfo h p s
  | .transferFw h p img => Sys2Proof.Machine.execTransferFw h p img s
  | .fwTransferTimeout => Sys2Proof.Machine.execFwTransferTimeout s
  | .activateFw h p => Sys2Proof.Machine.execActivateFw h p s
  | .stdUnsupportedCommand h op p => Sys2Proof.Machine.execStdUnsupportedCommand h op p s
  | .doeRequest h o => Sys2Proof.Machine.execDoeRequest h o s
  | .lowRateRetrain h => Sys2Proof.Machine.execLowRateRetrain h s
  | .adaptationUpdate n a => Sys2Proof.Machine.execAdaptationUpdate n a s
  | .fomSweepStart n => Sys2Proof.Machine.execFomSweepStart n s
  | .fomSweepEnd n lower middle upper => Sys2Proof.Machine.execFomSweepEnd n lower middle upper s
  | .marginingCommand n on => Sys2Proof.Machine.execMarginingCommand n on s
  | .eyeScanStart h n w => Sys2Proof.Machine.execEyeScanStart h n w s
  | .eyeScanPointEnd n mismatches => Sys2Proof.Machine.execEyeScanPointEnd n mismatches s
  | .scanDataRead h n => Sys2Proof.Machine.execScanDataRead h n s
  | .nearEndLoopStart h w => Sys2Proof.Machine.execNearEndLoopStart h w s
  | .nearEndLoopStop h w => Sys2Proof.Machine.execNearEndLoopStop h w s
  | .farEndLoopbackEntry h mask => Sys2Proof.Machine.execFarEndLoopbackEntry h mask s
  | .l0pRequest h narrow => Sys2Proof.Machine.execL0pRequest h narrow s
  | .ocsIdentify h p => Sys2Proof.Machine.execOcsIdentify h p s
  | .healthGet h p => Sys2Proof.Machine.execHealthGet h p s
  | .levelSet h p => Sys2Proof.Machine.execLevelSet h p s
  | .levelLock h p => Sys2Proof.Machine.execLevelLock h p s
  | .compatSet h p => Sys2Proof.Machine.execCompatSet h p s
  | .mapRecordSet h p => Sys2Proof.Machine.execMapRecordSet h p s
  | .mapRecordGet h p => Sys2Proof.Machine.execMapRecordGet h p s
  | .stackPark h p => Sys2Proof.Machine.execStackPark h p s
  | .parkComplete => Sys2Proof.Machine.execParkComplete s
  | .stackUnpark h p => Sys2Proof.Machine.execStackUnpark h p s
  | .phyLoop h p => Sys2Proof.Machine.execPhyLoop h p s
  | .cfgRead h p => Sys2Proof.Machine.execCfgRead h p s
  | .cfgWrite h p => Sys2Proof.Machine.execCfgWrite h p s
  | .fwStatus h p => Sys2Proof.Machine.execFwStatus h p s
  | .fwConfirm h p => Sys2Proof.Machine.execFwConfirm h p s
  | .fwSelect h p => Sys2Proof.Machine.execFwSelect h p s
  | .fwSvnCommit h p stuck => Sys2Proof.Machine.execFwSvnCommit h p stuck s
  | .ocsUnsupportedOpcode h op p => Sys2Proof.Machine.execOcsUnsupportedOpcode h op p s
  | .backgroundProgressUpdate h percent => Sys2Proof.Machine.execBackgroundProgressUpdate h percent s
  | .lockStepMismatch => Sys2Proof.Machine.execLockStepMismatch s
  | .watchdogExpiry => Sys2Proof.Machine.execWatchdogExpiry s
  | .keeperReady dt => Sys2Proof.Machine.execKeeperReady dt s
  | .imageReadyTimeout => Sys2Proof.Machine.execImageReadyTimeout s
  | .trialConfirmTimeout => Sys2Proof.Machine.execTrialConfirmTimeout s
  | .sensorConversion r => Sys2Proof.Machine.execSensorConversion r s
  | .canaryCheck d failed => Sys2Proof.Machine.execCanaryCheck d failed s
  | .graceTimerExpiry => Sys2Proof.Machine.execGraceTimerExpiry s
  | .escalationTimerExpiry => Sys2Proof.Machine.execEscalationTimerExpiry s
  | .releaseTimerExpiry => Sys2Proof.Machine.execReleaseTimerExpiry s
  | .shutdownJobAbort => Sys2Proof.Machine.execShutdownJobAbort s
  | .shutdownStopDecision => Sys2Proof.Machine.execShutdownStopDecision s
  | .thermalResume => Sys2Proof.Machine.execThermalResume s
  | .railTelemetryUpdate m => Sys2Proof.Machine.execRailTelemetryUpdate m s
  | .powerCeilingUpdate => Sys2Proof.Machine.execPowerCeilingUpdate s
  | .thermalGet h p => Sys2Proof.Machine.execThermalGet h p s
  | .oscStable => Sys2Proof.Machine.execOscStable s
  | .pllLock dt => Sys2Proof.Machine.execPllLock dt s
  | .clockMonitorWindow a b => Sys2Proof.Machine.execClockMonitorWindow a b s
  | .gateOpen d => Sys2Proof.Machine.execGateOpen d s
  | .gateIdleExpiry d => Sys2Proof.Machine.execGateIdleExpiry d s
  | .gateClose d late => Sys2Proof.Machine.execGateClose d late s
  | .deviceReset h p => Sys2Proof.Machine.execDeviceReset h p s
  | .rstCtlWarm h w => Sys2Proof.Machine.execRstCtlWarm h w s
  | .bootStatusGet h p => Sys2Proof.Machine.execBootStatusGet h p s
  | .warmReset => Sys2Proof.Machine.execWarmReset s
  | .quiesceForced => Sys2Proof.Machine.execQuiesceForced s
  | .quiesceComplete t => Sys2Proof.Machine.execQuiesceComplete t s
  | .railsInTolerance heads => Sys2Proof.Machine.execRailsInTolerance heads s
  | .railBrownOut r => Sys2Proof.Machine.execRailBrownOut r s
  | .vauxLoss => Sys2Proof.Machine.execVauxLoss s
  | .vauxRise sba => Sys2Proof.Machine.execVauxRise sba s
  | .railOutOfTolerance r => Sys2Proof.Machine.execRailOutOfTolerance r s
  | .railReturn r => Sys2Proof.Machine.execRailReturn r s
  | .fuseSensingDone weak => Sys2Proof.Machine.execFuseSensingDone weak s
  | .flashAnswerTimeout => Sys2Proof.Machine.execFlashAnswerTimeout s
  | .imageAccepted sram sel a b dt => Sys2Proof.Machine.execImageAccepted sram sel a b dt s
  | .tsvTrainingDone feeds pairOpen found dt => Sys2Proof.Machine.execTsvTrainingDone feeds pairOpen found dt s
  | .stackBringupDone bad dt => Sys2Proof.Machine.execStackBringupDone bad dt s
  | .startRetryWaitExpiry => Sys2Proof.Machine.execStartRetryWaitExpiry s
  | .fuseRead h p weak => Sys2Proof.Machine.execFuseRead h p weak s
  | .fuseProgram h p stuck => Sys2Proof.Machine.execFuseProgram h p stuck s
  | .fuseLock h p stuck => Sys2Proof.Machine.execFuseLock h p stuck s
  | .lcAdvance h p auth stuck => Sys2Proof.Machine.execLcAdvance h p auth stuck s
  | .calRun h p => Sys2Proof.Machine.execCalRun h p s
  | .calMeasurementEnd found ends => Sys2Proof.Machine.execCalMeasurementEnd found ends s
  | .testEnter h p => Sys2Proof.Machine.execTestEnter h p s
  | .bistRun h p => Sys2Proof.Machine.execBistRun h p s
  | .bistStart h w => Sys2Proof.Machine.execBistStart h w s
  | .bistDone pass repairs => Sys2Proof.Machine.execBistDone pass repairs s
  | .repairCommit h p stuck => Sys2Proof.Machine.execRepairCommit h p stuck s
  | .cmbDispatchResume => Sys2Proof.Machine.execCmbDispatchResume s
  | .faultAck h p => Sys2Proof.Machine.execFaultAck h p s
  | .faultLogRead h p => Sys2Proof.Machine.execFaultLogRead h p s
  | .fltPendAck h n w => Sys2Proof.Machine.execFltPendAck h n w s
  | .errnRelease h w => Sys2Proof.Machine.execErrnRelease h w s
  | .errnPulseEnd => Sys2Proof.Machine.execErrnPulseEnd s
  | .sbWriteTransaction p stop stuck => Sys2Proof.Machine.execSbWriteTransaction p stop stuck s
  | .sbReadTransaction n => Sys2Proof.Machine.execSbReadTransaction n s
  | .sbBusClear => Sys2Proof.Machine.execSbBusClear s
  | .sbSclTimeout => Sys2Proof.Machine.execSbSclTimeout s
  | .sbSdaTimeout => Sys2Proof.Machine.execSbSdaTimeout s
  | .fruWrite h p => Sys2Proof.Machine.execFruWrite h p s
  | .fruRead h p => Sys2Proof.Machine.execFruRead h p s
  | .flashInfo h p => Sys2Proof.Machine.execFlashInfo h p s
  | .flashRecordWritten ok => Sys2Proof.Machine.execFlashRecordWritten ok s
  | .mireLogRead h p => Sys2Proof.Machine.execMireLogRead h p s
  | .frgMetaPass h p => Sys2Proof.Machine.execFrgMetaPass h p s
  | .dieRetire h p => Sys2Proof.Machine.execDieRetire h p s
  | .retireStatus h p => Sys2Proof.Machine.execRetireStatus h p s
  | .phyPllLock h => Sys2Proof.Machine.execPhyPllLock h s
  | .pllLockTimeout => Sys2Proof.Machine.execPllLockTimeout s
  | .fuseWordReadTimeout => Sys2Proof.Machine.execFuseWordReadTimeout s
  | .neitherImagePasses a b => Sys2Proof.Machine.execNeitherImagePasses a b s
  | .partnerLost h => Sys2Proof.Machine.execPartnerLost h s

end Sys2Proof.Machine
end

