-- ==== Sys2Proof/WellFormed.lean ====
section
/-! DEFINITION. Which commands can be sent at all: the operands within the ranges that the spec gives them. The meanings
are total and need none of these checks; a statement uses them where it speaks of what a sender may send. -/

namespace Sys2Proof

/-- Why a command is ill formed. -/
inductive IllFormed where
  /-- A register offset outside the 16 MiB of BAR0, or a value wider than the access (R12, R404). -/
  | access
  /-- A channel number of 48 or more (R1). -/
  | channel
  /-- A row lane other than 0 to 3, or a TSV group other than 0 to 7 (R30, R38). -/
  | lane
  /-- A die number of 12 or more (R1). -/
  | die
  /-- A stack address outside 48 GiB (R48). -/
  | stackAddress
  /-- An input payload of more than 2 KiB (R290). -/
  | payload
  /-- Line data that is not 64 bytes, bytes of a partial write outside their line (R174), or a flip outside the 72 symbols of a line
  (R170). -/
  | lineData
  deriving DecidableEq, Repr

/-- The first check that fails, or none. -/
def firstIllFormed : List (Bool × IllFormed) → Option IllFormed
  | [] => none
  | (ok, e) :: t => if ok then firstIllFormed t else some e

/-- The bytes of BAR0 (R404). -/
def bar0Bytes : Nat := 16777216

/-- The bytes of the stack of the larger part (R1). -/
def stackBytes : Nat := 51539607552

/-- A register access lies in BAR0 and carries a value of its width. -/
def accessOk (off : Nat) (wide : Bool) (v : Nat) : Bool :=
  decide (off < bar0Bytes) && decide (v < 2 ^ (if wide then 64 else 32))

/-- Which check a command fails, if any. -/
def Instr.illFormed : Instr → Option IllFormed
  | .registerWrite _ off wide v => firstIllFormed [(accessOk off wide v, .access)]
  | .rcFieldRead _ off => firstIllFormed [(accessOk off false 0, .access)]
  | .snapshotRead _ off wide => firstIllFormed [(accessOk off wide 0, .access)]
  | .refreshWindow ch | .perBankRefresh ch | .channelCommandIssue ch _ | .columnRepairReopen ch _ =>
    firstIllFormed [(decide (ch < 48), .channel)]
  | .requestEnqueue _ sa _ _ => firstIllFormed [(decide (sa < stackBytes), .stackAddress)]
  | .laneCycle l _ | .laneRowLanded l => firstIllFormed [(decide (l < 4), .lane)]
  | .laneRepairReturn l g _ => firstIllFormed [(decide (l < 4) && decide (g < 8), .lane)]
  | .lineReadCheck sa _ _ flips =>
    firstIllFormed [(decide (sa < stackBytes), .stackAddress), (flips.all fun e => decide (e.1 < 72), .lineData)]
  | .sealMetadataArrival sa _ _ _ | .pageReencryption sa _ => firstIllFormed [(decide (sa < stackBytes), .stackAddress)]
  | .feedOvercurrent d _ | .canaryCheck d _ => firstIllFormed [(decide (d < 12), .die)]
  | .cxlMemWrite _ _ _ data => firstIllFormed [(decide (data.length = 64), .lineData)]
  | .cxlMemPartialWrite _ _ data => firstIllFormed [(data.all fun e => decide (e.1 < 64), .lineData)]
  | .jobSubmit _ p | .jobQuery _ p | .jobAbort _ p | .ringCreate _ p | .ringDelete _ p | .ringAssign _ p |
    .ctxAlloc _ p | .ctxRead _ p | .ctxWrite _ p | .ctxMark _ p | .ctxRetire _ p | .ctxFree _ p | .ctxAssign _ p |
    .sealBudgetSet _ p | .keyCreate _ p | .keyErase _ p | .sealGranule _ p | .reseal _ p | .unseal _ p |
    .sealStatus _ p | .fence _ p | .adopt _ p | .headRejoin _ p | .headStatus _ p | .partAssign _ p | .partGive _ p |
    .headCfg _ p | .identifyMemoryDevice _ p | .getHealthInfo _ p | .getEventRecords _ p | .clearEventRecords _ p |
    .getEventInterruptPolicy _ p | .setEventInterruptPolicy _ p | .getSupportedLogs _ p | .getLog _ p |
    .getTimestamp _ p | .setTimestamp _ p | .getPoisonList _ p | .getFwInfo _ p |
    .activateFw _ p | .stdUnsupportedCommand _ _ p | .ocsIdentify _ p | .healthGet _ p | .levelSet _ p |
    .levelLock _ p | .compatSet _ p | .mapRecordSet _ p | .mapRecordGet _ p | .stackPark _ p | .stackUnpark _ p |
    .phyLoop _ p | .cfgRead _ p | .cfgWrite _ p | .fwStatus _ p | .fwConfirm _ p | .fwSelect _ p |
    .fwSvnCommit _ p _ | .ocsUnsupportedOpcode _ _ p | .thermalGet _ p | .deviceReset _ p | .bootStatusGet _ p |
    .fuseRead _ p _ | .fuseProgram _ p _ | .fuseLock _ p _ | .calRun _ p | .testEnter _ p |
    .bistRun _ p | .repairCommit _ p _ | .faultAck _ p | .faultLogRead _ p | .fruWrite _ p | .fruRead _ p |
    .flashInfo _ p | .mireLogRead _ p | .frgMetaPass _ p | .dieRetire _ p | .retireStatus _ p =>
    firstIllFormed [(decide (p.length ≤ 2048), .payload)]
  | .transferFw _ p q | .lcAdvance _ p q _ => firstIllFormed [(decide ((p ++ q).length ≤ 2048), .payload)]
  | .beatBoundary | .stkCommit _ _ | .mapCommit _ _ | .qosSchedCommit _ _ | .qosClassCommit _ _ |
    .qosBwSnapTake _ _ | .thermalSample | .thresholdWindowBoundary | .partialWriteMerge | .mireLogDrain |
    .foragerPassEnd | .migrationRowLanded _ | .abruptFillRow | .inverterFillDone _ | .decodeWayWaitEnd _ |
    .cmbDmcFlush _ _ | .sqDoorbell _ _ _ | .cqDoorbell _ _ _ | .ringFetchTurn | .descriptorFetched _ _ |
    .fragmentListFetched _ | .jobDispatch _ | .macPass _ | .dmaReadCompletion _ _ _ | .dmaWriteAck _ |
    .dmaRequestError _ | .dmaCompletionTimeout _ | .jobEnd _ | .completionPost _ | .cqCoalesceTimeout _ |
    .completionWriteFail _ _ | .sqEnable _ _ _ | .sqDisable _ _ _ | .cqEnable _ _ _ | .cqDisable _ _ _ |
    .jrgAbort _ _ _ | .jobSubmitWaitExpiry _ | .jobSubmitSlotTimeout _ | .ocsSlotGranted | .ringDeleteDrained _ |
    .ctxHoldRelease _ _ | .ctxHoldTimeout _ _ | .stxWinRead _ _ | .stxWinWrite _ _ | .ctxLineFetched _ |
    .ctxWayWaitEnd _ | .ctxRewriteDone | .selfRefreshEntered | .selfRefreshExited | .cxlMemRead _ _ |
    .hdmDecoderCommit _ _ _ _ _ _ _ _ | .keyZeroiseDone _ | .sealFillDone _ | .ideIntegrityFailure _ _ |
    .partnerDetected _ | .dlUp _ _ | .dlDown _ _ | .linkRetrain _ _ | .fenceTimerExpiry _ | .fenceComplete _ |
    .perstAssert _ | .perstDeassert _ | .hotResetReceived _ | .linkDisableReceived _ | .functionLevelReset _ |
    .configSpaceWrite _ _ | .ptmExchangeStart | .ptmResponse _ _ | .holdoverExpiry _ | .preferredHeadWaitExpiry |
    .timSwitch _ _ | .fwTransferTimeout | .doeRequest _ _ | .lowRateRetrain _ | .adaptationUpdate _ _ |
    .fomSweepStart _ | .fomSweepEnd _ _ _ _ | .marginingCommand _ _ | .eyeScanStart _ _ _ | .eyeScanPointEnd _ _ |
    .scanDataRead _ _ | .nearEndLoopStart _ _ | .nearEndLoopStop _ _ | .farEndLoopbackEntry _ _ | .l0pRequest _ _ |
    .parkComplete | .backgroundProgressUpdate _ _ | .lockStepMismatch | .watchdogExpiry | .keeperReady _ |
    .imageReadyTimeout | .trialConfirmTimeout | .sensorConversion _ | .graceTimerExpiry | .escalationTimerExpiry |
    .releaseTimerExpiry | .shutdownJobAbort | .shutdownStopDecision | .thermalResume | .railTelemetryUpdate _ |
    .powerCeilingUpdate | .oscStable | .pllLock _ | .clockMonitorWindow _ _ | .gateOpen _ | .gateIdleExpiry _ |
    .gateClose _ _ | .rstCtlWarm _ _ | .warmReset | .quiesceForced | .quiesceComplete _ | .railsInTolerance _ |
    .railBrownOut _ | .vauxLoss | .vauxRise _ | .railOutOfTolerance _ | .railReturn _ | .fuseSensingDone _ |
    .flashAnswerTimeout | .imageAccepted _ _ _ _ _ | .tsvTrainingDone _ _ _ _ | .stackBringupDone _ _ |
    .startRetryWaitExpiry | .calMeasurementEnd _ _ | .bistStart _ _ | .bistDone _ _ | .cmbDispatchResume |
    .fltPendAck _ _ _ | .errnRelease _ _ | .errnPulseEnd | .sbWriteTransaction _ _ _ | .sbReadTransaction _ |
    .sbBusClear | .sbSclTimeout | .sbSdaTimeout | .flashRecordWritten _ | .phyPllLock _ | .pllLockTimeout |
    .fuseWordReadTimeout | .neitherImagePasses _ _ | .partnerLost _ => none

/-- A command that can be sent. -/
abbrev Instr.WellFormed (i : Instr) : Prop := i.illFormed = none

end Sys2Proof
end

