-- ==== Sys2Proof/Safety.lean ====
section
/-! DEFINITION. What counts as a safe run, in the terms that statements use: the invariants of the state, what a command leaves
alone, and the words in which a statement says that a command got through and what answered it. -/

namespace Sys2Proof.Machine

/-! ## Invariants -/

/-- The stack's bytes stand in the canonical form: addresses strictly rising, and no listed byte equal to what an unlisted
one reads as. -/
def State.MemOk (s : State) : Prop := Memory.wf s.mem = true

/-- Each line of the stack has at most one recorded status. -/
def State.LinesOk (s : State) : Prop := (s.lines.map Prod.fst).Nodup

/-! ## What a command leaves alone -/

/-- The stack, the status of its lines and the waiting commands are as they were: every byte reads as before. -/
def State.sameStack (s t : State) : Prop := t.mem = s.mem ∧ t.lines = s.lines ∧ t.pending = s.pending

/-- The stack's bytes and the waiting commands are as they were, and so is the status of every line but for mired lines that have
become good: what the write-back of sealed metadata does to the lines it writes (R176, R210). -/
def State.onlyHeals (s t : State) : Prop :=
  t.mem = s.mem ∧ t.pending = s.pending ∧
    ∀ ln, mapGet t.lines ln = mapGet s.lines ln ∨ ((s.status (64 * ln)).isMired = true ∧ mapGet t.lines ln = some .good)

/-- Every register field but those listed keeps its value. -/
def Ctl.keeps (c d : Ctl) (l : List Fld) : Prop := ∀ x : Fld, (∀ y ∈ l, y.key ≠ x.key) → d.get x = c.get x

/-- Only register fields differ. -/
def Ctl.onlyRegs (c d : Ctl) : Prop := d = { c with regs := d.regs }

/-- Of what the device keeps for a head only the mailbox, the pending vectors and the messages that wait for the link differ. -/
def HeadSt.onlyReplies (x y : HeadSt) : Prop := y = { x with mbox := y.mbox, msixPend := y.msixPend, waiting := y.waiting }

/-- The same, and the event logs. -/
def HeadSt.onlyReports (x y : HeadSt) : Prop :=
  y = { x with mbox := y.mbox, msixPend := y.msixPend, waiting := y.waiting, logs := y.logs }

/-- Nothing differs but the mailboxes and vectors of the heads, the claims and what was sent out: what the completion of a
mailbox command changes. -/
def Ctl.onlyReplies (c d : Ctl) : Prop :=
  d = { c with hdA := d.hdA, hdB := d.hdB, claims := d.claims, outbox := d.outbox } ∧
    ∀ h, (c.hd h).onlyReplies (d.hd h)

/-- Nothing differs but register fields, event logs and what the completion of a mailbox command changes. -/
def Ctl.onlyRegsReplies (c d : Ctl) : Prop :=
  d = { c with regs := d.regs, hdA := d.hdA, hdB := d.hdB, claims := d.claims, outbox := d.outbox } ∧
    ∀ h, (c.hd h).onlyReports (d.hd h)

/-- A frame over the whole machine: the control side by `p`, and the stack. -/
def State.frame (p : Ctl → Ctl → Prop) (s t : State) : Prop := p s.ctl t.ctl ∧ s.sameStack t

/-! ## Getting through -/

/-- A head's write to an offset of BAR0 reaches its register whole: the register map has one there (R405), the head is not
fenced (R248), the CXL.io stream that carries the address is not insecure (R219), the head has expert level outside the IDC
block (R19), the gate is open (R334), the register is not another head's (R87, R123, R270, R285), and no command claims the
block (R20). -/
def Ctl.reached (c : Ctl) (h : Head) (off v : Nat) : Prop :=
  (findReg off).isSome = true ∧ c.ioRefused h ((c.hd h).bar0 + off) = false ∧ c.fenced h = false ∧
    (c.expert h = true ∨ off < 65536) ∧ c.gateClosed off = false ∧ c.foreign h off v = 0 ∧
    c.claimed (blockOf off) = false

/-- The write of the register of a field, the field being `x` and the other bits those of `w`, reaches it. -/
def State.reached (s : State) (h : Head) (f : Fld) (x : Nat) (w : Word) : Prop :=
  s.ctl.reached h (offsetOf f) (withBits f x w.toNat)

/-- A mailbox command gets to its own rules: the mailbox is free and can be written (R219, R310), and the gate lets it
pass (R22, R248, R290, R292, R294, R303). -/
def State.takes (s : State) (h : Head) (k : CmdKind) (p : Bytes) : Prop :=
  s.ctl.mboxFree h = true ∧ s.ctl.gate h k p = none

/-- A standard mailbox command gets to its own rules: the mailbox is free and can be written (R219, R310), the Keeper
runs (R292), a fenced head may send the command (R248), and its payload is long enough. -/
def State.takesStd (s : State) (h : Head) (fenceOk : Bool) (min : Nat) (p : Bytes) : Prop :=
  s.ctl.mboxFree h = true ∧ s.ctl.kpr.phase = 3 ∧ (s.ctl.fenced h = true → fenceOk = true) ∧ min ≤ p.length

/-- None of the blocks is claimed for a command of the other head (R20, R293). -/
def State.unclaimed (s : State) (h : Head) (blocks : List Nat) : Prop :=
  ∀ b ∈ blocks, s.ctl.claimedByOther h b = false

/-! ## Answers -/

/-- A mailbox command has completed with an OCS code, its Return Code and a payload (R291), and none is in progress. -/
def State.replied (t : State) (h : Head) (op : Nat) (o : Ocs) (out : Bytes) : Prop :=
  (t.ctl.hd h).mbox.last = some ⟨op, o.rc, o.num, out⟩ ∧ (t.ctl.hd h).mbox.pend = none

/-- A mailbox command has completed with a Return Code, an OCS code and a payload (R291), and none is in progress. -/
def State.answered (t : State) (h : Head) (op rc ocs : Nat) (out : Bytes) : Prop :=
  (t.ctl.hd h).mbox.last = some ⟨op, rc, ocs, out⟩ ∧ (t.ctl.hd h).mbox.pend = none

/-- A mailbox command is in progress and waits (R293). -/
def State.waits (t : State) (h : Head) (op : Nat) (p : Bytes) (w : Wait) : Prop :=
  ∃ n, (t.ctl.hd h).mbox.pend = some ⟨op, p, w, n⟩

/-- A background command has started (R294). -/
def State.started (t : State) (h : Head) (op : Nat) (p : Bytes) : Prop :=
  (∃ n, (t.ctl.hd h).mbox.bg = some ⟨op, p, 0, n⟩) ∧ (t.ctl.hd h).mbox.last = some ⟨op, 1, 0, []⟩ ∧
    (t.ctl.hd h).mbox.pend = none

/-- A record write has been added behind those that wait, and but for the mailboxes nothing else differs (R302, R394). -/
def Ctl.queues (w : FlashWrite) (c d : Ctl) : Prop :=
  d = { c with hdA := d.hdA, hdB := d.hdB, sbp := { c.sbp with writes := c.sbp.writes ++ [w] } } ∧
    ∀ h, (c.hd h).onlyReplies (d.hd h)

/-- One more vendor record of a code stands in a log of every head that takes records and whose log is not full (R264). -/
def State.recorded (s t : State) (log code headNo info : Nat) : Prop :=
  ∀ k l, s.ctl.live k = true → (s.ctl.hd k).logs[log]? = some l → l.recs.length < 128 →
    ∃ m, (t.ctl.hd k).logs[log]? = some m ∧
      m.recs = l.recs ++ [⟨l.nextHandle, kindVendor, code, headNo, t.ctl.now, info, 0⟩]

/-- A head that takes records, and whose log has room, has been told of an event among the latest records of the log
(R264, R265). -/
def State.told (s t : State) (h : Head) (log code headNo : Nat) : Prop :=
  ∀ l, s.ctl.live h = true → (s.ctl.hd h).logs[log]? = some l → l.recs.length + 16 ≤ 128 →
    ∃ m x, (t.ctl.hd h).logs[log]? = some m ∧ m.recs = l.recs ++ x ∧ ∃ r ∈ x, r.code = code ∧ r.headNo = headNo

/-- A start attempt has failed (R344): the stack holds nothing, boot status names the cause, one more attempt is counted, the
Keeper is in reset, and the wait before the next attempt runs. -/
def State.failedStart (s t : State) (cause : Nat) : Prop :=
  t.mem = [] ∧ t.lines = [] ∧ t.pending = s.pending ∧ t.ctl.rst.awaiting = 9 ∧ t.ctl.rst.fails = s.ctl.rst.fails + 1 ∧
    t.ctl.kpr.phase = 0 ∧ t.ctl.get R.RST_BOOT_STATUS_PHASE = 1 ∧ t.ctl.get R.RST_BOOT_STATUS_CAUSE = cause ∧
    t.ctl.rst.retryDue = t.ctl.clock + retryWait cause (s.ctl.rst.fails + 1)

end Sys2Proof.Machine
end

