-- ==== Sys2Proof/Certificates/Slice0/Obligations.lean ====
section
/-! DEFINITION. The statements for the provers, one definition each; OBLIGATIONS.json lists them with the rules they formalise.
The words they are put in (what a command leaves alone, when it gets through, what answers it) stand in Safety.lean. -/

open Sys2Proof Sys2Proof.Machine

/-- The commands whose effect may reach the stack's bytes or the status of its lines: CXL.mem requests, job passes and ends,
line checks and merges, losses and migration, seal work, commits at a beat, self-refresh, resets, starts and their failures,
power losses, trips and BIST. -/
def Obligations.reachesStack : Instr → Bool
  | .beatBoundary | .thermalSample | .lineReadCheck _ _ _ _ | .partialWriteMerge | .foragerPassEnd |
    .migrationRowLanded _ | .abruptFillRow | .feedOvercurrent _ _ | .fragmentListFetched _ | .jobDispatch _ | .macPass _ |
    .jobEnd _ | .selfRefreshEntered | .selfRefreshExited | .cxlMemRead _ _ | .cxlMemWrite _ _ _ _ |
    .cxlMemPartialWrite _ _ _ | .sealMetadataArrival _ _ _ _ | .pageReencryption _ _ | .lockStepMismatch | .watchdogExpiry |
    .imageReadyTimeout | .sensorConversion _ | .shutdownStopDecision | .thermalResume | .warmReset | .railBrownOut _ |
    .vauxLoss | .railOutOfTolerance _ | .fuseSensingDone _ | .flashAnswerTimeout | .imageAccepted _ _ _ _ _ |
    .tsvTrainingDone _ _ _ _ | .stackBringupDone _ _ | .bistDone _ _ | .pllLockTimeout | .fuseWordReadTimeout |
    .neitherImagePasses _ _ => true
  | _ => false

/-- A register of a plain kind is at an offset: the register map has it there, it is built, its window is open, and neither
reading nor writing it starts anything but what its access types say (R9). -/
def Obligations.plainAt (c : Ctl) (off : Nat) (a : RegAt) : Prop :=
  findReg off = some a ∧ c.hiddenReg off = false ∧ c.gateClosed off = false ∧ a.row.size = 4 ∧
    ¬(0xE0000 ≤ off ∧ off < 0xF0000)

/-- The OCS mailbox commands: the head that sends one, its opcode, what kind of command it is, and its input payload. -/
def Obligations.ocsCommand : Instr → Option (Head × Nat × CmdKind × Bytes)
  | .ocsIdentify h p => some (h, 0xC000, {}, p)
  | .healthGet h p => some (h, 0xC001, {}, p)
  | .levelSet h p => some (h, 0xC002, { min := 1 }, p)
  | .levelLock h p => some (h, 0xC003, {}, p)
  | .compatSet h p => some (h, 0xC004, { min := 1 }, p)
  | .mapRecordSet h p => some (h, 0xC005, { min := 22 }, p)
  | .mapRecordGet h p => some (h, 0xC006, {}, p)
  | .stackPark h p => some (h, 0xC007, { background := true }, p)
  | .stackUnpark h p => some (h, 0xC008, {}, p)
  | .phyLoop h p => some (h, 0xC009, { min := 4 }, p)
  | .cfgRead h p => some (h, 0xC010, { min := 4 }, p)
  | .cfgWrite h p => some (h, 0xC011, { min := 4 }, p)
  | .fwStatus h p => some (h, 0xC020, {}, p)
  | .fwConfirm h p => some (h, 0xC021, {}, p)
  | .fwSelect h p => some (h, 0xC022, { min := 1 }, p)
  | .fwSvnCommit h p _ => some (h, 0xC023, { min := 1 }, p)
  | .jobSubmit h p => some (h, 0xC100, { min := 136, stack := true }, p)
  | .jobQuery h p => some (h, 0xC101, { min := 4 }, p)
  | .jobAbort h p => some (h, 0xC102, { min := 4 }, p)
  | .ringCreate h p => some (h, 0xC110, { min := 24 }, p)
  | .ringDelete h p => some (h, 0xC111, { min := 2, background := true }, p)
  | .ringAssign h p => some (h, 0xC112, { min := 3 }, p)
  | .ctxAlloc h p => some (h, 0xC120, { min := 64, stack := true }, p)
  | .ctxRead h p => some (h, 0xC121, { min := 4 }, p)
  | .ctxWrite h p => some (h, 0xC122, { min := 68, stack := true }, p)
  | .ctxMark h p => some (h, 0xC123, { min := 20, stack := true }, p)
  | .ctxRetire h p => some (h, 0xC124, { min := 4, stack := true }, p)
  | .ctxFree h p => some (h, 0xC125, { min := 4, stack := true }, p)
  | .ctxAssign h p => some (h, 0xC126, { min := 5, stack := true }, p)
  | .mireLogRead h p => some (h, 0xC130, { min := 6 }, p)
  | .frgMetaPass h p => some (h, 0xC131, { min := 16, stack := true }, p)
  | .dieRetire h p => some (h, 0xC132, { min := 2, stack := true }, p)
  | .retireStatus h p => some (h, 0xC133, {}, p)
  | .sealBudgetSet h p => some (h, 0xC140, { min := 1, sealCap := true }, p)
  | .keyCreate h p => some (h, 0xC141, { min := 1, sealCap := true }, p)
  | .keyErase h p => some (h, 0xC142, { min := 2, sealCap := true }, p)
  | .sealGranule h p => some (h, 0xC143, { min := 4, stack := true, sealCap := true, background := true }, p)
  | .reseal h p => some (h, 0xC144, { min := 4, stack := true, sealCap := true, background := true }, p)
  | .unseal h p => some (h, 0xC145, { min := 1, stack := true, sealCap := true }, p)
  | .sealStatus h p => some (h, 0xC146, { sealCap := true }, p)
  | .fence h p => some (h, 0xC150, { min := 1, dualCap := true }, p)
  | .adopt h p => some (h, 0xC151, { min := 1, dualCap := true }, p)
  | .headRejoin h p => some (h, 0xC152, { whileFenced := true, dualCap := true }, p)
  | .headStatus h p => some (h, 0xC153, { whileFenced := true }, p)
  | .partAssign h p => some (h, 0xC154, { min := 2 }, p)
  | .partGive h p => some (h, 0xC155, { min := 2 }, p)
  | .headCfg h p => some (h, 0xC156, { min := 6 }, p)
  | .thermalGet h p => some (h, 0xC160, {}, p)
  | .deviceReset h p => some (h, 0xC170, { min := 1 }, p)
  | .bootStatusGet h p => some (h, 0xC171, {}, p)
  | .fuseRead h p _ => some (h, 0xC180, { min := 2 }, p)
  | .fuseProgram h p _ => some (h, 0xC181, { min := 8 }, p)
  | .fuseLock h p _ => some (h, 0xC182, { min := 1 }, p)
  | .lcAdvance h p auth _ => some (h, 0xC183, { min := 4 }, p ++ auth)
  | .calRun h p => some (h, 0xC184, { min := 1 }, p)
  | .testEnter h p => some (h, 0xC185, {}, p)
  | .bistRun h p => some (h, 0xC186, { min := 1, background := true }, p)
  | .repairCommit h p _ => some (h, 0xC187, {}, p)
  | .faultLogRead h p => some (h, 0xC190, { min := 6 }, p)
  | .faultAck h p => some (h, 0xC191, { min := 2 }, p)
  | .fruWrite h p => some (h, 0xC1A0, { min := 4 }, p)
  | .fruRead h p => some (h, 0xC1A1, { min := 4 }, p)
  | .flashInfo h p => some (h, 0xC1A2, {}, p)
  | _ => none

/-- A step runs the command at the front of the queue on the state with the rest of the queue. With no command waiting it leaves
the state as it is (the model's choice, log entry 5), and so the step of a bus clear alone, which changes nothing (the model's
choice, log entry 88), ends in that same idle state (95_what_each_step_holds.md). -/
def Obligations.StepRunsTheFrontCommand : Prop :=
  (∀ (c : Instr) (rest : List Instr) (s : State), s.pending = c :: rest → step s = exec c { s with pending := rest }) ∧
  ∀ s : State, s.pending = [] → step s = .next s ∧ step { s with pending := [.sbBusClear] } = .next s

/-- A fuse bit once blown stays blown: whatever the command, and over every reset, power loss and start, no bit of any fuse word goes
back to 0 (16_fuses_calibration_and_self_test.md R356). -/
def Obligations.EveryStepOnlyBlowsFuses : Prop :=
  ∀ (s t : State) (a b : Nat), step s = .next t → tb (otpWord s.ctl.fus.words a) b = true → tb (otpWord t.ctl.fus.words a) b = true

/-- After a power-on reset every register field reads its Reset column, and no command, claim or data is held
(00_scope.md R8, 15_clocks_reset_and_start.md R342). -/
def Obligations.ResetLeavesResetValues : Prop :=
  (∀ x : Fld, State.reset.ctl.get x = x.reset) ∧ State.reset.pending = [] ∧ State.reset.mem = [] ∧ State.reset.lines = [] ∧
  State.reset.ctl.claims = [] ∧ (∀ h, (State.reset.ctl.hd h).mbox.pend = none ∧ (State.reset.ctl.hd h).mbox.bg = none) ∧
  State.reset.ctl.job.jobs = [] ∧ State.reset.ctl.stx.entries = [] ∧ State.reset.ctl.sea.keys = [] ∧
  State.reset.ctl.rst.awaiting = 1 ∧ State.reset.ctl.kpr.phase = 0

/-- The stack's bytes stand in their canonical form after reset and no line has two statuses; any write into the bytes keeps the form
(03_address_views_and_layout.md R48). -/
def Obligations.MemoryFormAtReset : Prop :=
  State.reset.MemOk ∧ State.reset.LinesOk ∧
  ∀ (a : Nat) (d : Bytes), ({ State.reset with mem := memWrite State.reset.mem a d } : State).MemOk

/-- Every step keeps the canonical form of the stack's bytes, and leaves each line at most one recorded status
(03_address_views_and_layout.md R48, 08_line_ecc_scrub_and_retirement.md R174). -/
def Obligations.EveryStepKeepsTheMemoryForm : Prop :=
  ∀ s t : State, step s = .next t → (s.MemOk → t.MemOk) ∧ (s.LinesOk → t.LinesOk)

/-- No command changes the queue of commands that wait (95_what_each_step_holds.md). -/
def Obligations.CommandsNeverTouchTheQueue : Prop :=
  ∀ (i : Instr) (s t : State), exec i s = .next t → t.pending = s.pending

/-- A command that does not reach the stack leaves every byte and every line of it as it was (09_sealed_memory.md,
08_line_ecc_scrub_and_retirement.md R176, 15_clocks_reset_and_start.md R339). -/
def Obligations.OtherCommandsKeepTheStack : Prop :=
  ∀ (i : Instr) (s t : State), Obligations.reachesStack i = false → exec i s = .next t → s.sameStack t

/-- Every command of the table, sent in any state and with any operands, completes with a next state that holds the same queue:
none faults and none is refused, the host errors of R12 and R125 included (00_scope.md R5, 00_scope.md R12,
05_comb_jobs.md R125). -/
def Obligations.EveryCommandCompletes : Prop :=
  ∀ (i : Instr) (s : State), ∃ t, exec i s = .next t ∧ t.pending = s.pending

/-- A commit write that reaches its register is pending until the next boundary, and changes nothing else
(02_stack_and_row_lanes.md R33, 03_address_views_and_layout.md R56, 07_dram_scheduling_and_refresh.md R169,
10_service_classes_and_deadlines.md R233, 10_service_classes_and_deadlines.md R237). -/
def Obligations.CommitWritesAskForTheirCommit : Prop :=
  ∀ (h : Head) (w : Word) (s : State),
  (s.reached h R.STK_COMMIT_COMMIT 1 w → ∃ t, exec (.stkCommit h w) s = .next t ∧ t.ctl.stkPend = true ∧
    s.ctl.keeps t.ctl [R.STK_COMMIT_REJECT] ∧ t.ctl = { s.ctl with regs := t.ctl.regs, stkPend := true } ∧ s.sameStack t) ∧
  (s.reached h R.MAP_COMMIT_COMMIT 1 w → ∃ t, exec (.mapCommit h w) s = .next t ∧ t.ctl.get R.MAP_COMMIT_PENDING = 1 ∧
    s.ctl.keeps t.ctl [R.MAP_COMMIT_REJECT, R.MAP_COMMIT_PENDING] ∧ s.frame Ctl.onlyRegs t) ∧
  (s.reached h R.QOS_SCHED_COMMIT_COMMIT 1 w → ∃ t, exec (.qosSchedCommit h w) s = .next t ∧
    t.ctl.get R.QOS_SCHED_COMMIT_PENDING = 1 ∧
    s.ctl.keeps t.ctl [R.QOS_SCHED_COMMIT_REJECT, R.QOS_SCHED_COMMIT_PENDING] ∧ s.frame Ctl.onlyRegs t) ∧
  (s.reached h R.QOS_CLASS_COMMIT_COMMIT 1 w → ∃ t, exec (.qosClassCommit h w) s = .next t ∧
    t.ctl.get R.QOS_CLASS_COMMIT_PENDING = 1 ∧
    s.ctl.keeps t.ctl [R.QOS_CLASS_COMMIT_REJECT, R.QOS_CLASS_COMMIT_PENDING] ∧ s.frame Ctl.onlyRegs t) ∧
  (s.reached h R.QOS_BW_SNAP_CTL_TAKE 1 w → ∃ t, exec (.qosBwSnapTake h w) s = .next t ∧ t.ctl.snapPend = true ∧
    t.ctl.get R.QOS_BW_SNAP_CTL_DONE = 0 ∧ s.ctl.keeps t.ctl [R.QOS_BW_SNAP_CTL_DONE] ∧
    t.ctl = { s.ctl with regs := t.ctl.regs, snapPend := true } ∧ s.sameStack t)

/-- A direct write or doorbell that its head may not make changes nothing but the count of its kind: none for a fenced head, an insecure
stream or an offset that no register occupies, IDC_LEVEL_DROP_CNT at basic level, CLK_GATED_ACC_CNT
in a closed window, the count of R87, R270 or R285 for another head's register, IDC_CLAIM_DROP_CNT in a claimed block, of whose write-1-to-
clear bits the write still takes effect. That basic level bars HDx_FENCE_CFG too and
which lane writes count are log entries 19 and 20; that a 64-bit write is its low word and then its high word, counts once where both are
discarded, and that a hole counts in nothing whatever the level, is log entry 106 (01_architecture.md R19, 01_architecture.md R20,
05_comb_jobs.md R87, 09_sealed_memory.md R219, 11_heads_links_and_platform_time.md R248, 11_heads_links_and_platform_time.md R270,
12_serial_lanes.md R285, 15_clocks_reset_and_start.md R334, 20_register_reference.md R405). -/
def Obligations.WritesThatDoNotReachAreCounted : Prop :=
  ∀ (h : Head) (s : State),
  let level : Ctl → Ctl := fun c => c.dropCount h R.IDC_LEVEL_DROP_CNT_A_DROPS R.IDC_LEVEL_DROP_CNT_B_DROPS
  let claim : Nat → Ctl → Ctl := fun off c =>
    (c.bump R.IDC_CLAIM_DROP_CNT_COUNT).set R.IDC_CLAIM_DROP_CNT_LAST_BLOCK (off / 65536)
  let passes : Nat → Prop := fun off => s.ctl.fenced h = false ∧ s.ctl.ioRefused h ((s.ctl.hd h).bar0 + off) = false ∧
    (findReg off).isSome = true
  (∀ off v, off % 4 = 0 → off < 0x1000000 → v < 2 ^ 32 →
    let gives : (Ctl → Ctl) → Prop := fun f => exec (.registerWrite h off false v) s = .next (s.mapCtl f)
    (¬passes off → exec (.registerWrite h off false v) s = .next s) ∧
    (passes off → s.ctl.expert h = false → 65536 ≤ off → gives level) ∧
    (passes off → (s.ctl.expert h = true ∨ off < 65536) →
      (s.ctl.gateClosed off = true → gives fun c => c.bump R.CLK_GATED_ACC_CNT_ACCESSES) ∧
      (s.ctl.gateClosed off = false →
        (s.ctl.foreign h off v = 1 →
          gives fun c => c.dropCount h R.JRG_FOREIGN_DROP_CNT_A_DROPS R.JRG_FOREIGN_DROP_CNT_B_DROPS) ∧
        (s.ctl.foreign h off v = 2 → gives level) ∧
        (s.ctl.foreign h off v = 3 → gives fun c => c.bump R.PHYC_LOOP_DROPS) ∧
        (∀ a, s.ctl.foreign h off v = 0 → s.ctl.claimed (blockOf off) = true → findReg off = some a → a.hasConfig h v = true →
          (∀ r ∈ a.fieldsOf h, r.acc ≠ .w1c) → ¬(0x80100 ≤ off ∧ off < 0x81A00) → off ≠ 0x150000 →
          ¬(0xE0000 ≤ off ∧ off < 0xF0000 ∧ off % 0x1000 = 0x34) → gives (claim off))))) ∧
  (passes 0x320010 → s.ctl.expert h = true → s.ctl.gateClosed 0x320010 = false → s.ctl.claimed (blockOf 0x320010) = true →
    exec (.registerWrite h 0x320010 false 3) s = .next (s.mapCtl fun c =>
      (claim 0x320010 c).set R.STK_COMMIT_REJECT (c.get R.STK_COMMIT_REJECT - (c.get R.STK_COMMIT_REJECT &&& 1)))) ∧
  (∀ (q : Fin 64) (x : Nat) (i : Instr), (i = .sqDoorbell h q x ∨ i = .cqDoorbell h q x) →
    (s.ctl.fenced h = true ∨ s.ctl.ioRefused h ((s.ctl.hd h).bar2 + 0x10000) = true → exec i s = .next s) ∧
    (s.ctl.fenced h = false → s.ctl.ioRefused h ((s.ctl.hd h).bar2 + 0x10000) = false → s.ctl.expert h = false →
      exec i s = .next (s.mapCtl level))) ∧
  (∀ off v, off % 8 = 0 → off < 0x1000000 → v < 2 ^ 64 →
    (s.ctl.fenced h = true → exec (.registerWrite h off true v) s = .next s) ∧
    (passes off → passes (off + 4) → s.ctl.expert h = false → 65536 ≤ off →
      exec (.registerWrite h off true v) s = .next (s.mapCtl level)) ∧
    (s.ctl.reached h off (v % 2 ^ 32) → ∃ m t, exec (.registerWrite h off false (v % 2 ^ 32)) s = .next m ∧
      exec (.registerWrite h (off + 4) false (v / 2 ^ 32)) m = .next t ∧ exec (.registerWrite h off true v) s = .next t))

/-- A register write sets RW fields, clears W1C bits written as 1, and leaves RO fields alone. Where the value has bits in reserved
places, which R11 makes a host error, that they have no effect is the model's choice, log entry 13 (00_scope.md R9,
00_scope.md R11, 02_stack_and_row_lanes.md). -/
def Obligations.RegisterWritesFollowAccessTypes : Prop :=
  ∀ (h : Head) (v : Nat) (s : State), v < 2 ^ 32 →
  (s.ctl.reached h 0x310010 v → ∃ t, exec (.registerWrite h 0x310010 false v) s = .next t ∧
    t.ctl.get R.TSV_REPAIR_CFG_COUNT = v % 256 ∧ t.ctl.get R.TSV_REPAIR_CFG_WINDOW_BEATS = v / 65536 ∧
    s.ctl.keeps t.ctl [R.TSV_REPAIR_CFG_COUNT, R.TSV_REPAIR_CFG_WINDOW_BEATS] ∧ s.frame Ctl.onlyRegs t) ∧
  (s.ctl.reached h 0x320010 v → v % 2 = 0 → s.ctl.get R.STK_COMMIT_REJECT < 2 →
    ∃ t, exec (.registerWrite h 0x320010 false v) s = .next t ∧
      t.ctl.get R.STK_COMMIT_REJECT = (if v / 2 % 2 = 1 then 0 else s.ctl.get R.STK_COMMIT_REJECT) ∧
      s.ctl.keeps t.ctl [R.STK_COMMIT_REJECT] ∧ s.frame Ctl.onlyRegs t) ∧
  (s.ctl.reached h 0x40 v → exec (.registerWrite h 0x40 false v) s = .next s)

/-- A read of a 32-bit register returns it and clears its RC fields and no other field; on an insecure stream it returns no data and clears
nothing (00_scope.md R9, 00_scope.md R10, 09_sealed_memory.md R219). -/
def Obligations.ReadsClearTheirRcFields : Prop :=
  ∀ (h : Head) (off : Nat) (a : RegAt) (s : State), off % 4 = 0 → off < 0x1000000 → Obligations.plainAt s.ctl off a →
  (s.ctl.ioRefused h ((s.ctl.hd h).bar0 + off) = true → exec (.rcFieldRead h off) s = .next s) ∧
  (s.ctl.ioRefused h ((s.ctl.hd h).bar0 + off) = false → ∃ t, exec (.rcFieldRead h off) s = .next t ∧
    t.ctl.outbox = .regValue h off 4 (s.ctl.regValue a h % 2 ^ 32) :: s.ctl.outbox ∧
    (∀ r ∈ a.fieldsOf h, r.acc = .rc → (r.fld.key - a.key0 h) / 32 = a.word → t.ctl.get r.fld = 0) ∧
    (∀ x : Fld, (∀ r ∈ a.fieldsOf h, r.acc = .rc → r.fld.key ≠ x.key) → t.ctl.get x = s.ctl.get x) ∧ s.sameStack t)

/-- A low-word read of a 64-bit register takes the requester's snapshot, and its high-word reads are served from it
(00_scope.md R12). -/
def Obligations.SnapshotsServeOneRequester : Prop :=
  ∀ (h : Head) (off : Nat) (a b : RegAt) (s : State), off % 8 = 0 → off < 0x1000000 → ¬(0xE0000 ≤ off ∧ off < 0xF0000) →
  findReg off = some a → a.row.size = 8 → a.word = 0 → findReg (off + 4) = some b → b.row.size = 8 → b.word = 1 →
  b.base = a.base → (∀ c : Ctl, c.regValue b h = c.regValue a h) →
  s.ctl.hiddenReg off = false → s.ctl.hiddenReg (off + 4) = false → s.ctl.gateClosed off = false →
  s.ctl.gateClosed (off + 4) = false → s.ctl.ioRefused h ((s.ctl.hd h).bar0 + off) = false →
  s.ctl.ioRefused h ((s.ctl.hd h).bar0 + (off + 4)) = false →
  (∃ t, exec (.snapshotRead h off false) s = .next t ∧
    t.ctl.outbox = .regValue h off 4 (s.ctl.regValue a h % 2 ^ 32) :: s.ctl.outbox ∧
    mapGet t.ctl.snap (a.base + h.num * 2 ^ 32) = some (s.ctl.regValue a h) ∧
    (∀ k, k ≠ a.base + h.num * 2 ^ 32 → mapGet t.ctl.snap k = mapGet s.ctl.snap k) ∧
    t.ctl.regs = s.ctl.regs ∧ s.sameStack t) ∧
  (∃ t, exec (.snapshotRead h (off + 4) false) s = .next t ∧
    t.ctl.outbox = .regValue h (off + 4) 4
      (((mapGet s.ctl.snap (a.base + h.num * 2 ^ 32)).getD (s.ctl.regValue a h)) / 2 ^ 32 % 2 ^ 32) :: s.ctl.outbox ∧
    t.ctl.snap = s.ctl.snap ∧ t.ctl.regs = s.ctl.regs ∧ s.sameStack t) ∧
  (∃ t, exec (.snapshotRead h off true) s = .next t ∧
    t.ctl.outbox = .regValue h off 8
      (s.ctl.regValue a h % 2 ^ 32 + s.ctl.regValue a h / 2 ^ 32 % 2 ^ 32 * 2 ^ 32) :: s.ctl.outbox ∧
    mapGet t.ctl.snap (a.base + h.num * 2 ^ 32) = some (s.ctl.regValue a h) ∧
    (∀ k, k ≠ a.base + h.num * 2 ^ 32 → mapGet t.ctl.snap k = mapGet s.ctl.snap k) ∧
    t.ctl.regs = s.ctl.regs ∧ s.sameStack t)

/-- The device goes on after a host error (the model's choice within the bounds of R5, log entry 14): a read of another alignment
returns a free value and changes no register, such a write does nothing, a doorbell index at or above SIZE leaves the ring at a
free index, and BASE of an enabled ring holds a free value after a write that changes it; nothing else of the device changes
(00_scope.md R5, 00_scope.md R12, 05_comb_jobs.md R125). -/
def Obligations.HostErrorsStayWithinTheirBounds : Prop :=
  ∀ (h : Head) (s : State),
  (∀ off, off % 4 ≠ 0 → s.ctl.ioRefused h ((s.ctl.hd h).bar0 + off % 0x1000000) = false → ∃ t v, exec (.rcFieldRead h off) s = .next t ∧ exec (.snapshotRead h off false) s = .next t ∧
    v < 2 ^ 32 ∧ s.sameStack t ∧
    t.ctl = { s.ctl with free := s.ctl.free + 1, outbox := .regValue h (off % 0x1000000) 4 v :: s.ctl.outbox }) ∧
  (∀ off, off % 8 ≠ 0 → s.ctl.ioRefused h ((s.ctl.hd h).bar0 + off % 0x1000000) = false → ∃ t v, exec (.snapshotRead h off true) s = .next t ∧ v < 2 ^ 64 ∧ s.sameStack t ∧
    t.ctl = { s.ctl with free := s.ctl.free + 1, outbox := .regValue h (off % 0x1000000) 8 v :: s.ctl.outbox }) ∧
  (∀ off v, off % 4 ≠ 0 → exec (.registerWrite h off false v) s = .next s) ∧
  (∀ off v, off % 8 ≠ 0 → exec (.registerWrite h off true v) s = .next s) ∧
  (∀ (q : Fin 64) (w : Word), s.ctl.flag (R.JRG_SQ_CFG_ENABLE q) = true →
    s.ctl.reached h (offsetOf (R.JRG_SQ_BASE_BASE q)) w.toNat →
    ∃ t, exec (.registerWrite h (offsetOf (R.JRG_SQ_BASE_BASE q)) false w.toNat) s = .next t ∧ s.sameStack t ∧
      s.ctl.keeps t.ctl [R.JRG_SQ_BASE_BASE q] ∧ t.ctl = { s.ctl with regs := t.ctl.regs, free := t.ctl.free }) ∧
  (∀ (q : Fin 64) (w : Word), s.ctl.flag (R.JRG_CQ_CFG_ENABLE q) = true →
    s.ctl.reached h (offsetOf (R.JRG_CQ_BASE_BASE q)) w.toNat →
    ∃ t, exec (.registerWrite h (offsetOf (R.JRG_CQ_BASE_BASE q)) false w.toNat) s = .next t ∧ s.sameStack t ∧
      s.ctl.keeps t.ctl [R.JRG_CQ_BASE_BASE q] ∧ t.ctl = { s.ctl with regs := t.ctl.regs, free := t.ctl.free }) ∧
  (∀ (q : Fin 64) (i : Nat), s.ctl.doorbellDrops h (s.ctl.sqOwner q) (s.ctl.flag (R.JRG_SQ_CFG_ENABLE q)) = none →
    i < 65536 → s.ctl.get (R.JRG_SQ_CFG_SIZE q) ≤ i → ∃ t x, exec (.sqDoorbell h q i) s = .next t ∧ x < 65536 ∧
      s.sameStack t ∧
      t.ctl = ({ s.ctl with free := s.ctl.free + 1 } : Ctl).setRing q { s.ctl.ring q with sqTail := x }) ∧
  (∀ (q : Fin 64) (i : Nat), s.ctl.doorbellDrops h (s.ctl.cqOwner q) (s.ctl.flag (R.JRG_CQ_CFG_ENABLE q)) = none →
    i < 65536 → s.ctl.get (R.JRG_CQ_CFG_SIZE q) ≤ i → ∃ t x, exec (.cqDoorbell h q i) s = .next t ∧ x < 65536 ∧
      s.sameStack t ∧
      t.ctl = ({ s.ctl with free := s.ctl.free + 1 } : Ctl).setRing q { s.ctl.ring q with cqHead := x })

/-- STX_WIN_READ shows the entry and looks it up in the cache, TIM_SWITCH moves the time head, RST_CTL asks a warm reset, BST_CTL
starts a test, a flush dooms matrices. That a lookup with no free way is counted as a miss and fills nothing is the model's choice,
log entry 118, and so is which matrices a flush keeps while a job waits for them, log entry 128 (06_stripe_contexts.md R152, 11_heads_links_and_platform_time.md R258,
15_clocks_reset_and_start.md R337, 16_fuses_calibration_and_self_test.md R368, 04_codes_and_field_arithmetic.md R82). -/
def Obligations.WindowAndTimeWritesAct : Prop :=
  ∀ (h : Head) (w : Word) (s : State),
  (∀ e, s.reached h (R.STX_WIN_CTL_CMD 0) 1 w → s.ctl.get (R.STX_WIN_CTL_BUSY h.num) = 0 →
    mapGet s.ctl.stx.entries (bitsOf (R.STX_WIN_CTL_INDEX 0) w.toNat) = some e →
    ∃ t, exec (.stxWinRead h w) s = .next t ∧
      (∀ k, k < 16 → t.ctl.get (R.STX_WIN_DATA_DATA h.num k) = le e.encode (4 * k) 4) ∧
      t.ctl.get (R.STX_WIN_CTL_INDEX h.num) = bitsOf (R.STX_WIN_CTL_INDEX 0) w.toNat ∧
      (let x := bitsOf (R.STX_WIN_CTL_INDEX 0) w.toNat
       let one := fun (f : Fld) => t.ctl.get f = min (s.ctl.get f + 1) (2 ^ f.width - 1)
       (s.ctl.stx.cache.contains x = true → one R.STX_HIT_CNT_COUNT ∧
         t.ctl.stx.cache = x :: s.ctl.stx.cache.filter fun y => decide (y ≠ x)) ∧
       (s.ctl.stx.cache.contains x = false → one R.STX_MISS_CNT_COUNT ∧
         (s.ctl.wayFree x = true → t.ctl.stx.cache.head? = some x) ∧
         (s.ctl.wayFree x = false → t.ctl.stx.cache = s.ctl.stx.cache))) ∧
      t.ctl.stx.entries = s.ctl.stx.entries ∧ s.sameStack t) ∧
  (s.reached h R.TIM_CMD_SWITCH 1 w → s.ctl.get R.TIM_STATUS_SOURCE < 2 →
    s.ctl.locked (Head.ofNum (s.ctl.get R.TIM_STATUS_SOURCE)).other = true →
    ∃ t, exec (.timSwitch h w) s = .next t ∧
      t.ctl.get R.TIM_STATUS_SOURCE = (Head.ofNum (s.ctl.get R.TIM_STATUS_SOURCE)).other.num ∧
      t.ctl.get R.TIM_STATUS_HOLDOVER = 0 ∧ t.ctl.get R.TIM_STATUS_OFFSET_VALID = 0 ∧ s.sameStack t) ∧
  (s.reached h R.RST_CTL_WARM 1 w → bitsOf R.RST_CTL_KEY w.toNat = 0xA5 → s.ctl.rst.awaiting = 8 → s.ctl.rst.quiesce = 0 →
    s.ctl.rst.warmReq = none → ∃ t, exec (.rstCtlWarm h w) s = .next t ∧ t.ctl.rst.warmReq = some 5 ∧
      t.ctl.rst.warmAt = s.ctl.clock ∧ t.ctl.regs = s.ctl.regs ∧ s.sameStack t) ∧
  (s.reached h R.BST_CTL_START 1 w → s.ctl.cal.testMode = true → s.ctl.cal.test = none →
    s.ctl.bistTarget (bitsOf R.BST_CTL_TARGET w.toNat) = true →
    ∃ t, exec (.bistStart h w) s = .next t ∧ t.ctl.cal.test = some (bitsOf R.BST_CTL_TARGET w.toNat, none) ∧
      t.ctl.get R.BST_STATUS_BUSY = 1 ∧ t.ctl.get R.BST_STATUS_PASS = 0 ∧ t.ctl.get R.BST_STATUS_FAIL = 0 ∧
      s.sameStack t) ∧
  (s.reached h R.CMB_DMC_FLUSH_FLUSH 1 w → ∃ t, exec (.cmbDmcFlush h w) s = .next t ∧
    (∀ e ∈ t.ctl.dec.entries, e.doomed = true ∧ s.ctl.dmcWanted e.key = true) ∧
    (∀ e ∈ s.ctl.dec.entries, s.ctl.dmcWanted e.key = true → ∃ x ∈ t.ctl.dec.entries, x.key = e.key) ∧
    (∀ k ∈ t.ctl.dec.queue, s.ctl.dmcWanted k = true) ∧
    (t.ctl.get R.CMB_DMC_FLUSH_FLUSH_BUSY = 1 ↔ t.ctl.dec.entries ≠ []) ∧ t.ctl.dec.wants = s.ctl.dec.wants ∧
    s.ctl.keeps t.ctl [R.CMB_DMC_FLUSH_FLUSH_BUSY] ∧ s.sameStack t)

/-- Enabling a ring starts it empty; disabling an SQ stops its fetches; a CQ is disabled only when drained; a doorbell of the owner of an
enabled ring moves the SQ tail or the CQ head, any other is dropped and counted. The SQ tail 0 after an enable and the fetches dropped at a
disable are the model's choices, log entries 52 and 46 (05_comb_jobs.md R87, R88, R89, R90). -/
def Obligations.RingEnablesFollowTheirConfiguration : Prop :=
  ∀ (h : Head) (q : Fin 64) (w : Word) (s : State),
  (s.reached h (R.JRG_SQ_CFG_ENABLE q) 1 w → s.ctl.get (R.JRG_SQ_CFG_ENABLE q) = 0 →
    sizeOk (bitsOf (R.JRG_SQ_CFG_SIZE q) w.toNat) = true →
    ∃ t, exec (.sqEnable h q w) s = .next t ∧ s.sameStack t ∧
      (if s.ctl.get (R.JRG_CQ_CFG_ENABLE (bitsOf (R.JRG_SQ_CFG_CQ q) w.toNat)) ≠ 0 ∧
          s.ctl.cqOwner (bitsOf (R.JRG_SQ_CFG_CQ q) w.toNat) = s.ctl.sqOwner q then
        t.ctl.get (R.JRG_SQ_CFG_ENABLE q) = 1 ∧ t.ctl.get (R.JRG_SQ_STATUS_HEAD q) = 0 ∧
          t.ctl.get (R.JRG_SQ_STATUS_FETCH_ERR q) = 0 ∧ (t.ctl.ring q).sqTail = 0
      else t.ctl.get (R.JRG_SQ_CFG_ENABLE q) = 0 ∧ t.ctl.get (R.JRG_SQ_CFG_ERR q) = 1)) ∧
  (s.reached h (R.JRG_SQ_CFG_ENABLE q) 0 w → s.ctl.get (R.JRG_SQ_CFG_ENABLE q) = 1 →
    s.ctl.get (R.JRG_SQ_CFG_SIZE q) = bitsOf (R.JRG_SQ_CFG_SIZE q) w.toNat →
    s.ctl.get (R.JRG_SQ_CFG_CQ q) = bitsOf (R.JRG_SQ_CFG_CQ q) w.toNat →
    ∃ t, exec (.sqDisable h q w) s = .next t ∧ t.ctl.get (R.JRG_SQ_CFG_ENABLE q) = 0 ∧
      (∀ e ∈ t.ctl.job.fetches, e.1 ≠ q.val) ∧ t.ctl.job.jobs = s.ctl.job.jobs ∧ s.sameStack t) ∧
  (s.reached h (R.JRG_CQ_CFG_ENABLE q) 1 w → s.ctl.get (R.JRG_CQ_CFG_ENABLE q) = 0 →
    sizeOk (bitsOf (R.JRG_CQ_CFG_SIZE q) w.toNat) = true →
    ∃ t, exec (.cqEnable h q w) s = .next t ∧ t.ctl.get (R.JRG_CQ_CFG_ENABLE q) = 1 ∧
      t.ctl.get (R.JRG_CQ_STATUS_TAIL q) = 0 ∧ t.ctl.get (R.JRG_CQ_STATUS_PHASE q) = 1 ∧
      t.ctl.get (R.JRG_CQ_STATUS_WRITE_ERR q) = 0 ∧ s.sameStack t) ∧
  (s.reached h (R.JRG_CQ_CFG_ENABLE q) 0 w → s.ctl.get (R.JRG_CQ_CFG_ENABLE q) = 1 →
    s.ctl.get (R.JRG_CQ_CFG_SIZE q) = bitsOf (R.JRG_CQ_CFG_SIZE q) w.toNat →
    ∃ t, exec (.cqDisable h q w) s = .next t ∧ s.sameStack t ∧
      (if s.ctl.cqFreed q = true then t.ctl.get (R.JRG_CQ_CFG_ENABLE q) = 0
       else t.ctl.get (R.JRG_CQ_CFG_ENABLE q) = 1 ∧ t.ctl.get (R.JRG_CQ_CFG_ERR q) = 1)) ∧
  (∀ i, i < 65536 → s.ctl.fenced h = false → s.ctl.ioRefused h ((s.ctl.hd h).bar2 + 0x10000) = false → s.ctl.expert h = true →
    let bell : Instr → Head → Fld → Fld → RingSt → Prop := fun x owner enable size after =>
      (owner ≠ h ∨ s.ctl.flag enable = false → exec x s = .next
        (s.mapCtl fun c => c.dropCount h R.JRG_FOREIGN_DROP_CNT_A_DROPS R.JRG_FOREIGN_DROP_CNT_B_DROPS)) ∧
      (owner = h → s.ctl.flag enable = true → i < s.ctl.get size → ∃ t, exec x s = .next t ∧ t.ctl.ring q = after ∧
        (∀ r : Fin 64, r ≠ q → t.ctl.ring r = s.ctl.ring r) ∧ t.ctl.regs = s.ctl.regs ∧ s.sameStack t)
    bell (.sqDoorbell h q i) (s.ctl.sqOwner q) (R.JRG_SQ_CFG_ENABLE q) (R.JRG_SQ_CFG_SIZE q)
        { s.ctl.ring q with sqTail := i } ∧
      bell (.cqDoorbell h q i) (s.ctl.cqOwner q) (R.JRG_CQ_CFG_ENABLE q) (R.JRG_CQ_CFG_SIZE q)
        { s.ctl.ring q with cqHead := i })

/-- CXL.mem requests: a fenced, parked, foreign or key-less one never lands; one of a blocked class waits unanswered and holds its
credit; an admitted one reads or writes its line alone, in a sealed granule with a live handle through its tag and counters. That the
first waiting request leaves the host 2,047 of its 2,048 credits is log entry 56's reading of R317
(03_address_views_and_layout.md R61, 11_heads_links_and_platform_time.md R248, 13_keeper_and_mailbox.md R303,
09_sealed_memory.md R194, 09_sealed_memory.md R200, 09_sealed_memory.md R206, 09_sealed_memory.md R211,
08_line_ecc_scrub_and_retirement.md R174, 08_line_ecc_scrub_and_retirement.md R175, 10_service_classes_and_deadlines.md R230,
14_thermal_and_power.md R317). -/
def Obligations.MemoryRequestsFollowTheirGate : Prop :=
  ∀ (h : Head) (dpa : Nat) (s : State), s.ctl.stk.memWait = [] → s.ctl.stk.ingest.length < 4096 →
  let sa := dpa / 64 * 64
  let zeros : Bytes := List.replicate 64 0
  let sent : State → Out → Prop := fun t o => ∃ l, t.ctl.outbox = o :: l
  let wr : Instr → Prop := fun i => (∃ po d, i = .cxlMemWrite h dpa po d) ∨ ∃ d, i = .cxlMemPartialWrite h dpa d
  let refused : (State → Prop) → Prop := fun q =>
    (∃ t, exec (.cxlMemRead h dpa) s = .next t ∧ sent t (.memRead h dpa true zeros) ∧ q t ∧ s.sameStack t) ∧
      ∀ i, wr i → ∃ t, exec i s = .next t ∧ sent t (.memWriteDone h dpa) ∧ q t ∧ s.sameStack t
  let others : State → Prop := fun t => t.pending = s.pending ∧ (∀ a, a / 64 ≠ dpa / 64 → memGet t.mem a = memGet s.mem a) ∧
    ∀ ln, ln ≠ dpa / 64 → mapGet t.lines ln = mapGet s.lines ln
  (s.ctl.memArrives h = false → exec (.cxlMemRead h dpa) s = .next s ∧ ∀ i, wr i → exec i s = .next s) ∧
  (s.ctl.memArrives h = true →
    (s.ctl.fenced h = true → refused fun t =>
      t.ctl.get (R.HD_FENCED_DROP_CNT_DROPS h.num) = min (s.ctl.get (R.HD_FENCED_DROP_CNT_DROPS h.num) + 1)
        (2 ^ (R.HD_FENCED_DROP_CNT_DROPS h.num).width - 1) ∧ s.ctl.keeps t.ctl [R.HD_FENCED_DROP_CNT_DROPS h.num]) ∧
    (s.ctl.fenced h = false → s.ctl.get R.IDC_KPR_STAT_PARKED ≠ 0 → s.ctl.get R.THM_STATUS_STAGE ≠ 4 → refused fun t =>
      let f := if h = .a then R.IDC_PARK_DROP_CNT_A_DROPS else R.IDC_PARK_DROP_CNT_B_DROPS
      t.ctl.get f = min (s.ctl.get f + 1) (2 ^ f.width - 1) ∧ s.ctl.keeps t.ctl [f]) ∧
    (s.ctl.fenced h = false → s.ctl.get R.IDC_KPR_STAT_PARKED = 0 → s.ctl.get R.THM_STATUS_STAGE ≠ 4 →
      (s.ctl.mayReach h sa = false → refused fun t => t.ctl.srcPending (576 + h.num) = true) ∧
      (s.ctl.mayReach h sa = true → s.ctl.get (R.QOS_CLASS_CFG_LIMIT (s.ctl.memClass h sa)) ≠ 0 →
        (∀ m ∈ s.ctl.ecc.merges, m.sa / 64 ≠ dpa / 64) →
        s.ctl.pageBusy dpa = false → s.ctl.gateHolds h dpa = false → (∀ b, s.ctl.moveHolds b dpa = false) →
        (s.ctl.sealAt sa = 2 → s.ctl.memHandle h (s.ctl.get (R.SEA_GRAN_KEY_SLOT (granOf sa))) = false →
          refused fun t => t.ctl.srcPending 551 = true) ∧
        (s.ctl.sealAt sa = 2 → s.ctl.memHandle h (s.ctl.get (R.SEA_GRAN_KEY_SLOT (granOf sa))) = true →
          s.ctl.unvOver sa = none → s.ctl.rowUnplaced sa = false →
          let cached := s.ctl.missing sa = [] ∧ s.ctl.sea.cached.contains (tagKey sa) = true ∧ s.ctl.sea.cached.length ≤ 16
          let ctr := s.ctl.pageCtr (sa / 4096)
          let m := ctr.2.getD (minorIndex sa) 0
          (s.status sa = .good → s.pathFault sa = none → s.tagLost sa = false → s.storedTag sa = s.tagOf sa →
            mapGet s.ctl.sea.tags (sa / 64) = none →
            ∃ t, exec (.cxlMemRead h dpa) s = .next t ∧ sent t (.memRead h dpa false (s.lineBytes sa)) ∧ s.onlyHeals t) ∧
          (s.status sa = .good → cached → s.storedTag sa ≠ s.tagOf sa →
            ∃ t, exec (.cxlMemRead h dpa) s = .next t ∧ sent t (.memRead h dpa true zeros) ∧
              mapGet t.lines (dpa / 64) = some (.mired 2) ∧ t.ctl.srcPending 548 = true ∧ others t) ∧
          (∀ d, cached → m < 127 → ∃ t, exec (.cxlMemWrite h dpa false d) s = .next t ∧ sent t (.memWriteDone h dpa) ∧
            t.lineBytes sa = padTo 64 d ∧ mapGet t.lines (dpa / 64) = some .good ∧ others t ∧
            t.ctl.pageCtr (sa / 4096) = (ctr.1, ctr.2.set (minorIndex sa) (m + 1)) ∧ t.storedTag sa = t.tagOf sa ∧
            metaKey 0 sa ∈ t.ctl.sea.dirty ∧ tagKey sa ∈ t.ctl.sea.dirty) ∧
          (∀ d, cached → 127 ≤ m → ctr.1 < 2 ^ 64 - 1 → ∃ t, exec (.cxlMemWrite h dpa false d) s = .next t ∧
            sent t (.memWriteDone h dpa) ∧ t.lineBytes sa = padTo 64 d ∧ mapGet t.lines (dpa / 64) = some .good ∧ others t ∧
            t.ctl.pageBusy sa = true)) ∧
        (s.ctl.sealAt sa = 0 → s.ctl.rowUnplaced sa = false →
          (s.status sa = .good → ∃ t, exec (.cxlMemRead h dpa) s = .next t ∧
            sent t (.memRead h dpa false (s.lineBytes sa)) ∧ t.ctl.regs = s.ctl.regs ∧ s.sameStack t) ∧
          (∀ k, s.status sa = .mired k → ∃ t, exec (.cxlMemRead h dpa) s = .next t ∧ sent t (.memRead h dpa true zeros) ∧
            t.ctl.regs = s.ctl.regs ∧ s.sameStack t) ∧
          (∀ d, ∃ t, exec (.cxlMemWrite h dpa false d) s = .next t ∧ sent t (.memWriteDone h dpa) ∧
            t.lineBytes sa = padTo 64 d ∧ mapGet t.lines (dpa / 64) = some .good ∧ others t) ∧
          (∀ d, ∃ t, exec (.cxlMemWrite h dpa true d) s = .next t ∧ sent t (.memWriteDone h dpa) ∧
            t.lineBytes sa = zeros ∧ mapGet t.lines (dpa / 64) = some (.mired 5) ∧ others t) ∧
          (∀ d, ∃ t, exec (.cxlMemPartialWrite h dpa d) s = .next t ∧ sent t (.memWriteDone h dpa) ∧
            t.ctl.ecc.merges = s.ctl.ecc.merges ++ [⟨sa, d, s.ctl.memClass h sa, h⟩] ∧ s.sameStack t))) ∧
      (s.ctl.mayReach h sa = true → s.ctl.get (R.QOS_CLASS_CFG_LIMIT (s.ctl.memClass h sa)) = 0 →
        ∀ i k, (i = Instr.cxlMemRead h dpa ∧ k = MemKind.read) ∨ (∃ po d, i = .cxlMemWrite h dpa po d ∧ k = .write po d) ∨
            (∃ d, i = .cxlMemPartialWrite h dpa d ∧ k = .partialWrite d) →
          ∃ t r, exec i s = .next t ∧ t.ctl.stk.memWait = [r] ∧ r.head = h ∧ r.dpa = dpa ∧ r.cls = s.ctl.memClass h sa ∧
            r.kind = k ∧ t.ctl.outbox = s.ctl.outbox ∧ (t.ctl.hd h).credits = 2047 ∧ t.ctl.regs = s.ctl.regs ∧
            s.sameStack t)))

/-- A decoder commit within the range is committed, any other sets Error Not Committed, and a locked decoder stays. That an interleave
the device does not support also ends in Error Not Committed, and where the DPA range of a decoder starts, are the model's choice, log
entry 57: R62 itself names only the range and an overlap (03_address_views_and_layout.md R62). -/
def Obligations.HdmDecodersCommitWithinTheirHead : Prop :=
  ∀ (h : Head) (n : Fin 4) (base size skip ways gran : Nat) (lock : Bool) (d : HdmDecoder) (s : State),
  (s.ctl.hd h).hdm[n.val]? = some d →
  let lo := (s.ctl.hd h).dpaStart n + skip * 268435456
  let hi := lo + size * 268435456 / ways
  let okay := ways ∈ [1, 2, 4, 8] ∧ gran ∈ [256, 512, 1024, 2048, 4096, 8192, 16384] ∧
    hi ≤ (s.ctl.userEnd + 268435455) / 268435456 * 268435456 ∧
    ∀ i, i < 4 → i ≠ n.val → ∀ e, (s.ctl.hd h).hdm[i]? = some e → e.committed = true → e.dpa + e.size ≤ lo ∨ hi ≤ e.dpa
  (d.locked = true → exec (.hdmDecoderCommit h n base size skip ways gran lock) s = .next s) ∧
  (d.locked = false → ∃ t d', exec (.hdmDecoderCommit h n base size skip ways gran lock) s = .next t ∧
    (t.ctl.hd h).hdm[n.val]? = some d' ∧ t.ctl.hd h.other = s.ctl.hd h.other ∧ t.ctl.regs = s.ctl.regs ∧ s.sameStack t ∧
    (okay → d'.committed = true ∧ d'.errNotCommitted = false ∧ d'.base = base * 268435456 ∧ d'.dpa = lo ∧
      d'.size = size * 268435456 / ways ∧ d'.skip = skip * 268435456 ∧ d'.ways = ways ∧ d'.gran = gran ∧ d'.locked = lock) ∧
    (¬okay → d'.committed = false ∧ d'.errNotCommitted = true))

/-- Ring fetch takes turns, a descriptor becomes a judged job or stops its SQ, and link requests end as they should. One read for
each descriptor is log entry 47, DMA_ERROR for a poisoned list 34, a list judged before it is read 120, and what read data enter the
ingest buffer 40 (05_comb_jobs.md R85, 05_comb_jobs.md R90, 05_comb_jobs.md R92, 05_comb_jobs.md R97, 05_comb_jobs.md R111,
05_comb_jobs.md R118, 19_reconstruction_trace.md R401). -/
def Obligations.FetchesAndLinkRequestsEnd : Prop :=
  ∀ s : State,
  (∀ k q, s.ctl.admits = true → k < 64 → q = (s.ctl.job.turn + k) % 64 → s.ctl.feeds q = true →
    (∀ i, i < k → s.ctl.feeds ((s.ctl.job.turn + i) % 64) = false) →
    let room := min s.ctl.fetchRoom (4096 - s.ctl.npOutstanding)
    0 < room → ∃ t, exec .ringFetchTurn s = .next t ∧
      t.ctl.job.fetches.length = s.ctl.job.fetches.length + min s.ctl.burst (min (s.ctl.unfetched q) room) ∧
      t.ctl.job.turn = (q + 1) % 64 ∧ t.ctl.regs = s.ctl.regs ∧ s.sameStack t ∧
      .dmaRead (s.ctl.sqOwner q) s.ctl.job.tag (s.ctl.get (R.JRG_SQ_BASE_BASE q) * 4096 + 128 * s.ctl.nextFetch q) 128 ∈
        t.ctl.outbox) ∧
  (∀ (q : Fin 64) e x, s.ctl.job.fetches.find? (fun e => decide (e.1 = q.val)) = some e →
    ∃ t, exec (.descriptorFetched q (.err x)) s = .next t ∧ t.ctl.get (R.JRG_SQ_STATUS_FETCH_ERR q) = 1 ∧
      t.ctl.get (R.JRG_SQ_STATUS_HEAD q) = s.ctl.get (R.JRG_SQ_STATUS_HEAD q) ∧ t.ctl.srcPending (420 + q) = true ∧
      t.ctl.job.jobs.length = s.ctl.job.jobs.length ∧ t.ctl.feeds q = false ∧ s.sameStack t) ∧
  (∀ (q : Fin 64) e p k, s.ctl.job.fetches.find? (fun e => decide (e.1 = q.val)) = some e → k < 4096 →
    s.ctl.jobAt k = none → (∀ i, i < k → (s.ctl.jobAt i).isSome = true) → s.ctl.get (R.JRG_SQ_CFG_SIZE q) ≤ 65536 →
    let j := s.ctl.makeJob k (s.ctl.sqOwner q) p
    ∃ t x, exec (.descriptorFetched q (.ok p)) s = .next t ∧ s.sameStack t ∧
      t.ctl.get (R.JRG_SQ_STATUS_HEAD q) = (e.2 + 1) % max 1 (s.ctl.get (R.JRG_SQ_CFG_SIZE q)) ∧ t.ctl.jobAt k = some x ∧
      x.owner = s.ctl.sqOwner q ∧ x.desc = padTo 128 p ∧ x.sq = q ∧ x.ocs = false ∧
      (s.ctl.descBad j = true → x.phase = .ended ∧ x.status = stInvalid) ∧
      (s.ctl.descBad j = false → j.hasList = false → x.phase = .ready)) ∧
  (∀ k j l, s.ctl.jobAt k = some j → j.phase = .listWait → j.srcSpace = 1 → j.aborter = none →
    gather j.ingested (j.ingested.length + 1) j.src (16 * j.listCount) = some l →
    let j1 := { j with frags := parseList (l.map Prod.snd) j.listCount, phase := .ready, ingested := [] }
    let ends : Nat → Prop := fun st => ∃ t x, exec (.fragmentListFetched k) s = .next t ∧ t.ctl.jobAt k = some x ∧
      x.phase = .ended ∧ x.status = st ∧ s.sameStack t
    (s.ctl.listBad j1 = false → (j.adopted = false ∨ ∀ f ∈ j1.frags, f.space ≠ 1) →
      ∃ t, exec (.fragmentListFetched k) s = .next t ∧ t.ctl.jobAt k = some j1 ∧ t.ctl.regs = s.ctl.regs ∧ s.sameStack t) ∧
    (j.ocs = false → s.ctl.listBad j1 = true → ends stInvalid) ∧
    (j.ocs = false → s.ctl.listBad j1 = false → j.adopted = true → (∃ f ∈ j1.frags, f.space = 1) → ends stFenced) ∧
    (∀ n, j.ocs = true → j.handle = some n → s.ctl.fenced j.owner = false → (s.ctl.hd j.owner).mbox.pend = none →
      s.ctl.listBad j1 = true → ∃ t b, exec (.fragmentListFetched k) s = .next t ∧ t.ctl.jobAt k = none ∧
        mapGet (t.ctl.done j.owner) n = some b ∧ le b 3 1 = stInvalid ∧ s.sameStack t)) ∧
  (∀ k j st r sa, s.ctl.jobAt k = some j → j.phase = .listWait → j.srcSpace = 0 → j.ocs = false → j.aborter = none →
    s.ctl.classAdmits j = true → (spanLines j.src (16 * j.listCount)).any (s.ctl.lineHeld false) = false →
    s.ctl.judgeSpans j (Job.bufRange j.srcSpace j.src (16 * j.listCount)) = some (st, r, sa) →
    ∃ t x, exec (.fragmentListFetched k) s = .next t ∧ t.ctl.jobAt k = some x ∧ x.phase = .ended ∧ x.status = st ∧
      x.errFrag = r.errFrag ∧ s.sameStack t) ∧
  (∀ tag data d j, s.ctl.job.dma.find? (fun d => decide (d.tag = tag) && !d.write) = some d → s.ctl.jobAt d.slot = some j →
    (let lines := s.ctl.readLines j d.use d.frag d.offset d.len
     (∀ x ∈ s.ctl.job.jobs, x.toRead = []) → s.ctl.stk.ingest.length + lines.length < 4096 →
      ∃ t, exec (.dmaReadCompletion tag data []) s = .next t ∧
        t.ctl.jobAt d.slot = some { j with ingested := j.ingested ++ [⟨d.addr, false, padTo d.len data⟩] } ∧
        (∀ x ∈ t.ctl.job.dma, x.tag ≠ tag) ∧ (lines = [] → t.ctl.regs = s.ctl.regs) ∧
        t.ctl.stk.ingest = s.ctl.stk.ingest ++ lines.map (fun ln => (ln, j.cls)) ∧ s.sameStack t) ∧
    (∀ bad, bad ≠ [] → ∃ t, exec (.dmaReadCompletion tag data bad) s = .next t ∧
      t.ctl.srcPending (590 + d.head.num) = true ∧ s.sameStack t ∧
      (d.use = .list → j.phase = .listWait → j.stop = none → j.ocs = false → j.aborter = none →
        ∃ x, t.ctl.jobAt d.slot = some x ∧ x.phase = .ended ∧ x.status = stDmaError)) ∧
    (∀ i src, (i = Instr.dmaRequestError tag ∧ src = 592) ∨ (i = .dmaCompletionTimeout tag ∧ src = 588) →
      j.phase = .running → j.stop = none → ∃ t x, exec i s = .next t ∧ t.ctl.srcPending (src + d.head.num) = true ∧
        t.ctl.jobAt d.slot = some x ∧ x.stop = some stDmaError ∧ x.result0 = j.acked ∧ s.sameStack t)) ∧
  (∀ tag d j, s.ctl.job.dma.find? (fun d => decide (d.tag = tag) && d.write) = some d → s.ctl.jobAt d.slot = some j →
    ∃ t x, exec (.dmaWriteAck tag) s = .next t ∧
      t.ctl.job.dma = s.ctl.job.dma.filter (fun y => !(y.write && decide (y.head = d.head) && decide (y.tag ≤ tag))) ∧
      t.ctl.jobAt d.slot = some x ∧ j.acked + d.len ≤ x.acked ∧ t.ctl.regs = s.ctl.regs ∧ s.sameStack t)

/-- The first-ranked job starts or ends by the first outcome that applies, a pass of any stripe operation adds its products for every output,
placed or packed, and jobs end: with their packed output written, with COPY and FILL done, and with the change of R134 made to their
context. Where the key of a miss that waited for a way stands in the inverter's order is log entry 112, and that a damaged context entry
is met at a dispatch is log entry 128, both the model's choices (05_comb_jobs.md R106, 05_comb_jobs.md R112, 05_comb_jobs.md R118, 04_codes_and_field_arithmetic.md R67,
04_codes_and_field_arithmetic.md R71, 04_codes_and_field_arithmetic.md R79, 04_codes_and_field_arithmetic.md R81,
06_stripe_contexts.md R134, 06_stripe_contexts.md R138, 10_service_classes_and_deadlines.md R228). -/
def Obligations.JobsAreJudgedRunAndEnded : Prop :=
  ∀ s : State,
  (∀ j, j ∈ s.ctl.job.jobs → s.ctl.mayStart j = true →
    (∀ k ∈ s.ctl.job.jobs, s.ctl.mayStart k = true → k = j ∨ j.rank < k.rank) → j.aborter = none → j.ocs = false →
    let ends : Nat → State → Prop := fun st t => ∃ x, t.ctl.jobAt j.slot = some x ∧ x.phase = .ended ∧ x.status = st
    let idle := j.op = opNop ∨ (j.length = 0 ∧ j.op ≠ opScrub)
    (∀ bad x, bad = some x → s.ctl.stx.cache.contains x = true → s.ctl.stx.dirty.contains x = false →
      exec (.jobDispatch bad) s = exec (.jobDispatch none)
        { s with ctl := { s.ctl with stx.cache := s.ctl.stx.cache.filter fun y => decide (y ≠ x) } }) ∧
    (∀ bad, (∀ x, bad = some x → s.ctl.stx.cache.contains x = false) → idle → ∃ t, exec (.jobDispatch bad) s = .next t ∧
      ends stOk t ∧ t.ctl.outbox = s.ctl.outbox ∧ s.sameStack t) ∧
    (∀ bad, (∀ x, bad = some x → s.ctl.stx.cache.contains x = false) → ¬idle → j.fCtx = false →
      (∀ st r a, s.ctl.judgeRanges j = some (st, r, a) → ∃ t, exec (.jobDispatch bad) s = .next t ∧ ends st t ∧ s.sameStack t ∧
        t.ctl.srcPending (if st = stPartition then 576 + j.owner.num else 551) = true) ∧
      (s.ctl.judgeRanges j = none → (j.op = opReconstruct ∨ j.op = opTranscode) → recoverable j.code j.emask = false →
        ∃ t, exec (.jobDispatch bad) s = .next t ∧ ends stUnrecoverable t ∧ s.sameStack t) ∧
      (s.ctl.judgeRanges j = none → ¬((j.op = opReconstruct ∨ j.op = opTranscode) ∧ recoverable j.code j.emask = false) →
        ∃ t x, exec (.jobDispatch bad) s = .next t ∧ t.ctl.jobAt j.slot = some x ∧ x.phase = .running ∧
          x.mode = s.ctl.chooseMode j ∧ (j.op = opScrub → j.pass ∈ t.ctl.frg.passes) ∧ s.sameStack t))) ∧
  (∀ j, s.ctl.jobAt j.slot = some j → s.ctl.macReady j = true →
    (∀ k ∈ s.ctl.job.jobs, s.ctl.macReady k = true → k = j ∨ j.rank < k.rank) → s.ctl.passViolation j = none →
    (∀ k ∈ j.passInputs, (s.ctl.inputAt j k).1 = 0 ∧ (s.ctl.inputAt j k).2 % 64 = 0 ∧
      s.ctl.sealAt (s.ctl.inputAt j k).2 = 0 ∧ s.status (s.ctl.inputAt j k).2 = .good ∧
      ∀ m ∈ s.ctl.ecc.merges, m.sa / 64 ≠ (s.ctl.inputAt j k).2 / 64) →
    let f : Nat → Frag := fun o => if j.op = opTranscode then j.fragB o else j.fragA o
    let at_ : Nat → Nat := fun o => s.ctl.fragByte (f o) j.nextOff
    let line : Nat → Nat → BitVec 8 := fun o i => BitVec.ofNat 8 ((j.outTerms o j.nextOff).foldl (fun n y =>
      gfAdd n (gfMul y.coef (memGet s.mem ((s.ctl.inputAt j (y.src, y.off)).2 + i)).toNat)) 0)
    (∀ w, s.ctl.dec.wants.find? (fun w => decide (w.1 = j.slot)) = some w → ∃ t, exec (.macPass true) s = .next t ∧
      t.ctl.srcPending 565 = true ∧ t.ctl.jobAt j.slot = some j ∧ w.2 ∈ t.ctl.dec.queue ∧ s.sameStack t) ∧
    (j.op = opVerify → ∃ t x, exec (.macPass false) s = .next t ∧ t.ctl.jobAt j.slot = some x ∧ x.pos = j.pos + 1 ∧
      t.ctl.regs = s.ctl.regs ∧ s.sameStack t) ∧
    (j.op ≠ opVerify → j.fPacked = false → (j.outputs.map fun o => at_ o / 64).Nodup →
      (∀ o ∈ j.outputs, (f o).space = 0 ∧ at_ o % 64 = 0 ∧ s.ctl.sealAt (at_ o) = 0 ∧ s.ctl.rowUnplaced (at_ o) = false ∧
        ∀ m ∈ s.ctl.ecc.merges, m.sa / 64 ≠ at_ o / 64) →
      ∃ t x, exec (.macPass false) s = .next t ∧ t.ctl.jobAt j.slot = some x ∧ x.pos = j.pos + 1 ∧
        x.wrote = j.wrote + 64 * j.outputs.length ∧ x.computed = decide (j.pos + 1 = j.lines) ∧ t.pending = s.pending ∧
        (∀ o ∈ j.outputs, ∀ i, i < 64 → memGet t.mem (at_ o + i) = line o i) ∧
        ∀ b, (∀ o ∈ j.outputs, b / 64 ≠ at_ o / 64) → memGet t.mem b = memGet s.mem b) ∧
    (j.op ≠ opVerify → j.fPacked = true → j.dstSpace = 0 → ∃ t x, exec (.macPass false) s = .next t ∧
      t.ctl.jobAt j.slot = some x ∧ x.pos = j.pos + 1 ∧ x.wrote = j.wrote ∧ x.computed = decide (j.pos + 1 = j.lines) ∧
      x.packBuf = j.packBuf ++ j.outputs.zipIdx.map (fun e =>
        ⟨j.dst + (e.2 * j.length + 64 * j.pos), false, (List.range 64).map (line e.1)⟩) ∧ s.sameStack t)) ∧
  (∀ k j, s.ctl.jobAt k = some j → j.phase = .running → j.ocs = false → j.aborter = none →
    let ends : Nat → State → Prop := fun st t => ∃ x, t.ctl.jobAt k = some x ∧ x.phase = .ended ∧ x.status = st
    (∀ st, j.stop = some st → ∃ t, exec (.jobEnd k) s = .next t ∧ ends st t ∧ s.sameStack t) ∧
    (j.stop = none → j.isStripe = true → j.computed = true → j.packBuf = [] → s.ctl.jobDma k true = [] → j.fCtx = false →
      ∃ t, exec (.jobEnd k) s = .next t ∧ s.sameStack t ∧
        ends (if j.status ≠ 0 then j.status else if j.poisonLines ≠ 0 then stOutputPoisoned else stOk) t) ∧
    (∀ (n : Nat) (d : Nat → Bytes), j.stop = none → j.isStripe = true → j.op ≠ opVerify → j.computed = true → 0 < n →
      j.packBuf = (List.range n).map (fun i => ⟨j.dst + 64 * i, false, d i⟩) → (∀ i, i < n → (d i).length = 64) →
      s.ctl.packReady j = true → s.ctl.runViolation j = none → s.ctl.jobDma k true = [] → j.status = 0 → j.poisonLines = 0 →
      j.fCtx = false → j.dstSpace = 0 → j.dst % 64 = 0 →
      (∀ i, i < 64 * n → s.ctl.sealAt (j.dst + i) = 0 ∧ s.ctl.rowUnplaced (j.dst + i) = false ∧
        ∀ m ∈ s.ctl.ecc.merges, m.sa / 64 ≠ (j.dst + i) / 64) →
      ∃ t x, exec (.jobEnd k) s = .next t ∧ t.ctl.jobAt k = some x ∧ x.phase = .ended ∧ x.status = stOk ∧
        x.result0 = j.wrote + 64 * n ∧ t.pending = s.pending ∧
        ∀ a, memGet t.mem a = if j.dst ≤ a ∧ a < j.dst + 64 * n then (d ((a - j.dst) / 64)).getD ((a - j.dst) % 64) 0
          else memGet s.mem a) ∧
    (∀ m, j.stop = none → j.op ∈ [opEncode, opReconstruct, opUpdate, opTranscode] → j.computed = true → j.packBuf = [] →
      s.ctl.jobDma k true = [] → j.status = 0 → j.poisonLines = 0 → j.fCtx = true → s.ctl.ctxMain j.ctxIndex = some m →
      j.outputs.Nodup → spN j.code ≤ 44 → m.chk.length = 44 → (j.op ≠ opTranscode → m.spec = j.code) →
      ∃ t x e, exec (.jobEnd k) s = .next t ∧ t.ctl.jobAt k = some x ∧ x.phase = .ended ∧ x.status = stOk ∧
        t.ctl.ctxEntry j.ctxIndex = .main e ∧ e.owner = m.owner ∧ s.sameStack t ∧
        (j.op ≠ opTranscode → (∀ y, y ≠ j.ctxIndex → t.ctl.ctxEntry y = s.ctl.ctxEntry y) ∧ e.spec = m.spec ∧
          e.kind = m.kind ∧ e.fragLen = m.fragLen ∧ e.base = m.base) ∧
        (j.op = opUpdate → m.chkValid = true → x.ctxUpdated = true ∧ e.chkValid = true ∧
          ∀ i, i < 44 → e.chk.getD i 0 = if i ∈ j.outputs then m.chk.getD i 0 ^^^ j.deltaChk i else m.chk.getD i 0) ∧
        (j.op = opUpdate → m.chkValid = false → j.wholeRange = false → x.ctxUpdated = false ∧ e = m) ∧
        (j.op = opEncode → j.wholeRange = true → m.state = 1 → x.ctxUpdated = true ∧ e.chkValid = true ∧
          e.state = (if e.unavail = 0 then 2 else 3) ∧
          (∀ i, i < spK j.code → e.chk.getD i 0 = j.chkOf i) ∧
          (∀ i, spK j.code ≤ i → i < spN j.code → tb e.unavail i = (j.fPacked || !tb j.outMask i)) ∧
          (j.fPacked = false → ∀ i ∈ j.outputs, e.chk.getD i 0 = j.chkOf i)) ∧
        (j.op = opReconstruct → j.wholeRange = true → j.fPacked = false → j.outputs ≠ [] → x.ctxUpdated = true ∧
          e.chkValid = m.chkValid ∧ ∀ i, i < 44 → e.chk.getD i 0 = (if i ∈ j.outputs then j.chkOf i else m.chk.getD i 0) ∧
            tb e.unavail i = (tb m.unavail i && !decide (i ∈ j.outputs))) ∧
        ((j.op = opEncode ∨ j.op = opReconstruct) → j.wholeRange = false → j.fPacked = false → m.chkValid = true →
          (∃ i ∈ j.outputs, tb m.unavail i = false) → x.ctxUpdated = true ∧ e.chkValid = false ∧ e.chk = m.chk ∧
            e.unavail = m.unavail) ∧
        (j.op = opReconstruct → j.fPacked = true → x.ctxUpdated = false ∧ e = m) ∧
        (j.op = opTranscode → x.ctxUpdated = true ∧ e.spec = j.specB ∧ e.kind = 2 ∧ e.fragLen = j.fragLenB ∧
          e.chkValid = true ∧ e.state = (if e.unavail = 0 then 2 else 3) ∧ ∀ i, i < 44 →
            tb e.unavail i = (decide (i < spN j.specB) && !tb j.outMask i) ∧
            (i ∈ j.outputs → e.chk.getD i 0 = j.chkOf i))) ∧
    (j.stop = none → j.op = opFill → j.computed = false → s.ctl.bufferReady j = true → s.ctl.runViolation j = none →
      s.ctl.jobDma k true = [] → j.status = 0 → j.poisonLines = 0 → j.fCtx = false → j.dstSpace = 0 → j.dst % 64 = 0 →
      j.length % 64 = 0 → (∀ i, i < j.length → s.ctl.sealAt (j.dst + i) = 0 ∧ s.ctl.rowUnplaced (j.dst + i) = false ∧
        ∀ m ∈ s.ctl.ecc.merges, m.sa / 64 ≠ (j.dst + i) / 64) →
      ∃ t, exec (.jobEnd k) s = .next t ∧ ends stOk t ∧ t.pending = s.pending ∧
        ∀ a, memGet t.mem a = if j.dst ≤ a ∧ a < j.dst + j.length then j.pattern.getD ((a - j.dst) % 16) 0
          else memGet s.mem a) ∧
    (j.stop = none → j.op = opCopy → j.computed = false → s.ctl.bufferReady j = true → s.ctl.runViolation j = none →
      s.ctl.jobDma k true = [] → j.status = 0 → j.poisonLines = 0 → j.fCtx = false → j.srcSpace = 0 → j.src % 64 = 0 →
      j.dstSpace = 0 → j.dst % 64 = 0 → j.length % 64 = 0 →
      (∀ i, i < j.length → s.ctl.sealAt (j.src + i) = 0 ∧ s.status (j.src + i) = .good ∧ s.ctl.sealAt (j.dst + i) = 0 ∧
        s.ctl.rowUnplaced (j.dst + i) = false ∧
        ∀ m ∈ s.ctl.ecc.merges, m.sa / 64 ≠ (j.src + i) / 64 ∧ m.sa / 64 ≠ (j.dst + i) / 64) →
      ∃ t x, exec (.jobEnd k) s = .next t ∧ t.ctl.jobAt k = some x ∧ x.phase = .ended ∧ x.status = stOk ∧
        x.result0 = j.length ∧ t.pending = s.pending ∧
        ∀ a, memGet t.mem a = if j.dst ≤ a ∧ a < j.dst + j.length then memGet s.mem (j.src + (a - j.dst))
          else memGet s.mem a)) ∧
  (∀ ok, s.ctl.domainOpen 8 = false → exec (.inverterFillDone ok) s = .next s) ∧
  (∀ key rest, s.ctl.domainOpen 8 = true → s.ctl.dec.queue = key :: rest →
    (∃ t, exec (.inverterFillDone true) s = .next t ∧ t.ctl.dec.queue = rest ∧
      (∀ e ∈ s.ctl.dec.entries, e.key = key → { e with rows := some (entryRows key), failed := false } ∈ t.ctl.dec.entries) ∧
      t.ctl.regs = s.ctl.regs ∧ s.sameStack t) ∧
    (∃ t, exec (.inverterFillDone false) s = .next t ∧ t.ctl.srcPending 564 = true ∧ s.sameStack t ∧
      t.ctl.get R.CMB_INV_FAIL_CNT_FAILS = min (s.ctl.get R.CMB_INV_FAIL_CNT_FAILS + 1) 0xFFFF ∧
      (∀ e, s.ctl.dmcEntry key = some e → e.failed = true → ∀ j ∈ s.ctl.job.jobs, j.stop = none →
        (j.slot, key) ∈ s.ctl.dec.wants → ∃ x ∈ t.ctl.job.jobs, x.slot = j.slot ∧ x.stop = some stEngineFault))) ∧
  (∀ k w, s.ctl.dec.wants.find? (fun w => decide (w.1 = k)) = some w → k ∈ s.ctl.dec.wayWait →
    s.ctl.dmcEntry w.2 = none → s.ctl.dmcFree (dmcSet w.2) = true → ∃ t, exec (.decodeWayWaitEnd k) s = .next t ∧
      (t.ctl.dmcEntry w.2).isSome = true ∧ k ∉ t.ctl.dec.wayWait ∧
      (∃ l, t.ctl.dec.queue = l ++ [w.2] ∧ l.Sublist s.ctl.dec.queue ∧
        ∀ x ∈ s.ctl.dec.queue, s.ctl.dmcWanted x = true → x ∈ l) ∧
      t.ctl.regs = s.ctl.regs ∧ s.sameStack t)

/-- NOP performs no access and completes with OK. Combined with FLAGS.FENCE, it reports that every earlier job of its SQ has completed: it
starts when none is held any more (05_comb_jobs.md R108). -/
def Obligations.NopCompletesBehindItsFence : Prop :=
  ∀ (s : State) (j : Job), j ∈ s.ctl.job.jobs → j.op = opNop → s.ctl.mayStart j = true →
  (∀ k ∈ s.ctl.job.jobs, s.ctl.mayStart k = true → k = j ∨ j.rank < k.rank) → j.aborter = none →
  (j.fFence = true → ∀ k ∈ s.ctl.job.jobs, k.seq < j.seq → k.ocs = j.ocs → (if j.ocs = true then k.owner ≠ j.owner else k.sq ≠ j.sq)) ∧
  (j.ocs = false → ∃ t x, exec (.jobDispatch none) s = .next t ∧ t.ctl.jobAt j.slot = some x ∧ x.phase = .ended ∧ x.status = stOk ∧
    (∀ late phase, le (x.completion late phase) 3 1 = 0) ∧ t.ctl.outbox = s.ctl.outbox ∧ s.sameStack t) ∧
  (∀ n, j.ocs = true → j.handle = some n → (s.ctl.hd j.owner).mbox.pend = none → ∃ t b, exec (.jobDispatch none) s = .next t ∧
    t.ctl.jobAt j.slot = none ∧ mapGet (t.ctl.done j.owner) n = some b ∧ le b 3 1 = 0 ∧ s.sameStack t)

/-- A completion goes to the tail of its CQ when it may, and the ring commands check owner, state and configuration. When a CQ is full is
log entry 32, the SQ tail 0 after RING_CREATE 52, and the VECTOR cut to its register field 128 (05_comb_jobs.md R88, 05_comb_jobs.md R89, 05_comb_jobs.md R90, 05_comb_jobs.md R91, 05_comb_jobs.md R93,
05_comb_jobs.md R94, 05_comb_jobs.md R115, 05_comb_jobs.md R119, 05_comb_jobs.md R122). -/
def Obligations.CompletionsArePostedAndRingsKept : Prop :=
  ∀ s : State,
  (∀ k j, s.ctl.jobAt k = some j → j.phase = .ended → j.ocs = false →
    let q := s.ctl.jobCq j
    let tail := s.ctl.get (R.JRG_CQ_STATUS_TAIL q)
    let size := max 1 (s.ctl.get (R.JRG_CQ_CFG_SIZE q))
    (s.ctl.fenced j.owner = true → exec (.completionPost k) s = .next s) ∧
    (s.ctl.fenced j.owner = false → s.ctl.get (R.JRG_CQ_STATUS_WRITE_ERR q) ≠ 0 → ∃ t, exec (.completionPost k) s = .next t ∧
      t.ctl.jobAt k = none ∧ t.ctl.outbox = s.ctl.outbox ∧ s.ctl.keeps t.ctl [R.CMB_DMC_FLUSH_FLUSH_BUSY] ∧
      s.sameStack t) ∧
    (s.ctl.fenced j.owner = false → s.ctl.get (R.JRG_CQ_STATUS_WRITE_ERR q) = 0 → s.ctl.get (R.JRG_CQ_CFG_ENABLE q) ≠ 0 →
      (s.ctl.cqFull q = true → j.waitCounted = false → ∃ t, exec (.completionPost k) s = .next t ∧
        (t.ctl.jobAt k).isSome = true ∧ s.sameStack t ∧
        t.ctl.get R.JRG_CQ_FULL_CNT_WAITS = min (s.ctl.get R.JRG_CQ_FULL_CNT_WAITS + 1) 0xFFFFFFFF ∧
        s.ctl.keeps t.ctl [R.JRG_CQ_FULL_CNT_WAITS]) ∧
      (s.ctl.cqFull q = false → s.ctl.linkReady (s.ctl.cqOwner q) = true → size ≤ 65536 →
        ∃ t, exec (.completionPost k) s = .next t ∧ t.ctl.jobAt k = none ∧ s.sameStack t ∧
          .cqWrite (s.ctl.cqOwner q) (s.ctl.get (R.JRG_CQ_BASE_BASE q) * 4096 + 32 * tail)
            (j.completion (s.ctl.lateNow j || j.late) (s.ctl.flag (R.JRG_CQ_STATUS_PHASE q))) ∈ t.ctl.outbox ∧
          t.ctl.get (R.JRG_CQ_STATUS_TAIL q) = (tail + 1) % size ∧
          t.ctl.get (R.JRG_CQ_STATUS_PHASE q) = (if tail + 1 = size then 1 - s.ctl.get (R.JRG_CQ_STATUS_PHASE q)
            else s.ctl.get (R.JRG_CQ_STATUS_PHASE q))))) ∧
  (∀ q : Fin 64, s.ctl.get (R.JRG_CQ_IRQ_COAL_US q) ≠ 0 → (s.ctl.ring q).unsignalled ≠ 0 →
    ∃ t, exec (.cqCoalesceTimeout q) s = .next t ∧ s.sameStack t ∧
      t.ctl.clock = max s.ctl.clock ((s.ctl.ring q).firstUnsig + 1000 * s.ctl.get (R.JRG_CQ_IRQ_COAL_US q)) ∧
      (s.ctl.get (R.JRG_CQ_CFG_IEN q) ≠ 0 → (t.ctl.ring q).unsignalled = 0)) ∧
  (∀ (q : Fin 64) n, ∃ t, exec (.completionWriteFail q n) s = .next t ∧
    t.ctl.get (R.JRG_CQ_STATUS_WRITE_ERR q) = 1 ∧ t.ctl.srcPending (484 + q) = true ∧ s.sameStack t ∧
    ∀ j ∈ t.ctl.job.jobs, j.ocs = false → j.phase = .ended → t.ctl.jobCq j ≠ q) ∧
  (∀ (h : Head) (p : Bytes), s.unclaimed h [blkJrg] →
    let kind := le p 0 1
    let q := le p 1 1
    let size := le p 4 4
    let cq := le p 16 1
    let mine := kind ≤ 1 ∧ q ≤ 63 ∧ s.ctl.ringOwner kind q = h
    let on := s.ctl.get (if kind = 0 then R.JRG_SQ_CFG_ENABLE q else R.JRG_CQ_CFG_ENABLE q) ≠ 0
    let okay := size = 0 ∨ (le p 8 8 % 4096 = 0 ∧ sizeOk size = true ∧
      (kind = 0 → cq ≤ 63 ∧ s.ctl.get (R.JRG_CQ_CFG_ENABLE cq) ≠ 0 ∧ s.ctl.cqOwner cq = h))
    let refused : Instr → Nat → Ocs → Prop := fun i op e => ∃ t, exec i s = .next t ∧ t.replied h op e [] ∧
      s.frame Ctl.onlyReplies t
    (s.takes h { min := 24 } p →
      (¬mine → refused (.ringCreate h p) 0xC110 .invalidParameter) ∧
      (mine → on → refused (.ringCreate h p) 0xC110 .busy) ∧
      (mine → ¬on → ¬okay → refused (.ringCreate h p) 0xC110 .invalidParameter) ∧
      (mine → ¬on → okay → ∃ t, exec (.ringCreate h p) s = .next t ∧ t.replied h 0xC110 .ok [] ∧ s.sameStack t ∧
        (kind = 0 → t.ctl.get (R.JRG_SQ_CFG_SIZE q) = size ∧ t.ctl.get (R.JRG_SQ_CFG_CQ q) = cq % 64 ∧
          t.ctl.get (R.JRG_SQ_BASE_BASE q) = le p 8 8 / 4096 ∧ t.ctl.get (R.JRG_SQ_CFG_ENABLE q) = (if size = 0 then 0 else 1) ∧
          (size ≠ 0 → t.ctl.get (R.JRG_SQ_STATUS_HEAD q) = 0 ∧ (t.ctl.ring q).sqTail = 0)) ∧
        (kind = 1 → t.ctl.get (R.JRG_CQ_CFG_SIZE q) = size ∧ t.ctl.get (R.JRG_CQ_CFG_VECTOR q) = cq % 64 ∧
          t.ctl.get (R.JRG_CQ_BASE_BASE q) = le p 8 8 / 4096 ∧ t.ctl.get (R.JRG_CQ_CFG_ENABLE q) = (if size = 0 then 0 else 1) ∧
          (size ≠ 0 → t.ctl.get (R.JRG_CQ_STATUS_TAIL q) = 0 ∧ t.ctl.get (R.JRG_CQ_STATUS_PHASE q) = 1)))) ∧
    (s.takes h { min := 2, background := true } p →
      (¬mine → refused (.ringDelete h p) 0xC111 .invalidParameter) ∧
      (mine → kind = 1 → s.ctl.cqFreed q = false → ∃ t, exec (.ringDelete h p) s = .next t ∧
        t.replied h 0xC111 .invalidParameter [] ∧ t.ctl.get (R.JRG_CQ_CFG_ERR q) = 1 ∧
        s.ctl.keeps t.ctl [R.JRG_CQ_CFG_ERR q] ∧ s.sameStack t) ∧
      (mine → kind = 1 → s.ctl.cqFreed q = true → ∃ t, exec (.ringDelete h p) s = .next t ∧
        (t.ctl.hd h).mbox.bg = none ∧ (t.ctl.hd h).mbox.bgLast = some ⟨0xC111, 0, 0, []⟩ ∧
        t.ctl.get (R.JRG_CQ_CFG_ENABLE q) = 0 ∧ s.ctl.keeps t.ctl [R.JRG_CQ_CFG_ENABLE q] ∧ s.sameStack t) ∧
      (mine → kind = 0 → ∃ t n, exec (.ringDelete h p) s = .next t ∧ (t.ctl.hd h).mbox.bg = some ⟨0xC111, p, 0, n⟩ ∧
        n = q ∧ t.ctl.get (R.JRG_SQ_CFG_ENABLE q) = 0 ∧ s.ctl.keeps t.ctl [R.JRG_SQ_CFG_ENABLE q] ∧ s.sameStack t)) ∧
    (s.takes h { min := 3 } p →
      (¬mine ∨ 1 < le p 2 1 ∨ on ∨ (le p 2 1 = 1 ∧ s.ctl.twoHeads = false) →
        refused (.ringAssign h p) 0xC112 .invalidParameter) ∧
      (mine → le p 2 1 ≤ 1 → ¬on → (le p 2 1 = 1 → s.ctl.twoHeads = true) → ∃ t, exec (.ringAssign h p) s = .next t ∧
        t.replied h 0xC112 .ok [] ∧ t.ctl.ringOwner kind q = Head.ofNum (le p 2 1) ∧ s.sameStack t ∧
        s.ctl.keeps t.ctl [if kind = 0 then R.JRG_OWNER_SQ_OWNER else R.JRG_OWNER_CQ_OWNER] ∧
        ∀ n, n < 64 → n ≠ q → t.ctl.ringOwner kind n = s.ctl.ringOwner kind n))) ∧
  (∀ (h : Head) g, (s.ctl.hd h).mbox.bg = some g → g.op = 0xC111 → (s.ctl.hd h).mbox.bgTracked = true →
    (s.ctl.sqInFlight g.aux = 0 → ∃ t, exec (.ringDeleteDrained h) s = .next t ∧ (t.ctl.hd h).mbox.bg = none ∧
      (t.ctl.hd h).mbox.bgLast = some ⟨0xC111, 0, 0, []⟩ ∧ s.frame Ctl.onlyReplies t) ∧
    (s.ctl.sqInFlight g.aux ≠ 0 → exec (.ringDeleteDrained h) s = .next s))

/-- JOB_SUBMIT, its waits, JOB_QUERY and the aborts act on the requester's own handles and rings (05_comb_jobs.md R86,
05_comb_jobs.md R120, 05_comb_jobs.md R121, 05_comb_jobs.md R123, 13_keeper_and_mailbox.md R295). -/
def Obligations.OcsJobsLiveByTheirHandles : Prop :=
  ∀ (h : Head) (p : Bytes) (s : State),
  let n := nextHandle (s.ctl.lastHandle h)
  let slotFree : Ctl → Nat → Prop := fun c k => k < 4096 ∧ c.jobAt k = none ∧ ∀ i, i < k → (c.jobAt i).isSome = true
  (s.takes h { min := 136, stack := true } p →
    (64 ≤ s.ctl.ocsHeld h → ∃ t, exec (.jobSubmit h p) s = .next t ∧ t.replied h 0xC100 .busy [] ∧
      s.frame Ctl.onlyReplies t) ∧
    (s.ctl.ocsHeld h < 64 → 4096 ≤ s.ctl.slotsHeld + s.ctl.job.fetches.length + s.ctl.job.slotWaiters.length →
      ∃ t, exec (.jobSubmit h p) s = .next t ∧ t.waits h 0xC100 p .slot ∧
        t.ctl.job.slotWaiters = s.ctl.job.slotWaiters ++ [h] ∧ t.ctl.job.jobs = s.ctl.job.jobs ∧ s.sameStack t) ∧
    (∀ k, s.ctl.ocsHeld h < 64 → s.ctl.slotsHeld + s.ctl.job.fetches.length + s.ctl.job.slotWaiters.length < 4096 →
      slotFree s.ctl k → s.ctl.handleHeld h n = false →
      let j := s.ctl.makeJob k h (p.take 128)
      (s.ctl.descBad j = false → j.hasList = false → ∃ t x, exec (.jobSubmit h p) s = .next t ∧ t.ctl.jobAt k = some x ∧
        x.ocs = true ∧ x.handle = some n ∧ x.owner = h ∧ x.phase = .ready ∧ x.desc = p.take 128 ∧ s.sameStack t ∧
        t.ctl.lastHandle h = n ∧
        (if waitNs p = 0 then t.replied h 0xC100 .ok (toLE 4 n ++ toLE 4 1 ++ List.replicate 32 0)
         else t.waits h 0xC100 p .job)) ∧
      (s.ctl.descBad j = true → ∃ t out, exec (.jobSubmit h p) s = .next t ∧ t.replied h 0xC100 .ok out ∧
        out.length = 40 ∧ le out 0 4 = n ∧ le out 4 4 = 0 ∧ le out 10 1 = 0x40 ∧ le out 11 1 = stInvalid ∧
        t.ctl.jobAt k = none ∧ s.sameStack t))) ∧
  (∀ k q rest, s.ctl.job.slotWaiters = h :: rest → s.ctl.submitWaits h .slot = some q →
    s.ctl.slotsHeld + s.ctl.job.fetches.length < 4096 → slotFree s.ctl k → s.ctl.handleHeld h n = false →
    s.ctl.descBad (s.ctl.makeJob k h (q.payload.take 128)) = false →
    (s.ctl.makeJob k h (q.payload.take 128)).hasList = false →
    ∃ t x, exec .ocsSlotGranted s = .next t ∧ t.ctl.job.slotWaiters = rest ∧ t.ctl.jobAt k = some x ∧ x.ocs = true ∧
      x.handle = some n ∧ x.owner = h ∧ x.phase = .ready ∧ s.sameStack t) ∧
  (∀ q, s.ctl.submitWaits h .job = some q → ∃ t, exec (.jobSubmitWaitExpiry h) s = .next t ∧
    t.replied h 0xC100 .ok (toLE 4 (q.aux % 2 ^ 32) ++ toLE 4 1 ++ List.replicate 32 0) ∧
    t.ctl.clock = max s.ctl.clock (q.aux / 2 ^ 32) ∧ t.ctl.job.jobs = s.ctl.job.jobs ∧ s.sameStack t) ∧
  (∀ q, s.ctl.submitWaits h .slot = some q → ∃ t, exec (.jobSubmitSlotTimeout h) s = .next t ∧
    t.replied h 0xC100 .busy [] ∧ t.ctl.clock = max s.ctl.clock (q.aux + 10000000) ∧ h ∉ t.ctl.job.slotWaiters ∧
    t.ctl.job.jobs = s.ctl.job.jobs ∧ s.sameStack t) ∧
  (s.takes h { min := 4 } p →
    let m := le p 0 4
    let answer : Instr → Nat → Ocs → Bytes → Prop := fun i op e out => ∃ t, exec i s = .next t ∧ t.replied h op e out ∧
      s.frame Ctl.onlyReplies t
    (∀ b, mapGet (s.ctl.done h) m = some b → ∃ t, exec (.jobQuery h p) s = .next t ∧
      t.replied h 0xC101 .ok (toLE 4 m ++ toLE 4 0 ++ b) ∧ mapGet (t.ctl.done h) m = none ∧ t.ctl.regs = s.ctl.regs ∧
      s.sameStack t) ∧
    (mapGet (s.ctl.done h) m = none → s.ctl.handleHeld h m = true →
      answer (.jobQuery h p) 0xC101 .ok (toLE 4 m ++ toLE 4 1 ++ List.replicate 32 0)) ∧
    (s.ctl.handleHeld h m = false → mapGet (s.ctl.done h) m = none → answer (.jobQuery h p) 0xC101 .invalidHandle []) ∧
    (m = 0 → p.length < 7 ∨ 64 ≤ le p 6 1 ∨ s.ctl.sqOwner (le p 6 1) ≠ h →
      answer (.jobAbort h p) 0xC102 .invalidParameter []) ∧
    (m = 0 → 7 ≤ p.length → le p 6 1 < 64 → s.ctl.sqOwner (le p 6 1) = h → s.ctl.ringJobs (le p 6 1) (le p 4 2) = [] →
      answer (.jobAbort h p) 0xC102 .ok []) ∧
    (m ≠ 0 → s.ctl.handleHeld h m = false → answer (.jobAbort h p) 0xC102 .invalidHandle []) ∧
    (∀ j, m ≠ 0 → s.ctl.job.jobs.filter (fun j => j.ocs && decide (j.owner = h) && decide (j.handle = some m) &&
        decide (j.phase ≠ .ended)) = [j] → j.phase = .running → j.stop = none →
      ∃ t x, exec (.jobAbort h p) s = .next t ∧ t.waits h 0xC102 p .abort ∧ t.ctl.jobAt j.slot = some x ∧
        x.stop = some stAborted ∧ t.ctl.regs = s.ctl.regs ∧ s.sameStack t)) ∧
  (∀ (q : Fin 64) (cid : BitVec 16), s.reached h R.JRG_ABORT_SQ q (cid.setWidth 32) →
    (s.ctl.ringJobs q cid.toNat = [] → ∃ t, exec (.jrgAbort h q cid) s = .next t ∧ t.ctl.job = s.ctl.job ∧ s.sameStack t) ∧
    (∀ j, s.ctl.ringJobs q cid.toNat = [j] → j.phase = .running → j.stop = none →
      ∃ t x, exec (.jrgAbort h q cid) s = .next t ∧ t.ctl.jobAt j.slot = some x ∧ x.stop = some stAborted ∧ s.sameStack t))

/-- A line with few bad symbols is corrected and counted; one beyond the code is mired; merges and logs follow
(08_line_ecc_scrub_and_retirement.md R172, 08_line_ecc_scrub_and_retirement.md R173,
08_line_ecc_scrub_and_retirement.md R174, 08_line_ecc_scrub_and_retirement.md R175,
08_line_ecc_scrub_and_retirement.md R176, 08_line_ecc_scrub_and_retirement.md R177,
08_line_ecc_scrub_and_retirement.md R182, 08_line_ecc_scrub_and_retirement.md R191). -/
def Obligations.LineErrorsAreCorrectedOrMired : Prop :=
  ∀ s : State,
  (∀ ln source lane flips, source ≠ 3 →
    let sa := 64 * ln
    let d := s.ctl.dieOf sa
    let l := errorPattern flips
    let n := l.length
    let most := s.ctl.correctable d
    let mired : Nat → State → Prop := fun cause t => mapGet t.lines ln = some (.mired cause) ∧
      t.lineBytes sa = List.replicate 64 0 ∧ t.pending = s.pending ∧ (∀ a, a / 64 ≠ ln → memGet t.mem a = memGet s.mem a) ∧
      (∀ m, m ≠ ln → mapGet t.lines m = mapGet s.lines m) ∧
      (s.ctl.ecc.staging.length < 512 → t.ctl.ecc.staging = s.ctl.ecc.staging ++
        [⟨s.ctl.get R.ECC_MIRE_SEQ_NEXT, ln, cause, source, s.ctl.now⟩])
    let lost : State → Prop := fun t => mired 1 t ∧ t.ctl.srcPending (48 + (s.ctl.place sa).chan) = true ∧
      t.ctl.get (R.ECC_UE_CNT_COUNT d) = min (s.ctl.get (R.ECC_UE_CNT_COUNT d) + 1) (2 ^ (R.ECC_UE_CNT_COUNT d).width - 1)
    ((s.status sa).isMired = false →
      (∀ cause, s.ctl.unverifiedCause sa = some cause →
        ∃ t, exec (.lineReadCheck sa source lane flips) s = .next t ∧ mired cause t) ∧
      (s.ctl.unverifiedCause sa = none →
        (l = [] → exec (.lineReadCheck sa source lane flips) s = .next s) ∧
        (1 ≤ n → n ≤ most → ∃ t, exec (.lineReadCheck sa source lane flips) s = .next t ∧
          t.ctl.get (R.ECC_CE_CNT_LINES d) =
            min (s.ctl.get (R.ECC_CE_CNT_LINES d) + 1) (2 ^ (R.ECC_CE_CNT_LINES d).width - 1) ∧
          t.ctl.get (R.ECC_CE_SCORE_COUNT d) =
            min (s.ctl.get (R.ECC_CE_SCORE_COUNT d) + n) (2 ^ (R.ECC_CE_SCORE_COUNT d).width - 1) ∧
          (let p := s.ctl.place sa
           ∃ q ∈ (t.ctl.chan p.chan).queue ++ (t.ctl.chan p.chan).waiting,
             q.kind = .correction ∧ q.bank = p.bank ∧ q.row = p.row ∧ q.line = p.line) ∧ s.sameStack t) ∧
        (s.ctl.surelyFound d < n → most < n → s.arriving sa l = mireSyndromes →
          exec (.lineReadCheck sa source lane flips) s = .next s) ∧
        (most < n → (n ≤ s.ctl.surelyFound d ∨
            (s.arriving sa l ≠ mireSyndromes ∧ decodePattern most (s.arriving sa l) = none)) → s.ctl.metaAt sa = none →
          ∃ t, exec (.lineReadCheck sa source lane flips) s = .next t ∧ lost t) ∧
        (∀ r, s.ctl.surelyFound d < n → most < n → s.arriving sa l ≠ mireSyndromes →
          decodePattern most (s.arriving sa l) = some r → s.ctl.sealAt sa = 0 →
          ∃ t, exec (.lineReadCheck sa source lane flips) s = .next t ∧
            t.lineBytes sa = addPattern (s.lineBytes sa) (l ++ r) ∧
            ∀ a, a / 64 ≠ ln → memGet t.mem a = memGet s.mem a))) ∧
    ((s.status sa).isMired = true →
      (l = [] → exec (.lineReadCheck sa source lane flips) s = .next s) ∧
      (1 ≤ n → n ≤ (if most = 3 then 4 else 3) → s.ctl.rowUnplaced sa = false → s.ctl.metaAt sa = none →
        ∃ t, exec (.lineReadCheck sa source lane flips) s = .next t ∧ lost t))) ∧
  (∀ ln new cls hd rest, s.ctl.ecc.merges = ⟨64 * ln, new, cls, hd⟩ :: rest → s.ctl.sealAt (64 * ln) = 0 →
    s.ctl.pageBusy (64 * ln) = false → s.ctl.sealGated (64 * ln) = false → s.ctl.moveHolds true (64 * ln) = false →
    s.ctl.get (R.QOS_CLASS_CFG_LIMIT cls) ≠ 0 →
    (s.status (64 * ln) = .good → ∃ t, exec .partialWriteMerge s = .next t ∧
      t.lineBytes (64 * ln) = mergeBytes (s.lineBytes (64 * ln)) new ∧ t.ctl.ecc.merges = rest ∧
      (∀ a, a / 64 ≠ ln → memGet t.mem a = memGet s.mem a) ∧ t.ctl.regs = s.ctl.regs) ∧
    ((s.status (64 * ln)).isMired = true → ∃ t, exec .partialWriteMerge s = .next t ∧ t.ctl.ecc.merges = rest ∧
      t.ctl.get R.ECC_PARTIAL_DROP_CNT_DROPS = min (s.ctl.get R.ECC_PARTIAL_DROP_CNT_DROPS + 1) (2 ^ 32 - 1) ∧
      t.ctl.srcPending (96 + (s.ctl.place (64 * ln)).chan) = true ∧ s.sameStack t)) ∧
  (s.ctl.ecc.window ≠ 0 → s.ctl.get R.TIM_BEAT_CNT_VALUE % (s.ctl.ecc.window * 65536) = 0 →
    ∃ t, exec .thresholdWindowBoundary s = .next t ∧ (∀ d, d < 12 → t.ctl.get (R.ECC_CE_SCORE_COUNT d) = 0 ∧
      t.ctl.get (R.ECC_UE_CNT_COUNT d) = 0) ∧ t.ctl.ecc.ceThresh = s.ctl.get R.ECC_RET_CFG_CE_THRESH ∧
      t.ctl.ecc.ueThresh = s.ctl.get R.ECC_RET_CFG_UE_THRESH ∧ t.ctl.ecc.window = s.ctl.get R.ECC_RET_CFG_WINDOW ∧
      (∀ x : Fld, (∀ d, d < 12 → x.key ≠ (R.ECC_CE_SCORE_COUNT d).key ∧ x.key ≠ (R.ECC_UE_CNT_COUNT d).key) →
        t.ctl.get x = s.ctl.get x) ∧ s.sameStack t) ∧
  (∀ r rest, s.ctl.ecc.staging = r :: rest → s.ctl.kpr.phase = 3 → s.ctl.ecc.log.length < 1048576 →
    ∃ t, exec .mireLogDrain s = .next t ∧ t.ctl.ecc.staging = rest ∧ t.ctl.ecc.log = s.ctl.ecc.log ++ [r] ∧
      t.ctl.regs = s.ctl.regs ∧ s.sameStack t) ∧
  (∀ (h : Head) (p : Bytes), s.takes h { min := 6 } p → s.unclaimed h [blkEcc] →
    (∀ x old r rest, s.ctl.ecc.log = x :: (old ++ r :: rest) → x.seq ≠ le p 0 4 → (∀ y ∈ old, y.seq ≠ le p 0 4) → r.seq = le p 0 4 →
      2 ^ 31 ≤ (le p 0 4 + 2 ^ 32 - s.ctl.get R.ECC_MIRE_SEQ_NEXT) % 2 ^ 32 →
      let recs := (r :: rest).take (min (min 256 (le p 4 2)) 127)
      ∃ t, exec (.mireLogRead h p) s = .next t ∧ t.replied h 0xC130 .ok
        (toLE 4 (le p 0 4) ++ toLE 4 (s.ctl.get R.ECC_MIRE_SEQ_NEXT) ++ toLE 4 x.seq ++ toLE 4 recs.length ++
          recs.flatMap MireRec.encode) ∧ s.frame Ctl.onlyReplies t) ∧
    ((le p 0 4 + 2 ^ 32 - s.ctl.get R.ECC_MIRE_SEQ_NEXT) % 2 ^ 32 < 2 ^ 31 → s.ctl.ecc.log = [] →
      ∃ t, exec (.mireLogRead h p) s = .next t ∧ t.replied h 0xC130 .ok (toLE 4 (s.ctl.get R.ECC_MIRE_SEQ_NEXT) ++
        toLE 4 (s.ctl.get R.ECC_MIRE_SEQ_NEXT) ++ toLE 4 (s.ctl.get R.ECC_MIRE_SEQ_NEXT) ++ toLE 4 0) ∧
        s.frame Ctl.onlyReplies t))

/-- Retirement is asked for and its rows move; repairs in service return their unit; a pass ends with its summary
(08_line_ecc_scrub_and_retirement.md R180, 08_line_ecc_scrub_and_retirement.md R181,
08_line_ecc_scrub_and_retirement.md R183, 08_line_ecc_scrub_and_retirement.md R184,
08_line_ecc_scrub_and_retirement.md R185, 08_line_ecc_scrub_and_retirement.md R191, 02_stack_and_row_lanes.md R39,
02_stack_and_row_lanes.md R40, 02_stack_and_row_lanes.md R45). -/
def Obligations.RetirementMovesAndRepairs : Prop :=
  ∀ s : State,
  let otherDie : Nat → Prop := fun d => ∃ k ∈ s.ctl.ecc.causes, (k.kind = 0 ∧ k.unit ≠ d) ∨ (k.kind = 1 ∧ k.unit / 4 ≠ d)
  (∀ (h : Head) (p : Bytes), s.takes h { min := 2, stack := true } p →
    (s.ctl.nd ≤ le p 0 1 ∨ s.ctl.dieRetired (le p 0 1) = true ∨
        (s.ctl.get R.MAP_LAYOUT_RES_BOUND ≠ 0 ∧ s.ctl.get R.MAP_LAYOUT_RES_DIE ≠ le p 0 1 ∧ le p 1 1 ≠ 0x5A) ∨
        (s.ctl.get R.MAP_LAYOUT_RES_BOUND = 0 ∧ otherDie (le p 0 1) ∧ le p 1 1 ≠ 0x5A) →
      ∃ t, exec (.dieRetire h p) s = .next t ∧ t.replied h 0xC132 .invalidParameter [] ∧ s.frame Ctl.onlyReplies t) ∧
    (le p 0 1 < s.ctl.nd → s.ctl.dieRetired (le p 0 1) = false → s.ctl.get R.MAP_LAYOUT_RES_BOUND = 0 →
      (¬otherDie (le p 0 1) ∨ le p 1 1 = 0x5A) →
      (s.ctl.get R.ECC_MIG_ACTIVE ≠ 0 → ∃ t, exec (.dieRetire h p) s = .next t ∧ t.replied h 0xC132 .busy [] ∧
        s.frame Ctl.onlyReplies t) ∧
      (s.ctl.get R.ECC_MIG_ACTIVE = 0 → s.unclaimed h [blkEcc] → ∃ t, exec (.dieRetire h p) s = .next t ∧
        t.replied h 0xC132 .ok [] ∧ (∃ k ∈ t.ctl.ecc.causes, k.kind = 0 ∧ k.unit = le p 0 1) ∧ t.ctl.regs = s.ctl.regs ∧
        s.sameStack t))) ∧
  (∀ (h : Head) (p : Bytes), s.takes h {} p → s.unclaimed h [blkEcc] → ∃ t, exec (.retireStatus h p) s = .next t ∧
    s.frame Ctl.onlyReplies t ∧ t.replied h 0xC133 .ok (toLE 4 (s.ctl.wordAt h 0x150030) ++ toLE 4 s.ctl.migWord ++
      toLE 4 (s.ctl.get R.ECC_MIG_FRONT_FRONT) ++ toLE 8 (maskOf 64 fun n => s.ctl.flag (R.MAP_GRAN_LOST n)))) ∧
  (∀ i, (i = Instr.migrationRowLanded [] ∧ s.ctl.get R.ECC_MIG_KIND ≠ 3) ∨ (i = .abruptFillRow ∧ s.ctl.get R.ECC_MIG_KIND = 3) →
    s.ctl.get R.ECC_MIG_ACTIVE ≠ 0 → s.ctl.kpr.phase = 3 → s.ctl.stackAwake = true → s.ctl.stk.memWait = [] →
    let front := skipCarried s.ctl.ecc.moveCarried 4 (s.ctl.get R.ECC_MIG_FRONT_FRONT + 1)
    (front < s.ctl.moveRows → front < 2 ^ R.ECC_MIG_FRONT_FRONT.width → ∃ t, exec i s = .next t ∧
      t.ctl.get R.ECC_MIG_FRONT_FRONT = front ∧ s.sameStack t ∧ s.ctl.keeps t.ctl [R.ECC_MIG_FRONT_FRONT]) ∧
    (s.ctl.moveRows ≤ front → s.ctl.ecc.moves = [] → ∃ t, exec i s = .next t ∧
      t.ctl.get R.ECC_MIG_ACTIVE = 0 ∧ s.recorded t logInfo 0x0601 0xFFFF s.ctl.migWord ∧ s.sameStack t)) ∧
  (∀ d feed, d < s.ctl.nd → d ∉ s.ctl.stk.feedsOpen → ∃ t, exec (.feedOvercurrent d feed) s = .next t ∧
    d ∈ t.ctl.stk.feedsOpen ∧ t.ctl.get (R.THM_DIE_FEEDS_OPEN d) = 1 ∧ t.ctl.srcPending (224 + d) = true ∧
    (∃ k ∈ t.ctl.ecc.causes, k.kind = 0 ∧ k.unit = d) ∧ t.pending = s.pending ∧
    ∀ a, memGet t.mem a = if (s.ctl.place a).chan / 4 = d then 0 else memGet s.mem a) ∧
  (∀ ch r, ch < 48 → (s.ctl.repairIn fun r => decide (r.unit = ch) && decide (ch < 48)) = some r → r.pos < 63 →
    0 < s.ctl.get (R.TSV_CH_REPAIR_SPARES_LEFT ch) → s.ctl.get (R.TSV_CH_REPAIR_SPARES_LEFT ch) ≤ 2 →
    ∃ t, exec (.columnRepairReopen ch none) s = .next t ∧ t.ctl.srcPending (144 + ch) = true ∧
      t.ctl.get (R.TSV_CH_REPAIR_SPARES_LEFT ch) = s.ctl.get (R.TSV_CH_REPAIR_SPARES_LEFT ch) - 1 ∧
      (if s.ctl.get (R.TSV_CH_REPAIR_SKIP0 ch) = 0x3F then t.ctl.get (R.TSV_CH_REPAIR_SKIP0 ch) = r.pos
       else t.ctl.get (R.TSV_CH_REPAIR_SKIP1 ch) = r.pos) ∧ (t.ctl.chan ch).closed = false ∧ s.sameStack t) ∧
  (∀ l g r, l < 4 → g < 8 → (s.ctl.repairIn fun r => decide (r.unit = 48 + 8 * l + g) && decide (l < 4) && decide (g < 8)) = some r →
    r.pos ≠ retryPos → s.ctl.get (R.ROWL_GRP_STATUS_SPARES_LEFT l g) ≤ 16 →
    ∃ t, exec (.laneRepairReturn l g none) s = .next t ∧ t.ctl.srcPending (192 + 8 * l + g) = true ∧
      t.ctl.get (R.ROWL_GRP_STATUS_SPARES_LEFT l g) = s.ctl.get (R.ROWL_GRP_STATUS_SPARES_LEFT l g) - 1 ∧
      t.ctl.get (R.ROWL_GRP_STATUS_INSVC_REP l g) = min (s.ctl.get (R.ROWL_GRP_STATUS_INSVC_REP l g) + 1)
        (2 ^ (R.ROWL_GRP_STATUS_INSVC_REP l g).width - 1) ∧ s.sameStack t) ∧
  (∀ (h : Head) (p : Bytes), s.takes h { min := 16, stack := true } p →
    (∀ lo hi, s.ctl.metaRegion (le p 0 1) = some (lo, hi) → le p 8 8 % 64 = 0 → s.unclaimed h [blkEcc] →
      ∃ t, exec (.frgMetaPass h p) s = .next t ∧ t.replied h 0xC131 .ok [] ∧ t.ctl.regs = s.ctl.regs ∧ s.sameStack t ∧
        t.ctl.frg.passes = s.ctl.frg.passes ++ [{ slot := none, head := h, bus := le p 8 8, pos := lo, stop := hi }]) ∧
    (le p 0 1 = 0 ∨ 5 < le p 0 1 ∨ le p 8 8 % 64 ≠ 0 → ∃ t, exec (.frgMetaPass h p) s = .next t ∧
      t.replied h 0xC131 .invalidParameter [] ∧ s.frame Ctl.onlyReplies t)) ∧
  (∀ q rest, s.ctl.frg.passes = q :: rest → q.over = true → q.slot = none → s.ctl.linkReady q.head = true →
    ∃ t, exec .foragerPassEnd s = .next t ∧ t.ctl.frg.passes = rest ∧ s.sameStack t ∧
      .dmaWrite q.head s.ctl.job.tag q.bus false false (s.ctl.hd q.head).relaxed q.summary ∈ t.ctl.outbox)

/-- KEY_CREATE takes the lowest free slot, KEY_ERASE stops a slot and then zeroises it, and the budget is queued
(09_sealed_memory.md R193, 09_sealed_memory.md R197, 09_sealed_memory.md R198, 09_sealed_memory.md R199,
09_sealed_memory.md R220, 09_sealed_memory.md R221). -/
def Obligations.KeysAreCreatedAndErased : Prop :=
  ∀ (h : Head) (p : Bytes) (s : State), s.unclaimed h [blkSea] →
  (s.takes h { min := 1, sealCap := true } p →
    (∀ k, k < 1024 → s.ctl.get (R.SEA_KEY_STAT_LIVE k) = 0 → s.ctl.get (R.SEA_KEY_STAT_GEN k) < 63 →
      (∀ j, j < k → s.ctl.get (R.SEA_KEY_STAT_LIVE j) ≠ 0 ∨ 63 ≤ s.ctl.get (R.SEA_KEY_STAT_GEN j)) →
      ∃ t, exec (.keyCreate h p) s = .next t ∧
        t.replied h 0xC141 .ok (toLE 2 ((s.ctl.get (R.SEA_KEY_STAT_GEN k) + 1) * 1024 + k)) ∧
        t.ctl.get (R.SEA_KEY_STAT_LIVE k) = 1 ∧ t.ctl.get (R.SEA_KEY_STAT_OWNER k) = h.num ∧
        t.ctl.get (R.SEA_KEY_STAT_CXL_MASK k) = le p 0 1 % 4 ∧ t.ctl.get (R.SEA_KEY_STAT_EPOCH k) = 0 ∧
        t.ctl.get (R.SEA_KEY_STAT_GEN k) = s.ctl.get (R.SEA_KEY_STAT_GEN k) + 1 ∧
        (mapGet t.ctl.sea.keys k).isSome = true ∧
        s.ctl.keeps t.ctl [R.SEA_KEY_STAT_LIVE k, R.SEA_KEY_STAT_OWNER k, R.SEA_KEY_STAT_CXL_MASK k,
          R.SEA_KEY_STAT_EPOCH k, R.SEA_KEY_STAT_GEN k] ∧ s.sameStack t) ∧
    ((∀ j, j < 1024 → s.ctl.get (R.SEA_KEY_STAT_LIVE j) ≠ 0 ∨ 63 ≤ s.ctl.get (R.SEA_KEY_STAT_GEN j)) →
      ∃ t, exec (.keyCreate h p) s = .next t ∧ t.replied h 0xC141 .resourceExhausted [] ∧ s.frame Ctl.onlyReplies t) ∧
    (le p 0 1 ≤ s.ctl.maxBudget → ∃ t, exec (.sealBudgetSet h p) s = .next t ∧ t.waits h 0xC140 p .flash ∧
      t.ctl.sbp.writes = s.ctl.sbp.writes ++ [⟨4, toLE 1 (le p 0 1), some h, false, none⟩] ∧ t.ctl.regs = s.ctl.regs ∧
      s.sameStack t) ∧
    (s.ctl.maxBudget < le p 0 1 → ∃ t, exec (.sealBudgetSet h p) s = .next t ∧ t.replied h 0xC140 .invalidParameter [] ∧
      s.frame Ctl.onlyReplies t)) ∧
  (s.takes h { min := 2, sealCap := true } p →
    let k := le p 0 2 % 1024
    (s.ctl.handleLive (le p 0 2) = true → s.ctl.keyOwner k = h → ∃ t, exec (.keyErase h p) s = .next t ∧
      t.waits h 0xC142 p .zeroise ∧ (k, h) ∈ t.ctl.sea.erasing ∧ t.ctl.handleLive (le p 0 2) = false ∧
      (∀ a, s.ctl.sealAt a ≠ 0 → a < s.ctl.userEnd → s.ctl.get (R.SEA_GRAN_KEY_SLOT (granOf a)) = k →
        s.ctl.granKeyLive (granOf a) = true → t.ctl.sealAt a = 4) ∧
      t.ctl.regs = s.ctl.regs ∧ s.sameStack t) ∧
    (s.ctl.handleLive (le p 0 2) = false ∨ s.ctl.keyOwner k ≠ h → ∃ t, exec (.keyErase h p) s = .next t ∧
      t.replied h 0xC142 .invalidParameter [] ∧ s.frame Ctl.onlyReplies t)) ∧
  (s.takes h { sealCap := true } p → ∃ t out, exec (.sealStatus h p) s = .next t ∧ t.replied h 0xC146 .ok out ∧
    s.frame Ctl.onlyReplies t ∧ out.length = 260 ∧ (∀ g, g < 64 → le out (4 * g) 4 = s.ctl.wordAt h (0x130100 + 4 * g)) ∧
    le out 256 4 = s.ctl.wordAt h 0x130004) ∧
  (∀ (k : Fin 1024) q, s.ctl.sea.erasing.find? (fun e => decide (e.1 = k.val)) = some (k.val, h) →
    (s.ctl.hd h).mbox.pend = some q → q.op = 0xC142 → q.wait = .zeroise →
    ∃ t, exec (.keyZeroiseDone k) s = .next t ∧ t.replied h 0xC142 .ok [] ∧ t.ctl.get (R.SEA_KEY_STAT_LIVE k) = 0 ∧
      mapGet t.ctl.sea.keys k.val = none ∧ k.val ∈ t.ctl.sea.erased ∧ (∀ e ∈ t.ctl.sea.erasing, e.1 ≠ k.val) ∧
      s.ctl.keeps t.ctl [R.SEA_KEY_STAT_LIVE k] ∧ s.sameStack t)

/-- SEAL_GRANULE, RESEAL and UNSEAL need their granule, key and state, and start, wait or return as R221 orders
(09_sealed_memory.md R194, 09_sealed_memory.md R195, 09_sealed_memory.md R196, 09_sealed_memory.md R220,
09_sealed_memory.md R221). -/
def Obligations.SealCommandsHoldTheirGranule : Prop :=
  ∀ (h : Head) (p : Bytes) (s : State),
  let g := le p 0 1
  let n := le p 2 2
  let k := n % 1024
  (∀ i op, (i = Instr.sealGranule h p ∧ op = 0xC143) ∨ (i = .reseal h p ∧ op = 0xC144) →
    s.takes h { min := 4, stack := true, sealCap := true, background := true } p →
    let right := if op = 0xC143 then s.ctl.get (R.SEA_GRAN_STATE g) = 0 else s.ctl.get (R.SEA_GRAN_STATE g) ≠ 0
    let bound := s.ctl.ownGranule h g = true ∧ s.ctl.handleLive n = true ∧ s.ctl.keyOwner k = h
    let spent := (op = 0xC143 ∧ s.ctl.sealSlotsLeft = 0) ∨ s.ctl.get (R.SEA_KEY_STAT_EPOCH k) = 0xFFFF
    let refused : Ocs → Prop := fun e => ∃ t, exec i s = .next t ∧ t.replied h op e [] ∧ s.frame Ctl.onlyReplies t
    (¬bound → refused .invalidParameter) ∧
    (bound → s.ctl.sealingNow g = true → refused .busy) ∧
    (bound → s.ctl.sealingNow g = false → ¬right → refused .invalidParameter) ∧
    (bound → s.ctl.sealingNow g = false → right → spent → refused .resourceExhausted) ∧
    (bound → s.ctl.sealingNow g = false → right → ¬spent → s.unclaimed h [blkSea] → ∃ t, exec i s = .next t ∧
      t.started h op p ∧ t.ctl.sealingNow g = true ∧ t.ctl.regs = s.ctl.regs ∧ s.sameStack t ∧
      t.ctl.sea.sealing = s.ctl.sea.sealing ++
        [⟨g, k, if s.ctl.granInUse g = true then 3 else 0, some h, s.ctl.get (R.SEA_KEY_STAT_GEN k)⟩] ∧
      (s.ctl.granInUse g = true → (g, h) ∈ t.ctl.sea.holdGran))) ∧
  (s.takes h { min := 1, stack := true, sealCap := true } p →
    let refused : Ocs → Prop := fun e => ∃ t, exec (.unseal h p) s = .next t ∧ t.replied h 0xC145 e [] ∧
      s.frame Ctl.onlyReplies t
    (s.ctl.ownGranule h g = false → refused .invalidParameter) ∧
    (s.ctl.ownGranule h g = true → s.ctl.sealingNow g = true → refused .busy) ∧
    (s.ctl.ownGranule h g = true → s.ctl.sealingNow g = false → s.ctl.get (R.SEA_GRAN_STATE g) = 0 →
      refused .invalidParameter) ∧
    (s.ctl.ownGranule h g = true → s.ctl.sealingNow g = false → s.ctl.get (R.SEA_GRAN_STATE g) ≠ 0 →
      s.unclaimed h [blkSea] → ∃ t, exec (.unseal h p) s = .next t ∧ t.ctl.regs = s.ctl.regs ∧ s.sameStack t ∧
        (s.ctl.granInUse g = false → t.waits h 0xC145 p .boundary ∧ g ∈ t.ctl.sea.unseals) ∧
        (s.ctl.granInUse g = true → t.waits h 0xC145 p .hold ∧ (g, h) ∈ t.ctl.sea.holdGran))) ∧
  (∀ x : Fin 64, s.ctl.kpr.phase = 3 → ∃ t, exec (.sealFillDone x) s = .next t ∧
    (∀ j ∈ s.ctl.sea.sealing, j.gran = x.val → j.step = 1 → { j with step := 2 } ∈ t.ctl.sea.sealing) ∧
    t.ctl.regs = s.ctl.regs ∧ s.sameStack t)

/-- A sealed line whose metadata or tag fails is mired with the cause of its failure, and alarms only for tamper
(09_sealed_memory.md R206, 09_sealed_memory.md R209, 09_sealed_memory.md R211, 09_sealed_memory.md R213,
09_sealed_memory.md R214, 09_sealed_memory.md R215, 07_dram_scheduling_and_refresh.md R166,
07_dram_scheduling_and_refresh.md R167). -/
def Obligations.SealedLinesFailIntoTheirCauses : Prop :=
  ∀ (s : State) (sa src : Nat) (f : List (Nat × MetaLine)) (tag : MetaLine), sa % 64 = 0 →
  let bad := firstBad (s.ctl.arrivals sa (s.refetched sa f))
  let clean := fun (k : Nat × Nat × Nat) (m : MetaLine) => ∀ b, m = .sram b → s.ctl.sea.dirty.contains k = false
  let node : Nat → State → Prop := fun l t => ∃ u ∈ t.ctl.sea.unv,
    u.level = l ∧ u.gran = granOf sa ∧ u.index = sa % GiB / 2 ^ (12 + 3 * l)
  (s.ctl.sealAt sa ≠ 2 ∨ (s.status sa).isMired = true → exec (.sealMetadataArrival sa src f tag) s = .next s) ∧
  (s.ctl.sealAt sa = 2 → (s.status sa).isMired = false → (∀ e ∈ f, clean (metaKey e.1 sa) e.2) →
    (bad = none → s.arrivedTag sa tag = some (s.tagOf sa) → ∃ t, exec (.sealMetadataArrival sa src f tag) s = .next t ∧
      t.ctl.get R.SEA_TAG_FAIL_CNT_FAILS = s.ctl.get R.SEA_TAG_FAIL_CNT_FAILS ∧ s.onlyHeals t) ∧
    (∀ x, bad = none → s.arrivedTag sa tag = some x → x ≠ s.tagOf sa →
      ∃ t, exec (.sealMetadataArrival sa src f tag) s = .next t ∧ mapGet t.lines (sa / 64) = some (.mired 2) ∧
        t.ctl.get R.SEA_ALARM_CAUSE = 1 ∧ t.ctl.get R.SEA_ALARM_LINE = sa / 64 % 2 ^ 30 ∧ t.ctl.srcPending 548 = true ∧
        t.ctl.get R.SEA_TAG_FAIL_CNT_FAILS = min (s.ctl.get R.SEA_TAG_FAIL_CNT_FAILS + 1) 0xFFFFFFFF ∧
        t.pending = s.pending ∧ (∀ a, a / 64 ≠ sa / 64 → memGet t.mem a = memGet s.mem a) ∧
        ∀ ln, ln ≠ sa / 64 → mapGet t.lines ln = mapGet s.lines ln ∨
          ((s.status (64 * ln)).isMired = true ∧ mapGet t.lines ln = some .good)) ∧
    (∀ l, bad = some (l, .macFails) → l < 6 → s.ctl.sea.unv.length < 256 →
      ∃ t, exec (.sealMetadataArrival sa src f tag) s = .next t ∧ mapGet t.lines (sa / 64) = some (.mired 2) ∧
        t.ctl.get R.SEA_ALARM_CAUSE = 3 ∧ t.ctl.srcPending 550 = true ∧ node l t) ∧
    (∀ l, bad = some (l, .uncorrectable) → l < 6 → s.ctl.sea.unv.length < 256 →
      ∃ t, exec (.sealMetadataArrival sa src f tag) s = .next t ∧ mapGet t.lines (sa / 64) = some (.mired 3) ∧
        t.ctl.get R.SEA_ALARM_CAUSE = s.ctl.get R.SEA_ALARM_CAUSE ∧ t.ctl.srcPending 553 = true ∧ node l t) ∧
    (bad = none → s.arrivedTag sa tag = none → clean (tagKey sa) tag →
      (∀ i, i < 8 → s.ctl.tagAddr sa / 64 ≠ sa / 512 * 8 + i) →
      ∃ t, exec (.sealMetadataArrival sa src f tag) s = .next t ∧ t.ctl.srcPending 553 = true ∧
        mapGet t.lines (s.ctl.tagAddr sa / 64) = some .good ∧
        ∀ i, i < 8 → (s.status (sa / 512 * 512 + 64 * i)).isMired = false →
          mapGet t.lines (sa / 512 * 8 + i) = some (.mired 3))) ∧
  (s.ctl.sealAt sa = 2 → (s.status sa).isMired = false → ∀ l b, l < 4 → f = [(l, .sram b)] →
    s.ctl.sea.dirty.contains (metaKey l sa) = true → s.ctl.rowUnplaced (s.ctl.nodeAddr l sa) = false →
    s.ctl.nodeAddr l sa / 64 ≠ sa / 64 → s.ctl.sea.unv.length < 256 →
    ∃ t, exec (.sealMetadataArrival sa src f tag) s = .next t ∧ mapGet t.lines (sa / 64) = some (.mired 3) ∧
      mapGet t.lines (s.ctl.nodeAddr l sa / 64) = some (.mired 1) ∧ t.ctl.srcPending 553 = true ∧ node l t) ∧
  (s.ctl.pageBusy sa = false → ∀ b, exec (.pageReencryption sa b) s = .next s) ∧
  (s.ctl.pageBusy sa = true → s.ctl.stk.memWait = [] → (∀ i, i < 8 → s.tagLost (sa / 4096 * 4096 + 512 * i) = false) →
    (∀ e ∈ s.ctl.sea.tags, e.1 / 64 = sa / 4096 → s.storedTag (e.1 * 64) = s.tagOf (e.1 * 64)) →
    ∃ t, exec (.pageReencryption sa []) s = .next t ∧
    t.ctl.pageCtr (sa / 4096) = ((s.ctl.pageCtr (sa / 4096)).1 + 1, List.replicate 64 0) ∧
    t.ctl.pageBusy sa = false ∧ tagKey (sa / 4096 * 4096 + 3584) ∈ t.ctl.sea.dirty ∧
    t.ctl.get R.SEA_REENC_CNT_COUNT = min (s.ctl.get R.SEA_REENC_CNT_COUNT + 1) (2 ^ 64 - 1) ∧ s.onlyHeals t) ∧
  (s.ctl.stk.selfRef ≠ 3 → exec .selfRefreshExited s = .next s) ∧
  (s.ctl.stk.selfRef = 3 → ∃ t, exec .selfRefreshExited s = .next t ∧ t.ctl.stk.selfRef = 0 ∧
    t.ctl.get R.STK_SR_STAT_IN_SR = 0 ∧ t.pending = s.pending ∧
    let dropped : Nat → Prop := fun n => n < 8 ∧ tb (s.ctl.get R.STK_SR_STAT_DROPPED) n = true
    let inSeg : Nat → Nat → Prop := fun n a => (s.ctl.segment n).1 ≤ a ∧ a < (s.ctl.segment n).2
    (∀ a, (∀ n, dropped n → ¬inSeg n a) → memGet t.mem a = memGet s.mem a) ∧
    (∀ n ln, dropped n → inSeg n (ln * 64) → mapGet t.lines ln = none) ∧
    (∀ n g, dropped n → g < 64 → (s.ctl.segment n).1 < (g + 1) * GiB → g * GiB < (s.ctl.segment n).2 →
      s.ctl.get (R.SEA_GRAN_STATE g) ≠ 0 → s.ctl.sealEff g ≠ 4 → s.ctl.sealingNow g = false →
      s.ctl.granKeyLive g = true →
      s.ctl.get (R.SEA_KEY_STAT_EPOCH (s.ctl.get (R.SEA_GRAN_KEY_SLOT g))) ≠ 0xFFFF →
      ⟨g, s.ctl.get (R.SEA_GRAN_KEY_SLOT g), 0, none, s.ctl.get (R.SEA_KEY_STAT_GEN (s.ctl.get (R.SEA_GRAN_KEY_SLOT g)))⟩ ∈
        t.ctl.sea.sealing))

/-- A head is detected, comes up, goes down and retrains, and the other head is told. That LINK_UP stays 0
below 8.0 GT/s is log entry 80, and that an UP link retrained below it is lost is log entry 137 (11_heads_links_and_platform_time.md R245, 11_heads_links_and_platform_time.md R246,
11_heads_links_and_platform_time.md R247, 12_serial_lanes.md R273, 12_serial_lanes.md R274, 12_serial_lanes.md R284,
09_sealed_memory.md R219, 15_clocks_reset_and_start.md R329). -/
def Obligations.LinksComeAndGo : Prop :=
  ∀ (h : Head) (s : State),
  let lanes := (s.ctl.lanesOf h).flatMap fun n =>
    [R.PHYL_STATUS_RX_TERM n, R.PHYL_STATUS_TX_IDLE n, R.PHYL_STATUS_IN_LINK n, R.PHYL_STATUS_LOOP n, R.PHYL_STATUS_RATE n]
  (s.ctl.headBlocked h = true → exec (.partnerDetected h) s = .next s ∧ ∀ k, exec (.dlUp h k) s = .next s) ∧
  (s.ctl.headBlocked h = false → s.ctl.hstate h = 0 → ∃ t, exec (.partnerDetected h) s = .next t ∧ t.ctl.hstate h = 1 ∧
    (t.ctl.hd h).partner = true ∧ s.ctl.keeps t.ctl (R.HD_STATE_STATE h.num :: lanes) ∧ s.sameStack t) ∧
  (s.ctl.hstate h = 1 → ∃ t, exec (.partnerLost h) s = .next t ∧ t.ctl.hstate h = 0 ∧ (t.ctl.hd h).partner = false ∧
    s.ctl.keeps t.ctl (R.HD_STATE_STATE h.num :: lanes) ∧ s.sameStack t) ∧
  (∀ k : LinkForm, s.ctl.linkLegal h k = false → exec (.dlUp h k) s = .next s ∧ exec (.linkRetrain h k) s = .next s) ∧
  (∀ k : LinkForm, s.ctl.headBlocked h = false → s.ctl.linkLegal h k = true → s.ctl.phyLocked h = true →
    s.ctl.get (R.HD_STATE_LINK_UP h.num) = 0 →
    (2 ≤ k.rate → s.ctl.hstate h < 2 → ∃ t, exec (.dlUp h k) s = .next t ∧ t.ctl.hstate h = 2 ∧
      t.ctl.get (R.HD_STATE_LINK_UP h.num) = 1 ∧ (t.ctl.hd h).admitted = true ∧ s.told t h.other logInfo 0x0101 h.num ∧
      s.sameStack t) ∧
    (k.rate < 2 → s.ctl.hstate h < 2 → ∃ t, exec (.dlUp h k) s = .next t ∧ t.ctl.hstate h = 1 ∧
      t.ctl.get (R.HD_STATE_LINK_UP h.num) = 0 ∧ (t.ctl.hd h).admitted = (s.ctl.hd h).admitted ∧ s.sameStack t) ∧
    (2 ≤ k.rate → s.ctl.hstate h = 5 → ∃ t, exec (.dlUp h k) s = .next t ∧ t.ctl.hstate h = 5 ∧
      t.ctl.get (R.HD_STATE_LINK_UP h.num) = 1 ∧ s.told t h.other logInfo 0x0101 h.num ∧ s.sameStack t)) ∧
  (∀ n, s.ctl.get (R.HD_STATE_LINK_UP h.num) ≠ 0 → s.ctl.hstate h = 2 → ∃ t, exec (.dlDown h n) s = .next t ∧
    t.ctl.hstate h = 3 ∧ t.ctl.get (R.HD_STATE_LINK_UP h.num) = 0 ∧ (t.ctl.hd h).downAt = s.ctl.clock ∧
    t.ctl.srcPending (584 + h.num) = true ∧ s.told t h.other logWarn 0x0102 h.num ∧ s.sameStack t) ∧
  (∀ k : LinkForm, s.ctl.get (R.HD_STATE_LINK_UP h.num) ≠ 0 → s.ctl.linkLegal h k = true → k.rate < 2 → s.ctl.hstate h = 2 →
    ∃ t, exec (.linkRetrain h k) s = .next t ∧ t.ctl.hstate h = 3 ∧ t.ctl.get (R.HD_STATE_LINK_UP h.num) = 0 ∧
      (t.ctl.hd h).linkRate = k.rate + 1 ∧ s.sameStack t) ∧
  (∀ k : LinkForm, s.ctl.get (R.HD_STATE_LINK_UP h.num) ≠ 0 → s.ctl.linkLegal h k = true → 2 ≤ k.rate →
    ∃ t, exec (.linkRetrain h k) s = .next t ∧ (t.ctl.hd h).linkRate = k.rate + 1 ∧ (t.ctl.hd h).flit = k.flit ∧ (∀ n ∈ s.ctl.lanesOf h,
      t.ctl.get (R.PHYL_STATUS_RATE n) = k.rate % 2 ^ (R.PHYL_STATUS_RATE n).width ∧
      t.ctl.get (R.PHYL_FOM_VALID n) = 0) ∧ t.ctl.hstate h = s.ctl.hstate h ∧ s.sameStack t) ∧
  (s.ctl.get (R.HD_STATE_LINK_UP h.num) = 0 → 1 ≤ (s.ctl.hd h).linkRate → (s.ctl.hd h).linkRate ≤ 2 →
    ∃ t, exec (.lowRateRetrain h) s = .next t ∧ (t.ctl.hd h).linkRate = 0 ∧ t.ctl.outbox = .link h 2 :: s.ctl.outbox ∧
      s.ctl.keeps t.ctl [R.TIM_NOW_VALUE] ∧ s.sameStack t) ∧
  (∀ b, s.ctl.get (R.HD_STATE_LINK_UP h.num) ≠ 0 → (s.ctl.hd h).linkRate = 6 → ∃ t, exec (.l0pRequest h b) s = .next t ∧
    (t.ctl.hd h).l0p = b ∧ t.ctl.outbox = .link h 3 :: s.ctl.outbox ∧ t.ctl.regs = s.ctl.regs ∧ s.sameStack t) ∧
  (∀ w, ∃ t, exec (.ideIntegrityFailure h w) s = .next t ∧ t.ctl.srcPending (554 + h.num) = true ∧ s.sameStack t ∧
    (w = .cxl → (t.ctl.hd h).ideUp = false ∧
      (t.ctl.hd h).ideInsecure = ((s.ctl.hd h).ideInsecure || (s.ctl.hd h).ideUp) ∧
      (t.ctl.hd h).ioStreams = (s.ctl.hd h).ioStreams) ∧
    (∀ n x, w.index = some n → (s.ctl.hd h).ioStreams[n]? = some x → (t.ctl.hd h).ideUp = (s.ctl.hd h).ideUp ∧
      (t.ctl.hd h).ioStreams[n]? = some { x with state := if x.state = 1 then 2 else x.state })) ∧
  (s.ctl.hstate h ≠ 6 → ∃ t, exec (.perstDeassert h) s = .next t ∧ (t.ctl.hd h).perst = false ∧
    t.ctl.hstate h = s.ctl.hstate h ∧ s.sameStack t)

/-- A fence starts on its causes in every state of a head that is not fenced yet, stops the head, and completes; a second FENCE waits for the
first's end; FENCE, ADOPT and HEAD_REJOIN wait for their instant
(11_heads_links_and_platform_time.md R247, 11_heads_links_and_platform_time.md R249,
11_heads_links_and_platform_time.md R251, 11_heads_links_and_platform_time.md R256,
11_heads_links_and_platform_time.md R268). -/
def Obligations.FencesStopTheirHead : Prop :=
  ∀ (h : Head) (s : State),
  let fencing : State → Nat → Prop := fun t cause => t.ctl.hstate h = 4 ∧ t.ctl.get (R.HD_STATE_FENCE_CAUSE h.num) = cause ∧
    t.ctl.get (R.HD_STATE_LINK_UP h.num) = 0 ∧ t.ctl.srcPending (586 + h.num) = true ∧
    (∀ q, q < 64 → (s.ctl.sqOwner q = h → t.ctl.get (R.JRG_SQ_CFG_ENABLE q) = 0) ∧
      (s.ctl.cqOwner q = h → t.ctl.get (R.JRG_CQ_CFG_ENABLE q) = 0)) ∧ s.told t h.other logWarn 0x0103 h.num ∧ s.sameStack t
  (s.ctl.rst.quiesce ≠ 0 → exec (.fenceTimerExpiry h) s = .next s ∧ exec (.fenceComplete h) s = .next s) ∧
  (∀ n, s.ctl.rst.quiesce = 0 → s.ctl.hstate h = 3 → s.ctl.fenceNs h = some n →
    ∃ t, exec (.fenceTimerExpiry h) s = .next t ∧ fencing t 1 ∧
    t.ctl.clock = max s.ctl.clock ((s.ctl.hd h).downAt + n)) ∧
  (s.ctl.hstate h = 2 → (s.ctl.hd h).admitted = true →
    (s.ctl.get (R.HD_STATE_LINK_UP h.num) ≠ 0 → (∃ t, exec (.hotResetReceived h) s = .next t ∧ fencing t 3) ∧
      ∃ t, exec (.linkDisableReceived h) s = .next t ∧ fencing t 3) ∧
    ∃ t, exec (.perstAssert h) s = .next t ∧ fencing t 3 ∧ (t.ctl.hd h).perst = true) ∧
  (s.ctl.hstate h = 3 → (s.ctl.hd h).admitted = true → ∃ t, exec (.perstAssert h) s = .next t ∧ fencing t 3 ∧
    (t.ctl.hd h).perst = true ∧ ∀ d ∈ (t.ctl.hd h).hdm, d.locked = false) ∧
  (∀ p, s.takes h.other { min := 1, dualCap := true } p →
    (le p 0 1 = h.num → s.ctl.hstate h < 4 → ∃ t, exec (.fence h.other p) s = .next t ∧ fencing t 2 ∧
      t.waits h.other 0xC150 p .fence) ∧
    (le p 0 1 = h.num → s.ctl.hstate h = 4 → ∃ t, exec (.fence h.other p) s = .next t ∧ t.waits h.other 0xC150 p .fence ∧
      s.frame Ctl.onlyReplies t) ∧
    (le p 0 1 = h.num → s.ctl.hstate h = 5 → ∃ t, exec (.fence h.other p) s = .next t ∧ t.replied h.other 0xC150 .ok [] ∧
      s.frame Ctl.onlyReplies t) ∧
    (le p 0 1 ≠ h.num → ∃ t, exec (.fence h.other p) s = .next t ∧ t.replied h.other 0xC150 .invalidParameter [] ∧
      s.frame Ctl.onlyReplies t) ∧
    (le p 0 1 = h.num → s.ctl.hstate h.other = 2 → s.ctl.fenced h = true → s.ctl.get (R.HD_STATE_ADOPTED h.num) = 0 →
      ∃ t, exec (.adopt h.other p) s = .next t ∧ t.waits h.other 0xC151 p .boundary ∧ s.frame Ctl.onlyReplies t) ∧
    (le p 0 1 ≠ h.num ∨ s.ctl.fenced h = false ∨ s.ctl.get (R.HD_STATE_ADOPTED h.num) ≠ 0 →
      ∃ t, exec (.adopt h.other p) s = .next t ∧ t.replied h.other 0xC151 .invalidParameter [] ∧
        s.frame Ctl.onlyReplies t)) ∧
  (s.ctl.rst.quiesce = 0 → s.ctl.hstate h = 4 → s.ctl.twoHeads = true → ∃ t, exec (.fenceComplete h) s = .next t ∧ t.ctl.hstate h = 5 ∧
    t.ctl.clock = max s.ctl.clock ((s.ctl.hd h).fenceAt + 100000) ∧
    (∀ j ∈ t.ctl.job.jobs, j.owner = h → j.phase ≠ .running) ∧
    (∀ q, (s.ctl.hd h.other).mbox.pend = some q → q.op = 0xC150 → q.wait = .fence → t.replied h.other 0xC150 .ok []) ∧
    s.sameStack t) ∧
  (∀ p, s.takes h { whileFenced := true, dualCap := true } p →
    (s.ctl.hstate h = 5 → s.ctl.get (R.HD_STATE_LINK_UP h.num) ≠ 0 → ∃ t, exec (.headRejoin h p) s = .next t ∧
      t.waits h 0xC152 p .boundary ∧ s.frame Ctl.onlyReplies t) ∧
    (s.ctl.hstate h ≠ 5 ∨ s.ctl.get (R.HD_STATE_LINK_UP h.num) = 0 → ∃ t, exec (.headRejoin h p) s = .next t ∧
      t.replied h 0xC152 .invalidParameter [] ∧ s.frame Ctl.onlyReplies t))

/-- HEAD_STATUS answers, partition commands and HEAD_CFG wait for the boundary, and configuration writes act on their
head (11_heads_links_and_platform_time.md R244, 11_heads_links_and_platform_time.md R247,
11_heads_links_and_platform_time.md R267, 11_heads_links_and_platform_time.md R268,
11_heads_links_and_platform_time.md R269, 06_stripe_contexts.md R142). -/
def Obligations.HeadCommandsAndFunctionState : Prop :=
  ∀ (h : Head) (s : State),
  (∀ p, s.takes h { whileFenced := true } p → ∃ t, exec (.headStatus h p) s = .next t ∧ s.frame Ctl.onlyReplies t ∧
    t.replied h 0xC153 .ok (toLE 4 (s.ctl.wordAt h 0xB0000) ++ toLE 4 (s.ctl.wordAt h 0xC0000) ++ toLE 4 s.ctl.timStatus ++
      toLE 8 (s.ctl.get R.TIM_OFFSET_VALUE) ++ toLE 8 s.ctl.now)) ∧
  (∀ p, s.takes h { min := 2 } p →
    (s.ctl.mayAssign h p = true → s.unclaimed h [blkMap] → s.ctl.jobsOn [le p 0 1] = false →
      ∃ t, exec (.partAssign h p) s = .next t ∧ t.waits h 0xC154 p .boundary ∧ t.ctl.claimed blkMap = true ∧
        t.ctl.job = s.ctl.job ∧ s.sameStack t) ∧
    (s.ctl.granUsable (le p 0 1) = false ∨ s.ctl.granOwner (le p 0 1) = some h.other →
      ∃ t, exec (.partAssign h p) s = .next t ∧ t.replied h 0xC154 .invalidParameter [] ∧ s.frame Ctl.onlyReplies t) ∧
    (s.ctl.mayGive h p = true → s.unclaimed h [blkMap] → s.ctl.jobsOn (s.ctl.granulesOf (le p 0 1)) = false →
      ∃ t, exec (.partGive h p) s = .next t ∧ t.waits h 0xC155 p .boundary ∧ t.ctl.claimed blkMap = true ∧
        t.ctl.job = s.ctl.job ∧ s.sameStack t) ∧
    (64 ≤ le p 0 1 ∨ s.ctl.partOwner (le p 0 1) = h.other → ∃ t, exec (.partGive h p) s = .next t ∧
      t.replied h 0xC155 .invalidParameter [] ∧ s.frame Ctl.onlyReplies t)) ∧
  (∀ p, s.takes h { min := 6 } p →
    (le p 0 1 = h.num → s.unclaimed h [blkTim, if h = .a then blkHda else blkHdb] → ∃ t, exec (.headCfg h p) s = .next t ∧
      t.waits h 0xC156 p .boundary ∧ t.ctl.claimed blkTim = true ∧ s.sameStack t) ∧
    (le p 0 1 ≠ h.num → ∃ t, exec (.headCfg h p) s = .next t ∧ t.replied h 0xC156 .invalidParameter [] ∧
      s.frame Ctl.onlyReplies t)) ∧
  (∃ t, exec (.functionLevelReset h) s = .next t ∧ (t.ctl.hd h).msixEn = false ∧ (t.ctl.hd h).bme = false ∧
    (t.ctl.hd h).mbox.pend = none ∧ (t.ctl.hd h).mbox.bg = (s.ctl.hd h).mbox.bg ∧
    ((s.ctl.hd h).mbox.bg ≠ none → (t.ctl.hd h).mbox.bgTracked = false) ∧ t.ctl.hd h.other = s.ctl.hd h.other ∧
    t.ctl.regs = s.ctl.regs ∧ t.ctl.job.jobs = s.ctl.job.jobs ∧ s.sameStack t) ∧
  (s.ctl.hstate h ≠ 6 →
    (∀ b, ∃ t, exec (.configSpaceWrite h (.busMaster b)) s = .next t ∧ (t.ctl.hd h).bme = b ∧ s.sameStack t) ∧
    (∀ b, ∃ t, exec (.configSpaceWrite h (.d3hot b)) s = .next t ∧ (t.ctl.hd h).d3hot = b ∧ s.sameStack t) ∧
    (∀ b, ∃ t, exec (.configSpaceWrite h (.ptmEnable b)) s = .next t ∧ (t.ctl.hd h).ptmEn = b ∧
      (b = false → t.ctl.locked h = false) ∧ s.sameStack t) ∧
    (∀ b, ∃ t, exec (.configSpaceWrite h (.msixEnable b)) s = .next t ∧ t.ctl.hd h = { s.ctl.hd h with msixEn := b } ∧
      t.ctl.hd h.other = s.ctl.hd h.other ∧ t.ctl.regs = s.ctl.regs ∧ s.sameStack t) ∧
    (∀ b, ∃ t, exec (.configSpaceWrite h (.functionMask b)) s = .next t ∧ (t.ctl.hd h).funcMask = b ∧
      (t.ctl.hd h).msixMask = (s.ctl.hd h).msixMask ∧ t.ctl.regs = s.ctl.regs ∧ s.sameStack t) ∧
    (∀ v, ∃ t, exec (.configSpaceWrite h (.msixMask v false)) s = .next t ∧ v ∉ (t.ctl.hd h).msixMask ∧
      ((s.ctl.hd h).funcMask = false → v < 64 → v ∉ (t.ctl.hd h).msixPend) ∧ t.ctl.regs = s.ctl.regs ∧ s.sameStack t)) ∧
  (∀ i, s.ctl.hstate h = 6 → exec (.configSpaceWrite h i) s = .next s) ∧
  (s.ctl.get R.STX_ADOPT_ACTIVE ≠ 0 → s.ctl.kpr.phase = 3 → s.ctl.get R.STX_ADOPT_FROM = h.num →
    ∃ t, exec .ctxRewriteDone s = .next t ∧ t.ctl.get R.STX_ADOPT_ACTIVE = 0 ∧
      (∀ e ∈ t.ctl.stx.entries, ∀ m, e.2 = .main m → m.owner = h.other) ∧ s.recorded t logInfo 0x0106 h.num 0 ∧
      s.sameStack t)

/-- PTM responses lock, slew or step platform time, and its source changes only as R258 says
(11_heads_links_and_platform_time.md R257, 11_heads_links_and_platform_time.md R258,
11_heads_links_and_platform_time.md R260, 11_heads_links_and_platform_time.md R261). -/
def Obligations.PlatformTimeFollowsItsSource : Prop :=
  ∀ (h : Head) (s : State),
  ((s.ctl.hd h).ptmDue = true → (s.ctl.hd h).ptmEn = true → s.ctl.get (R.HD_STATE_LINK_UP h.num) ≠ 0 →
    ∃ t, exec .ptmExchangeStart s = .next t ∧ .ptmRequest h ∈ t.ctl.outbox ∧ (t.ctl.hd h).ptmOut = true ∧
      (t.ctl.hd h).ptmDue = false ∧ s.sameStack t ∧
      ((s.ctl.hd h).ptmOut = true → (s.ctl.hd h).ptmMiss = 3 → t.ctl.locked h = false ∧
        (s.ctl.locked h = true → s.ctl.get R.TIM_STATUS_SOURCE = h.num → t.ctl.get R.TIM_STATUS_HOLDOVER = 1 ∧
          t.ctl.holdDue = some (s.ctl.clock + 10000000)))) ∧
  (∀ t0 : Nat, (s.ctl.hd h).ptmOut = false → exec (.ptmResponse h t0) s = .next s) ∧
  (∀ t0 : Nat, (s.ctl.hd h).ptmOut = true → s.ctl.get R.TIM_STATUS_SOURCE = h.num →
    let err : Int := (t0 : Int) - s.ctl.timeBase - (s.ctl.now : Int)
    (err.natAbs ≤ 1000 → ∃ t, exec (.ptmResponse h t0) s = .next t ∧ t.ctl.locked h = true ∧ t.ctl.slew = err ∧
      t.ctl.now = s.ctl.now ∧ t.ctl.get R.TIM_STATUS_HOLDOVER = 0 ∧ t.ctl.holdDue = none ∧ t.ctl.job = s.ctl.job ∧
      s.sameStack t) ∧
    (1000 < err.natAbs → ∃ t, exec (.ptmResponse h t0) s = .next t ∧ t.ctl.locked h = true ∧
      t.ctl.now = ((s.ctl.now : Int) + err).toNat % 2 ^ 64 ∧ t.ctl.get R.TIM_LAST_STEP_VALUE = toS64 err ∧
      t.ctl.get R.TIM_STEP_CNT_STEPS = min (s.ctl.get R.TIM_STEP_CNT_STEPS + 1) (2 ^ R.TIM_STEP_CNT_STEPS.width - 1) ∧
      t.ctl.job.jobs.map Job.deadline = s.ctl.job.jobs.map (fun j => j.deadline.map fun d => ((d : Int) + err).toNat) ∧
      s.recorded t logInfo 0x0204 0xFFFF (toS64 err) ∧ s.sameStack t)) ∧
  (∀ t0 : Nat, (s.ctl.hd h).ptmOut = true → s.ctl.get R.TIM_STATUS_SOURCE = h.other.num →
    ∃ t, exec (.ptmResponse h t0) s = .next t ∧ t.ctl.get R.TIM_OFFSET_VALUE = toS64 ((t0 : Int) - (s.ctl.now : Int)) ∧
      t.ctl.get R.TIM_STATUS_OFFSET_VALID = 1 ∧ t.ctl.locked h = true ∧ t.ctl.now = s.ctl.now ∧ s.sameStack t) ∧
  (∀ t0 : Nat, (s.ctl.hd h).ptmOut = true → s.ctl.get R.TIM_STATUS_SOURCE = 2 → s.ctl.preferred = h →
    ∃ t, exec (.ptmResponse h t0) s = .next t ∧ t.ctl.get R.TIM_STATUS_SOURCE = h.num ∧
      t.ctl.get R.TIM_STATUS_TIME_UNTRUSTED = 0 ∧ t.ctl.locked h = true ∧ s.sameStack t) ∧
  (∀ (t0 due : Nat), s.ctl.holdDue = some due → s.ctl.get R.TIM_STATUS_SOURCE = h.num →
    (s.ctl.locked h.other = true → ∃ t, exec (.holdoverExpiry t0) s = .next t ∧
      t.ctl.get R.TIM_STATUS_SOURCE = h.other.num ∧ t.ctl.get R.TIM_STATUS_TIME_UNTRUSTED = 0 ∧
      t.ctl.get R.TIM_STATUS_HOLDOVER = 0 ∧ t.ctl.clock = max s.ctl.clock due ∧ s.sameStack t) ∧
    (s.ctl.locked h.other = false → ∃ t, exec (.holdoverExpiry t0) s = .next t ∧ t.ctl.get R.TIM_STATUS_SOURCE = 2 ∧
      t.ctl.get R.TIM_STATUS_TIME_UNTRUSTED = 1 ∧ t.ctl.get R.TIM_STATUS_HOLDOVER = 0 ∧
      s.recorded t logWarn 0x0203 0xFFFF 0 ∧ s.sameStack t)) ∧
  (∀ due, s.ctl.preferDue = some due → s.ctl.get R.TIM_STATUS_SOURCE = 2 → s.ctl.preferred = h.other →
    s.ctl.locked h = true → s.ctl.locked h.other = false → ∃ t, exec .preferredHeadWaitExpiry s = .next t ∧
      t.ctl.get R.TIM_STATUS_SOURCE = h.num ∧ t.ctl.get R.TIM_STATUS_TIME_UNTRUSTED = 0 ∧ t.ctl.preferDue = none ∧
      s.sameStack t)

/-- An OCS opcode that no chapter defines is UNSUPPORTED, and the progress of a background command shows. An OCS command is refused, in this order, for a stopped Keeper, a fence, an absent capability, a short input, a
running background command, a parked stack. The order of the checks is log entry 147, the commands refused while parked log entry
49, and that a doorbell written while the mailbox is busy does nothing log entry 98 (13_keeper_and_mailbox.md R290, 13_keeper_and_mailbox.md R292,
13_keeper_and_mailbox.md R294, 13_keeper_and_mailbox.md R296, 13_keeper_and_mailbox.md R303, 11_heads_links_and_platform_time.md R248,
01_architecture.md R22). -/
def Obligations.CommandsAreCheckedBeforeTheirRules : Prop :=
  ∀ (h : Head) (p : Bytes) (s : State),
  (∀ op, s.takes h {} p → 0xC000 ≤ op → op ≤ 0xC3FF → op ∉ ocsOpcodes → ∃ t, exec (.ocsUnsupportedOpcode h op p) s = .next t ∧
    t.replied h op .unsupported [] ∧ s.frame Ctl.onlyReplies t) ∧
  (∀ n g, (s.ctl.hd h).mbox.bg = some g → ∃ t, exec (.backgroundProgressUpdate h n) s = .next t ∧
    (t.ctl.hd h).mbox.bg = some { g with percent := min 100 n } ∧ t.ctl.hd h.other = s.ctl.hd h.other ∧
    s.frame Ctl.onlyReplies t) ∧
  ∀ (i : Instr) (op : Nat) (k : CmdKind), Obligations.ocsCommand i = some (h, op, k, p) →
  (s.ctl.mboxFree h = false → exec i s = .next s) ∧
  (s.ctl.mboxFree h = true →
    let refused : Ocs → Prop := fun e => ∃ t, exec i s = .next t ∧ t.replied h op e [] ∧ s.frame Ctl.onlyReplies t
    let absent := (k.sealCap = true ∧ s.ctl.hasSeal = false) ∨ (k.dualCap = true ∧ s.ctl.hasDual = false)
    let barred := s.ctl.fenced h = true ∧ k.whileFenced = false
    let second := k.background = true ∧ (s.ctl.hd h).mbox.bg.isSome = true
    (s.ctl.kpr.phase ≠ 3 → refused .keeperDown) ∧
    (s.ctl.kpr.phase = 3 → barred → refused .fenced) ∧
    (s.ctl.kpr.phase = 3 → ¬barred → absent → refused .unsupported) ∧
    (s.ctl.kpr.phase = 3 → ¬barred → ¬absent → p.length < k.min → refused .invalidParameter) ∧
    (s.ctl.kpr.phase = 3 → ¬barred → ¬absent → k.min ≤ p.length → second → refused .busy) ∧
    (s.ctl.kpr.phase = 3 → ¬barred → ¬absent → k.min ≤ p.length → ¬second → k.stack = true →
      (s.ctl.get R.IDC_KPR_STAT_PARKED ≠ 0 ∨ s.ctl.get R.THM_STATUS_STAGE = 4) → refused .busy))

/-- The status commands answer their layouts and change nothing (13_keeper_and_mailbox.md R297,
13_keeper_and_mailbox.md R298, 13_keeper_and_mailbox.md R305, 13_keeper_and_mailbox.md R308, 13_keeper_and_mailbox.md
R309, 14_thermal_and_power.md R326, 15_clocks_reset_and_start.md R346). -/
def Obligations.IdentityAndHealthAnswers : Prop :=
  ∀ (h : Head) (p : Bytes) (s : State), s.takes h {} p →
  (∃ t, exec (.ocsIdentify h p) s = .next t ∧ s.frame Ctl.onlyReplies t ∧ t.replied h 0xC000 .ok
    (toLE 2 0x0100 ++ toLE 2 0 ++ toLE 4 (s.ctl.wordAt h 0x40) ++ toLE 4 (s.ctl.wordAt h 0x60) ++
      toLE 1 (s.ctl.get R.IDC_FW_STAT_RUNNING) ++ toLE 1 (s.ctl.get R.IDC_FW_STAT_STATE) ++
      toLE 1 (s.ctl.get R.IDC_FW_STAT_SVN) ++ toLE 1 (s.ctl.get R.FUS_STATUS_MIN_SVN) ++
      ((List.range 4).flatMap fun i => toLE 4 (s.ctl.get (R.IDC_UNIQUE_ID_ID i))) ++
      toLE 1 (s.ctl.get R.IDC_PART_ID_COMPAT_1604) ++
      toLE 1 (if ((s.ctl.record 2).map fun r => le r 0 1) = some 1 then 1 else 0) ++
      toLE 1 (s.ctl.get (expertField h) + 2 * s.ctl.get (lockField h)) ++ toLE 1 0 ++
      toLE 4 (s.ctl.get R.IDC_KPR_STAT_RESTARTS) ++ toLE 4 (s.ctl.get R.RST_BOOT_STATUS_ATTEMPTS))) ∧
  (∃ t out, exec (.healthGet h p) s = .next t ∧ s.frame Ctl.onlyReplies t ∧ t.replied h 0xC001 .ok out ∧ out.length = 20 ∧
    le out 0 4 = s.ctl.wordAt h 0x150030 ∧ le out 4 1 = s.ctl.get R.THM_STATUS_STAGE % 256 ∧
    (∀ g, g < 64 → tb (le out 8 8) g = (s.ctl.ecc.entries.any fun e => tb e.mask g)) ∧
    le out 16 4 = s.ctl.wordAt h 0x14) ∧
  (s.ctl.sbp.recs.all (fun r => decide (r.kind ≠ 3)) = true → ∃ t, exec (.mapRecordGet h p) s = .next t ∧
    s.frame Ctl.onlyReplies t ∧ t.replied h 0xC006 .ok (List.replicate 22 0)) ∧
  (∀ r, s.ctl.sbp.recs.find? (fun r => decide (r.kind = 3)) = some r → ∃ t, exec (.mapRecordGet h p) s = .next t ∧
    s.frame Ctl.onlyReplies t ∧ t.replied h 0xC006 .ok
      (toLE 1 (if s.ctl.usable r = false ∨ 4 ≤ le r.body 0 1 then 3 else if s.ctl.sbp.mapSince = true then 2 else 1) ++
        padTo 21 r.body)) ∧
  (∃ t, exec (.fwStatus h p) s = .next t ∧ s.frame Ctl.onlyReplies t ∧ t.replied h 0xC020 .ok
    (toLE 4 (s.ctl.imgVersion 0) ++ toLE 4 (s.ctl.imgVersion 1) ++ toLE 1 (s.ctl.svnByte 0) ++ toLE 1 (s.ctl.svnByte 1) ++
      toLE 1 s.ctl.selRec.selected ++ toLE 1 (s.ctl.get R.IDC_FW_STAT_RUNNING) ++ toLE 1 (s.ctl.get R.IDC_FW_STAT_STATE) ++
      toLE 1 (s.ctl.get R.FUS_STATUS_MIN_SVN) ++ toLE 2 ((s.ctl.kpr.xferHead.map Head.num).getD 0xFFFF))) ∧
  (∃ t out, exec (.thermalGet h p) s = .next t ∧ s.frame Ctl.onlyReplies t ∧ t.replied h 0xC160 .ok out ∧
    out.length = 112 ∧ le out 0 4 = s.ctl.wordAt h 0x60004 ∧ le out 4 4 = s.ctl.wordAt h 0x70004 ∧
    le out 8 4 = s.ctl.wordAt h 0x70000 ∧ le out 108 4 = s.ctl.wordAt h 0x60180 ∧
    (∀ d, d < 12 → le out (12 + 8 * d) 8 = (if d < s.ctl.nd then s.ctl.wideAt h (0x60100 + 8 * d) else 0) % 2 ^ 64)) ∧
  (∃ t, exec (.bootStatusGet h p) s = .next t ∧ s.frame Ctl.onlyReplies t ∧ t.replied h 0xC171 .ok
    (toLE 4 (s.ctl.wordAt h 0x20010) ++ toLE 4 (s.ctl.wordAt h 0x20014) ++ toLE 4 (s.ctl.wordAt h 0x20020) ++
      toLE 4 (s.ctl.wordAt h 0x10000)))

/-- LEVEL_SET and LEVEL_LOCK change the requester's own bits, and each change is an event on both heads
(13_keeper_and_mailbox.md R301, 01_architecture.md R18). -/
def Obligations.LevelCommandsActOnTheirHeadOnly : Prop :=
  ∀ (h : Head) (p : Bytes) (s : State),
  (s.takes h { min := 1 } p →
    (2 ≤ le p 0 1 → ∃ t, exec (.levelSet h p) s = .next t ∧ t.replied h 0xC002 .invalidParameter [] ∧
      s.frame Ctl.onlyReplies t) ∧
    (le p 0 1 < 2 → s.ctl.get (expertField h) = le p 0 1 → ∃ t, exec (.levelSet h p) s = .next t ∧
      t.replied h 0xC002 .ok [] ∧ s.frame Ctl.onlyReplies t) ∧
    (le p 0 1 < 2 → s.ctl.get (expertField h) ≠ le p 0 1 → s.ctl.get (lockField h) ≠ 0 →
      ∃ t, exec (.levelSet h p) s = .next t ∧ t.replied h 0xC002 .invalidParameter [] ∧ s.frame Ctl.onlyReplies t) ∧
    (le p 0 1 < 2 → s.ctl.get (expertField h) ≠ le p 0 1 → s.ctl.get (lockField h) = 0 →
      ∃ t, exec (.levelSet h p) s = .next t ∧ t.replied h 0xC002 .ok [] ∧ t.ctl.expert h = decide (le p 0 1 = 1) ∧
        t.ctl.expert h.other = s.ctl.expert h.other ∧ s.ctl.keeps t.ctl [expertField h] ∧
        s.recorded t logInfo 0x0306 h.num 0 ∧ s.frame Ctl.onlyRegsReplies t)) ∧
  (s.takes h {} p →
    (s.ctl.get (lockField h) ≠ 0 → ∃ t, exec (.levelLock h p) s = .next t ∧ t.replied h 0xC003 .ok [] ∧
      s.frame Ctl.onlyReplies t) ∧
    (s.ctl.get (lockField h) = 0 → ∃ t, exec (.levelLock h p) s = .next t ∧ t.replied h 0xC003 .ok [] ∧
      t.ctl.get (lockField h) = 1 ∧ s.ctl.keeps t.ctl [lockField h] ∧ s.recorded t logInfo 0x0306 h.num 0 ∧
      s.frame Ctl.onlyRegsReplies t))

/-- COMPAT_SET, MAP_RECORD_SET, FW_CONFIRM and FW_SELECT queue their record and wait for the flash
(13_keeper_and_mailbox.md R302, 13_keeper_and_mailbox.md R305, 13_keeper_and_mailbox.md R306, 18_sideband_and_flash.md
R395). -/
def Obligations.RecordCommandsQueueTheirWrite : Prop :=
  ∀ (h : Head) (p : Bytes) (s : State),
  (s.takes h { min := 1 } p →
    (le p 0 1 < 2 → ∃ t, exec (.compatSet h p) s = .next t ∧ t.waits h 0xC004 p .flash ∧
      s.frame (Ctl.queues ⟨2, p.take 1, some h, false, none⟩) t) ∧
    (2 ≤ le p 0 1 → ∃ t, exec (.compatSet h p) s = .next t ∧ t.replied h 0xC004 .invalidParameter [] ∧
      s.frame Ctl.onlyReplies t) ∧
    (le p 0 1 < 2 → s.ctl.imgOk (le p 0 1) = true → ∃ t b, exec (.fwSelect h p) s = .next t ∧ t.waits h 0xC022 p .flash ∧
      s.frame (Ctl.queues ⟨1, b, some h, false, none⟩) t ∧ le b 0 1 = le p 0 1 ∧
      (¬(le p 0 1 = s.ctl.selNext.confirmed ∧ le p 0 1 = s.ctl.runSlot) → le b (1 + le p 0 1) 1 = 1)) ∧
    (2 ≤ le p 0 1 ∨ s.ctl.imgOk (le p 0 1) = false → ∃ t, exec (.fwSelect h p) s = .next t ∧
      t.replied h 0xC022 .invalidParameter [] ∧ s.frame Ctl.onlyReplies t)) ∧
  (s.takes h { min := 22 } p →
    (le p 0 1 < 2 → le p 1 1 < 4 → ∃ t, exec (.mapRecordSet h p) s = .next t ∧ t.waits h 0xC005 p .flash ∧
      s.frame (Ctl.queues ⟨3, (p.drop 1).take 21, some h, decide (le p 0 1 = 1), none⟩) t) ∧
    (2 ≤ le p 0 1 ∨ 4 ≤ le p 1 1 → ∃ t, exec (.mapRecordSet h p) s = .next t ∧ t.replied h 0xC005 .invalidParameter [] ∧
      s.frame Ctl.onlyReplies t)) ∧
  (s.takes h {} p →
    (s.ctl.get R.IDC_FW_STAT_STATE = 1 → s.ctl.get R.IDC_FW_STAT_RUNNING < 2 → ∃ t b, exec (.fwConfirm h p) s = .next t ∧
      t.waits h 0xC021 p .flash ∧ s.frame (Ctl.queues ⟨1, b, some h, false, none⟩) t ∧
      le b 0 1 = s.ctl.get R.IDC_FW_STAT_RUNNING ∧ le b (1 + s.ctl.get R.IDC_FW_STAT_RUNNING) 1 = 2 ∧
      le b 3 1 = s.ctl.get R.IDC_FW_STAT_RUNNING) ∧
    (s.ctl.get R.IDC_FW_STAT_STATE ≠ 1 → ∃ t, exec (.fwConfirm h p) s = .next t ∧ t.replied h 0xC021 .ok [] ∧
      s.frame Ctl.onlyReplies t))

/-- STACK_PARK starts a park when the device is idle, its completion is reported, and STACK_UNPARK leaves it. The
BUSY of a STACK_UNPARK in test mode is log entry 152 (13_keeper_and_mailbox.md R303, 16_fuses_calibration_and_self_test.md R367). -/
def Obligations.ParkStopsAndUnparkResumes : Prop :=
  ∀ (h : Head) (p : Bytes) (s : State),
  (s.takes h { background := true } p → s.ctl.job.jobs = [] → (s.ctl.hd h.other).mbox.bg = none →
    s.ctl.get R.ECC_MIG_ACTIVE = 0 → s.ctl.get R.STX_ADOPT_ACTIVE = 0 → s.ctl.frg.passes = [] →
    s.ctl.get R.IDC_KPR_STAT_PARKED = 0 → s.ctl.get R.THM_STATUS_STAGE ≠ 4 → s.ctl.stk.selfRef = 0 →
    ∃ t, exec (.stackPark h p) s = .next t ∧ t.started h 0xC007 p ∧ t.ctl.get R.IDC_KPR_STAT_PARKED = 1 ∧
      t.ctl.stk.selfRef = 1 ∧ s.ctl.keeps t.ctl [R.IDC_KPR_STAT_PARKED] ∧ s.recorded t logInfo 0x0303 0xFFFF 0 ∧
      s.sameStack t) ∧
  (s.takes h { background := true } p → (s.ctl.job.jobs ≠ [] ∨ (s.ctl.hd h.other).mbox.bg ≠ none ∨
      s.ctl.get R.ECC_MIG_ACTIVE ≠ 0 ∨ s.ctl.get R.STX_ADOPT_ACTIVE ≠ 0 ∨ s.ctl.frg.passes ≠ [] ∨
      s.ctl.get R.IDC_KPR_STAT_PARKED ≠ 0) →
    ∃ t, exec (.stackPark h p) s = .next t ∧ t.replied h 0xC007 .busy [] ∧ s.frame Ctl.onlyReplies t) ∧
  (∀ g, s.ctl.stk.selfRef = 2 → (s.ctl.hd h).mbox.bg = some g → g.op = 0xC007 → (s.ctl.hd h).mbox.bgTracked = true →
    ∃ t, exec .parkComplete s = .next t ∧ (t.ctl.hd h).mbox.bg = none ∧
      (t.ctl.hd h).mbox.bgLast = some ⟨0xC007, 0, 0, []⟩ ∧ s.frame Ctl.onlyReplies t) ∧
  (s.takes h {} p →
    (s.ctl.get R.IDC_KPR_STAT_PARKED ≠ 0 → s.ctl.get R.THM_STATUS_STAGE ≠ 4 → s.ctl.cal.testMode = false → s.ctl.stk.selfRef = 2 →
      ∃ t, exec (.stackUnpark h p) s = .next t ∧ t.waits h 0xC008 p .commit ∧ t.ctl.stk.selfRef = 3 ∧
        t.ctl.regs = s.ctl.regs ∧ s.sameStack t) ∧
    (s.ctl.get R.IDC_KPR_STAT_PARKED = 0 → s.ctl.get R.THM_STATUS_STAGE ≠ 4 → s.ctl.cal.testMode = false →
      ∃ t, exec (.stackUnpark h p) s = .next t ∧ t.replied h 0xC008 .ok [] ∧ s.frame Ctl.onlyReplies t) ∧
    (s.ctl.get R.THM_STATUS_STAGE = 4 ∨ s.ctl.cal.testMode = true →
      ∃ t, exec (.stackUnpark h p) s = .next t ∧ t.replied h 0xC008 .busy [] ∧ s.frame Ctl.onlyReplies t))

/-- A Keeper fault restarts the image or fails the start; the ROM runs the first candidate that passes, but stops at step 7
on a BLANK part; READY ends it. That a silent trial image boots the confirmed slot, or the other one where the confirmed one is the one
that ran, is log entry 67, how a header is spelt 149, and what a Keeper reset in test mode asks for 152 (13_keeper_and_mailbox.md R287, 13_keeper_and_mailbox.md R288, 13_keeper_and_mailbox.md R305,
15_clocks_reset_and_start.md R344, 16_fuses_calibration_and_self_test.md R367). -/
def Obligations.KeeperRestartsAndImages : Prop :=
  ∀ (s : State),
  (∀ i src, (i = Instr.lockStepMismatch ∧ src = 620) ∨ (i = Instr.watchdogExpiry ∧ src = 621) →
    ((s.ctl.kpr.phase = 2 ∨ s.ctl.kpr.phase = 3) → s.ctl.cal.testMode = true → ∃ t, exec i s = .next t ∧
      t.ctl.srcPending src = true ∧ t.ctl.get R.IDC_FW_STAT_READY = 0 ∧ t.ctl.kpr.phase = 0 ∧ t.ctl.claims = [] ∧ s.sameStack t ∧
      (s.ctl.rst.awaiting = 8 → s.ctl.rst.quiesce = 0 → s.ctl.rst.warmReq = none → t.ctl.rst.warmReq = some 2)) ∧
    ((s.ctl.kpr.phase = 2 ∨ s.ctl.kpr.phase = 3) → s.ctl.cal.testMode = false → ∃ t, exec i s = .next t ∧ t.ctl.srcPending src = true ∧
      t.ctl.get R.IDC_FW_STAT_READY = 0 ∧ (t.ctl.kpr.phase = 1 ∨ t.ctl.kpr.phase = 4) ∧ t.ctl.claims = [] ∧
      (∀ h, (t.ctl.hd h).mbox.pend = none ∧ (t.ctl.hd h).mbox.bg = none) ∧ s.sameStack t) ∧
    (s.ctl.kpr.phase = 1 → 1 ≤ s.ctl.rst.awaiting → s.ctl.rst.awaiting ≤ 7 → ∃ t, exec i s = .next t ∧ s.failedStart t 5)) ∧
  (∀ (sram : List (Nat × Nat)) (sel : Bool) (a b : Option Image) (dt n v : Nat), s.ctl.kpr.phase = 1 → n < 2 →
    let x := if n = 0 then a else b
    let y := if n = 0 then b else a
    let passes : Option Image → Prop := fun z => s.ctl.imageCause z = 0 ∧ s.ctl.get R.FUS_STATUS_MIN_SVN ≤ (z.getD {}).svn.val
    (∀ z : Image, z.body.length ≤ bodyMax → sha384 z.key = s.ctl.keyDigest → ecdsaVerify z.key (imageSigned z) z.signature = true →
      sha384 z.body = z.digest → z.rinros = true → s.ctl.get R.FUS_STATUS_MIN_SVN ≤ z.svn.val → passes (some z)) ∧
    (s.ctl.rst.awaiting ≠ 4 → railIo ∉ s.ctl.rst.railsOut → s.ctl.kpr.bootNext = some (n, v) → v < 4 → passes x →
      ∃ t z, exec (.imageAccepted sram sel a b dt) s = .next t ∧ t.ctl.kpr.phase = 2 ∧ x = some z ∧
        t.ctl.get R.IDC_FW_STAT_RUNNING = n ∧ t.ctl.get R.IDC_FW_STAT_STATE = v ∧ t.ctl.get R.IDC_FW_STAT_SVN = z.svn.val ∧
        t.ctl.get R.IDC_FW_VER_MAJOR = z.major.toNat ∧ t.ctl.get R.IDC_FW_VER_MINOR = z.minor.toNat ∧
        t.ctl.get R.IDC_FW_VER_PATCH = z.patch.toNat ∧ s.sameStack t) ∧
    (s.ctl.rst.awaiting ≠ 4 → railIo ∉ s.ctl.rst.railsOut → s.ctl.kpr.bootNext = some (n, v) → ¬passes x → passes y →
      ∃ t, exec (.imageAccepted sram sel a b dt) s = .next t ∧ t.ctl.kpr.phase = 2 ∧ t.ctl.get R.IDC_FW_STAT_RUNNING = 1 - n ∧
        t.ctl.get R.IDC_FW_STAT_STATE = 2 ∧ t.ctl.get R.RST_BOOT_INFO_FALLBACK = 1 ∧ s.sameStack t) ∧
    (s.ctl.rst.awaiting = 4 → railIo ∉ s.ctl.rst.railsOut → otpWord s.ctl.fus.shadow 0 ≠ 0 → s.ctl.kpr.bootNext = none →
      (s.ctl.sramTest sram).2.1 = 0 →
      n = (if sel = true then 1 - s.ctl.selRec.selected else s.ctl.selRec.selected) → passes x →
      (lcOf (otpWord s.ctl.fus.shadow 0)).getD 0 ≠ 4 →
      ∃ t, exec (.imageAccepted sram sel a b dt) s = .next t ∧ t.ctl.kpr.phase = 2 ∧ t.ctl.get R.IDC_FW_STAT_RUNNING = n ∧
        t.ctl.rst.awaiting = 5 ∧ t.ctl.get R.RST_BOOT_STATUS_STEP = 6 ∧ s.sameStack t) ∧
    (s.ctl.rst.awaiting = 4 → otpWord s.ctl.fus.shadow 0 = 0 → (s.ctl.sramTest sram).2.1 = 0 →
      ∃ t, exec (.imageAccepted sram sel a b dt) s = .next t ∧ t.ctl.rst.awaiting = 10 ∧ t.ctl.kpr.phase = 0 ∧
        t.ctl.get R.RST_BOOT_STATUS_PHASE = 3 ∧ t.ctl.get R.RST_BOOT_STATUS_STEP = 7 ∧ t.ctl.get R.RST_BOOT_STATUS_CAUSE = 0 ∧
        s.sameStack t) ∧
    (s.ctl.rst.awaiting = 4 → (s.ctl.sramTest sram).2.1 ≠ 0 →
      ∃ t, exec (.imageAccepted sram sel a b dt) s = .next t ∧ s.failedStart t 5) ∧
    (¬passes a → ¬passes b → ¬(s.ctl.rst.awaiting = 4 ∧ otpWord s.ctl.fus.shadow 0 = 0) → 1 ≤ s.ctl.rst.awaiting → s.ctl.rst.awaiting ≤ 7 →
      ∃ t, exec (.neitherImagePasses a b) s = .next t ∧ s.failedStart t 7)) ∧
  (∀ dt, s.ctl.kpr.phase = 2 → ∃ t, exec (.keeperReady dt) s = .next t ∧ t.ctl.kpr.phase = 3 ∧
    t.ctl.get R.IDC_FW_STAT_READY = 1 ∧ t.ctl.clock = s.ctl.clock + min dt 2000000000 ∧ s.sameStack t ∧
    (s.ctl.rst.awaiting = 5 → t.ctl.rst.awaiting = 6 ∧ t.ctl.get R.RST_BOOT_STATUS_STEP = 8) ∧
    (s.ctl.kpr.restarted = true → s.ctl.kpr.rolled = false →
      t.ctl.get R.IDC_KPR_STAT_RESTARTS = min (s.ctl.get R.IDC_KPR_STAT_RESTARTS + 1) (2 ^ R.IDC_KPR_STAT_RESTARTS.width - 1) ∧
        s.recorded t logWarn 0x0301 0xFFFF 0)) ∧
  (s.ctl.kpr.phase = 2 → s.ctl.get R.IDC_FW_STAT_STATE = 1 → s.ctl.cal.testMode = false → ∃ t, exec .imageReadyTimeout s = .next t ∧
    t.ctl.kpr.phase = 1 ∧ t.ctl.kpr.bootNext = some (if s.ctl.selRec.confirmed = s.ctl.get R.IDC_FW_STAT_RUNNING then
      1 - s.ctl.get R.IDC_FW_STAT_RUNNING else s.ctl.selRec.confirmed, 2)) ∧
  ((s.ctl.kpr.phase = 2 ∧ s.ctl.get R.IDC_FW_STAT_STATE ≠ 1) ∨ s.ctl.kpr.phase = 4 → 1 ≤ s.ctl.rst.awaiting →
    s.ctl.rst.awaiting ≤ 7 → ∃ t, exec .imageReadyTimeout s = .next t ∧ s.failedStart t 8) ∧
  (s.ctl.kpr.phase = 3 → s.ctl.get R.IDC_FW_STAT_STATE = 1 → ∃ t b, exec .trialConfirmTimeout s = .next t ∧
    t.ctl.get R.IDC_FW_STAT_STATE = 0 ∧ t.ctl.clock = max s.ctl.clock (s.ctl.kpr.readyAt + 60000000000) ∧
    t.ctl.sbp.writes = s.ctl.sbp.writes ++ [⟨1, b, none, false, none⟩] ∧ s.sameStack t)

/-- Each event of a start moves it to the next step of R342 (15_clocks_reset_and_start.md R328,
15_clocks_reset_and_start.md R329, 15_clocks_reset_and_start.md R342, 15_clocks_reset_and_start.md R343,
15_clocks_reset_and_start.md R344, 15_clocks_reset_and_start.md R345, 16_fuses_calibration_and_self_test.md R352,
02_stack_and_row_lanes.md R42). -/
def Obligations.StartStepsAdvance : Prop :=
  ∀ s : State,
  (∀ heads, s.ctl.rst.awaiting = 0 → s.ctl.rst.vaux = true → ∃ t, exec (.railsInTolerance heads) s = .next t ∧
    t.ctl.rst.awaiting = (if s.ctl.rst.oscStable = true then 2 else 1) ∧ t.ctl.get R.RST_BOOT_STATUS_STEP = 2 ∧
    t.ctl.headsStrap = heads ∧ t.ctl.rst.railsOut = [] ∧ t.ctl.clock = s.ctl.clock + 1000000 ∧ s.sameStack t) ∧
  (s.ctl.rst.vaux = true → s.ctl.rst.oscStable = false → ∃ t, exec .oscStable s = .next t ∧ t.ctl.rst.oscStable = true ∧
    t.ctl.clock = max s.ctl.clock (s.ctl.rst.vauxAt + 1310720) ∧
    t.ctl.rst.awaiting = (if s.ctl.rst.awaiting = 1 then 2 else s.ctl.rst.awaiting) ∧ s.sameStack t) ∧
  (∀ dt, s.ctl.rst.awaiting = 2 → ∃ t, exec (.pllLock dt) s = .next t ∧ t.ctl.rst.awaiting = 3 ∧
    t.ctl.get R.CLK_STATUS_CORE_LOCK = 1 ∧ t.ctl.get R.CLK_STATUS_ROW_LOCK = 1 ∧ t.ctl.get R.RST_BOOT_STATUS_STEP = 3 ∧
    s.ctl.keeps t.ctl [R.CLK_STATUS_CORE_LOCK, R.CLK_STATUS_ROW_LOCK, R.RST_BOOT_STATUS_STEP, R.RST_BOOT_STATUS_PHASE,
      R.TIM_NOW_VALUE] ∧ s.sameStack t) ∧
  (∀ n m, s.ctl.rst.awaiting = 3 → lcOf (otpWord s.ctl.fus.words 0) = some n → svnOf s.ctl.fus.words = some m →
    m ≤ 64 → regionStat s.ctl.fus.words [] ⟨0x003, 0x03F, 1⟩ = 0 → ∃ t, exec (.fuseSensingDone []) s = .next t ∧
      t.ctl.rst.awaiting = 4 ∧ t.ctl.kpr.phase = 1 ∧ t.ctl.get R.FUS_STATUS_MIN_SVN = m ∧
      t.ctl.fus.shadow = s.ctl.fus.words ∧ t.ctl.get R.RST_BOOT_STATUS_STEP = 5 ∧ s.sameStack t) ∧
  (s.ctl.rst.awaiting = 3 → s.ctl.fus.words = [] → ∃ t, exec (.fuseSensingDone []) s = .next t ∧ t.ctl.rst.awaiting = 4 ∧
    t.ctl.kpr.phase = 1 ∧ t.ctl.get R.FUS_STATUS_MIN_SVN = 0 ∧ t.ctl.get R.RST_BOOT_STATUS_STEP = 5 ∧ s.sameStack t) ∧
  (∀ dt, s.ctl.rst.awaiting = 6 → s.ctl.rst.warm = false → s.ctl.sbp.recs = [] → s.ctl.ecc.causes = [] →
    (∀ a, 0x200 ≤ a → a < 0x330 → otpWord s.ctl.fus.shadow a = 0) →
    ∃ t, exec (.tsvTrainingDone [] false [] dt) s = .next t ∧ t.ctl.rst.awaiting = 7 ∧
      (∀ ch, ch < s.ctl.nch → t.ctl.get (R.TSV_CH_REPAIR_SKIP0 ch) = 0x3F ∧ t.ctl.get (R.TSV_CH_REPAIR_SKIP1 ch) = 0x3F ∧
        t.ctl.get (R.TSV_CH_REPAIR_SPARES_LEFT ch) = 2) ∧ s.sameStack t) ∧
  (∀ feeds pair found dt, s.ctl.rst.awaiting = 6 → s.ctl.rst.warm = true → s.ctl.stk.failing = [] →
    ∃ t, exec (.tsvTrainingDone feeds pair found dt) s = .next t ∧ t.ctl.rst.awaiting = 7 ∧
      t.ctl.clock = s.ctl.clock + min dt 200000 ∧ s.sameStack t) ∧
  (∀ dt, s.ctl.rst.awaiting = 7 → ∃ t, exec (.stackBringupDone false dt) s = .next t ∧ t.ctl.rst.awaiting = 8 ∧
    t.ctl.get R.RST_BOOT_STATUS_STEP = 10 ∧ t.ctl.get R.RST_BOOT_STATUS_PHASE = 2 ∧ t.ctl.rst.fails = 0 ∧
    t.ctl.rst.warm = false ∧ (s.ctl.rst.warm = false → t.ctl.get R.STX_FREE_CNT_FREE = ctxCount ∧ t.ctl.stx.entries = [] ∧
      t.mem = s.mem)) ∧
  (s.ctl.rst.awaiting = 9 → ∃ t, exec .startRetryWaitExpiry s = .next t ∧
    t.ctl.rst.awaiting = (if s.ctl.rst.oscStable = true then 2 else 1) ∧
    t.ctl.clock = max s.ctl.clock s.ctl.rst.retryDue ∧ t.ctl.get R.RST_BOOT_STATUS_STEP = 2 ∧ s.sameStack t)

/-- The failures of a start are recorded with their cause, and the loss of a rail resets what R337 says
(15_clocks_reset_and_start.md R337, 15_clocks_reset_and_start.md R344, 01_architecture.md R16,
02_stack_and_row_lanes.md R43, 18_sideband_and_flash.md R384, 18_sideband_and_flash.md R392,
21_pins_package_and_electrical.md R413, 21_pins_package_and_electrical.md R414). -/
def Obligations.StartFailuresAndRails : Prop :=
  ∀ s : State,
  (s.ctl.rst.awaiting = 2 → ∃ t, exec .pllLockTimeout s = .next t ∧ s.failedStart t 2) ∧
  (s.ctl.rst.awaiting = 3 → ∃ t, exec .fuseWordReadTimeout s = .next t ∧ s.failedStart t 3) ∧
  (∀ weak, s.ctl.rst.awaiting = 3 → (lcOf (otpWord s.ctl.fus.words 0) = none ∨ svnOf s.ctl.fus.words = none) →
    ∃ t, exec (.fuseSensingDone weak) s = .next t ∧ s.failedStart t 4) ∧
  (s.ctl.rst.awaiting = 4 → ∃ t, exec .flashAnswerTimeout s = .next t ∧ s.failedStart t 6) ∧
  (∀ feeds found dt, s.ctl.rst.awaiting = 6 → s.ctl.rst.warm = false →
    ∃ t, exec (.tsvTrainingDone feeds true found dt) s = .next t ∧ s.failedStart t 9) ∧
  (∀ dt, s.ctl.rst.awaiting = 7 → ∃ t, exec (.stackBringupDone true dt) s = .next t ∧ s.failedStart t 0x0A) ∧
  (1 ≤ s.ctl.rst.awaiting → s.ctl.rst.awaiting ≤ 7 →
    (s.ctl.rst.vaux = true → ∃ t, exec (.railBrownOut 2) s = .next t ∧ s.failedStart t 1) ∧
    (∀ r, ∃ t, exec (.railOutOfTolerance r) s = .next t ∧ s.failedStart t 1 ∧ railNum r ∈ t.ctl.rst.railsOut)) ∧
  (∀ r : Fin 3, s.ctl.rst.vaux = false → ∃ t, exec (.railBrownOut r) s = .next t ∧ r.val ∈ t.ctl.rst.railsOut ∧
    t.ctl = { s.ctl with rst.railsOut := t.ctl.rst.railsOut } ∧ s.sameStack t) ∧
  (∀ r : Fin 3, s.ctl.rst.vaux = true → r ≠ 2 ∨ s.ctl.rst.awaiting = 0 ∨ 8 ≤ s.ctl.rst.awaiting → ∃ t, exec (.railBrownOut r) s = .next t ∧
    t.mem = [] ∧ t.lines = [] ∧ t.ctl.get R.RST_BOOT_INFO_ORIGIN = 6 ∧ t.ctl.rst.awaiting = 0 ∧ t.ctl.kpr.phase = 0 ∧
    t.ctl.job.jobs = [] ∧ t.ctl.fus.words = s.ctl.fus.words ∧ r.val ∈ t.ctl.rst.railsOut ∧
    (∀ x : Fld, x.key ∉ auxKeys → x.key ≠ R.FLT_STATUS_ERRN.key → t.ctl.get x = x.reset)) ∧
  (s.ctl.rst.awaiting = 8 →
    (∃ t, exec (.railOutOfTolerance .vddIo) s = .next t ∧ railIo ∈ t.ctl.rst.railsOut ∧ t.ctl.srcPending 629 = true ∧
      s.sameStack t) ∧
    (∃ t, exec (.railOutOfTolerance .vpp) s = .next t ∧ railNum .vpp ∈ t.ctl.rst.railsOut ∧
      t.ctl = { s.ctl with rst.railsOut := t.ctl.rst.railsOut } ∧ s.sameStack t) ∧
    (∃ t, exec (.railOutOfTolerance .vddPhy) s = .next t ∧ railPhy ∈ t.ctl.rst.railsOut ∧
      (∀ h : Head, t.ctl.get (R.HD_STATE_LINK_UP h.num) = 0) ∧ s.sameStack t)) ∧
  (∀ r, ∃ t, exec (.railReturn r) s = .next t ∧ railNum r ∉ t.ctl.rst.railsOut ∧
    (∀ n, n ≠ railNum r → (n ∈ t.ctl.rst.railsOut ↔ n ∈ s.ctl.rst.railsOut)) ∧ s.sameStack t) ∧
  (∃ t, exec .vauxLoss s = .next t ∧ (∀ x : Fld, t.ctl.get x = x.reset) ∧ t.mem = [] ∧ t.lines = [] ∧
    t.ctl.rst.vaux = false ∧ t.ctl.rst.awaiting = 0 ∧ t.ctl.fus.words = s.ctl.fus.words) ∧
  (∀ sba : Fin 8, s.ctl.rst.vaux = false → ∃ t, exec (.vauxRise sba) s = .next t ∧ t.ctl.rst.vaux = true ∧
    t.ctl.get R.SBP_STATUS_ADDRESS = 0x58 + sba ∧
    s.ctl.keeps t.ctl [R.SBP_STATUS_ADDRESS, R.RST_BOOT_STATUS_STEP] ∧ s.sameStack t)

/-- A REFCLK qualifies after 200 good windows and fails on an empty one; gates open, go idle and close
(15_clocks_reset_and_start.md R329, 15_clocks_reset_and_start.md R330, 15_clocks_reset_and_start.md R331,
15_clocks_reset_and_start.md R334, 15_clocks_reset_and_start.md R335). -/
def Obligations.ClocksAndGates : Prop :=
  ∀ (s : State),
  (∀ a b, s.ctl.clk.monitor = true → s.ctl.twoHeads = false →
    (496 ≤ a → a ≤ 528 → s.ctl.get R.CLK_MON_A_QUALIFIED ≠ 0 → ∃ t, exec (.clockMonitorWindow a b) s = .next t ∧
      t.ctl.get R.CLK_MON_A_COUNT = a ∧ t.ctl.clk.badA = 0 ∧ s.ctl.keeps t.ctl [R.CLK_MON_A_COUNT] ∧ s.sameStack t) ∧
    (496 ≤ a → a ≤ 528 → s.ctl.get R.CLK_MON_A_QUALIFIED = 0 → s.ctl.clk.goodA = 199 →
      ∃ t, exec (.clockMonitorWindow a b) s = .next t ∧ t.ctl.get R.CLK_MON_A_QUALIFIED = 1 ∧
        t.ctl.get R.CLK_MON_A_FAILED = 0 ∧
        s.ctl.keeps t.ctl [R.CLK_MON_A_COUNT, R.CLK_MON_A_QUALIFIED, R.CLK_MON_A_FAILED] ∧ s.sameStack t) ∧
    (496 ≤ a → a ≤ 528 → s.ctl.get R.CLK_MON_A_QUALIFIED = 0 → s.ctl.clk.goodA < 199 →
      ∃ t, exec (.clockMonitorWindow a b) s = .next t ∧ t.ctl.get R.CLK_MON_A_QUALIFIED = 0 ∧
        t.ctl.clk.goodA = s.ctl.clk.goodA + 1 ∧ s.ctl.keeps t.ctl [R.CLK_MON_A_COUNT] ∧ s.sameStack t) ∧
    (s.ctl.get R.CLK_MON_A_QUALIFIED ≠ 0 → ∃ t, exec (.clockMonitorWindow 0 b) s = .next t ∧
      t.ctl.get R.CLK_MON_A_QUALIFIED = 0 ∧ t.ctl.get R.CLK_MON_A_FAILED = 1 ∧
      t.ctl.get R.CLK_MON_A_FAILS = min (s.ctl.get R.CLK_MON_A_FAILS + 1) 65535 ∧ t.ctl.get R.CLK_STATUS_PHYA_LOCK = 0 ∧
      t.ctl.srcPending 616 = true ∧
      (s.ctl.get R.CLK_STATUS_CORE_REF = 1 → s.ctl.get R.CLK_STATUS_COAST = 0 → s.ctl.get R.IDC_PART_ID_COMPAT_1604 = 0 →
        t.ctl.get R.CLK_STATUS_CORE_REF = 0) ∧ s.sameStack t)) ∧
  (∀ h, s.ctl.refQualified h = true → s.ctl.hstate h ≠ 6 → ∃ t, exec (.phyPllLock h) s = .next t ∧
    t.ctl.phyLocked h = true ∧
    s.ctl.keeps t.ctl [if h = .a then R.CLK_STATUS_PHYA_LOCK else R.CLK_STATUS_PHYB_LOCK] ∧ s.frame Ctl.onlyRegs t) ∧
  (∀ d : Fin 18, s.ctl.part = .rc4812 → s.ctl.kpr.phase = 3 → (d.val < 17 ∨ s.ctl.hstate .b ≠ 6) →
    (∃ t, exec (.gateOpen d) s = .next t ∧ s.ctl.keeps t.ctl [R.CLK_GATE_EN_EN, R.CLK_GATE_STAT_OPEN] ∧ s.sameStack t ∧
      d.val ∉ t.ctl.clk.closing ∧
      ∀ b, b < 18 → tb (t.ctl.get R.CLK_GATE_EN_EN) b = (tb (s.ctl.get R.CLK_GATE_EN_EN) b || decide (b = d.val)) ∧
        tb (t.ctl.get R.CLK_GATE_STAT_OPEN) b = (tb (s.ctl.get R.CLK_GATE_STAT_OPEN) b || decide (b = d.val))) ∧
    (s.ctl.get R.CLK_GATE_POL_HOLD_OPEN = 0 → s.ctl.get R.CLK_GATE_POL_IDLE_US ≠ 0 →
      tb (s.ctl.get R.CLK_GATE_EN_EN) d = true → s.ctl.domainBusy d = false → ∃ t, exec (.gateIdleExpiry d) s = .next t ∧
        t.ctl.clk.closing = d.val :: s.ctl.clk.closing ∧ s.ctl.keeps t.ctl [R.CLK_GATE_EN_EN] ∧ s.sameStack t ∧
        ∀ b, b < 18 → tb (t.ctl.get R.CLK_GATE_EN_EN) b = (tb (s.ctl.get R.CLK_GATE_EN_EN) b && !decide (b = d.val)))) ∧
  (∀ d : Fin 18, d.val ∈ s.ctl.clk.closing →
    (∃ t, exec (.gateClose d none) s = .next t ∧ d.val ∉ t.ctl.clk.closing ∧ s.ctl.keeps t.ctl [R.CLK_GATE_STAT_OPEN] ∧
      s.sameStack t ∧ ∀ b, b < 18 →
        tb (t.ctl.get R.CLK_GATE_STAT_OPEN) b = (tb (s.ctl.get R.CLK_GATE_STAT_OPEN) b && !decide (b = d.val))) ∧
    (∀ x, s.ctl.gateWindow d = 0 → exec (.gateClose d (some x)) s = exec (.gateClose d none) s) ∧
    (∀ x, s.ctl.gateWindow d ≠ 0 → ∃ t, exec (.gateClose d (some x)) s = .next t ∧ t.ctl.srcPending 619 = true ∧
      t.ctl.get R.CLK_GATED_ACC_CNT_EVENTS = min (s.ctl.get R.CLK_GATED_ACC_CNT_EVENTS + 1) 65535 ∧ s.sameStack t ∧
      ∀ h off wide, x = .read h off wide → off / 65536 * 65536 = s.ctl.gateWindow d →
        .regValue h off (if wide = true then 8 else 4) 0 ∈ t.ctl.outbox))

/-- A warm reset quiesces the stack, resets the main and Keeper domains, and keeps the data. That the commits
that wait are dropped at a quiesce is log entries 75 and 42, and that mailbox commands are cleared log entry 72, the model's choices
(15_clocks_reset_and_start.md R337, 15_clocks_reset_and_start.md R338, 15_clocks_reset_and_start.md R339,
15_clocks_reset_and_start.md R340, 15_clocks_reset_and_start.md R346, 00_scope.md R8,
16_fuses_calibration_and_self_test.md R367, 07_dram_scheduling_and_refresh.md R166). -/
def Obligations.WarmResetsQuiesceAndKeep : Prop :=
  ∀ s : State,
  (∀ (h : Head) (p : Bytes), s.takes h { min := 1 } p →
    (le p 0 1 = 0x5A → ∃ t, exec (.deviceReset h p) s = .next t ∧ t.replied h 0xC170 .ok [] ∧ t.ctl.regs = s.ctl.regs ∧
      s.sameStack t ∧ (s.ctl.rst.awaiting = 8 → s.ctl.rst.quiesce = 0 → s.ctl.rst.warmReq = none →
        t.ctl.rst.warmReq = some 1 ∧ t.ctl.rst.warmAt = s.ctl.clock + 1000000)) ∧
    (le p 0 1 ≠ 0x5A → ∃ t, exec (.deviceReset h p) s = .next t ∧ t.replied h 0xC170 .invalidParameter [] ∧
      s.frame Ctl.onlyReplies t)) ∧
  (∀ o, s.ctl.rst.warmReq = some o → o < 16 → s.ctl.rst.awaiting = 8 → s.ctl.rst.quiesce = 0 →
    (s.ctl.cal.testMode = false → ∃ t, exec .warmReset s = .next t ∧ t.ctl.rst.quiesce = 1 ∧ t.ctl.rst.warm = true ∧
      t.ctl.rst.warmReq = none ∧ t.ctl.rst.quiesceAt = max s.ctl.clock s.ctl.rst.warmAt ∧ t.ctl.job.jobs = [] ∧
      t.ctl.job.fetches = [] ∧ t.ctl.stk.selfRef = (if 2 ≤ s.ctl.stk.selfRef then 2 else 1) ∧
      t.ctl.get R.RST_BOOT_INFO_ORIGIN = o ∧ t.ctl.get R.MAP_COMMIT_PENDING = 0 ∧ t.ctl.get R.QOS_SCHED_COMMIT_PENDING = 0 ∧
      t.ctl.stkPend = false ∧ s.sameStack t) ∧
    (s.ctl.cal.testMode = true → ∃ t, exec .warmReset s = .next t ∧ t.mem = [] ∧ t.lines = [] ∧ t.ctl.kpr.phase = 0 ∧
      t.ctl.get R.RST_BOOT_INFO_ORIGIN = o ∧ t.ctl.rst.awaiting = 0)) ∧
  (s.ctl.stk.selfRef = 1 → s.ctl.ecc.merges = [] → ∃ t, exec .selfRefreshEntered s = .next t ∧ t.ctl.stk.selfRef = 2 ∧
    (∀ d, d < 12 → tb (t.ctl.get R.STK_SR_STAT_IN_SR) d =
      (decide (d < s.ctl.nd) && !s.ctl.stk.feedsOpen.contains d)) ∧ (∀ e ∈ t.ctl.stk.chans, e.2.queue = []) ∧
    s.onlyHeals t) ∧
  (s.ctl.rst.quiesce = 1 → s.ctl.stk.selfRef ≠ 2 → ∃ t, exec .quiesceForced s = .next t ∧ t.ctl.rst.quiesce = 2 ∧
    t.ctl.stk.selfRef = 2 ∧ t.ctl.get R.RST_QUIESCE_FORCED = 1 ∧ t.ctl.srcPending 634 = true ∧
    t.ctl.clock = max s.ctl.clock (s.ctl.rst.quiesceAt + 500000) ∧ (∀ e ∈ t.ctl.stk.chans, e.2.queue = []) ∧
    s.sameStack t) ∧
  (∀ dt, (s.ctl.rst.quiesce = 1 ∧ s.ctl.stk.selfRef = 2) ∨ s.ctl.rst.quiesce = 2 →
    ∃ t, exec (.quiesceComplete dt) s = .next t ∧ t.ctl.rst.quiesce = 0 ∧ t.ctl.rst.awaiting = 4 ∧ t.ctl.rst.warm = true ∧
      t.ctl.kpr.phase = 1 ∧ t.ctl.claims = [] ∧ t.ctl.job.jobs = [] ∧
      (∀ h, (t.ctl.hd h).mbox.pend = none ∧ (t.ctl.hd h).mbox.bg = none) ∧ t.ctl.get R.RST_BOOT_STATUS_STEP = 5 ∧
      t.ctl.get R.RST_QUIESCE_FORCED = (if s.ctl.rst.quiesce = 2 then 1 else 0) ∧
      (s.ctl.fus.marginal = [] → (∀ r ∈ otpRegions, regionStat s.ctl.fus.shadow [] r ≠ 2) →
        ∀ x : Fld, x.key / 524288 = 8 → t.ctl.get x = s.ctl.get x) ∧
      (∀ x : Fld, x.key / 524288 = 0xA → warmKeeps x.key = false → t.ctl.get x = x.reset) ∧
      (∀ h, t.ctl.hstate h = (if s.ctl.hstate h = 6 then 6
        else if s.ctl.fenced h = true ∧ s.ctl.twoHeads = true then 5 else 1)) ∧ s.sameStack t)

/-- One occurrence of a fault source: its severity and escalation, pending bit, count and log record
(17_fault_collection.md R373, 17_fault_collection.md R376, 17_fault_collection.md R377, 17_fault_collection.md R381). -/
def Obligations.OneFaultOccurrenceIsRecorded : Prop :=
  ∀ (c : Ctl) (src info : Nat) (w : FaultTo), src < 640 → (faultRow src).isSome = true →
  tb (c.faultPlan src).react 2 = false → tb (c.faultPlan src).react 3 = false →
  (src < 548 ∨ 550 < src → c.get R.FLT_STATUS_DEVRST_SUPP = 0 → src ≠ 620 → src ≠ 621 → hasBlockReset src = true → (c.faultPlan src).sev = min 3
      (c.get (R.FLT_SRC_CFG_SEVERITY src) + bit (c.classPending (fltClass src))) ∧
    (c.faultPlan src).react = c.get (R.FLT_SRC_CFG_REACT src) ||| c.get (R.FLT_SEV_REACT_REACT (c.faultPlan src).sev)) ∧
  (c.faultPlan src).escalated = c.classPending (fltClass src) ∧
  (c.fault src info w).srcPending src = true ∧
  (∀ m, m < 640 → m ≠ src → (c.fault src info w).srcPending m = c.srcPending m) ∧
  (c.fault src info w).get (R.FLT_SRC_CNT_COUNT src) =
    min (c.get (R.FLT_SRC_CNT_COUNT src) + 1) (2 ^ (R.FLT_SRC_CNT_COUNT src).width - 1) ∧
  (∃ r l, (c.fault src info w).flt.log = r :: l ∧ r.seq = c.get R.FLT_LOG_SEQ_NEXT ∧ r.source = src ∧
    r.sev = (c.faultPlan src).sev ∧ r.escalated = (c.faultPlan src).escalated ∧ r.info = info % 2 ^ 32 ∧ r.time = c.now) ∧
  (c.fault src info w).get R.FLT_LOG_SEQ_NEXT =
    (c.get R.FLT_LOG_SEQ_NEXT + 1) % 2 ^ R.FLT_LOG_SEQ_NEXT.width

/-- FAULT_ACK clears what its requester may acknowledge; FAULT_LOG_READ returns records from the log; FLT_PEND writes
clear bits (17_fault_collection.md R376, 17_fault_collection.md R381, 17_fault_collection.md R382). -/
def Obligations.FaultCommandsAcknowledgeAndRead : Prop :=
  ∀ (h : Head) (p : Bytes) (s : State),
  (∀ n, s.takes h { min := 2 } p → le p 0 2 = n → n < 640 → s.ctl.srcPending n = true → s.ctl.mayAck h n = true →
    ∃ t, exec (.faultAck h p) s = .next t ∧ t.replied h 0xC191 .ok [] ∧ t.ctl.srcPending n = false ∧
      (∀ m, m < 640 → m ≠ n → t.ctl.srcPending m = s.ctl.srcPending m) ∧ s.sameStack t) ∧
  (∀ n, s.takes h { min := 2 } p → le p 0 2 = n → n < 640 → s.ctl.srcPending n = true → s.ctl.mayAck h n = false →
    ∃ t, exec (.faultAck h p) s = .next t ∧ t.replied h 0xC191 .invalidParameter [] ∧ s.frame Ctl.onlyReplies t) ∧
  (s.takes h { min := 2 } p → le p 0 2 = 0xFFFF → ∃ t, exec (.faultAck h p) s = .next t ∧ t.replied h 0xC191 .ok [] ∧
    (∀ m, m < 640 → t.ctl.srcPending m = (s.ctl.srcPending m && !s.ctl.mayAck h m)) ∧ s.sameStack t) ∧
  (∀ old r rest, s.takes h { min := 6 } p → s.ctl.flt.log.reverse = old ++ r :: rest → (∀ x ∈ old, x.seq ≠ le p 0 4) →
    r.seq = le p 0 4 → 2 ^ 31 ≤ (le p 0 4 + 2 ^ 32 - s.ctl.get R.FLT_LOG_SEQ_NEXT) % 2 ^ 32 →
    ∃ t, exec (.faultLogRead h p) s = .next t ∧ t.replied h 0xC190 .ok
      (toLE 4 (le p 0 4) ++ toLE 4 (s.ctl.get R.FLT_LOG_SEQ_NEXT) ++ toLE 8 0 ++
        ((r :: rest).take (min 127 (le p 4 2))).flatMap FltRec.encode) ∧ s.frame Ctl.onlyReplies t) ∧
  (s.takes h { min := 6 } p → (le p 0 4 + 2 ^ 32 - s.ctl.get R.FLT_LOG_SEQ_NEXT) % 2 ^ 32 < 2 ^ 31 →
    ∃ t, exec (.faultLogRead h p) s = .next t ∧ t.replied h 0xC190 .ok
      (toLE 4 (s.ctl.get R.FLT_LOG_SEQ_NEXT) ++ toLE 4 (s.ctl.get R.FLT_LOG_SEQ_NEXT) ++ toLE 8 0) ∧
      s.frame Ctl.onlyReplies t) ∧
  (∀ (i : Fin 20) (w : Word), s.ctl.reached h (offsetOf (R.FLT_PEND_PEND i)) w.toNat →
    s.ctl.get (R.FLT_PEND_PEND i) < 2 ^ 32 →
    ∃ t, exec (.fltPendAck h i w) s = .next t ∧
      (∀ b, b < 32 → tb (t.ctl.get (R.FLT_PEND_PEND i)) b = (tb (s.ctl.get (R.FLT_PEND_PEND i)) b && !tb w.toNat b)) ∧
      s.ctl.keeps t.ctl [R.FLT_PEND_PEND i, R.FLT_STATUS_ERRN] ∧ s.sameStack t)

/-- ERR_N is let go at the end of its pulse or by RELEASE, and dispatch resumes after a comb block reset
(17_fault_collection.md R375, 17_fault_collection.md R377). -/
def Obligations.ErrorPinAndCombResume : Prop :=
  ∀ s : State,
  (∀ e, s.ctl.flt.pulseEnd = some e → s.ctl.get R.IDC_COMPAT_ERRN_LATCH = 0 → s.ctl.flt.tripHold = false →
    s.ctl.get R.FLT_STATUS_ERRN = 1 → ∃ t, exec .errnPulseEnd s = .next t ∧ t.ctl.clock = max s.ctl.clock e ∧
      t.ctl.flt.pulseEnd = none ∧ s.sameStack t ∧
      (s.ctl.get R.FLT_ERRN_HOLD = 0 → t.ctl.get R.FLT_STATUS_ERRN = 0 ∧ t.ctl.outbox = .errN false :: s.ctl.outbox) ∧
      (s.ctl.get R.FLT_ERRN_HOLD = 1 → s.ctl.flt.released = false → t.ctl.get R.FLT_STATUS_ERRN = 1)) ∧
  (∀ (h : Head) (w : Word), s.reached h R.FLT_ERRN_RELEASE 1 w → s.ctl.get R.IDC_COMPAT_ERRN_LATCH = 0 →
    s.ctl.flt.tripHold = false → s.ctl.get R.FLT_STATUS_ERRN = 1 → ∃ t, exec (.errnRelease h w) s = .next t ∧
      s.sameStack t ∧ (s.ctl.flt.pulseEnd = none → t.ctl.get R.FLT_STATUS_ERRN = 0) ∧
      (s.ctl.flt.pulseEnd ≠ none → t.ctl.get R.FLT_STATUS_ERRN = 1 ∧ t.ctl.flt.released = true)) ∧
  (s.ctl.job.stopped = true → ∃ t, exec .cmbDispatchResume s = .next t ∧ t.ctl.job.stopped = false ∧
    t.ctl.clock = max s.ctl.clock (s.ctl.job.stopAt + 100000) ∧ s.sameStack t)

/-- Sideband reads advance the pointer, writes take effect at STOP, and timeouts release the bus
(18_sideband_and_flash.md R385, 18_sideband_and_flash.md R386, 18_sideband_and_flash.md R388, 18_sideband_and_flash.md
R390). -/
def Obligations.SidebandReadsAndWrites : Prop :=
  ∀ s : State, s.ctl.rst.vaux = true →
  (∀ n, ∃ t, exec (.sbReadTransaction n) s = .next t ∧ t.ctl.sbp.pointer = (s.ctl.sbp.pointer + n) % 65536 ∧
    (∃ d : Bytes, t.ctl.outbox = .sideband s.ctl.sbp.pointer d :: s.ctl.outbox ∧ d.length = n ∧
      ∀ i, i < n → d[i]? = some (s.ctl.sbByte ((s.ctl.sbp.pointer + i) % 65536))) ∧
    t.ctl.regs = s.ctl.regs ∧ s.sameStack t) ∧
  (∀ k, k < 8 → s.ctl.sbWord (0x200 + 4 * k) = s.ctl.get (R.SBP_SCRATCH_DATA k)) ∧
  (∀ (p : Bytes) (stop : Bool) (b : Nat), 2 ≤ p.length → (p.length = 2 ∨ stop = false) →
    exec (.sbWriteTransaction p stop b) s = .next (s.mapCtl fun c => { c with sbp.pointer := le p 0 2 })) ∧
  (∀ (k : Nat) (d : Bytes) (b : Nat), k < 8 → d.length = 4 →
    ∃ t, exec (.sbWriteTransaction (toLE 2 (0x200 + 4 * k) ++ d) true b) s = .next t ∧
      t.ctl.get (R.SBP_SCRATCH_DATA k) = leNat d ∧ s.ctl.keeps t.ctl [R.SBP_SCRATCH_DATA k] ∧
      t.ctl.sbp.pointer = 0x200 + (4 * k + 4) % 32 ∧ s.sameStack t) ∧
  exec .sbBusClear s = .next s ∧
  (s.ctl.inReset = false →
    exec .sbSclTimeout s = .next (s.mapCtl fun c => (c.bump R.SBP_STATUS_RELEASES).fault 630 0) ∧
    exec .sbSdaTimeout s = .next (s.mapCtl fun c => (c.bump R.SBP_STATUS_RELEASES).fault 630 0))

/-- FRU_WRITE waits for its record, a written record that fits its place stands, an FRU write names bytes and keeps the others
as they are when it is carried out, and FRU_READ and FLASH_INFO answer; with VDD_IO out FRU_READ ends FLASH_ERROR, log entry
153 (18_sideband_and_flash.md R394, 18_sideband_and_flash.md R397, 18_sideband_and_flash.md R398, 13_keeper_and_mailbox.md
R302). -/
def Obligations.FlashRecordsAndFruCommands : Prop :=
  ∀ (h : Head) (p : Bytes) (s : State),
  (s.takes h { min := 4 } p → fruBad (le p 0 2) (le p 2 2) = false → 4 + le p 2 2 ≤ p.length →
    ∃ t, exec (.fruWrite h p) s = .next t ∧ t.waits h 0xC1A0 p .flash ∧
      t.ctl.sbp.writes = s.ctl.sbp.writes ++ [⟨7, (p.drop 4).take (le p 2 2), some h, false, some (le p 0 2)⟩] ∧
      t.ctl.regs = s.ctl.regs ∧ s.sameStack t) ∧
  (∀ w rest, s.ctl.sbp.writes = w :: rest → s.ctl.kpr.phase = 3 → railIo ∉ s.ctl.rst.railsOut → w.erase = false →
    ∃ t, exec (.flashRecordWritten true) s = .next t ∧ t.ctl.sbp.writes = rest ∧
      (w.from_ = none → recordFits w.kind w.body.length = true → t.ctl.record w.kind = some w.body) ∧
      (∀ off, w.kind = 7 → w.from_ = some off → off + w.body.length ≤ 1024 → ∃ b, t.ctl.record 7 = some b ∧
        (∀ i, i < w.body.length → b[off + i]? = w.body[i]?) ∧
        ∀ i, i < off ∨ off + w.body.length ≤ i → b.getD i 0 = ((s.ctl.record 7).getD []).getD i 0) ∧
      (∀ x q, w.by_ = some x → (s.ctl.hd x).mbox.pend = some q → q.wait = .flash → t.replied x q.op .ok []) ∧
      s.sameStack t) ∧
  (s.takes h { min := 4 } p → fruBad (le p 0 2) (le p 2 2) = false → railIo ∉ s.ctl.rst.railsOut →
    ∃ t out, exec (.fruRead h p) s = .next t ∧
    t.replied h 0xC1A1 .ok out ∧ out.length = le p 2 2 ∧
    (∀ b, s.ctl.record 7 = some b → ∀ i, i < le p 2 2 → out[i]? = some (b.getD (le p 0 2 + i) 0)) ∧
    s.frame Ctl.onlyReplies t) ∧
  (s.takes h { min := 4 } p → fruBad (le p 0 2) (le p 2 2) = false → railIo ∈ s.ctl.rst.railsOut →
    ∃ t, exec (.fruRead h p) s = .next t ∧ t.replied h 0xC1A1 .flashError [] ∧ s.frame Ctl.onlyReplies t) ∧
  (s.takes h { } p → ∃ t out, exec (.flashInfo h p) s = .next t ∧ t.replied h 0xC1A2 .ok out ∧ out.length = 6 ∧
    s.frame Ctl.onlyReplies t)

/-- The context commands judge image, owner and state, and change their entry as R151 says. The statuses for an owned
extension entry, for an index past the table and for entries that a job has reserved are the model's choice, log entries 117, 128 and 116
(06_stripe_contexts.md R127, 06_stripe_contexts.md R130, 06_stripe_contexts.md R131, 06_stripe_contexts.md R141, 06_stripe_contexts.md R148,
06_stripe_contexts.md R149, 06_stripe_contexts.md R150, 06_stripe_contexts.md R151). -/
def Obligations.ContextCommandsKeepTheTable : Prop :=
  ∀ (h : Head) (p : Bytes) (s : State), s.ctl.get R.STX_FREE_CNT_FREE + 1 < 2 ^ 23 →
  let x := le p 0 4
  let said : Instr → Nat → Ocs → Bytes → Prop := fun i op e out => ∃ t, exec i s = .next t ∧ t.replied h op e out ∧
    s.frame Ctl.onlyReplies t
  let stored : Instr → Nat → Bytes → Nat → CtxEntry → Prop := fun i op out k e => ∃ t, exec i s = .next t ∧
    t.replied h op .ok out ∧ t.ctl.ctxEntry k = e ∧ s.sameStack t
  let okay : CtxMain → Prop := fun m => s.ctl.imageBad m = false ∧ m.kind ≠ 2
  let frees : Nat → Prop := fun k => k < ctxCount ∧ s.ctl.entryFree k = true ∧ ∀ j, j < k → s.ctl.entryFree j = false
  (s.takes h { min := 64, stack := true } p →
    (∀ m, imageAt p 0 h = some m → s.ctl.imageBad m = true → said (.ctxAlloc h p) 0xC120 .invalidParameter []) ∧
    (∀ m, imageAt p 0 h = some m → okay m → (∀ k, k < ctxCount → s.ctl.entryFree k = false) →
      said (.ctxAlloc h p) 0xC120 .resourceExhausted []) ∧
    (∀ m k, imageAt p 0 h = some m → okay m → frees k → ∃ t, exec (.ctxAlloc h p) s = .next t ∧
      t.replied h 0xC120 .ok (toLE 4 k) ∧ t.ctl.ctxEntry k = .main m ∧ m.owner = h ∧
      t.ctl.get R.STX_FREE_CNT_FREE = s.ctl.get R.STX_FREE_CNT_FREE - 1 ∧
      (∀ y, y ≠ k → t.ctl.ctxEntry y = s.ctl.ctxEntry y) ∧ s.sameStack t) ∧
    (∀ m k xs, imageAt p 0 h = some m → s.ctl.imageBad m = false → m.kind = 2 → 240 ≤ p.length → frees k →
      s.ctl.highestFree ctxCount (extCount (spN m.spec)) = some xs → k ∉ xs → ∃ t m', exec (.ctxAlloc h p) s = .next t ∧
      t.replied h 0xC120 .ok (toLE 4 k) ∧ t.ctl.ctxEntry k = .main m' ∧ m'.owner = h ∧ s.sameStack t ∧
      ∀ i, i < spN m.spec → (t.ctl.ctxPlaces m')[i]? = some ⟨64 * le p (64 + 4 * i) 4, 0⟩)) ∧
  (s.takes h { min := 4 } p →
    (ctxCount ≤ x → said (.ctxRead h p) 0xC121 .invalidParameter []) ∧
    (x < ctxCount → ∃ out, said (.ctxRead h p) 0xC121 .ok out ∧ out.length = 240 ∧
      out.take 64 = (s.ctl.ctxEntry x).encode)) ∧
  (x < ctxCount → s.ctl.ctxInUse x = false →
    let owned : CtxMain → Prop := fun m => s.ctl.ctxMain x = some m ∧ s.ctl.ownsCtx h m.owner = true
    let none' : Prop := ∀ m, ¬owned m
    let lost : Prop := s.ctl.ctxEntry x = .lost ∨ ∃ m, s.ctl.ctxEntry x = .main m ∧ s.ctl.ctxMain x = none
    (s.takes h { min := 68, stack := true } p →
      (∀ m, imageAt p 4 h = some m → okay m → (s.ctl.entryFree x = true ∨ lost ∨ ∃ o, owned o) →
        stored (.ctxWrite h p) 0xC122 [] x (.main m)) ∧
      ((∀ m, imageAt p 4 h = some m → s.ctl.imageBad m = true) ∨
          (s.ctl.entryFree x = false ∧ ¬lost ∧ none') →
        said (.ctxWrite h p) 0xC122 .invalidParameter [])) ∧
    (s.takes h { min := 20, stack := true } p →
      let put := le p 4 8
      let clr := le p 12 8
      (∀ m, owned m → m.state ≠ 4 → maskWithin put 20 (20 + spN m.spec) = true → maskWithin clr 20 (20 + spN m.spec) = true →
        put &&& clr = 0 → ∃ m', stored (.ctxMark h p) 0xC123 [] x (.main m') ∧
          (∀ i, tb m'.unavail i = ((tb m.unavail i || tb put (20 + i)) && !tb clr (20 + i))) ∧
          (m'.chkValid = true ↔ m.chkValid = true ∧ ∀ i, tb m.unavail i = true → tb clr (20 + i) = false) ∧
          (m.state = 2 ∨ m.state = 3 → m'.state = if m'.unavail = 0 then 2 else 3)) ∧
      (none' ∨ (∀ m, s.ctl.ctxEntry x = .main m → m.state = 4 ∨ maskWithin put 20 (20 + spN m.spec) = false ∨
          maskWithin clr 20 (20 + spN m.spec) = false ∨ put &&& clr ≠ 0) →
        said (.ctxMark h p) 0xC123 .invalidParameter [])) ∧
    (s.takes h { min := 4, stack := true } p →
      (∀ m, owned m → stored (.ctxRetire h p) 0xC124 [] x (.main { m with state := 4 })) ∧
      (none' → said (.ctxRetire h p) 0xC124 .invalidParameter []) ∧
      (∀ m, owned m → m.kind ≠ 2 → ∃ t, exec (.ctxFree h p) s = .next t ∧ t.replied h 0xC125 .ok [] ∧
        t.ctl.ctxEntry x = .free ∧ t.ctl.get R.STX_FREE_CNT_FREE = s.ctl.get R.STX_FREE_CNT_FREE + 1 ∧
        (∀ y, y ≠ x → t.ctl.ctxEntry y = s.ctl.ctxEntry y) ∧ s.sameStack t) ∧
      (lost → stored (.ctxFree h p) 0xC125 [] x .free) ∧
      (none' → ¬lost → said (.ctxFree h p) 0xC125 .invalidParameter [])) ∧
    (s.takes h { min := 5, stack := true } p →
      (∀ m, owned m → le p 4 1 < 2 → stored (.ctxAssign h p) 0xC126 [] x (.main { m with owner := Head.ofNum (le p 4 1) })) ∧
      (none' ∨ 2 ≤ le p 4 1 → said (.ctxAssign h p) 0xC126 .invalidParameter []))) ∧
  (∀ i op n c1, (i, op, n) ∈ [(Instr.ctxWrite h p, 0xC122, 68), (.ctxMark h p, 0xC123, 20), (.ctxRetire h p, 0xC124, 4),
      (.ctxFree h p, 0xC125, 4), (.ctxAssign h p, 0xC126, 5)] → s.takes h { min := n, stack := true } p →
    ctxJudge op h p s.ctl = .inr c1 → s.ctl.ctxInUse x = true → ∃ t, exec i s = .next t ∧ t.waits h op p .hold ∧
      (x, h) ∈ t.ctl.stx.heldCtx ∧ t.ctl.stx.entries = s.ctl.stx.entries ∧ t.ctl.regs = s.ctl.regs ∧ s.sameStack t)

/-- A hold ends by a second judgement or BUSY, the window writes as CTX_WRITE would, and a fetched context admits its
job (06_stripe_contexts.md R132, 06_stripe_contexts.md R143, 06_stripe_contexts.md R144, 06_stripe_contexts.md R151,
06_stripe_contexts.md R152, 05_comb_jobs.md R118, 05_comb_jobs.md R119, 09_sealed_memory.md R221). -/
def Obligations.HeldContextsAndTheCache : Prop :=
  ∀ (h : Head) (s : State),
  (∀ q, (s.ctl.hd h).mbox.pend = some q → q.wait = .hold → 0xC122 ≤ q.op → q.op ≤ 0xC126 →
    let x := le q.payload 0 4
    let rest := s.ctl.stx.heldCtx.filter fun e => decide (e ≠ (x, h))
    (s.ctl.ctxInUse x = true → exec (.ctxHoldRelease h .command) s = .next s) ∧
    (s.ctl.ctxInUse x = false →
      (∀ e, ctxJudge q.op h q.payload { s.ctl with stx.heldCtx := rest } = .inl e →
        ∃ t, exec (.ctxHoldRelease h .command) s = .next t ∧ t.replied h q.op .invalidParameter [] ∧
          t.ctl.stx = { s.ctl.stx with heldCtx := rest } ∧ t.ctl.regs = s.ctl.regs ∧ s.sameStack t) ∧
      (∀ c, ctxJudge q.op h q.payload { s.ctl with stx.heldCtx := rest } = .inr c →
        ∃ t, exec (.ctxHoldRelease h .command) s = .next t ∧ t.replied h q.op .ok [] ∧
          t.ctl.stx = c.stx ∧ t.ctl.regs = c.regs ∧ s.sameStack t)) ∧
    (∃ t, exec (.ctxHoldTimeout h .command) s = .next t ∧ t.replied h q.op .busy [] ∧
      t.ctl.stx = { s.ctl.stx with heldCtx := rest } ∧ t.ctl.clock = max s.ctl.clock (q.aux + 100000000) ∧ s.sameStack t)) ∧
  (∀ b x w, s.ctl.stx.winHold.find? (fun e => decide (e.1 = h)) = some (h, b, x, w) →
    (s.ctl.ctxInUse x = true → exec (.ctxHoldRelease h .window) s = .next s) ∧
    (∀ e, s.ctl.ctxInUse x = false → judgeWinWrite h x w (s.ctl.endWinHold h x) = .inl e →
      ∃ t, exec (.ctxHoldRelease h .window) s = .next t ∧ t.ctl.get (R.STX_WIN_CTL_BUSY h.num) = 0 ∧
        t.ctl.get (R.STX_WIN_CTL_ERR h.num) = 1 ∧ t.ctl.stx.entries = s.ctl.stx.entries ∧ s.sameStack t) ∧
    (∀ c, s.ctl.ctxInUse x = false → judgeWinWrite h x w (s.ctl.endWinHold h x) = .inr c →
      ∃ t, exec (.ctxHoldRelease h .window) s = .next t ∧ t.ctl.get (R.STX_WIN_CTL_BUSY h.num) = 0 ∧
        t.ctl.stx.entries = c.stx.entries ∧ s.sameStack t) ∧
    (∃ t, exec (.ctxHoldTimeout h .window) s = .next t ∧ t.ctl.get (R.STX_WIN_CTL_BUSY h.num) = 0 ∧
      t.ctl.get (R.STX_WIN_CTL_ERR h.num) = 1 ∧ t.ctl.stx.entries = s.ctl.stx.entries ∧
      t.ctl.clock = max s.ctl.clock (b + 100000000) ∧ s.sameStack t)) ∧
  (∀ j g, s.ctl.sea.sealing.find? (fun j => decide (j.step = 3) && decide (j.bg = some h)) = some j →
    (s.ctl.hd h).mbox.bg = some g →
    (s.ctl.granInUse j.gran = true → exec (.ctxHoldRelease h .background) s = .next s) ∧
    (s.ctl.granInUse j.gran = false → ∃ t, exec (.ctxHoldRelease h .background) s = .next t ∧ j ∉ t.ctl.sea.sealing ∧
      (j.gran, h) ∉ t.ctl.sea.holdGran ∧ t.ctl.regs = s.ctl.regs ∧ s.sameStack t) ∧
    (∃ t, exec (.ctxHoldTimeout h .background) s = .next t ∧ (t.ctl.hd h).mbox.bg = none ∧ j ∉ t.ctl.sea.sealing ∧
      ((s.ctl.hd h).mbox.bgTracked = true → (t.ctl.hd h).mbox.bgLast = some ⟨g.op, Ocs.busy.rc, Ocs.busy.num, []⟩) ∧
      t.ctl.clock = max s.ctl.clock (g.aux + 100000000) ∧ s.sameStack t)) ∧
  (∀ w : Word, s.reached h (R.STX_WIN_CTL_CMD 0) 2 w → s.ctl.get (R.STX_WIN_CTL_BUSY h.num) = 0 →
    let x := bitsOf (R.STX_WIN_CTL_INDEX 0) w.toNat
    let e := s.ctl.ctxEntry x
    let mine := s.ctl.entryFree x = true ∨ e = .lost ∨
      (∃ m, e = .main m ∧ (s.ctl.ownsCtx h m.owner = true ∨ s.ctl.ctxMain x = none)) ∨
      ∃ o n l, e = .ext o n l ∧ s.ctl.ownsCtx h o = true
    let stores : CtxEntry → Prop := fun f => ∃ t, exec (.stxWinWrite h w) s = .next t ∧ t.ctl.ctxEntry x = f ∧
      (∀ y, y ≠ x → t.ctl.ctxEntry y = s.ctl.ctxEntry y) ∧ s.sameStack t
    (∀ m, mine → decodeEntry (s.ctl.winBytes h) = .main m → (s.ctl.ctxExts { m with owner := h }.tidy).isSome = true →
      s.ctl.imageBad { m with owner := h }.tidy = false → s.ctl.ctxInUse x = false →
      stores (.main { m with owner := h }.tidy)) ∧
    (∀ o n l, mine → x ≠ 0 → decodeEntry (s.ctl.winBytes h) = .ext o n l → s.ctl.ctxInUse x = false → stores (.ext h n l)) ∧
    (∀ o n l, x = 0 → decodeEntry (s.ctl.winBytes h) = .ext o n l → ∃ t, exec (.stxWinWrite h w) s = .next t ∧
      t.ctl.get (R.STX_WIN_CTL_ERR h.num) = 1 ∧ t.ctl.stx = s.ctl.stx ∧ s.sameStack t) ∧
    (¬mine → ∃ t, exec (.stxWinWrite h w) s = .next t ∧ t.ctl.get (R.STX_WIN_CTL_ERR h.num) = 1 ∧
      t.ctl.stx = s.ctl.stx ∧ s.sameStack t) ∧
    (∀ o n l, mine → x ≠ 0 → decodeEntry (s.ctl.winBytes h) = .ext o n l → s.ctl.ctxInUse x = true →
      ∃ t, exec (.stxWinWrite h w) s = .next t ∧ t.ctl.get (R.STX_WIN_CTL_BUSY h.num) = 1 ∧
        t.ctl.stx.entries = s.ctl.stx.entries ∧ (x, h) ∈ t.ctl.stx.heldCtx ∧ s.sameStack t)) ∧
  (∀ k j, s.ctl.jobAt k = some j → j.phase = .ctxWait → k ∉ s.ctl.stx.waiters → j.ocs = false → j.aborter = none →
    s.ctl.get (R.QOS_CLASS_CFG_LIMIT j.cls) ≠ 0 →
    (s.ctl.job.stopped = true → exec (.ctxLineFetched k) s = .next s) ∧
    (s.ctl.job.stopped = false →
    let ends : Nat → Prop := fun n => ∃ t x, exec (.ctxLineFetched k) s = .next t ∧ t.ctl.jobAt k = some x ∧
      x.phase = .ended ∧ x.status = n ∧ s.sameStack t
    (s.ctl.fenced j.owner = true → ∃ t x, exec (.ctxLineFetched k) s = .next t ∧ t.ctl.jobAt k = some x ∧ x.phase = .ready ∧
      (∀ q ∈ t.ctl.stx.pins, q.1 ≠ k) ∧ s.sameStack t) ∧
    (s.ctl.fenced j.owner = false → s.ctl.ctxMain j.ctxIndex = none → ends stCtxState) ∧
    (∀ m, s.ctl.fenced j.owner = false → s.ctl.ctxMain j.ctxIndex = some m → s.ctl.ctxOwner m.owner ≠ j.owner → ends stCtxOwner) ∧
    (∀ m, s.ctl.fenced j.owner = false → s.ctl.ctxMain j.ctxIndex = some m → s.ctl.ctxOwner m.owner = j.owner →
      (ctxAdmitsAll j m = false → ends stCtxState) ∧
      (ctxAdmitsAll j m = true → m.kind ≠ 2 → j.op ≠ opTranscode → s.ctl.ctxChecksBad j m = true → ends stInvalid) ∧
      (ctxAdmitsAll j m = true → m.kind ≠ 2 → j.op ≠ opTranscode → s.ctl.ctxChecksBad j m = false →
        s.ctl.judgeRanges (s.ctl.withCtx j m) = none → (j.op = opReconstruct → recoverable m.spec (s.ctl.withCtx j m).emask = true) →
        ∃ t x, exec (.ctxLineFetched k) s = .next t ∧ t.ctl.jobAt k = some x ∧ x.phase = .running ∧ x.code = m.spec ∧
          x.flen = m.fragLen ∧ s.sameStack t)))) ∧
  (∀ k j, s.ctl.jobAt k = some j → k ∈ s.ctl.stx.waiters → s.ctl.ctxNeeds j = [j.ctxIndex] →
    j.ctxIndex ∉ s.ctl.stx.cache →
    (s.ctl.wayFree j.ctxIndex = true → ∃ t, exec (.ctxWayWaitEnd k) s = .next t ∧ j.ctxIndex ∈ t.ctl.stx.cache ∧
      (k, j.ctxIndex) ∈ t.ctl.stx.pins ∧ k ∉ t.ctl.stx.waiters ∧ t.ctl.regs = s.ctl.regs ∧ s.sameStack t) ∧
    (s.ctl.wayFree j.ctxIndex = false → exec (.ctxWayWaitEnd k) s = .next s))

/-- Each standard mailbox command: the head that sends one, its opcode, and its input payload. -/
def Obligations.standardCommand : Instr → Option (Head × Nat × Bytes)
  | .identifyMemoryDevice h p => some (h, 0x4000, p)
  | .getHealthInfo h p => some (h, 0x4200, p)
  | .getEventRecords h p => some (h, 0x0100, p)
  | .clearEventRecords h p => some (h, 0x0101, p)
  | .getEventInterruptPolicy h p => some (h, 0x0102, p)
  | .setEventInterruptPolicy h p => some (h, 0x0103, p)
  | .getSupportedLogs h p => some (h, 0x0400, p)
  | .getLog h p => some (h, 0x0401, p)
  | .getTimestamp h p => some (h, 0x0300, p)
  | .setTimestamp h p => some (h, 0x0301, p)
  | .getPoisonList h p => some (h, 0x4300, p)
  | .getFwInfo h p => some (h, 0x0200, p)
  | .transferFw h p img => some (h, 0x0201, p ++ img)
  | .activateFw h p => some (h, 0x0202, p)
  | _ => none

/-- A doorbell written while the Keeper is not running, whatever the command, is completed at once with KEEPER_DOWN, and no
command is queued for later (13_keeper_and_mailbox.md R292). -/
def Obligations.StoppedKeeperCompletesEveryCommand : Prop :=
  ∀ (i : Instr) (h : Head) (op : Nat) (p : Bytes) (s : State),
  ((∃ k, Obligations.ocsCommand i = some (h, op, k, p)) ∨ Obligations.standardCommand i = some (h, op, p) ∨
    (i = .ocsUnsupportedOpcode h op p ∧ 0xC000 ≤ op ∧ op ≤ 0xC3FF ∧ op ∉ ocsOpcodes) ∨
    (i = .stdUnsupportedCommand h op p ∧ (op < 0xC000 ∨ 0xC3FF < op) ∧ op ∉ stdOpcodes)) →
  s.ctl.mboxFree h = true → s.ctl.kpr.phase ≠ 3 →
  ∃ t, exec i s = .next t ∧ t.replied h op .keeperDown [] ∧ t.ctl.clock = s.ctl.clock ∧
    (t.ctl.hd h).mbox.bg = (s.ctl.hd h).mbox.bg ∧ s.frame Ctl.onlyReplies t

/-- The standard commands of a memory device answer identity, health, time, events, policies, logs and poison; the DOE mailbox
answers; any other is Unsupported. Their opcodes and layouts are the model's choice, log entries 9,
69, 70 and 134, and a challenge is signed with the identity key of the start, log entry 149
(11_heads_links_and_platform_time.md R242, 11_heads_links_and_platform_time.md R243, 11_heads_links_and_platform_time.md R244,
11_heads_links_and_platform_time.md R264, 08_line_ecc_scrub_and_retirement.md R188, 13_keeper_and_mailbox.md R294,
13_keeper_and_mailbox.md R296, 13_keeper_and_mailbox.md R307). -/
def Obligations.StandardCommandsAnswer : Prop :=
  ∀ (h : Head) (p : Bytes) (s : State),
  let tells : Instr → Nat → Nat → Nat → Bytes → Prop := fun i op rc o out =>
    ∃ t, exec i s = .next t ∧ t.answered h op rc o out ∧ s.frame Ctl.onlyReplies t
  let logs := (s.ctl.hd h).logs
  (s.takesStd h true 0 p →
    (∃ out, tells (.identifyMemoryDevice h p) 0x4000 0 0 out ∧ out.length = 67 ∧
      le out 16 8 = s.ctl.wordAt h 0x14 / 256 ∧ le out 24 8 = s.ctl.wordAt h 0x14 / 256 ∧ le out 32 8 = 0 ∧ le out 40 8 = 0) ∧
    (∃ out, tells (.getHealthInfo h p) 0x4200 0 0 out ∧ out.length = 18 ∧
      tb (le out 0 1) 0 = decide (s.ctl.get R.ECC_HEALTH_STATE = 1) ∧
      (tb (le out 0 1) 1 = true ↔ s.ctl.get R.ECC_HEALTH_STATE = 1 ∧ ∃ l, l < 4 ∧ s.ctl.laneState l = 3) ∧
      tb (le out 0 1) 2 = decide (2 ≤ s.ctl.get R.ECC_HEALTH_STATE))) ∧
  (s.takesStd h false 0 p →
    tells (.getTimestamp h p) 0x0300 0 0 (toLE 8 s.ctl.now) ∧
    (∃ out, tells (.getEventInterruptPolicy h p) 0x0102 0 0 out ∧ out.length = 4 ∧
      ∀ k l, k < 4 → logs[k]? = some l → le out k 1 = l.policy % 256) ∧
    (∃ out, tells (.getSupportedLogs h p) 0x0400 0 0 out ∧ out.length = 28 ∧ le out 0 2 = 1 ∧ (out.drop 8).take 16 = celUuid) ∧
    (∀ op, (op < 0xC000 ∨ 0xC3FF < op) → op ∉ stdOpcodes →
      tells (.stdUnsupportedCommand h op p) op 3 (if op = 5 then 2 else 0) [])) ∧
  (s.takesStd h false 8 p → ∃ t, exec (.setTimestamp h p) s = .next t ∧ t.answered h 0x0301 0 0 [] ∧
    t.ctl.get R.TIM_TS_SET_VALUE = le p 0 8 ∧ s.ctl.keeps t.ctl [R.TIM_TS_SET_VALUE] ∧ s.frame Ctl.onlyRegsReplies t) ∧
  (s.takesStd h false 4 p → logs.length = 4 → ∃ t, exec (.setEventInterruptPolicy h p) s = .next t ∧
    t.answered h 0x0103 0 0 [] ∧
    (∀ k l, k < 4 → logs[k]? = some l → (t.ctl.hd h).logs[k]? = some { l with policy := le p k 1 }) ∧
    t.ctl.regs = s.ctl.regs ∧ t.ctl.hd h.other = s.ctl.hd h.other ∧ s.sameStack t) ∧
  (s.takesStd h false 24 p →
    let off := le p 16 4
    let n := le p 20 4
    (p.take 16 = celUuid → off + n ≤ celBytes.length → n ≤ 2048 →
      tells (.getLog h p) 0x0401 0 0 ((celBytes.drop off).take n)) ∧
    (p.take 16 ≠ celUuid → tells (.getLog h p) 0x0401 2 0 [])) ∧
  (s.takesStd h true 1 p →
    let k := le p 0 1
    (4 ≤ k → tells (.getEventRecords h p) 0x0100 2 0 []) ∧
    (∀ l, k < 4 → logs[k]? = some l → ∃ out, tells (.getEventRecords h p) 0x0100 0 0 out ∧
      out.length = 32 + 128 * min 15 l.recs.length ∧ le out 2 2 = l.overflow % 65536 ∧ le out 20 2 = min 15 l.recs.length ∧
      ∀ i r, i < 15 → l.recs[i]? = some r → (out.drop (32 + 128 * i)).take 128 = r.encode k)) ∧
  (s.takesStd h true 6 p →
    let k := le p 0 1
    let hs := clearHandles p
    let all := tb (le p 1 1) 0
    ∀ l, k < 4 → logs[k]? = some l →
      let leaves : List EventRec → Prop := fun rest => ∃ t m, exec (.clearEventRecords h p) s = .next t ∧
        t.answered h 0x0101 0 0 [] ∧ (t.ctl.hd h).logs[k]? = some m ∧ m.recs = rest ∧ m.policy = l.policy ∧
        m.nextHandle = l.nextHandle ∧ t.ctl.regs = s.ctl.regs ∧ t.ctl.hd h.other = s.ctl.hd h.other ∧ s.sameStack t
      (all = false → hs = (l.recs.take hs.length).map EventRec.handle → leaves (l.recs.drop hs.length)) ∧
      (all = false → hs ≠ (l.recs.take hs.length).map EventRec.handle → tells (.clearEventRecords h p) 0x0101 0xE 0 []) ∧
      (all = true → l.overflow ≠ 0 → leaves []) ∧
      (all = true → l.overflow = 0 → tells (.clearEventRecords h p) 0x0101 2 0 [])) ∧
  (s.takesStd h false 16 p →
    let a := le p 0 8 / 64 * 64
    let l := s.poisonList h a (le p 8 8)
    (∀ e ∈ l, a ≤ e.1 ∧ e.1 < a + 64 * le p 8 8 ∧ s.ctl.mayReach h e.1 = true ∧ s.status e.1 = .mired e.2) ∧
    (s.ctl.userEnd ≤ a → tells (.getPoisonList h p) 0x4300 0xF 0 []) ∧
    (a < s.ctl.userEnd → (s.ctl.hd h).poisonAt = none →
      ∃ t out, exec (.getPoisonList h p) s = .next t ∧ t.answered h 0x4300 0 0 out ∧ out.length = 32 + 16 * min 126 l.length ∧
        le out 10 2 = min 126 l.length ∧ (∀ i e, i < 126 → l[i]? = some e → (out.drop (32 + 16 * i)).take 16 = poisonRecord e) ∧
        t.ctl.regs = s.ctl.regs ∧ s.sameStack t)) ∧
  (∀ o, s.ctl.kpr.phase ≠ 3 → exec (.doeRequest h o) s = .next s) ∧
  (s.ctl.kpr.phase = 3 → s.ctl.lcState ≠ 3 →
    let answers : DoeObject → Nat → Bytes → HeadSt → Prop := fun o n d x => ∃ t, exec (.doeRequest h o) s = .next t ∧
      t.ctl.outbox = .doe h n d :: s.ctl.outbox ∧ t.ctl.hd h = x ∧ t.ctl.hd h.other = s.ctl.hd h.other ∧
      t.ctl.regs = s.ctl.regs ∧ s.sameStack t
    let sent : DoeObject → Nat → HeadSt → Prop := fun o n x => answers o n [] x
    let x := s.ctl.hd h
    answers .algorithms 4 spdmAlgorithms x ∧ answers .certificate 5 ((s.ctl.record 6).getD []) x ∧
    (∃ d, answers .measurements 6 d x ∧ d = Config.romDigest ++
      sha384 (((s.ctl.slot (s.ctl.get R.IDC_FW_STAT_RUNNING)).image |> imageSigned) ++
        (s.ctl.slot (s.ctl.get R.IDC_FW_STAT_RUNNING)).image.signature) ++
      (s.ctl.slot (s.ctl.get R.IDC_FW_STAT_RUNNING)).image.digest ++
      sha384 ((List.range 16).flatMap fun i => toLE 4 (otpWord s.ctl.fus.shadow (0x050 + i)))) ∧
    (∀ m d, s.ctl.kpr.idKey = some d → ∃ t k, exec (.doeRequest h (.challenge m)) s = .next t ∧ 1 ≤ k ∧ k < curveN ∧
      t.ctl = { s.ctl with outbox := .doe h 7 (ecdsaSign d k m) :: s.ctl.outbox, free := t.ctl.free } ∧ s.sameStack t) ∧
    (∀ m, s.ctl.kpr.idKey = none → exec (.doeRequest h (.challenge m)) s = .next s) ∧
    sent .cdat 0 x ∧ sent .spdm 1 x ∧ (∀ on, sent (.session on) 2 { x with spdm := on }) ∧
    (x.spdm = true → sent (.ideKeys .cxl true) 3 { x with ideUp := decide (s.ctl.hstate h = 2), ideInsecure := false } ∧
      sent (.ideKeys .cxl false) 3 { x with ideUp := false } ∧
      ∀ w n y, IdeStream.index w = some n → x.ioStreams[n]? = some y →
        let as : Nat → HeadSt := fun st => { x with ioStreams := x.ioStreams.set n { y with state := st } }
        sent (.ideKeys w true) 3 (if s.ctl.hstate h = 2 then as 1 else x) ∧
          sent (.ideKeys w false) 3 (if y.state = 1 then as 0 else x)) ∧
    (x.spdm = false → ∀ w on, exec (.doeRequest h (.ideKeys w on)) s = .next s))

/-- Transfer FW fills the slot that is not running, a silent transfer is dropped, Activate FW selects or restarts into a slot,
and FW_SVN_COMMIT raises MIN_SVN. The layouts of the standard's payloads are the model's choice, log entry 9, and the
order and statuses of an activation log entry 68; one that waits is judged again at each boundary and ends BUSY
after 100 ms (13_keeper_and_mailbox.md R304, 13_keeper_and_mailbox.md R306, 13_keeper_and_mailbox.md R291, 16_fuses_calibration_and_self_test.md R356). -/
def Obligations.FirmwareIsTransferredAndActivated : Prop :=
  ∀ (h : Head) (p : Bytes) (s : State),
  let run := s.ctl.get R.IDC_FW_STAT_RUNNING
  run < 2 →
  let other := 1 - run
  let image : Bytes → Image := fun d => (Config.imageSpelt d).getD {}
  let passes : Bytes → Prop := fun d => s.ctl.imageCause (Config.imageSpelt d) = 0 ∧
    s.ctl.get R.FUS_STATUS_MIN_SVN ≤ (image d).svn.val
  let refused : Instr → Nat → Nat → Nat → Prop := fun i op rc o => ∃ t, exec i s = .next t ∧ t.answered h op rc o [] ∧
    s.frame Ctl.onlyReplies t
  (s.takesStd h true 0 p → ∃ t out, exec (.getFwInfo h p) s = .next t ∧ t.answered h 0x0200 0 0 out ∧ out.length = 80 ∧
    le out 0 1 = 2 ∧ le out 1 1 % 8 = run + 1 ∧ le out 1 1 / 8 = s.ctl.selRec.selected + 1 ∧ s.frame Ctl.onlyReplies t) ∧
  (∀ first img, p = first ++ img → s.takesStd h false 128 p → railIo ∉ s.ctl.rst.railsOut →
    let a := le p 0 1
    let x := s.ctl.kpr.xferHead
    let data := s.ctl.kpr.xferData
    let moves : Option Head → Bytes → Prop := fun y d => ∃ t, exec (.transferFw h first img) s = .next t ∧
      t.answered h 0x0201 0 0 [] ∧ t.ctl.kpr.xferHead = y ∧ (y = some h → t.ctl.kpr.xferData = d ∧ t.ctl.kpr.xferSlot = other ∧
        t.ctl.kpr.xferAt = s.ctl.clock) ∧ t.ctl.imgOk other = false ∧ t.ctl.slot run = s.ctl.slot run ∧ s.sameStack t
    let ends : Bytes → Prop := fun d => ∃ t, exec (.transferFw h first img) s = .next t ∧ t.ctl.kpr.xferHead = none ∧
      t.ctl.slot run = s.ctl.slot run ∧ s.sameStack t ∧
      (passes d → t.answered h 0x0201 0 0 [] ∧ t.ctl.slot other = { cause := 0, image := image d }) ∧
      (¬passes d → t.answered h 0x0201 0xA 0xA [] ∧ t.ctl.imgOk other = false)
    (x = none → a = 0 → le p 1 1 = other + 1 → le p 4 4 = 0 → (p.drop 128).length ≤ slotBytes → ends (p.drop 128)) ∧
    (x = none → a = 0 → le p 1 1 = run + 1 → refused (.transferFw h first img) 0x0201 0xB 0) ∧
    (x = none → a = 1 → le p 4 4 = 0 → (p.drop 128).length ≤ slotBytes → moves (some h) (p.drop 128)) ∧
    (x = none → a = 1 → le p 4 4 = 0 → slotBytes < (p.drop 128).length → refused (.transferFw h first img) 0x0201 2 0) ∧
    (a < 5 → (x = some h.other ∨ (x = some h ∧ a ≤ 1)) → refused (.transferFw h first img) 0x0201 8 3) ∧
    (x = some h → s.ctl.kpr.xferSlot = other →
      (a = 2 → le p 4 4 * 128 = data.length → (data ++ p.drop 128).length ≤ slotBytes → moves (some h) (data ++ p.drop 128)) ∧
      (a = 3 → le p 1 1 = other + 1 → le p 4 4 * 128 = data.length →
        (data ++ p.drop 128).length ≤ slotBytes → ends (data ++ p.drop 128)) ∧
      (a = 4 → moves none []))) ∧
  (s.ctl.kpr.xferHead = none → exec .fwTransferTimeout s = .next s) ∧
  (s.ctl.kpr.xferHead ≠ none → ∃ t, exec .fwTransferTimeout s = .next t ∧ t.ctl.kpr.xferHead = none ∧
    t.ctl.clock = max s.ctl.clock (s.ctl.kpr.xferAt + 10000000000) ∧ t.ctl.imgOk s.ctl.kpr.xferSlot = false ∧ s.sameStack t) ∧
  (s.takesStd h false 2 p →
    let i := le p 1 1 - 1
    let busy := s.ctl.get R.ECC_MIG_ACTIVE ≠ 0 ∨ s.ctl.get R.STX_ADOPT_ACTIVE ≠ 0 ∨
      (∃ g, g < 64 ∧ s.ctl.get (R.SEA_GRAN_STATE g) = 1) ∨ (∃ k, (s.ctl.hd k).mbox.bg ≠ none) ∨ s.ctl.kpr.xferHead ≠ none
    (2 ≤ le p 0 1 → refused (.activateFw h p) 0x0202 2 0) ∧
    (le p 0 1 < 2 → (le p 1 1 = 0 ∨ 2 < le p 1 1) → refused (.activateFw h p) 0x0202 0xB 0) ∧
    (le p 0 1 < 2 → 1 ≤ le p 1 1 → le p 1 1 ≤ 2 →
      (s.ctl.imgOk i = false → refused (.activateFw h p) 0x0202 0xA 0xA) ∧
      (s.ctl.imgOk i = true → le p 0 1 = 1 → ∃ t b, exec (.activateFw h p) s = .next t ∧ t.waits h 0x0202 p .flash ∧
        s.frame (Ctl.queues ⟨1, b, some h, false, none⟩) t ∧ le b 0 1 = i) ∧
      (s.ctl.imgOk i = true → le p 0 1 = 0 → busy → refused (.activateFw h p) 0x0202 6 3) ∧
      (s.ctl.imgOk i = true → le p 0 1 = 0 → ¬busy → (s.ctl.hd h.other).mbox.pend = none →
        ∃ t, exec (.activateFw h p) s = .next t ∧ t.answered h 0x0202 0 0 [] ∧ t.ctl.kpr.phase = 1 ∧
          t.ctl.kpr.bootNext = some (i, 1) ∧ t.ctl.get R.IDC_FW_STAT_READY = 0 ∧ s.sameStack t) ∧
      (s.ctl.imgOk i = true → le p 0 1 = 0 → ¬busy → (s.ctl.hd h.other).mbox.pend ≠ none →
        ∃ t, exec (.activateFw h p) s = .next t ∧ t.waits h 0x0202 p .reset ∧ s.frame Ctl.onlyReplies t))) ∧
  (∀ q, (s.ctl.hd h).mbox.pend = some q → q.op = 0x0202 → q.wait = .reset →
    (s.ctl.activationBusy = false → (s.ctl.hd h.other).mbox.pend ≠ none → s.ctl.clock < q.aux + 100000000 →
      s.ctl.resumeActivate h = s.ctl) ∧
    ((s.ctl.activationBusy = true ∨ ((s.ctl.hd h.other).mbox.pend ≠ none ∧ q.aux + 100000000 ≤ s.ctl.clock)) →
      s.ctl.resumeActivate h = s.ctl.finishAs h 0x0202 6 Ocs.busy.num [])) ∧
  (s.takes h { min := 1 } p →
    let v := le p 0 1
    let old := s.ctl.get R.FUS_STATUS_MIN_SVN
    ((v ≤ old ∨ s.ctl.get R.IDC_FW_STAT_SVN < v ∨ s.ctl.get R.IDC_FW_STAT_STATE ≠ 0) → ∀ stuck,
      ∃ t, exec (.fwSvnCommit h p stuck) s = .next t ∧ t.replied h 0xC023 .invalidParameter [] ∧ s.frame Ctl.onlyReplies t) ∧
    (old < v → v ≤ s.ctl.get R.IDC_FW_STAT_SVN → s.ctl.get R.IDC_FW_STAT_STATE = 0 → v ≤ 64 →
      ∃ t, exec (.fwSvnCommit h p 0) s = .next t ∧ t.replied h 0xC023 .ok [] ∧ t.ctl.get R.FUS_STATUS_MIN_SVN = v ∧
        (∀ b, b < 32 → tb (otpWord t.ctl.fus.words 1) b = (tb (otpWord s.ctl.fus.words 1) b || decide (b < v))) ∧
        (∀ b, b < 32 → tb (otpWord t.ctl.fus.words 2) b = (tb (otpWord s.ctl.fus.words 2) b || decide (32 + b < v))) ∧
        (∀ y, y ≠ 1 → y ≠ 2 → otpWord t.ctl.fus.words y = otpWord s.ctl.fus.words y) ∧
        s.ctl.keeps t.ctl [R.FUS_STATUS_MIN_SVN, R.IDC_FW_STAT_OTHER_VALID] ∧ s.sameStack t))

/-- A lane in its link adapts, measures its eyes, is margined and scanned, one user of its sampler at a time; test loops hold
their lanes out of the link; far-end loopback runs at a rate that log entry 148 leaves free (12_serial_lanes.md R275, 12_serial_lanes.md R276, 12_serial_lanes.md R277, 12_serial_lanes.md R278,
12_serial_lanes.md R279, 12_serial_lanes.md R280, 12_serial_lanes.md R281, 12_serial_lanes.md R282, 12_serial_lanes.md R285,
13_keeper_and_mailbox.md R303). -/
def Obligations.LanesAdaptScanAndLoop : Prop :=
  ∀ (h : Head) (n : Fin 16) (s : State),
  (∀ a : Adapted,
    ((s.ctl.laneInLink n = false ∨ (s.ctl.frozen n = true ∧ n.val ∉ s.ctl.phy.retrained)) →
      exec (.adaptationUpdate n a) s = .next s) ∧
    (s.ctl.laneInLink n = true → (s.ctl.frozen n = false ∨ n.val ∈ s.ctl.phy.retrained) →
      ((∀ i, i < 14 → (mapGet s.ctl.phy.satRuns (n.val, i)).getD 0 < 1023) → ∃ t, exec (.adaptationUpdate n a) s = .next t ∧
        t.ctl.get (R.PHYL_STATUS_CTLE n) = a.ctle % 16 ∧ t.ctl.get (R.PHYL_STATUS_GAIN n) = a.gain % 256 ∧
        t.ctl.get (R.PHYL_STATUS_DFE_SAT n) = 0 ∧ n.val ∉ t.ctl.phy.retrained ∧
        (∀ i, i < 12 → signedOf 8 (t.ctl.get (tapField n i)) = clampTap i (a.taps.getD i 0)) ∧
        t.ctl.get (R.PHYL_DFE_FLT_F0_POS n) = min 40 (max 13 a.pos0) ∧ t.ctl.get (R.PHYL_DFE_FLT_F1_POS n) = min 40 (max 13 a.pos1) ∧
        signedOf 8 (t.ctl.get (R.PHYL_DFE_FLT_F0_VAL n)) = max (-32) (min 31 a.val0) ∧
        signedOf 8 (t.ctl.get (R.PHYL_DFE_FLT_F1_VAL n)) = max (-32) (min 31 a.val1) ∧
        (∀ m : Fin 16, m ≠ n → t.ctl.get (R.PHYL_STATUS_CTLE m) = s.ctl.get (R.PHYL_STATUS_CTLE m)) ∧ s.sameStack t) ∧
      (∀ i, i < 12 → 1023 ≤ (mapGet s.ctl.phy.satRuns (n.val, i)).getD 0 → a.taps.getD i 0 ≤ tapLow i →
        s.ctl.get (R.PHYL_STATUS_DFE_SAT n) = 0 → ∃ t, exec (.adaptationUpdate n a) s = .next t ∧
          t.ctl.srcPending (404 + n.val) = true ∧ s.sameStack t))) ∧
  (n.val ∉ s.ctl.phy.fomDue → exec (.fomSweepStart n) s = .next s) ∧
  (n.val ∈ s.ctl.phy.fomDue → ∃ t, exec (.fomSweepStart n) s = .next t ∧ n.val ∉ t.ctl.phy.fomDue ∧
    (n.val ∈ t.ctl.phy.sweeping ↔ n.val ∈ s.ctl.phy.sweeping ∨
      (s.ctl.laneInLink n = true ∧ s.ctl.get (R.PHYL_SCAN_CTL_BUSY n) = 0 ∧ n.val ∉ s.ctl.phy.margin)) ∧
    t.ctl.regs = s.ctl.regs ∧ s.sameStack t) ∧
  (∀ lo mid up, (n.val ∉ s.ctl.phy.sweeping → exec (.fomSweepEnd n lo mid up) s = .next s) ∧
    (n.val ∈ s.ctl.phy.sweeping → ∃ t e, exec (.fomSweepEnd n lo mid up) s = .next t ∧ n.val ∉ t.ctl.phy.sweeping ∧
      mapGet t.ctl.phy.fomPend n.val = some e ∧
      (s.ctl.get (R.PHYL_STATUS_RATE n) = 5 → t.ctl.fomOf n e = min 127 (min lo (min mid up))) ∧
      (s.ctl.get (R.PHYL_STATUS_RATE n) ≠ 5 → t.ctl.fomOf n e = min 127 mid ∧ e % 128 = 0 ∧ e / 16384 = 0) ∧
      t.ctl.regs = s.ctl.regs ∧ s.sameStack t)) ∧
  (s.ctl.laneInLink n = false → ∀ on, exec (.marginingCommand n on) s = .next s) ∧
  (s.ctl.laneInLink n = true →
    (∃ t m, exec (.marginingCommand n true) s = .next t ∧
      t.ctl.outbox = .margin (s.ctl.headOfLane n) n.val m :: s.ctl.outbox ∧ m.numVoltageSteps = 64 ∧ m.numTimingSteps = 32 ∧
      m.maxVoltageOffset = 40 ∧ m.maxTimingOffset = 50 ∧ n.val ∈ t.ctl.phy.margin ∧ n.val ∉ t.ctl.phy.sweeping ∧
      (s.ctl.get (R.PHYL_SCAN_CTL_BUSY n) ≠ 0 → t.ctl.get (R.PHYL_SCAN_CTL_PAUSED n) = 1) ∧
      s.ctl.keeps t.ctl [R.PHYL_SCAN_CTL_PAUSED n] ∧ s.sameStack t) ∧
    (∃ t, exec (.marginingCommand n false) s = .next t ∧ n.val ∉ t.ctl.phy.margin ∧
      t.ctl.get (R.PHYL_SCAN_CTL_PAUSED n) = 0 ∧ s.ctl.keeps t.ctl [R.PHYL_SCAN_CTL_PAUSED n] ∧ s.sameStack t)) ∧
  (∀ w : Word, s.reached h (R.PHYL_SCAN_CTL_START n) 1 w →
    ((s.ctl.get (R.PHYL_SCAN_CTL_BUSY n) ≠ 0 ∨ s.ctl.laneInLink n = false) → ∃ t, exec (.eyeScanStart h n w) s = .next t ∧
      t.ctl.get (R.PHYL_SCAN_CTL_REFUSED n) = 1 ∧ t.ctl.phy = s.ctl.phy ∧
      s.ctl.keeps t.ctl [R.PHYL_SCAN_CTL_REFUSED n, R.PHYL_SCAN_CTL_DWELL n] ∧ s.sameStack t) ∧
    (s.ctl.get (R.PHYL_SCAN_CTL_BUSY n) = 0 → s.ctl.laneInLink n = true → ∃ t, exec (.eyeScanStart h n w) s = .next t ∧
      t.ctl.get (R.PHYL_SCAN_CTL_BUSY n) = 1 ∧ t.ctl.get (R.PHYL_SCAN_CTL_DONE n) = 0 ∧
      t.ctl.get (R.PHYL_SCAN_CTL_DWELL n) = bitsOf (R.PHYL_SCAN_CTL_DWELL n) w.toNat ∧
      t.ctl.get (R.PHYL_SCAN_CTL_PAUSED n) = (if n.val ∈ s.ctl.phy.margin then 1 else 0) ∧
      mapGet t.ctl.phy.scans n.val = some 8192 ∧ n.val ∉ t.ctl.phy.sweeping ∧ s.sameStack t)) ∧
  (∀ m, (mapGet s.ctl.phy.scans n.val = none ∨ s.ctl.get (R.PHYL_SCAN_CTL_PAUSED n) ≠ 0 →
      exec (.eyeScanPointEnd n m) s = .next s) ∧
    (∀ left, mapGet s.ctl.phy.scans n.val = some left → s.ctl.get (R.PHYL_SCAN_CTL_PAUSED n) = 0 → 1 ≤ left →
      ∃ t, exec (.eyeScanPointEnd n m) s = .next t ∧ t.ctl.scanByte n (8192 - left) = min 255 m ∧ s.sameStack t ∧
        (1 < left → mapGet t.ctl.phy.scans n.val = some (left - 1) ∧ t.ctl.regs = s.ctl.regs) ∧
        (left = 1 → mapGet t.ctl.phy.scans n.val = none ∧ t.ctl.get (R.PHYL_SCAN_CTL_BUSY n) = 0 ∧
          t.ctl.get (R.PHYL_SCAN_CTL_DONE n) = 1 ∧ (mapGet t.ctl.phy.fomPend n.val).isSome = true ∧
          s.ctl.keeps t.ctl [R.PHYL_SCAN_CTL_BUSY n, R.PHYL_SCAN_CTL_DONE n]))) ∧
  (s.ctl.ioRefused h ((s.ctl.hd h).bar0 + (0xE0038 + 0x1000 * n)) = false → ∃ t v, exec (.scanDataRead h n) s = .next t ∧ t.ctl.outbox = .regValue h (0xE0038 + 0x1000 * n) 4 v :: s.ctl.outbox ∧
    v < 2 ^ 32 ∧ (∀ i, i < 4 → v / 256 ^ i % 256 = s.ctl.scanByte n (s.ctl.get (R.PHYL_SCAN_IDX_IDX n) / 4 * 4 + i) % 256) ∧
    t.ctl.get (R.PHYL_SCAN_IDX_IDX n) = (s.ctl.get (R.PHYL_SCAN_IDX_IDX n) / 4 * 4 + 4) % 8192 ∧
    s.ctl.keeps t.ctl [R.PHYL_SCAN_IDX_IDX n] ∧ s.sameStack t) ∧
  (∀ mask, ((s.ctl.headBlocked h = true ∨ s.ctl.get (R.HD_STATE_LINK_UP h.num) ≠ 0) →
      exec (.farEndLoopbackEntry h mask) s = .next s) ∧
    (s.ctl.headBlocked h = false → s.ctl.get (R.HD_STATE_LINK_UP h.num) = 0 → ∃ t, exec (.farEndLoopbackEntry h mask) s = .next t ∧
      (n.val ∈ s.ctl.lanesOf h → tb mask n = true → t.ctl.get (R.PHYL_STATUS_LOOP n) = 3 ∧
        t.ctl.get (R.PHYL_STATUS_TX_IDLE n) = 0 ∧ t.ctl.get (R.PHYL_STATUS_RATE n) < 6) ∧
      (n.val ∉ s.ctl.lanesOf h ∨ tb mask n = false → t.ctl.get (R.PHYL_STATUS_LOOP n) = s.ctl.get (R.PHYL_STATUS_LOOP n)) ∧
      t.ctl = { s.ctl with regs := t.ctl.regs, free := t.ctl.free } ∧ s.sameStack t)) ∧
  (∀ w : Word, s.reached h R.PHYC_LOOP_START 1 w →
    let mask := bitsOf R.PHYC_LOOP_LANE_MASK w.toNat
    let mode := bitsOf R.PHYC_LOOP_MODE w.toNat
    (s.ctl.loopAllowed mask = false → ∃ t, exec (.nearEndLoopStart h w) s = .next t ∧ t.ctl.get R.PHYC_LOOP_REFUSED = 1 ∧
      t.ctl.get R.PHYC_LOOP_ACTIVE = s.ctl.get R.PHYC_LOOP_ACTIVE ∧
      t.ctl.get (R.PHYL_STATUS_LOOP n) = s.ctl.get (R.PHYL_STATUS_LOOP n) ∧ s.frame Ctl.onlyRegs t) ∧
    (s.ctl.loopAllowed mask = true → mode = 1 ∨ mode = 2 → s.ctl.get R.PHYC_LOOP_ACTIVE = 0 →
      ∃ t, exec (.nearEndLoopStart h w) s = .next t ∧ t.ctl.get R.PHYC_LOOP_ACTIVE = 1 ∧ t.ctl.get R.PHYC_LOOP_START = 1 ∧
        (tb mask n = true → t.ctl.get (R.PHYL_STATUS_LOOP n) = mode ∧ t.ctl.get (R.PHYL_STATUS_RX_TERM n) = 0 ∧
          t.ctl.get (R.PHYL_STATUS_TX_IDLE n) = 1 ∧ t.ctl.get (R.PHYL_STATUS_IN_LINK n) = 0 ∧
          t.ctl.get (R.PHYL_STATUS_RATE n) = min 5 (bitsOf R.PHYC_LOOP_RATE w.toNat)) ∧
        (tb mask n = false → s.ctl.laneFollows n = false →
          t.ctl.get (R.PHYL_STATUS_LOOP n) = s.ctl.get (R.PHYL_STATUS_LOOP n)) ∧ s.sameStack t)) ∧
  (∀ w : Word, s.reached h R.PHYC_LOOP_START 0 w → ∃ t, exec (.nearEndLoopStop h w) s = .next t ∧ s.sameStack t ∧
    t.ctl = { s.ctl with regs := t.ctl.regs, free := t.ctl.free } ∧
    (s.ctl.get R.PHYC_LOOP_ACTIVE ≠ 0 → t.ctl.get R.PHYC_LOOP_ACTIVE = 0 ∧ t.ctl.get R.PHYC_LOOP_START = 0 ∧
      (s.ctl.laneLooped n = true → t.ctl.get (R.PHYL_STATUS_LOOP n) = 0 ∧ t.ctl.get (R.PHYL_STATUS_RATE n) = 0)) ∧
    (s.ctl.get R.PHYC_LOOP_ACTIVE = 0 → t.ctl.get (R.PHYL_STATUS_LOOP n) = s.ctl.get (R.PHYL_STATUS_LOOP n))) ∧
  (∀ p : Bytes, s.takes h { min := 4 } p →
    let v := le p 0 4
    let answers : Ocs → State → Bytes → Prop := fun e t out => exec (.phyLoop h p) s = .next t ∧ t.replied h 0xC009 e out ∧
      out.length = 68 ∧ (tb v 31 = true ∨ s.ctl.get R.PHYC_LOOP_ACTIVE = 0 ∨ s.ctl.laneLooped n = false →
        le out (4 + 4 * n) 4 = s.ctl.get (R.PHYL_PRBS_ERR_COUNT n) % 2 ^ 32) ∧
      t.ctl.get (R.PHYL_PRBS_ERR_COUNT n) = 0 ∧ s.sameStack t
    (s.unclaimed h [blkPhy] →
      (tb v 31 = true → s.ctl.loopAllowed (v % 65536) = false → ∃ t out, answers .invalidParameter t out ∧
        t.ctl.get R.PHYC_LOOP_REFUSED = 1 ∧ t.ctl.get (R.PHYL_STATUS_LOOP n) = s.ctl.get (R.PHYL_STATUS_LOOP n)) ∧
      (tb v 31 = true → s.ctl.loopAllowed (v % 65536) = true → v / 2 ^ 27 % 4 = 1 ∨ v / 2 ^ 27 % 4 = 2 →
        s.ctl.get R.PHYC_LOOP_ACTIVE = 0 → ∃ t out, answers .ok t out ∧ t.ctl.get R.PHYC_LOOP_ACTIVE = 1 ∧
          (tb v n = true → t.ctl.get (R.PHYL_STATUS_LOOP n) = v / 2 ^ 27 % 4)) ∧
      (tb v 31 = false → ∃ t out, answers .ok t out ∧ t.ctl.get R.PHYC_LOOP_ACTIVE = 0)) ∧
    (s.ctl.claimedByOther h blkPhy = true → ∃ t, exec (.phyLoop h p) s = .next t ∧ t.waits h 0xC009 p .slot ∧
      s.frame Ctl.onlyReplies t))

/-- CFG_READ returns registers in order, and CFG_WRITE refuses a bad entry before any write, writes at either control level, and
waits for the commit it makes. Which entries are bad beside a misaligned or missing offset, and what reserved bits of a value do, are log
entries 13, 20 and 21 (13_keeper_and_mailbox.md R299, 13_keeper_and_mailbox.md R300, 13_keeper_and_mailbox.md R293,
01_architecture.md R19, 00_scope.md R9). -/
def Obligations.CfgReadAndWriteReachRegisters : Prop :=
  ∀ (h : Head) (p : Bytes) (s : State), s.takes h { min := 4 } p →
  let n := le p 0 1
  let es := cfgEntries p
  ((n = 0 ∨ 64 < n ∨ p.length < 4 + 4 * n ∨ ∃ i, i < n ∧ (le p (4 + 4 * i) 4 % 4 ≠ 0 ∨ 0x1000000 ≤ le p (4 + 4 * i) 4)) →
    ∃ t, exec (.cfgRead h p) s = .next t ∧ t.replied h 0xC010 .invalidParameter [] ∧ s.frame Ctl.onlyReplies t) ∧
  (1 ≤ n → n ≤ 64 → 4 + 4 * n ≤ p.length →
    (∀ i, i < n → le p (4 + 4 * i) 4 % 4 = 0 ∧ le p (4 + 4 * i) 4 < 0x1000000) →
    ∃ t out, exec (.cfgRead h p) s = .next t ∧ t.replied h 0xC010 .ok out ∧ out.length = 4 * n ∧ s.sameStack t ∧
      (∀ a, Obligations.plainAt s.ctl (le p 4 4) a → le out 0 4 = s.ctl.regValue a h % 2 ^ 32 ∧
        (n = 1 → (∀ r ∈ a.fieldsOf h, r.acc = .rc → (r.fld.key - a.key0 h) / 32 = a.word → t.ctl.get r.fld = 0) ∧
          (∀ x : Fld, (∀ r ∈ a.fieldsOf h, r.acc = .rc → r.fld.key ≠ x.key) → t.ctl.get x = s.ctl.get x))) ∧
      (findReg (le p 4 4) = none → s.ctl.gateClosed (le p 4 4) = false → le out 0 4 = 0)) ∧
  ((n = 0 ∨ 64 < n ∨ p.length < 4 + 8 * n ∨ ∃ e ∈ es, s.ctl.cfgBad h e = true) →
    ∃ t, exec (.cfgWrite h p) s = .next t ∧ t.replied h 0xC011 .invalidParameter [] ∧ s.frame Ctl.onlyReplies t) ∧
  (∀ off v, (off % 4 ≠ 0 ∨ 0x1000000 ≤ off ∨ (0x30000 ≤ off ∧ off < 0x40000) ∨ (0x50000 ≤ off ∧ off < 0x60000) ∨
    (0x400000 ≤ off ∧ off < 0x420000) ∨ off = 0x320100 ∨ s.ctl.foreign h off v ≠ 0) → s.ctl.cfgBad h (off, v) = true) ∧
  (1 ≤ n → n ≤ 64 → 4 + 8 * n ≤ p.length → (∀ e ∈ es, s.ctl.cfgBad h e = false) →
    ((∃ e b, e ∈ es ∧ windowOf e.1 = some b ∧ s.ctl.claimedByOther h b = true) →
      ∃ t, exec (.cfgWrite h p) s = .next t ∧ t.waits h 0xC011 p .slot ∧ s.frame Ctl.onlyReplies t) ∧
    ((∀ e b, e ∈ es → windowOf e.1 = some b → s.ctl.claimedByOther h b = false) →
      (∀ v, es = [(0x310010, v)] → ∃ t, exec (.cfgWrite h p) s = .next t ∧ t.replied h 0xC011 .ok (toLE 4 1) ∧
        t.ctl.get R.TSV_REPAIR_CFG_COUNT = v % 256 ∧ t.ctl.get R.TSV_REPAIR_CFG_WINDOW_BEATS = v / 65536 ∧
        s.ctl.keeps t.ctl [R.TSV_REPAIR_CFG_COUNT, R.TSV_REPAIR_CFG_WINDOW_BEATS] ∧ s.sameStack t) ∧
      (∀ v, es = [(0x320010, v)] → v % 2 = 1 → ∃ t, exec (.cfgWrite h p) s = .next t ∧ t.waits h 0xC011 p .commit ∧
        t.ctl.stkPend = true ∧ t.ctl.get R.STK_COMMIT_REJECT = 0 ∧ (blockOf 0x320010, h) ∈ t.ctl.claims ∧ s.sameStack t)))

/-- Fuses are read at both margins and blown bit by bit, the life cycle moves only as R360 allows, and calibration and the test
engine run. Where a UDS word lies and how a repair word spells positions are the model's choice, log entries 31 and 1
(16_fuses_calibration_and_self_test.md R353, 16_fuses_calibration_and_self_test.md R355, 16_fuses_calibration_and_self_test.md
R356, 16_fuses_calibration_and_self_test.md R357, 16_fuses_calibration_and_self_test.md R358,
16_fuses_calibration_and_self_test.md R360, 16_fuses_calibration_and_self_test.md R363, 16_fuses_calibration_and_self_test.md
R367, 16_fuses_calibration_and_self_test.md R368, 16_fuses_calibration_and_self_test.md R369,
16_fuses_calibration_and_self_test.md R370). -/
def Obligations.FusesCalibrationAndTestEngine : Prop :=
  ∀ (h : Head) (p : Bytes) (s : State),
  let word : State → Nat → Nat := fun t a => otpWord t.ctl.fus.words a
  let lc := s.ctl.get R.FUS_STATUS_LC_STATE
  let opens := lc = 1 ∨ lc = 3
  let refused : Instr → Nat → Prop := fun i op => ∃ t, exec i s = .next t ∧ t.replied h op .invalidParameter [] ∧
    s.frame Ctl.onlyReplies t
  let a := le p 0 2
  (s.takes h { min := 2 } p → ∀ weak,
    (0x7F1 ≤ a → refused (.fuseRead h p weak) 0xC180) ∧
    (secretWord a = true → ∃ t, exec (.fuseRead h p weak) s = .next t ∧ t.replied h 0xC180 .ok (toLE 8 0 ++ toLE 1 2) ∧
      s.frame Ctl.onlyReplies t) ∧
    (a < 0x7F1 → secretWord a = false → ∃ t out, exec (.fuseRead h p weak) s = .next t ∧
      t.replied h 0xC180 .ok out ∧ out.length = 9 ∧ le out 0 4 = word s a % 2 ^ 32 ∧
      (∀ b, b < 32 → tb (le out 4 4) b = (tb (word s a) b && !tb weak b)) ∧
      (word s a < 2 ^ 32 → le out 8 1 = (if le out 0 4 = le out 4 4 then 0 else 1)) ∧ s.frame Ctl.onlyReplies t)) ∧
  (s.takes h { min := 8 } p → ∀ stuck,
    let bits := le p 4 4
    ((¬opens ∨ a < 3 ∨ 0x7F1 ≤ a ∨ s.ctl.wordLocked a = true) → refused (.fuseProgram h p stuck) 0xC181) ∧
    (opens → 3 ≤ a → a < 0x7F1 → s.ctl.wordLocked a = false → ∃ t, exec (.fuseProgram h p stuck) s = .next t ∧
      (∀ b, tb (word t a) b = (tb (word s a) b || (tb bits b && !tb stuck b))) ∧ (∀ y, y ≠ a → word t y = word s y) ∧
      s.sameStack t ∧
      ((∃ b, tb bits b = true ∧ tb (word s a) b = false ∧ tb stuck b = true) → t.replied h 0xC181 .invalidParameter []) ∧
      ((∀ b, tb bits b = true → tb (word s a) b = true ∨ tb stuck b = false) → t.replied h 0xC181 .ok [] ∧
        t.ctl.regs = s.ctl.regs ∧ t.ctl.fus.shadow = s.ctl.fus.shadow))) ∧
  (s.takes h { min := 1 } p →
    let i := le p 0 1
    ((¬opens ∨ 5 ≤ i) → ∀ stuck, refused (.fuseLock h p stuck) 0xC182) ∧
    (opens → i < 5 → ∀ stuck, ∃ t, exec (.fuseLock h p stuck) s = .next t ∧
      (∀ b, tb (word t 0x7F0) b = (tb (word s 0x7F0) b || (decide (b = i) && !tb stuck b))) ∧
      (∀ y, y ≠ 0x7F0 → word t y = word s y) ∧ s.sameStack t ∧
      (tb (word s 0x7F0) i = false ∧ tb stuck i = true → t.replied h 0xC182 .invalidParameter []) ∧
      (tb (word s 0x7F0) i = true ∨ tb stuck i = false → t.replied h 0xC182 .ok [] ∧ t.ctl.regs = s.ctl.regs))) ∧
  (s.takes h { min := 4 } p → ∀ first auth stuck, p = first ++ auth →
    let target := le p 0 1
    let allowed := (lc = 1 ∧ target = 2 ∧ s.ctl.get R.FUS_LOCK_FUSED / 2 % 16 = 15) ∨
      (lc = 2 ∧ target = 3 ∧ s.ctl.rmaAuthorised p = true) ∨ (1 ≤ lc ∧ lc ≤ 3 ∧ target = 4)
    (p.length < 100 → s.ctl.rmaAuthorised p = false) ∧
    (¬allowed → refused (.lcAdvance h first auth stuck) 0xC183) ∧
    (allowed → ∃ t e, exec (.lcAdvance h first auth stuck) s = .next t ∧ t.replied h 0xC183 e [] ∧ s.sameStack t ∧
      (∀ b, b < 32 → (tb (word s 0) b = true → tb (word t 0) b = true) ∧
        (tb (word t 0) b = true → tb (word s 0) b = true ∨ (tb (lcCode target) b = true ∧ tb stuck b = false))) ∧
      ((∀ b, b < 32 → tb (lcCode target) b = true → tb (word s 0) b = true ∨ tb stuck b = false) ↔ e = .ok) ∧
      ∀ y, y ≠ 0 → word t y = word s y) ∧
    (allowed → word s 0 = lcCode lc → ∃ t, exec (.lcAdvance h first auth 0) s = .next t ∧ t.replied h 0xC183 .ok [] ∧
      word t 0 = lcCode target ∧ lcOf (word t 0) = some target ∧ (∀ y, y ≠ 0 → word t y = word s y) ∧
      t.ctl.get R.FUS_STATUS_LC_STATE = lc ∧ s.sameStack t ∧
      (target = 3 → ∀ e ∈ s.ctl.sea.keys, e.1 < 1024 → t.ctl.get (R.SEA_KEY_STAT_LIVE e.1) = 0))) ∧
  (lcCode 0 = 0 ∧ lcCode 1 = 0xFF ∧ lcCode 2 = 0xFFFF ∧ lcCode 3 = 0xFFFFFF ∧ lcCode 4 = 0xFFFFFFFF ∧
    ∀ w n, lcOf w = some n ↔ n < 5 ∧ w = lcCode n) ∧
  (s.takes h { min := 1 } p →
    let d := le p 0 1
    (s.ctl.nd ≤ d → refused (.calRun h p) 0xC184) ∧
    (d < s.ctl.nd → ∃ t, exec (.calRun h p) s = .next t ∧ t.replied h 0xC184 .ok [] ∧
      (d ∈ t.ctl.cal.queue ∨ t.ctl.cal.current = some d) ∧ t.ctl.regs = s.ctl.regs ∧ s.sameStack t)) ∧
  (∀ found ends, (s.ctl.cal.current = none ∨ s.ctl.get R.THM_STATUS_STAGE = 4 ∨ s.ctl.cal.windows < 32 →
      exec (.calMeasurementEnd found ends) s = .next s) ∧
    (∀ d, d < 12 → s.ctl.cal.current = some d → s.ctl.get R.THM_STATUS_STAGE ≠ 4 → 32 ≤ s.ctl.cal.windows →
      let sel := found.filter (s.ctl.calItemOk d)
      ∃ t, exec (.calMeasurementEnd found ends) s = .next t ∧ s.sameStack t ∧
        t.ctl.get (R.CAL_DIE_T_CAL d) = s.ctl.get (R.THM_DIE_GOVERN d) % 65536 ∧
        t.ctl.get (R.CAL_DIE_COUNT d) = min (s.ctl.get (R.CAL_DIE_COUNT d) + 1) 4095 ∧
        t.ctl.get (R.CAL_DIE_SOURCE d) = 3 ∧ mapGet t.ctl.cal.todo d = some sel ∧
        ((∃ x ∈ sel, CalItem.railed ends x = true) → t.ctl.get (R.CAL_DIE_RAIL d) = 1 ∧ t.ctl.srcPending (248 + d) = true) ∧
        ((∀ x ∈ sel, CalItem.railed ends x = false) → t.ctl.get (R.CAL_DIE_RAIL d) = 0 ∧
          s.ctl.keeps t.ctl [R.CAL_DIE_T_CAL d, R.CAL_DIE_COUNT d, R.CAL_DIE_SOURCE d, R.CAL_DIE_RAIL d]))) ∧
  (s.takes h {} p →
    let may := opens ∧ s.ctl.get R.IDC_KPR_STAT_PARKED ≠ 0 ∧ s.ctl.stk.selfRef = 2
    (¬may → refused (.testEnter h p) 0xC185) ∧
    (may → ∃ t, exec (.testEnter h p) s = .next t ∧ t.replied h 0xC185 .ok [] ∧ t.ctl.cal.testMode = true ∧
      t.ctl.regs = s.ctl.regs ∧ s.sameStack t) ∧
    ((¬opens ∨ s.ctl.locked5 4 = true) → ∀ stuck, refused (.repairCommit h p stuck) 0xC187) ∧
    (opens → s.ctl.locked5 4 = false → s.ctl.placeRepairs s.ctl.repairWords [] = none → ∀ stuck,
      refused (.repairCommit h p stuck) 0xC187) ∧
    (∀ l, opens → s.ctl.locked5 4 = false → s.ctl.placeRepairs s.ctl.repairWords [] = some l →
      ∀ stuck, ∃ t, exec (.repairCommit h p stuck) s = .next t ∧ s.sameStack t ∧
        let want : Nat × List Nat → Nat → Bool := fun e b => tb (Config.repairWord e.2) b && !tb (word s e.1) b
        (∀ e ∈ l, ∀ b, tb (word t e.1) b = (tb (word s e.1) b || (tb (Config.repairWord e.2) b && !tb (otpWord stuck e.1) b))) ∧
        (∀ y, (∀ e ∈ l, e.1 ≠ y) → word t y = word s y) ∧
        ((∀ e ∈ l, ∀ b, want e b = true → tb (otpWord stuck e.1) b = false) →
          t.replied h 0xC187 .ok (toLE 4 l.length) ∧ t.ctl.regs = s.ctl.regs) ∧
        ((∃ e ∈ l, ∃ b, want e b = true ∧ tb (otpWord stuck e.1) b = true) → t.replied h 0xC187 .invalidParameter []))) ∧
  (s.takes h { min := 1, background := true } p →
    let target := le p 0 1
    ((s.ctl.cal.testMode = false ∨ (target ≠ 1 ∧ target ≠ 2 ∧ (target < 0x10 ∨ 0x10 + s.ctl.nd ≤ target) ∧ target ≠ 0x20)) →
      refused (.bistRun h p) 0xC186) ∧
    (s.ctl.cal.testMode = true → s.ctl.bistTarget target = true → s.ctl.cal.test ≠ none →
      ∃ t, exec (.bistRun h p) s = .next t ∧ t.replied h 0xC186 .busy [] ∧ s.frame Ctl.onlyReplies t) ∧
    (s.ctl.cal.testMode = true → s.ctl.bistTarget target = true → s.ctl.cal.test = none →
      ∃ t, exec (.bistRun h p) s = .next t ∧ t.started h 0xC186 p ∧ t.ctl.cal.test = some (target, some h) ∧
        t.ctl.get R.BST_STATUS_BUSY = 1 ∧ s.ctl.keeps t.ctl [R.BST_STATUS_BUSY, R.BST_STATUS_PASS, R.BST_STATUS_FAIL] ∧
        s.sameStack t)) ∧
  (∀ pass repairs, (s.ctl.cal.test = none → exec (.bistDone pass repairs) s = .next s) ∧
    (∀ target x, s.ctl.cal.test = some (target, x) →
      let c0 := if 0x10 ≤ target ∧ target < 0x20 then s.bistWipe.ctl else s.ctl
      let r := (repairs.filter (bistReaches target)).foldl Ctl.repairAll (0, 0, { c0 with cal.test := none })
      let good := (target = 1 ∧ pass = true) ∨ (target ≠ 1 ∧ r.2.1 = 0)
      ∃ t, exec (.bistDone pass repairs) s = .next t ∧ t.ctl.cal.test = none ∧ t.ctl.get R.BST_STATUS_BUSY = 0 ∧
      (good → t.ctl.get R.BST_STATUS_PASS = 1 ∧ t.ctl.get R.BST_STATUS_FAIL = 0) ∧
      (¬good → t.ctl.get R.BST_STATUS_PASS = 0 ∧ t.ctl.get R.BST_STATUS_FAIL = 1) ∧
      t.ctl.get R.BST_STATUS_REPAIRS = min 0xFFFF r.1 ∧
      (∀ k, x = some k → (t.ctl.hd k).mbox.bg = none) ∧ ((target < 0x10 ∨ 0x20 ≤ target) → s.sameStack t) ∧
      (0x10 ≤ target → target < 0x20 → ∀ sa, sa < s.ctl.userEnd → sa < 64 * GiB →
        s.ctl.get (R.SEA_GRAN_STATE (granOf sa)) = 0 → mapGet t.lines (sa / 64) = none ∧ memGet t.mem sa = 0)))

/-- The stage timers move the thermal stage, an orderly shutdown aborts, decides and resumes, after a power-down as a
power-on start (14_thermal_and_power.md R316,
14_thermal_and_power.md R319, 14_thermal_and_power.md R320, 14_thermal_and_power.md R322, 01_architecture.md R16). -/
def Obligations.ThermalStagesAndShutdown : Prop :=
  ∀ s : State,
  let stage : State → Nat := fun t => t.ctl.get R.THM_STATUS_STAGE
  (s.ctl.thm.graceDue = none → exec .graceTimerExpiry s = .next s) ∧
  (∀ due, s.ctl.thm.graceDue = some due → ∃ t, exec .graceTimerExpiry s = .next t ∧ t.ctl.clock = max s.ctl.clock due ∧
    t.ctl.thm.graceDue = none ∧ s.sameStack t ∧
    ((∃ g ∈ s.ctl.governed, g.limit 95 105 ≤ g.temp) → stage t = 2 ∧ t.ctl.thm.escalDue = some (t.ctl.clock + s.ctl.graceNs)) ∧
    ((∀ g ∈ s.ctl.governed, g.temp < g.limit 95 105) → stage t = 0 ∧ t.ctl.thm.escalDue = none)) ∧
  ((s.ctl.thm.escalDue = none ∨ stage s ≠ 2) → exec .escalationTimerExpiry s = .next s) ∧
  (∀ due, s.ctl.thm.escalDue = some due → stage s = 2 → ∃ t, exec .escalationTimerExpiry s = .next t ∧
    t.ctl.clock = max s.ctl.clock due ∧ stage t = 3 ∧ t.ctl.thm.escalDue = none ∧ s.sameStack t) ∧
  ((s.ctl.thm.releaseDue = none ∨ ∃ d, d < s.ctl.nd ∧ s.ctl.modelGoverned d = true) →
    exec .releaseTimerExpiry s = .next s) ∧
  (∀ due, s.ctl.thm.releaseDue = some due → (∀ d, d < s.ctl.nd → s.ctl.modelGoverned d = false) →
    (∀ g ∈ s.ctl.governed, g.temp < g.limit 95 105 - 4 * s.ctl.hystC) →
    (stage s = 3 → ∃ t, exec .releaseTimerExpiry s = .next t ∧ t.ctl.clock = max s.ctl.clock due ∧ stage t = 2 ∧ s.sameStack t) ∧
    (stage s = 2 → ∃ t, exec .releaseTimerExpiry s = .next t ∧ t.ctl.clock = max s.ctl.clock due ∧ stage t = 0 ∧
      s.sameStack t)) ∧
  ((s.ctl.thm.shutAt = none ∨ s.ctl.thm.shutStep ≠ 0) → exec .shutdownJobAbort s = .next s) ∧
  (∀ at_, s.ctl.thm.shutAt = some at_ → s.ctl.thm.shutStep = 0 → ∃ t, exec .shutdownJobAbort s = .next t ∧
    t.ctl.thm.shutStep = 1 ∧ t.ctl.clock = max s.ctl.clock (at_ + 500000) ∧ s.sameStack t ∧
    ((s.ctl.job.jobs.map Job.slot).Nodup → ∀ k j, s.ctl.jobAt k = some j → j.phase = .running → ∃ x, t.ctl.jobAt k = some x ∧
      x.phase = .running ∧ x.stop = some (j.stop.getD stAborted))) ∧
  ((s.ctl.thm.shutAt = none ∨ s.ctl.thm.shutStep ≠ 1) → exec .shutdownStopDecision s = .next s) ∧
  (∀ at_, s.ctl.thm.shutAt = some at_ → s.ctl.thm.shutStep = 1 →
    (s.ctl.tooHot = false → ∃ t, exec .shutdownStopDecision s = .next t ∧ t.ctl.thm.shutStep = 2 ∧
      t.ctl.clock = max s.ctl.clock (at_ + 520000) ∧ s.sameStack t ∧
      (s.ctl.stk.srcPark = 1 → t.ctl.stk = s.ctl.stk) ∧
      (s.ctl.stk.srcPark ≠ 1 → t.ctl.stk.srcPark = 2 ∧ t.ctl.stk.selfRef = if s.ctl.stk.selfRef = 2 then 2 else 1)) ∧
    (s.ctl.tooHot = true → ∃ t, exec .shutdownStopDecision s = .next t ∧ t.ctl.thm.shutStep = 3 ∧
      t.ctl.get R.THM_STATUS_POWER_DOWN = 1 ∧ (∀ d, d < s.ctl.nd → d ∈ t.ctl.stk.feedsOpen) ∧ t.mem = [] ∧ t.lines = [] ∧
      t.pending = s.pending)) ∧
  ((s.ctl.thm.resumeSince = none ∨ stage s ≠ 4 ∨ s.ctl.thm.shutStep < 2) → exec .thermalResume s = .next s) ∧
  (∀ since, s.ctl.thm.resumeSince = some since → stage s = 4 → 2 ≤ s.ctl.thm.shutStep →
    (s.ctl.get R.THM_STATUS_POWER_DOWN = 0 → ∃ t, exec .thermalResume s = .next t ∧ stage t = 0 ∧ t.ctl.thm.shutAt = none ∧
      t.ctl.clock = max s.ctl.clock (since + 1000000000) ∧ s.sameStack t ∧
      (s.ctl.stk.srcPark = 1 → t.ctl.stk.selfRef = s.ctl.stk.selfRef) ∧
      (s.ctl.stk.srcPark ≠ 1 → t.ctl.stk.srcPark = 0 ∧ t.ctl.stk.selfRef = if s.ctl.stk.selfRef = 0 then 0 else 3)) ∧
    (s.ctl.get R.THM_STATUS_POWER_DOWN ≠ 0 → ∃ t, exec .thermalResume s = .next t ∧ t.mem = [] ∧ t.lines = [] ∧
      t.ctl.rst.awaiting = 0 ∧ t.ctl.kpr.phase = 0 ∧
      t.ctl.clock = max s.ctl.clock (since + 1000000000) ∧
      t.ctl.get R.RST_BOOT_INFO_ORIGIN = (if s.ctl.rst.tripped = true then 4 else 3) ∧ t.pending = s.pending))

/-- Conversions, samples and canaries govern the dies, a reading of 95 C, 105 C or 120 C requests throttling, shuts down or trips,
and telemetry moves the duty. A conversion of an invalid sensor trips too, log entry 61, and the place of the canary rows is log entry 146
(14_thermal_and_power.md R311,
14_thermal_and_power.md R312, 14_thermal_and_power.md R313, 14_thermal_and_power.md R314, 14_thermal_and_power.md R315, 14_thermal_and_power.md R316, 14_thermal_and_power.md R319, 14_thermal_and_power.md R321,
14_thermal_and_power.md R323, 14_thermal_and_power.md R324, 14_thermal_and_power.md R325, 07_dram_scheduling_and_refresh.md
R163). -/
def Obligations.SensorsSamplesAndPower : Prop :=
  ∀ s : State,
  (∀ r, s.ctl.sensing = false → exec (.sensorConversion r) s = .next s) ∧
  (∀ f : Nat → Int, s.ctl.sensing = true → s.ctl.get R.THM_STATUS_STAGE = 0 → s.ctl.guardC ≤ 6 →
    (∀ n, n < 128 → -160 ≤ f n ∧ f n < 320) → (∀ d, d < s.ctl.nd → s.ctl.estimate d < 80) →
    ∃ t, exec (.sensorConversion ((List.range 128).map fun n => some (f n))) s = .next t ∧
      t.ctl.get R.THM_STATUS_STAGE = 0 ∧ s.sameStack t ∧
      (∀ n, n < 128 → s.ctl.sensBuilt n = true → (n < 96 → s.ctl.dieOpen (n / 8) = false) →
        signedOf 16 (t.ctl.get (R.THM_SENS_READING n)) = f n ∧ t.ctl.get (R.THM_SENS_VALID n) = 1) ∧
      (∀ d, d < s.ctl.nd → s.ctl.dieOpen d = false → (∀ n, n / 8 = d → n ∉ s.ctl.thm.distrusted) →
        let felt : Nat → Int := fun n => f n + if s.ctl.get (R.THM_SENS_TRIMMED n) = 0 then 32 else 0
        t.ctl.get (R.THM_DIE_SRC d) = 0 ∧
        ∃ n, n / 8 = d ∧ signedOf 16 (t.ctl.get (R.THM_DIE_GOVERN d)) = felt n ∧ ∀ m, m / 8 = d → felt m ≤ felt n)) ∧
  (∀ (f : Nat → Int) (d n : Nat), s.ctl.sensing = true → s.ctl.guardC ≤ 6 → (∀ e, e < s.ctl.nd → s.ctl.estimate e < 80) →
    d < s.ctl.nd → s.ctl.dieOpen d = false → n / 8 = d →
    let converts : State → Prop := fun t => exec (.sensorConversion ((List.range 128).map fun n => some (f n))) s = .next t
    ((∀ k, k / 8 = d → k ∉ s.ctl.thm.distrusted) →
      (s.ctl.get R.THM_STATUS_STAGE = 0 → (∀ k, k < 128 → -160 ≤ f k ∧ f k < 388) → 380 ≤ f n → ∃ t, converts t ∧
        t.ctl.get R.THM_STATUS_STAGE = 1 ∧ t.ctl.thm.graceDue = some (s.ctl.clock + s.ctl.graceNs) ∧
        t.ctl.srcPending 608 = true ∧ s.sameStack t ∧
        ((∀ k, k < 128 → k / 8 ≠ d → f k < 348) → t.ctl.get R.THM_STATUS_CAUSE = d)) ∧
      (s.ctl.get R.THM_STATUS_STAGE ≠ 4 → (∀ k, k < 128 → -160 ≤ f k ∧ f k < 448) → 420 ≤ f n → ∃ t, converts t ∧
        t.ctl.get R.THM_STATUS_STAGE = 4 ∧ t.ctl.thm.shutAt = some s.ctl.clock ∧ t.ctl.thm.shutStep = 0 ∧
        t.ctl.srcPending 610 = true ∧ s.sameStack t)) ∧
    ((s.ctl.get R.THM_STATUS_POWER_DOWN = 0 ∨ s.ctl.rst.awaiting ≠ 10) → (∀ k, k < 128 → -160 ≤ f k ∧ f k ≤ 600) → 480 ≤ f n →
      ∃ t, converts t ∧ t.ctl.get R.THM_STATUS_STAGE = 4 ∧ t.ctl.get R.THM_STATUS_POWER_DOWN = 1 ∧ t.ctl.rst.awaiting = 10 ∧
        t.ctl.rst.tripped = true ∧ (∀ e, e < s.ctl.nd → e ∈ t.ctl.stk.feedsOpen) ∧ tb t.ctl.sbp.trip 31 = true ∧
        t.ctl.get R.FLT_STATUS_ERRN = 1 ∧ t.mem = [] ∧ t.lines = [] ∧ t.pending = s.pending)) ∧
  (s.ctl.thm.sampleDue = false → exec .thermalSample s = .next s) ∧
  (s.ctl.thm.sampleDue = true → ∃ t, exec .thermalSample s = .next t ∧ t.ctl.thm.sampleDue = false ∧ t.ctl.thm.updates = 0 ∧
    t.ctl.thm.rails = [] ∧ t.pending = s.pending ∧
    ∀ d, d < s.ctl.nd → 85 < t.ctl.refreshTemp d → tb (t.ctl.get R.STK_REF_RATE_DOUBLE) d = true) ∧
  (∀ d failed, failed = false ∨ (∀ i, i < 4 → s.ctl.canaryDue (4 * d + i) = false) → exec (.canaryCheck d failed) s = .next s) ∧
  (∀ d, (∃ i, i < 4 ∧ s.ctl.canaryDue (4 * d + i) = true) → s.ctl.kpr.phase = 3 → d < s.ctl.nd → s.ctl.dieOpen d = false → ∃ t, exec (.canaryCheck d true) s = .next t ∧
    mapGet t.ctl.thm.floor d = some 16 ∧
    t.ctl.get (R.THM_CANARY_FAILS d) = min (s.ctl.get (R.THM_CANARY_FAILS d) + 1) 255 ∧
    (∀ n, n / 8 = d → s.ctl.get (R.THM_SENS_VALID n) ≠ 0 → s.ctl.sensTemp n < s.ctl.param d 3 - 4 * s.ctl.distrustC →
      n ∈ t.ctl.thm.distrusted) ∧ s.sameStack t) ∧
  (∀ m : Telemetry,
    (∃ t, exec (.railTelemetryUpdate m) s = .next t ∧ t.ctl.get R.PWR_INPUT_VIN_IVR = min 0xFFFF m.vin ∧
      t.ctl.get R.PWR_INPUT_VDD_LOGIC = min 0xFFFF m.logic ∧ t.ctl.get R.PWR_INPUT_VDD_PHY = min 0xFFFF m.phy ∧
      t.ctl.get R.PWR_INPUT_VPP = min 0xFFFF m.vpp ∧ t.ctl.thm.updates = s.ctl.thm.updates + 1 ∧ s.sameStack t ∧
      (∀ d, d < s.ctl.nd →
        let x := if s.ctl.dieOpen d = true then (0, 0, 0) else m.dies.getD d (0, 0, 0)
        t.ctl.get (R.PWR_DIE_VDD_MA d) = min 0xFFFF x.1 ∧ t.ctl.get (R.PWR_DIE_VDDQ_MA d) = min 0xFFFF x.2.1 ∧
          t.ctl.get (R.PWR_DIE_VPP_MA d) = min 0xFFFF x.2.2) ∧
      (∀ e, m.badPhases = [e] → e.1 < s.ctl.nd → e.2 < 2 →
        (e ∉ s.ctl.thm.spares → e ∈ t.ctl.thm.spares ∧ tb (t.ctl.get R.PWR_REG_STAT_SPARE_USED) e.1 = true) ∧
        (e ∈ s.ctl.thm.spares → tb (t.ctl.get R.PWR_REG_STAT_SHORT) e.1 = true ∧ t.ctl.srcPending (236 + e.1) = true)))) ∧
  (∃ t, exec .powerCeilingUpdate s = .next t ∧ s.sameStack t ∧
    let avg := t.ctl.thm.avg
    let duty := s.ctl.get R.PWR_STATUS_DUTY
    let new := t.ctl.get R.PWR_STATUS_DUTY
    avg = s.ctl.thm.avg + Config.powerWeight * (s.ctl.totalPower - s.ctl.thm.avg) ∧
    (duty ≤ 64 →
      ((s.ctl.ceilingW : Rat) < avg → new = max 8 (duty - 4)) ∧
      (avg < (s.ctl.ceilingW : Rat) - 3 → duty < (if s.ctl.get R.PWR_REG_STAT_SHORT = 0 then 64 else 48) → new = duty + 1) ∧
      ((s.ctl.ceilingW : Rat) - 3 ≤ avg → avg ≤ (s.ctl.ceilingW : Rat) → new = duty) ∧
      (s.ctl.get R.STK_ACT_CFG_FUSED_MAX ≤ 255 →
        t.ctl.get R.PWR_STATUS_ACT_CAP = max 8 ((s.ctl.get R.STK_ACT_CFG_FUSED_MAX * new + 63) / 64)) ∧
      (t.ctl.get R.PWR_STATUS_FLOOR = 1 ↔ new = 8 ∧ (s.ctl.ceilingW : Rat) < avg)))

/-- Refresh windows open at their offset and refresh bank after bank, controllers issue only legal commands, and lanes move whole
rows. The lead of write data over a column is log entry 107, and the class by which an idle row is kept log entry 126
(07_dram_scheduling_and_refresh.md R158, 07_dram_scheduling_and_refresh.md R160, 07_dram_scheduling_and_refresh.md R162,
02_stack_and_row_lanes.md R28, 02_stack_and_row_lanes.md R30). -/
def Obligations.RefreshCommandsAndLaneTransfers : Prop :=
  ∀ (s : State),
  (∀ ch, ch < s.ctl.nch →
    let x := s.ctl.chan ch
    s.ctl.windowStarts ch 1 = [s.ctl.lastBeat + 360 * (ch % 4) + 90 * (ch / 4 % 4)] ∧
    (s.ctl.windowStarts ch 2 = (s.ctl.windowStarts ch 1).flatMap fun w => [w, w + 1950]) ∧
    ((x.starts = [] ∨ x.window ≠ none ∨ 2 ≤ s.ctl.stk.selfRef) → exec (.refreshWindow ch) s = .next s) ∧
    (∀ w rest, x.starts = w :: rest → x.window = none → s.ctl.stk.selfRef < 2 → ∃ t, exec (.refreshWindow ch) s = .next t ∧
      t.ctl.chan ch = { x with window := some w, nextBank := 0, starts := rest } ∧
      t.ctl.clock = max s.ctl.clock w ∧ (∀ y, y ≠ ch → t.ctl.chan y = s.ctl.chan y) ∧
      s.ctl.keeps t.ctl [R.TIM_NOW_VALUE] ∧ s.sameStack t) ∧
    (x.window = none → exec (.perBankRefresh ch) s = .next s) ∧
    (∀ w, x.window = some w → ∃ t, exec (.perBankRefresh ch) s = .next t ∧
      let b := x.nextBank
      let y := t.ctl.chan ch
      t.ctl.clock = max s.ctl.clock (w + 20 * b) ∧ y.nextBank = b + 1 ∧
        y.window = (if b = 15 then none else some w) ∧ (y.bank b).openRow = none ∧
        (y.bank b).busyUntil = t.ctl.clock * 1000 + 110000 + 30000 * (x.bank b).nref ∧ (y.bank b).nref = 0 ∧
        (∀ k, k ≠ b → y.bank k = x.bank k) ∧ y.queue = x.queue ∧ y.starts = x.starts ∧
        (t.ctl.clock * 1000, false) ∈ t.ctl.dieActs (ch / 4) ∧
        t.ctl.get (R.DMC_REF_STAT_POINTER ch) = (if b = 15 then (s.ctl.get (R.DMC_REF_STAT_POINTER ch) + 1) % 8192
          else s.ctl.get (R.DMC_REF_STAT_POINTER ch)) ∧
        s.ctl.keeps t.ctl [R.TIM_NOW_VALUE, R.DMC_REF_STAT_POINTER ch] ∧ s.sameStack t)) ∧
  (∀ ch dt, (s.ctl.nch ≤ ch ∨ (s.ctl.chan ch).closed = true ∨ s.ctl.stk.selfRef ≠ 0 ∨ ch / 4 ∈ s.ctl.stk.feedsOpen) →
    exec (.channelCommandIssue ch dt) s = .next (s.mapCtl fun c => c.pass dt)) ∧
  (∀ ch dt, ch < s.ctl.nch → (s.ctl.chan ch).closed = false → s.ctl.stk.selfRef = 0 → ch / 4 ∉ s.ctl.stk.feedsOpen →
    (∀ f ∈ (s.ctl.chan ch).flight, f.req.cls < 8) →
    let c := (((s.ctl.pass dt).settle ch).admitWaiting ch).countPromotions ch
    let c1 := ((c.ranked ch).map Prod.snd).foldl (Ctl.countStall ch) c
    let x := c.chan ch
    ∃ t, exec (.channelCommandIssue ch dt) s = .next t ∧ s.sameStack t ∧ t.ctl.clock = s.ctl.clock + dt ∧
      (∀ w, c.neighbourDue ch = some w → (x.bank w.req.bank).nref ≠ 0 ∧ ((t.ctl.chan ch).bank w.req.bank).nref = 0 ∧
        ((t.ctl.chan ch).bank w.req.bank).busyUntil = t.ctl.clock * 1000 + 30000 * (x.bank w.req.bank).nref) ∧
      (c.neighbourDue ch = none → ∀ w cmd, c1.chooseCmd ch (c1.ranked ch) = some (w, cmd) →
        (c1.idleOpen ch = none ∨ (c1.ranked ch).head?.map Prod.snd = some w) →
        (∃ u, c1.legalAt ch w = some (cmd, u) ∧ u ≤ t.ctl.clock * 1000) ∧
        let k := (t.ctl.chan ch).bank w.req.bank
        (cmd = .activate → k.openRow = some w.req.row ∧ k.actAt = some (t.ctl.clock * 1000) ∧ k.hits = 0 ∧
          t.ctl.get (R.DMC_ACT_CNT_COUNT ch) = min (s.ctl.get (R.DMC_ACT_CNT_COUNT ch) + 1) (2 ^ 64 - 1)) ∧
        (cmd = .precharge → k.openRow = none ∧ k.preAt = some (t.ctl.clock * 1000)) ∧
        (cmd = .column → k.openRow = (x.bank w.req.bank).openRow ∧ k.hits = (x.bank w.req.bank).hits + 1)) ∧
      (c.neighbourDue ch = none → ∀ b, c1.idleOpen ch = some b →
        (∀ w cmd, c1.chooseCmd ch (c1.ranked ch) = some (w, cmd) → (c1.ranked ch).head?.map Prod.snd ≠ some w) →
        let k := (t.ctl.chan ch).bank b
        (x.bank b).openRow ≠ none ∧ k.openRow = none ∧ k.preAt = some (t.ctl.clock * 1000) ∧
        ∀ r ∈ (c1.chan ch).held ++ (c1.chanXfers ch).map Xfer.asReq, r.bank = b → some r.row = (x.bank b).openRow →
          (x.bank b).band < c1.band r) ∧
      (c.neighbourDue ch = none → c1.chooseCmd ch (c1.ranked ch) = none → c1.idleOpen ch = none →
        ∀ b, (t.ctl.chan ch).bank b = x.bank b)) ∧
  (∀ (ch : Nat) (w : Cand) (u : Nat), u ≤ s.ctl.ps →
    let k := (s.ctl.chan ch).bank w.req.bank
    let m := s.ctl.slowdown
    let clear : Nat → Prop := fun lead => ∀ r ∈ s.ctl.slots ch w.req.bank, u + lead ≤ r ∨ r + 110000 ≤ u
    (s.ctl.legalAt ch w = some (.activate, u) → k.openRow = none ∧ k.nref = 0 ∧ k.busyUntil ≤ u ∧
      (∀ a, k.preAt = some a → a + 14000 * m ≤ u) ∧ (∀ a, k.actAt = some a → a + 42000 * m ≤ u) ∧
      (∀ e ∈ (s.ctl.chan ch).acts, e.1 + m * (if e.2 / 4 = w.req.bank / 4 then 4000 else 2000) ≤ u ∨
        u + m * (if e.2 / 4 = w.req.bank / 4 then 4000 else 2000) ≤ e.1) ∧
      ((s.ctl.chan ch).acts.filter fun e => decide (e.1 ≤ u) && decide (u < e.1 + 12000 * m)).length < 4 ∧
      ((s.ctl.dieActs (ch / 4)).filter fun e => decide (e.1 ≤ u) && decide (u < e.1 + 64000)).length < s.ctl.effectiveMax ∧
      (w.lane = true → ((s.ctl.dieActs (ch / 4)).filter fun e =>
        e.2 && decide (e.1 ≤ u) && decide (u < e.1 + 64000)).length < s.ctl.get R.STK_ACT_CFG_ROW_SHARE) ∧ clear (48000 * m)) ∧
    (s.ctl.legalAt ch w = some (.neighbour, u) → k.openRow = none ∧ k.nref ≠ 0 ∧ k.busyUntil ≤ u ∧ clear (30000 * k.nref)) ∧
    (s.ctl.legalAt ch w = some (.column, u) → k.openRow = some w.req.row ∧ w.lane = false ∧ k.busyUntil ≤ u ∧
      (∀ a, k.actAt = some a → a + 14000 * m ≤ u) ∧
      (∀ e ∈ (s.ctl.chan ch).cols, e.1 + m * (if e.2 / 4 = w.req.bank / 4 then 5333 else 2667) ≤ u) ∧
      clear (if w.req.write then 31667 * m else 14000 * m) ∧
      (s.ctl.tapsDue ch = true → ∀ r ∈ (s.ctl.chan ch).starts, u + 30000 ≤ r * 1000 ∨ r * 1000 ≤ u)) ∧
    (s.ctl.legalAt ch w = some (.precharge, u) → k.openRow ≠ none ∧ k.openRow ≠ some w.req.row ∧
      (∀ a, k.actAt = some a → a + 28000 * m ≤ u) ∧ (∀ a, k.wrEnd = some a → a + 15000 * m ≤ u) ∧ clear (14000 * m) ∧ s.ctl.hitHolds ch w = false)) ∧
  (∀ l dt, (4 ≤ l ∨ s.ctl.laneUp l = false ∨ s.ctl.domainOpen (13 + l) = false ∨ s.ctl.stk.selfRef ≠ 0) →
    exec (.laneCycle l dt) s = .next (s.mapCtl fun c => c.pass dt)) ∧
  (∀ l dt, l < 4 → s.ctl.laneUp l = true → s.ctl.domainOpen (13 + l) = true → s.ctl.stk.selfRef = 0 →
    let c := ((s.ctl.pass dt).countCycle l).admitLane l
    let y := c.lane l
    let goesOn := y.chosen = true ∧ y.run < 32 ∧ ∃ q ∈ y.pending, q.write = y.write
    let ready := y.pending.filter fun q => decide (q.write = y.write) && c.xferReady l q &&
      (decide (q.port ≠ 2) || decide (y.jobRows < c.dutyLimit))
    ∃ t, exec (.laneCycle l dt) s = .next t ∧ s.sameStack t ∧ t.ctl.clock = s.ctl.clock + dt ∧
      let z := t.ctl.lane l
      (∀ x, goesOn → c.firstXfer ready = some x →
        x ∈ y.pending ∧ x.write = y.write ∧ z.pending = y.pending.erase x ∧ z.run = y.run + 1 ∧ z.write = y.write ∧
        z.jobRows = y.jobRows + (if x.port = 2 then 1 else 0) ∧
        t.ctl.get (R.ROWL_XFER_CNT_ROWS l) = min (s.ctl.get (R.ROWL_XFER_CNT_ROWS l) + 1) (2 ^ 64 - 1) ∧
        (x.write = false → z.landing = y.landing ++ [(c.ps + 8000 * c.slowdown, x)] ∧ t.ctl.stk.cells = c.stk.cells) ∧
        (x.write = true → z.landing = y.landing ∧
          (mapGet t.ctl.stk.cells x.slot).getD 0 = (mapGet c.stk.cells x.slot).getD 0 - 1)) ∧
      (goesOn → c.firstXfer ready = none → z = y ∧ t.ctl.stk = c.stk ∧ c.keeps t.ctl [R.PWR_REG_STAT_SPARE_USED]) ∧
      (∀ f, ¬goesOn → c.firstXfer y.pending = some f → f.write ≠ y.write →
        z = { y with run := 0, write := f.write, chosen := true } ∧ c.keeps t.ctl [R.PWR_REG_STAT_SPARE_USED]) ∧
      (∀ f, ¬goesOn → c.firstXfer y.pending = some f → f.write = y.write → z.write = y.write ∧ z.chosen = true ∧ z.run ≤ 1) ∧
      (y.pending = [] → z = { y with run := 0, chosen := false } ∧ c.keeps t.ctl [R.PWR_REG_STAT_SPARE_USED])) ∧
  (∀ l, ((s.ctl.lane l).landing = [] → exec (.laneRowLanded l) s = .next s) ∧
    (∀ at_ x rest, (s.ctl.lane l).landing = (at_, x) :: rest → ∃ t, exec (.laneRowLanded l) s = .next t ∧
      t.ctl.lane l = { s.ctl.lane l with landing := rest } ∧ at_ ≤ t.ctl.clock * 1000 ∧
      (mapGet t.ctl.stk.cells x.slot).getD 0 = (mapGet s.ctl.stk.cells x.slot).getD 0 + 1 ∧
      (∀ k, k ≠ l → t.ctl.lane k = s.ctl.lane k) ∧ s.ctl.keeps t.ctl [R.TIM_NOW_VALUE] ∧ s.sameStack t))

/-- REQUEST_ENQUEUE is the model's event, log entries 12 and 37. A request arrives with the class and job deadline of its source: of a job, CLASS and the deadline of FLAGS.DL; of the Keeper, class 7;
of a row being moved, MIG_CLASS. Its effective deadline is its arrival plus the TARGET of QOS_PORT_LAT of its port, none outside a port, and
for a job with a deadline the earlier of the two, as TARGET stands at its arrival, log entry 144
(07_dram_scheduling_and_refresh.md R155, 08_line_ecc_scrub_and_retirement.md R184, 10_service_classes_and_deadlines.md R224,
10_service_classes_and_deadlines.md R226). -/
def Obligations.EffectiveDeadlineIsArrivalPlusTarget : Prop :=
  ∀ (src : ReqSrc) (sa : Nat) (write : Bool) (step : Option Nat) (s : State),
  let p := s.ctl.place sa
  (∀ slot j, s.ctl.job.jobs.find? (fun j => decide (j.slot = slot) && decide (j.phase ≠ .ended)) = some j →
    s.ctl.reqFrom (.job slot) sa = some (.port 2, le j.desc 2 1 % 8, j.deadline)) ∧
  s.ctl.reqFrom .keeper sa = some (.port 4, 7, none) ∧ s.ctl.reqFrom .moving sa = some (.port 4, s.ctl.geff R.ECC_RET_CFG_MIG_CLASS, none) ∧
  (s.ctl.reqFrom src sa = none → exec (.requestEnqueue src sa write step) s = .next s) ∧
  (∀ kind cls dl, s.ctl.reqFrom src sa = some (kind, cls, dl) → p.chan < s.ctl.nch → p.chan / 4 ∉ s.ctl.stk.feedsOpen →
    let own := s.ctl.now + match kind with
      | .port q => 8 * s.ctl.get (R.QOS_PORT_LAT_TARGET q)
      | _ => 0
    let deadline := match dl with
      | none => own
      | some d => min own d
    (step = none → ∃ t r, exec (.requestEnqueue src sa write step) s = .next t ∧
      r ∈ (t.ctl.chan p.chan).queue ++ (t.ctl.chan p.chan).waiting ∧ r.kind = kind ∧ r.cls = cls ∧ r.write = write ∧
      r.bank = p.bank ∧ r.row = p.row ∧ r.line = p.line ∧ r.sa = sa ∧ r.arrival = s.ctl.now ∧ r.deadline = deadline ∧
      (∀ q, q ∈ (s.ctl.chan p.chan).queue ++ (s.ctl.chan p.chan).waiting →
        ∃ q' ∈ (t.ctl.chan p.chan).queue ++ (t.ctl.chan p.chan).waiting, q' = { q with seq := q'.seq, entry := q'.entry }) ∧
      (∀ y, y ≠ p.chan → t.ctl.chan y = s.ctl.chan y) ∧ t.ctl.regs = s.ctl.regs ∧ s.sameStack t) ∧
    (∀ n q job, step = some n → kind = .port q → s.ctl.laneJob src = some job →
      let l := p.chan / 4 % 4
      (s.ctl.laneUp l = false → exec (.requestEnqueue src sa write step) s = .next s) ∧
      (s.ctl.laneUp l = true → ∃ t x, exec (.requestEnqueue src sa write step) s = .next t ∧
        x ∈ (t.ctl.lane l).pending ++ (t.ctl.lane l).waiting ∧ x.chan = p.chan ∧ x.port = q ∧ x.cls = cls ∧ x.write = write ∧
        x.bank = p.bank ∧ x.row = p.row ∧ x.job = job.map (fun slot => (slot, n)) ∧ x.arrival = s.ctl.now ∧ x.deadline = deadline ∧
        (∀ z, z ∈ (s.ctl.lane l).pending ++ (s.ctl.lane l).waiting →
          ∃ z' ∈ (t.ctl.lane l).pending ++ (t.ctl.lane l).waiting, z' = { z with seq := z'.seq }) ∧
        (∀ y, y ≠ l → t.ctl.lane y = s.ctl.lane y) ∧ t.ctl.regs = s.ctl.regs ∧ s.sameStack t)))

/-- Every boundary is counted; until a start completes only the choice of the reference clock is made at it, and then ownership changes,
granule states and commits that wait for it take effect, where no retirement, request, merge or figure of merit waits as well; a commit
whose shadows are bad is rejected, and REJECT stays until it is cleared, log entry 108
(11_heads_links_and_platform_time.md R262, 11_heads_links_and_platform_time.md R263, 02_stack_and_row_lanes.md R33,
03_address_views_and_layout.md R56, 03_address_views_and_layout.md R60,
07_dram_scheduling_and_refresh.md R169, 09_sealed_memory.md R194, 10_service_classes_and_deadlines.md R236,
10_service_classes_and_deadlines.md R237, 11_heads_links_and_platform_time.md R252, 11_heads_links_and_platform_time.md R255,
11_heads_links_and_platform_time.md R268). -/
def Obligations.BoundariesCountAndApplyCommits : Prop :=
  ∀ s : State,
  (s.ctl.beats = false → exec .beatBoundary s = .next s) ∧
  (s.ctl.beats = true → s.ctl.rst.awaiting ≠ 8 → (∀ ch, ∀ f ∈ (s.ctl.chan ch).flight, f.req.cls < 8) →
    ∃ t, exec .beatBoundary s = .next t ∧
    t.ctl.get R.TIM_BEAT_CNT_VALUE = min (s.ctl.get R.TIM_BEAT_CNT_VALUE + 1) (2 ^ 64 - 1) ∧
    t.ctl.lastBeatNo = s.ctl.nextBeat ∧ t.ctl.lastBeat = t.ctl.clock ∧ t.ctl.stepped = false ∧
    s.ctl.keeps t.ctl ([R.TIM_BEAT_CNT_VALUE, R.TIM_NOW_VALUE, R.CLK_STATUS_CORE_REF, R.CLK_STATUS_COAST, R.QOS_BW_META_BYTES,
      R.QOS_BW_FRG_BYTES] ++ (List.range 8).flatMap fun k => [R.QOS_BW_RD_BYTES k, R.QOS_BW_WR_BYTES k]) ∧
    ((∀ ch, (s.ctl.chan ch).flight = []) →
      s.ctl.keeps t.ctl [R.TIM_BEAT_CNT_VALUE, R.TIM_NOW_VALUE, R.CLK_STATUS_CORE_REF, R.CLK_STATUS_COAST]) ∧
    ((s.ctl.clk.monitor = false ∨ s.ctl.bestRef = 0) → t.ctl.get R.CLK_STATUS_CORE_REF = s.ctl.get R.CLK_STATUS_CORE_REF ∧
      t.ctl.get R.CLK_STATUS_COAST = s.ctl.get R.CLK_STATUS_COAST) ∧ s.sameStack t) ∧
  (s.ctl.lastBeatNo < s.ctl.nextBeat ∧ s.ctl.now < 3900 * s.ctl.nextBeat) ∧
  (s.ctl.beats = true → s.ctl.rst.awaiting = 8 → s.ctl.rst.quiesce = 0 → s.ctl.ecc.causes = [] → s.ctl.stk.tsvHits = [] →
    s.ctl.stk.memWait = [] → s.ctl.ecc.merges = [] → s.ctl.phy.fomPend = [] → (∀ e ∈ s.ctl.sea.dirty, e.2.1 < 64) →
    (∀ ch, ∀ f ∈ (s.ctl.chan ch).flight, f.req.cls < 8) →
    let idle : Head → Prop := fun h => (s.ctl.hd h).mbox.pend = none
    let noSeal := s.ctl.sea.sealing = [] ∧ s.ctl.sea.unseals = [] ∧ s.ctl.sea.toUnv = []
    ((∀ h, idle h) → noSeal → ∃ t, exec .beatBoundary s = .next t ∧ t.ctl.lastBeatNo = s.ctl.nextBeat ∧
      t.ctl.get R.TIM_BEAT_CNT_VALUE = min (s.ctl.get R.TIM_BEAT_CNT_VALUE + 1) (2 ^ 64 - 1) ∧ t.ctl.stkPend = false ∧
      t.pending = s.pending ∧
      let act := s.ctl.get R.STK_ACT_CFG_SH_ACT_MAX
      let share := s.ctl.get R.STK_ACT_CFG_SH_ROW_SHARE
      (s.ctl.stkPend = true → act ≠ 0 → share ≤ act → act < 256 →
        t.ctl.get R.STK_ACT_CFG_ACT_MAX = act ∧ t.ctl.get R.STK_ACT_CFG_ROW_SHARE = share) ∧
      (s.ctl.stkPend = true → act = 0 ∨ act < share → t.ctl.get R.STK_COMMIT_REJECT = 1 ∧
        t.ctl.get R.STK_ACT_CFG_ACT_MAX = s.ctl.get R.STK_ACT_CFG_ACT_MAX) ∧
      (s.ctl.get R.MAP_COMMIT_PENDING ≠ 0 → t.ctl.get R.MAP_COMMIT_PENDING = 0 ∧
        (s.ctl.combShadowBad = true → t.ctl.get R.MAP_COMMIT_REJECT = 1 ∧
          ∀ n, n < 16 → t.ctl.get (R.MAP_COMB_LO_EN n) = s.ctl.get (R.MAP_COMB_LO_EN n)) ∧
        (s.ctl.combShadowBad = false → ∀ n, n < 16 → t.ctl.get (R.MAP_COMB_LO_EN n) = s.ctl.get (R.MAP_COMB_SH_LO_EN n) ∧
          t.ctl.get (R.MAP_COMB_LO_BASE_BAND n) = s.ctl.get (R.MAP_COMB_SH_LO_BASE_BAND n) ∧
          t.ctl.get (R.MAP_COMB_HI_BANDS n) = s.ctl.get (R.MAP_COMB_SH_HI_BANDS n))) ∧
      (s.ctl.get R.QOS_SCHED_COMMIT_PENDING ≠ 0 → t.ctl.get R.QOS_SCHED_COMMIT_PENDING = 0 ∧
        (s.ctl.schedShadowBad = true → t.ctl.get R.QOS_SCHED_COMMIT_REJECT = 1 ∧
          ∀ p, p < 5 → t.ctl.get (R.QOS_PORT_LAT_TARGET p) = s.ctl.get (R.QOS_PORT_LAT_TARGET p)) ∧
        (s.ctl.schedShadowBad = false →
          t.ctl.get R.QOS_INGEST_CFG_PANIC_ON = s.ctl.get R.QOS_INGEST_CFG_SH_PANIC_ON ∧
          t.ctl.get R.QOS_INGEST_CFG_PANIC_OFF = s.ctl.get R.QOS_INGEST_CFG_SH_PANIC_OFF ∧
          ∀ p, p < 5 → t.ctl.get (R.QOS_PORT_LAT_TARGET p) = s.ctl.get (R.QOS_PORT_LAT_SH_TARGET p) ∧
            t.ctl.get (R.QOS_PORT_LAT_RAMP p) = s.ctl.get (R.QOS_PORT_LAT_SH_RAMP p))) ∧
      (s.ctl.get R.QOS_CLASS_COMMIT_PENDING ≠ 0 → t.ctl.get R.QOS_CLASS_COMMIT_PENDING = 0 ∧
        ((∃ k, k < 8 ∧ 128 < s.ctl.get (R.QOS_CLASS_CFG_SH_LIMIT k)) → t.ctl.get R.QOS_CLASS_COMMIT_REJECT = 1 ∧
          t.ctl.get R.QOS_CLASS_COMMIT_CAUSE = 1 ∧
          ∀ k, k < 8 → t.ctl.get (R.QOS_CLASS_CFG_LIMIT k) = s.ctl.get (R.QOS_CLASS_CFG_LIMIT k)) ∧
        ((∀ k, k < 8 → s.ctl.get (R.QOS_CLASS_CFG_SH_LIMIT k) ≤ 128 ∧ s.ctl.get (R.QOS_CLASS_CFG_SH_LANE_LIMIT k) ≤ 256 ∧
            s.ctl.get (R.QOS_CLASS_CFG_SH_RESERVE k) ≤ s.ctl.get (R.QOS_CLASS_CFG_RESERVE k) ∧
            (s.ctl.get (R.QOS_CLASS_CFG_SH_RESERVE k) = 0 ∨ s.ctl.get (R.QOS_CLASS_CFG_SH_LIMIT k) ≠ 0)) →
          (∀ i w, i < 2 → w < 8 → s.ctl.get (R.QOS_WIN_SH_LO_EN i w) = 0) →
          ∀ k, k < 8 → t.ctl.get (R.QOS_CLASS_CFG_LIMIT k) = s.ctl.get (R.QOS_CLASS_CFG_SH_LIMIT k) ∧
            t.ctl.get (R.QOS_CLASS_CFG_LANE_LIMIT k) = s.ctl.get (R.QOS_CLASS_CFG_SH_LANE_LIMIT k) ∧
            t.ctl.get (R.QOS_CLASS_CFG_RESERVE k) = s.ctl.get (R.QOS_CLASS_CFG_SH_RESERVE k))) ∧
      (s.ctl.snapPend = true → (∀ ch, (s.ctl.chan ch).flight = []) → t.ctl.snapPend = false ∧ t.ctl.get R.QOS_BW_SNAP_CTL_DONE = 1 ∧
        t.ctl.get R.QOS_BW_SNAP_TIME_TIME = t.ctl.now ∧
        ∀ k, k < 8 → t.ctl.get (R.QOS_BW_SRD_BYTES k) = s.ctl.get (R.QOS_BW_RD_BYTES k) ∧
          t.ctl.get (R.QOS_BW_SWR_BYTES k) = s.ctl.get (R.QOS_BW_WR_BYTES k))) ∧
    (∀ h q, (s.ctl.hd h).mbox.pend = some q → q.wait = .boundary → idle h.other → noSeal →
      let gives : Ocs → (State → Prop) → Prop := fun o f => ∃ t, exec .beatBoundary s = .next t ∧ t.replied h q.op o [] ∧
        t.pending = s.pending ∧ f t
      let a := le q.payload 0 1
      let b := le q.payload 1 1
      (q.op = 0xC154 → a < 64 → b < 64 → gives .ok fun t =>
        t.ctl.get (R.MAP_GRAN_ASSIGNED a) = 1 ∧ t.ctl.get (R.MAP_GRAN_PART a) = b) ∧
      (q.op = 0xC154 → a < 64 → b = 0xFF → gives .ok fun t => t.ctl.get (R.MAP_GRAN_ASSIGNED a) = 0) ∧
      (q.op = opPartGive → a < 64 → gives .ok fun t => t.ctl.partOwner a = Head.ofNum b) ∧
      (q.op = 0xC151 → s.ctl.fenced h.other = false → gives .invalidParameter fun t =>
        ∀ n, n < 64 → t.ctl.partOwner n = s.ctl.partOwner n) ∧
      (q.op = 0xC151 → s.ctl.fenced h.other = true → s.ctl.hstate h.other = 5 → s.ctl.get R.STX_ADOPT_ACTIVE = 0 →
        gives .ok fun t => (∀ n, n < 64 → t.ctl.partOwner n = h) ∧ t.ctl.get (R.HD_STATE_ADOPTED h.other.num) = 1 ∧
          t.ctl.get R.STX_ADOPT_ACTIVE = 1 ∧ t.ctl.get R.STX_ADOPT_FROM = h.other.num) ∧
      (q.op = 0xC152 → s.ctl.mayRejoin h = false → gives .invalidParameter fun t => t.ctl.hstate h = s.ctl.hstate h) ∧
      (q.op = 0xC152 → s.ctl.mayRejoin h = true → gives .ok fun t => t.ctl.hstate h = 2 ∧
        t.ctl.get (R.HD_STATE_ADOPTED h.num) = 0) ∧
      (q.op = 0xC156 → gives .ok fun t => t.ctl.get (R.HD_FENCE_CFG_TIMEOUT_MS h.num) = le q.payload 2 2 ∧
        t.ctl.get R.TIM_CFG_PREFER = le q.payload 4 1 % 2)) ∧
    ((∀ h, idle h) → s.ctl.sea.erased = [] → s.ctl.sea.dropUnv = [] → ∀ g, g < 64 →
      let state : State → Nat := fun t => t.ctl.get (R.SEA_GRAN_STATE g)
      (s.ctl.sea.unseals = [g] → s.ctl.sea.toUnv = [] → s.ctl.sea.sealing = [] →
        ∃ t, exec .beatBoundary s = .next t ∧ state t = 0 ∧ t.ctl.sea.unseals = []) ∧
      (s.ctl.sea.unseals = [] → s.ctl.sea.toUnv = [g] → s.ctl.sea.sealing = [] → state s = 2 →
        ∃ t, exec .beatBoundary s = .next t ∧ state t = 3) ∧
      (∀ j, s.ctl.sea.unseals = [] → s.ctl.sea.toUnv = [] → s.ctl.sea.sealing = [j] → j.gran = g →
        (j.step = 2 → ∃ t, exec .beatBoundary s = .next t ∧ state t = 2 ∧ t.ctl.sea.sealing = []) ∧
        (j.step = 0 → s.ctl.kpr.phase = 3 → j.slot < 1024 → s.ctl.get (R.SEA_KEY_STAT_EPOCH j.slot) ≠ 0xFFFF →
          ∃ t, exec .beatBoundary s = .next t ∧ state t = 1 ∧ t.ctl.get (R.SEA_GRAN_KEY_SLOT g) = j.slot ∧
            t.ctl.get (R.SEA_KEY_STAT_EPOCH j.slot) = s.ctl.get (R.SEA_KEY_STAT_EPOCH j.slot) + 1 ∧
            t.ctl.get (R.SEA_GRAN_EPOCH g) = s.ctl.get (R.SEA_KEY_STAT_EPOCH j.slot) + 1))))
end

