-- ==== Sys2Proof/Laws/State.lean ====
section
/-! SUPPORT. One lemma per field per update of `Ctl` and `State`: what each of the named updates leaves alone and what it
sets, so that no proof unfolds a record update. Generated from the fields of Machine/State.lean. -/

namespace Sys2Proof.Machine

/-! ## Changes of the control side -/

@[simp] theorem State.mapCtl_ctl (s : State) (f : Ctl → Ctl) : (s.mapCtl f).ctl = f s.ctl := rfl
@[simp] theorem State.mapCtl_mem (s : State) (f : Ctl → Ctl) : (s.mapCtl f).mem = s.mem := rfl
@[simp] theorem State.mapCtl_lines (s : State) (f : Ctl → Ctl) : (s.mapCtl f).lines = s.lines := rfl
@[simp] theorem State.mapCtl_pending (s : State) (f : Ctl → Ctl) : (s.mapCtl f).pending = s.pending := rfl
@[simp] theorem State.mapCtl_mapCtl (s : State) (f g : Ctl → Ctl) :
    (s.mapCtl f).mapCtl g = s.mapCtl fun c => g (f c) := rfl

/-! ## A register field set -/

@[simp] theorem Ctl.set_part (c : Ctl) (x : Fld) (v : Nat) : (c.set x v).part = c.part := rfl
@[simp] theorem Ctl.set_eff (c : Ctl) (x : Fld) (v : Nat) : (c.set x v).eff = c.eff := rfl
@[simp] theorem Ctl.set_snap (c : Ctl) (x : Fld) (v : Nat) : (c.set x v).snap = c.snap := rfl
@[simp] theorem Ctl.set_claims (c : Ctl) (x : Fld) (v : Nat) : (c.set x v).claims = c.claims := rfl
@[simp] theorem Ctl.set_clock (c : Ctl) (x : Fld) (v : Nat) : (c.set x v).clock = c.clock := rfl
@[simp] theorem Ctl.set_lastBeat (c : Ctl) (x : Fld) (v : Nat) : (c.set x v).lastBeat = c.lastBeat := rfl
@[simp] theorem Ctl.set_lastBeatNo (c : Ctl) (x : Fld) (v : Nat) : (c.set x v).lastBeatNo = c.lastBeatNo := rfl
@[simp] theorem Ctl.set_stepped (c : Ctl) (x : Fld) (v : Nat) : (c.set x v).stepped = c.stepped := rfl
@[simp] theorem Ctl.set_holdDue (c : Ctl) (x : Fld) (v : Nat) : (c.set x v).holdDue = c.holdDue := rfl
@[simp] theorem Ctl.set_preferDue (c : Ctl) (x : Fld) (v : Nat) : (c.set x v).preferDue = c.preferDue := rfl
@[simp] theorem Ctl.set_timeBase (c : Ctl) (x : Fld) (v : Nat) : (c.set x v).timeBase = c.timeBase := rfl
@[simp] theorem Ctl.set_slew (c : Ctl) (x : Fld) (v : Nat) : (c.set x v).slew = c.slew := rfl
@[simp] theorem Ctl.set_slewAcc (c : Ctl) (x : Fld) (v : Nat) : (c.set x v).slewAcc = c.slewAcc := rfl
@[simp] theorem Ctl.set_rate (c : Ctl) (x : Fld) (v : Nat) : (c.set x v).rate = c.rate := rfl
@[simp] theorem Ctl.set_rateAcc (c : Ctl) (x : Fld) (v : Nat) : (c.set x v).rateAcc = c.rateAcc := rfl
@[simp] theorem Ctl.set_lastRead (c : Ctl) (x : Fld) (v : Nat) : (c.set x v).lastRead = c.lastRead := rfl
@[simp] theorem Ctl.set_headsStrap (c : Ctl) (x : Fld) (v : Nat) : (c.set x v).headsStrap = c.headsStrap := rfl
@[simp] theorem Ctl.set_stkPend (c : Ctl) (x : Fld) (v : Nat) : (c.set x v).stkPend = c.stkPend := rfl
@[simp] theorem Ctl.set_snapPend (c : Ctl) (x : Fld) (v : Nat) : (c.set x v).snapPend = c.snapPend := rfl
@[simp] theorem Ctl.set_free (c : Ctl) (x : Fld) (v : Nat) : (c.set x v).free = c.free := rfl
@[simp] theorem Ctl.set_outbox (c : Ctl) (x : Fld) (v : Nat) : (c.set x v).outbox = c.outbox := rfl
@[simp] theorem Ctl.set_hdA (c : Ctl) (x : Fld) (v : Nat) : (c.set x v).hdA = c.hdA := rfl
@[simp] theorem Ctl.set_hdB (c : Ctl) (x : Fld) (v : Nat) : (c.set x v).hdB = c.hdB := rfl
@[simp] theorem Ctl.set_flt (c : Ctl) (x : Fld) (v : Nat) : (c.set x v).flt = c.flt := rfl
@[simp] theorem Ctl.set_kpr (c : Ctl) (x : Fld) (v : Nat) : (c.set x v).kpr = c.kpr := rfl
@[simp] theorem Ctl.set_job (c : Ctl) (x : Fld) (v : Nat) : (c.set x v).job = c.job := rfl
@[simp] theorem Ctl.set_dec (c : Ctl) (x : Fld) (v : Nat) : (c.set x v).dec = c.dec := rfl
@[simp] theorem Ctl.set_stx (c : Ctl) (x : Fld) (v : Nat) : (c.set x v).stx = c.stx := rfl
@[simp] theorem Ctl.set_stk (c : Ctl) (x : Fld) (v : Nat) : (c.set x v).stk = c.stk := rfl
@[simp] theorem Ctl.set_ecc (c : Ctl) (x : Fld) (v : Nat) : (c.set x v).ecc = c.ecc := rfl
@[simp] theorem Ctl.set_frg (c : Ctl) (x : Fld) (v : Nat) : (c.set x v).frg = c.frg := rfl
@[simp] theorem Ctl.set_sea (c : Ctl) (x : Fld) (v : Nat) : (c.set x v).sea = c.sea := rfl
@[simp] theorem Ctl.set_qos (c : Ctl) (x : Fld) (v : Nat) : (c.set x v).qos = c.qos := rfl
@[simp] theorem Ctl.set_rst (c : Ctl) (x : Fld) (v : Nat) : (c.set x v).rst = c.rst := rfl
@[simp] theorem Ctl.set_clk (c : Ctl) (x : Fld) (v : Nat) : (c.set x v).clk = c.clk := rfl
@[simp] theorem Ctl.set_fus (c : Ctl) (x : Fld) (v : Nat) : (c.set x v).fus = c.fus := rfl
@[simp] theorem Ctl.set_cal (c : Ctl) (x : Fld) (v : Nat) : (c.set x v).cal = c.cal := rfl
@[simp] theorem Ctl.set_thm (c : Ctl) (x : Fld) (v : Nat) : (c.set x v).thm = c.thm := rfl
@[simp] theorem Ctl.set_phy (c : Ctl) (x : Fld) (v : Nat) : (c.set x v).phy = c.phy := rfl
@[simp] theorem Ctl.set_sbp (c : Ctl) (x : Fld) (v : Nat) : (c.set x v).sbp = c.sbp := rfl

/-! ## A counter raised -/

@[simp] theorem Ctl.bump_part (c : Ctl) (x : Fld) (n : Nat) : (c.bump x n).part = c.part := rfl
@[simp] theorem Ctl.bump_eff (c : Ctl) (x : Fld) (n : Nat) : (c.bump x n).eff = c.eff := rfl
@[simp] theorem Ctl.bump_snap (c : Ctl) (x : Fld) (n : Nat) : (c.bump x n).snap = c.snap := rfl
@[simp] theorem Ctl.bump_claims (c : Ctl) (x : Fld) (n : Nat) : (c.bump x n).claims = c.claims := rfl
@[simp] theorem Ctl.bump_clock (c : Ctl) (x : Fld) (n : Nat) : (c.bump x n).clock = c.clock := rfl
@[simp] theorem Ctl.bump_lastBeat (c : Ctl) (x : Fld) (n : Nat) : (c.bump x n).lastBeat = c.lastBeat := rfl
@[simp] theorem Ctl.bump_lastBeatNo (c : Ctl) (x : Fld) (n : Nat) : (c.bump x n).lastBeatNo = c.lastBeatNo := rfl
@[simp] theorem Ctl.bump_stepped (c : Ctl) (x : Fld) (n : Nat) : (c.bump x n).stepped = c.stepped := rfl
@[simp] theorem Ctl.bump_holdDue (c : Ctl) (x : Fld) (n : Nat) : (c.bump x n).holdDue = c.holdDue := rfl
@[simp] theorem Ctl.bump_preferDue (c : Ctl) (x : Fld) (n : Nat) : (c.bump x n).preferDue = c.preferDue := rfl
@[simp] theorem Ctl.bump_timeBase (c : Ctl) (x : Fld) (n : Nat) : (c.bump x n).timeBase = c.timeBase := rfl
@[simp] theorem Ctl.bump_slew (c : Ctl) (x : Fld) (n : Nat) : (c.bump x n).slew = c.slew := rfl
@[simp] theorem Ctl.bump_slewAcc (c : Ctl) (x : Fld) (n : Nat) : (c.bump x n).slewAcc = c.slewAcc := rfl
@[simp] theorem Ctl.bump_rate (c : Ctl) (x : Fld) (n : Nat) : (c.bump x n).rate = c.rate := rfl
@[simp] theorem Ctl.bump_rateAcc (c : Ctl) (x : Fld) (n : Nat) : (c.bump x n).rateAcc = c.rateAcc := rfl
@[simp] theorem Ctl.bump_lastRead (c : Ctl) (x : Fld) (n : Nat) : (c.bump x n).lastRead = c.lastRead := rfl
@[simp] theorem Ctl.bump_headsStrap (c : Ctl) (x : Fld) (n : Nat) : (c.bump x n).headsStrap = c.headsStrap := rfl
@[simp] theorem Ctl.bump_stkPend (c : Ctl) (x : Fld) (n : Nat) : (c.bump x n).stkPend = c.stkPend := rfl
@[simp] theorem Ctl.bump_snapPend (c : Ctl) (x : Fld) (n : Nat) : (c.bump x n).snapPend = c.snapPend := rfl
@[simp] theorem Ctl.bump_free (c : Ctl) (x : Fld) (n : Nat) : (c.bump x n).free = c.free := rfl
@[simp] theorem Ctl.bump_outbox (c : Ctl) (x : Fld) (n : Nat) : (c.bump x n).outbox = c.outbox := rfl
@[simp] theorem Ctl.bump_hdA (c : Ctl) (x : Fld) (n : Nat) : (c.bump x n).hdA = c.hdA := rfl
@[simp] theorem Ctl.bump_hdB (c : Ctl) (x : Fld) (n : Nat) : (c.bump x n).hdB = c.hdB := rfl
@[simp] theorem Ctl.bump_flt (c : Ctl) (x : Fld) (n : Nat) : (c.bump x n).flt = c.flt := rfl
@[simp] theorem Ctl.bump_kpr (c : Ctl) (x : Fld) (n : Nat) : (c.bump x n).kpr = c.kpr := rfl
@[simp] theorem Ctl.bump_job (c : Ctl) (x : Fld) (n : Nat) : (c.bump x n).job = c.job := rfl
@[simp] theorem Ctl.bump_dec (c : Ctl) (x : Fld) (n : Nat) : (c.bump x n).dec = c.dec := rfl
@[simp] theorem Ctl.bump_stx (c : Ctl) (x : Fld) (n : Nat) : (c.bump x n).stx = c.stx := rfl
@[simp] theorem Ctl.bump_stk (c : Ctl) (x : Fld) (n : Nat) : (c.bump x n).stk = c.stk := rfl
@[simp] theorem Ctl.bump_ecc (c : Ctl) (x : Fld) (n : Nat) : (c.bump x n).ecc = c.ecc := rfl
@[simp] theorem Ctl.bump_frg (c : Ctl) (x : Fld) (n : Nat) : (c.bump x n).frg = c.frg := rfl
@[simp] theorem Ctl.bump_sea (c : Ctl) (x : Fld) (n : Nat) : (c.bump x n).sea = c.sea := rfl
@[simp] theorem Ctl.bump_qos (c : Ctl) (x : Fld) (n : Nat) : (c.bump x n).qos = c.qos := rfl
@[simp] theorem Ctl.bump_rst (c : Ctl) (x : Fld) (n : Nat) : (c.bump x n).rst = c.rst := rfl
@[simp] theorem Ctl.bump_clk (c : Ctl) (x : Fld) (n : Nat) : (c.bump x n).clk = c.clk := rfl
@[simp] theorem Ctl.bump_fus (c : Ctl) (x : Fld) (n : Nat) : (c.bump x n).fus = c.fus := rfl
@[simp] theorem Ctl.bump_cal (c : Ctl) (x : Fld) (n : Nat) : (c.bump x n).cal = c.cal := rfl
@[simp] theorem Ctl.bump_thm (c : Ctl) (x : Fld) (n : Nat) : (c.bump x n).thm = c.thm := rfl
@[simp] theorem Ctl.bump_phy (c : Ctl) (x : Fld) (n : Nat) : (c.bump x n).phy = c.phy := rfl
@[simp] theorem Ctl.bump_sbp (c : Ctl) (x : Fld) (n : Nat) : (c.bump x n).sbp = c.sbp := rfl

/-! ## Something sent -/

@[simp] theorem Ctl.emit_part (c : Ctl) (o : Out) : (c.emit o).part = c.part := rfl
@[simp] theorem Ctl.emit_regs (c : Ctl) (o : Out) : (c.emit o).regs = c.regs := rfl
@[simp] theorem Ctl.emit_eff (c : Ctl) (o : Out) : (c.emit o).eff = c.eff := rfl
@[simp] theorem Ctl.emit_snap (c : Ctl) (o : Out) : (c.emit o).snap = c.snap := rfl
@[simp] theorem Ctl.emit_claims (c : Ctl) (o : Out) : (c.emit o).claims = c.claims := rfl
@[simp] theorem Ctl.emit_clock (c : Ctl) (o : Out) : (c.emit o).clock = c.clock := rfl
@[simp] theorem Ctl.emit_lastBeat (c : Ctl) (o : Out) : (c.emit o).lastBeat = c.lastBeat := rfl
@[simp] theorem Ctl.emit_lastBeatNo (c : Ctl) (o : Out) : (c.emit o).lastBeatNo = c.lastBeatNo := rfl
@[simp] theorem Ctl.emit_stepped (c : Ctl) (o : Out) : (c.emit o).stepped = c.stepped := rfl
@[simp] theorem Ctl.emit_holdDue (c : Ctl) (o : Out) : (c.emit o).holdDue = c.holdDue := rfl
@[simp] theorem Ctl.emit_preferDue (c : Ctl) (o : Out) : (c.emit o).preferDue = c.preferDue := rfl
@[simp] theorem Ctl.emit_timeBase (c : Ctl) (o : Out) : (c.emit o).timeBase = c.timeBase := rfl
@[simp] theorem Ctl.emit_slew (c : Ctl) (o : Out) : (c.emit o).slew = c.slew := rfl
@[simp] theorem Ctl.emit_slewAcc (c : Ctl) (o : Out) : (c.emit o).slewAcc = c.slewAcc := rfl
@[simp] theorem Ctl.emit_rate (c : Ctl) (o : Out) : (c.emit o).rate = c.rate := rfl
@[simp] theorem Ctl.emit_rateAcc (c : Ctl) (o : Out) : (c.emit o).rateAcc = c.rateAcc := rfl
@[simp] theorem Ctl.emit_lastRead (c : Ctl) (o : Out) : (c.emit o).lastRead = c.lastRead := rfl
@[simp] theorem Ctl.emit_headsStrap (c : Ctl) (o : Out) : (c.emit o).headsStrap = c.headsStrap := rfl
@[simp] theorem Ctl.emit_stkPend (c : Ctl) (o : Out) : (c.emit o).stkPend = c.stkPend := rfl
@[simp] theorem Ctl.emit_snapPend (c : Ctl) (o : Out) : (c.emit o).snapPend = c.snapPend := rfl
@[simp] theorem Ctl.emit_free (c : Ctl) (o : Out) : (c.emit o).free = c.free := rfl
@[simp] theorem Ctl.emit_hdA (c : Ctl) (o : Out) : (c.emit o).hdA = c.hdA := rfl
@[simp] theorem Ctl.emit_hdB (c : Ctl) (o : Out) : (c.emit o).hdB = c.hdB := rfl
@[simp] theorem Ctl.emit_flt (c : Ctl) (o : Out) : (c.emit o).flt = c.flt := rfl
@[simp] theorem Ctl.emit_kpr (c : Ctl) (o : Out) : (c.emit o).kpr = c.kpr := rfl
@[simp] theorem Ctl.emit_job (c : Ctl) (o : Out) : (c.emit o).job = c.job := rfl
@[simp] theorem Ctl.emit_dec (c : Ctl) (o : Out) : (c.emit o).dec = c.dec := rfl
@[simp] theorem Ctl.emit_stx (c : Ctl) (o : Out) : (c.emit o).stx = c.stx := rfl
@[simp] theorem Ctl.emit_stk (c : Ctl) (o : Out) : (c.emit o).stk = c.stk := rfl
@[simp] theorem Ctl.emit_ecc (c : Ctl) (o : Out) : (c.emit o).ecc = c.ecc := rfl
@[simp] theorem Ctl.emit_frg (c : Ctl) (o : Out) : (c.emit o).frg = c.frg := rfl
@[simp] theorem Ctl.emit_sea (c : Ctl) (o : Out) : (c.emit o).sea = c.sea := rfl
@[simp] theorem Ctl.emit_qos (c : Ctl) (o : Out) : (c.emit o).qos = c.qos := rfl
@[simp] theorem Ctl.emit_rst (c : Ctl) (o : Out) : (c.emit o).rst = c.rst := rfl
@[simp] theorem Ctl.emit_clk (c : Ctl) (o : Out) : (c.emit o).clk = c.clk := rfl
@[simp] theorem Ctl.emit_fus (c : Ctl) (o : Out) : (c.emit o).fus = c.fus := rfl
@[simp] theorem Ctl.emit_cal (c : Ctl) (o : Out) : (c.emit o).cal = c.cal := rfl
@[simp] theorem Ctl.emit_thm (c : Ctl) (o : Out) : (c.emit o).thm = c.thm := rfl
@[simp] theorem Ctl.emit_phy (c : Ctl) (o : Out) : (c.emit o).phy = c.phy := rfl
@[simp] theorem Ctl.emit_sbp (c : Ctl) (o : Out) : (c.emit o).sbp = c.sbp := rfl

@[simp] theorem Ctl.emit_outbox (c : Ctl) (o : Out) : (c.emit o).outbox = o :: c.outbox := rfl

/-! ## What is kept for a head -/

@[simp] theorem Ctl.setHd_part (c : Ctl) (h : Head) (x : HeadSt) : (c.setHd h x).part = c.part := by cases h <;> rfl
@[simp] theorem Ctl.setHd_regs (c : Ctl) (h : Head) (x : HeadSt) : (c.setHd h x).regs = c.regs := by cases h <;> rfl
@[simp] theorem Ctl.setHd_eff (c : Ctl) (h : Head) (x : HeadSt) : (c.setHd h x).eff = c.eff := by cases h <;> rfl
@[simp] theorem Ctl.setHd_snap (c : Ctl) (h : Head) (x : HeadSt) : (c.setHd h x).snap = c.snap := by cases h <;> rfl
@[simp] theorem Ctl.setHd_claims (c : Ctl) (h : Head) (x : HeadSt) : (c.setHd h x).claims = c.claims := by cases h <;> rfl
@[simp] theorem Ctl.setHd_clock (c : Ctl) (h : Head) (x : HeadSt) : (c.setHd h x).clock = c.clock := by cases h <;> rfl
@[simp] theorem Ctl.setHd_lastBeat (c : Ctl) (h : Head) (x : HeadSt) : (c.setHd h x).lastBeat = c.lastBeat := by cases h <;> rfl
@[simp] theorem Ctl.setHd_lastBeatNo (c : Ctl) (h : Head) (x : HeadSt) : (c.setHd h x).lastBeatNo = c.lastBeatNo := by cases h <;> rfl
@[simp] theorem Ctl.setHd_stepped (c : Ctl) (h : Head) (x : HeadSt) : (c.setHd h x).stepped = c.stepped := by cases h <;> rfl
@[simp] theorem Ctl.setHd_holdDue (c : Ctl) (h : Head) (x : HeadSt) : (c.setHd h x).holdDue = c.holdDue := by cases h <;> rfl
@[simp] theorem Ctl.setHd_preferDue (c : Ctl) (h : Head) (x : HeadSt) : (c.setHd h x).preferDue = c.preferDue := by cases h <;> rfl
@[simp] theorem Ctl.setHd_timeBase (c : Ctl) (h : Head) (x : HeadSt) : (c.setHd h x).timeBase = c.timeBase := by cases h <;> rfl
@[simp] theorem Ctl.setHd_slew (c : Ctl) (h : Head) (x : HeadSt) : (c.setHd h x).slew = c.slew := by cases h <;> rfl
@[simp] theorem Ctl.setHd_slewAcc (c : Ctl) (h : Head) (x : HeadSt) : (c.setHd h x).slewAcc = c.slewAcc := by cases h <;> rfl
@[simp] theorem Ctl.setHd_rate (c : Ctl) (h : Head) (x : HeadSt) : (c.setHd h x).rate = c.rate := by cases h <;> rfl
@[simp] theorem Ctl.setHd_rateAcc (c : Ctl) (h : Head) (x : HeadSt) : (c.setHd h x).rateAcc = c.rateAcc := by cases h <;> rfl
@[simp] theorem Ctl.setHd_lastRead (c : Ctl) (h : Head) (x : HeadSt) : (c.setHd h x).lastRead = c.lastRead := by cases h <;> rfl
@[simp] theorem Ctl.setHd_headsStrap (c : Ctl) (h : Head) (x : HeadSt) : (c.setHd h x).headsStrap = c.headsStrap := by cases h <;> rfl
@[simp] theorem Ctl.setHd_stkPend (c : Ctl) (h : Head) (x : HeadSt) : (c.setHd h x).stkPend = c.stkPend := by cases h <;> rfl
@[simp] theorem Ctl.setHd_snapPend (c : Ctl) (h : Head) (x : HeadSt) : (c.setHd h x).snapPend = c.snapPend := by cases h <;> rfl
@[simp] theorem Ctl.setHd_free (c : Ctl) (h : Head) (x : HeadSt) : (c.setHd h x).free = c.free := by cases h <;> rfl
@[simp] theorem Ctl.setHd_outbox (c : Ctl) (h : Head) (x : HeadSt) : (c.setHd h x).outbox = c.outbox := by cases h <;> rfl
@[simp] theorem Ctl.setHd_flt (c : Ctl) (h : Head) (x : HeadSt) : (c.setHd h x).flt = c.flt := by cases h <;> rfl
@[simp] theorem Ctl.setHd_kpr (c : Ctl) (h : Head) (x : HeadSt) : (c.setHd h x).kpr = c.kpr := by cases h <;> rfl
@[simp] theorem Ctl.setHd_job (c : Ctl) (h : Head) (x : HeadSt) : (c.setHd h x).job = c.job := by cases h <;> rfl
@[simp] theorem Ctl.setHd_dec (c : Ctl) (h : Head) (x : HeadSt) : (c.setHd h x).dec = c.dec := by cases h <;> rfl
@[simp] theorem Ctl.setHd_stx (c : Ctl) (h : Head) (x : HeadSt) : (c.setHd h x).stx = c.stx := by cases h <;> rfl
@[simp] theorem Ctl.setHd_stk (c : Ctl) (h : Head) (x : HeadSt) : (c.setHd h x).stk = c.stk := by cases h <;> rfl
@[simp] theorem Ctl.setHd_ecc (c : Ctl) (h : Head) (x : HeadSt) : (c.setHd h x).ecc = c.ecc := by cases h <;> rfl
@[simp] theorem Ctl.setHd_frg (c : Ctl) (h : Head) (x : HeadSt) : (c.setHd h x).frg = c.frg := by cases h <;> rfl
@[simp] theorem Ctl.setHd_sea (c : Ctl) (h : Head) (x : HeadSt) : (c.setHd h x).sea = c.sea := by cases h <;> rfl
@[simp] theorem Ctl.setHd_qos (c : Ctl) (h : Head) (x : HeadSt) : (c.setHd h x).qos = c.qos := by cases h <;> rfl
@[simp] theorem Ctl.setHd_rst (c : Ctl) (h : Head) (x : HeadSt) : (c.setHd h x).rst = c.rst := by cases h <;> rfl
@[simp] theorem Ctl.setHd_clk (c : Ctl) (h : Head) (x : HeadSt) : (c.setHd h x).clk = c.clk := by cases h <;> rfl
@[simp] theorem Ctl.setHd_fus (c : Ctl) (h : Head) (x : HeadSt) : (c.setHd h x).fus = c.fus := by cases h <;> rfl
@[simp] theorem Ctl.setHd_cal (c : Ctl) (h : Head) (x : HeadSt) : (c.setHd h x).cal = c.cal := by cases h <;> rfl
@[simp] theorem Ctl.setHd_thm (c : Ctl) (h : Head) (x : HeadSt) : (c.setHd h x).thm = c.thm := by cases h <;> rfl
@[simp] theorem Ctl.setHd_phy (c : Ctl) (h : Head) (x : HeadSt) : (c.setHd h x).phy = c.phy := by cases h <;> rfl
@[simp] theorem Ctl.setHd_sbp (c : Ctl) (h : Head) (x : HeadSt) : (c.setHd h x).sbp = c.sbp := by cases h <;> rfl

@[simp] theorem Ctl.modHd_part (c : Ctl) (h : Head) (g : HeadSt → HeadSt) : (c.modHd h g).part = c.part := by cases h <;> rfl
@[simp] theorem Ctl.modHd_regs (c : Ctl) (h : Head) (g : HeadSt → HeadSt) : (c.modHd h g).regs = c.regs := by cases h <;> rfl
@[simp] theorem Ctl.modHd_eff (c : Ctl) (h : Head) (g : HeadSt → HeadSt) : (c.modHd h g).eff = c.eff := by cases h <;> rfl
@[simp] theorem Ctl.modHd_snap (c : Ctl) (h : Head) (g : HeadSt → HeadSt) : (c.modHd h g).snap = c.snap := by cases h <;> rfl
@[simp] theorem Ctl.modHd_claims (c : Ctl) (h : Head) (g : HeadSt → HeadSt) : (c.modHd h g).claims = c.claims := by cases h <;> rfl
@[simp] theorem Ctl.modHd_clock (c : Ctl) (h : Head) (g : HeadSt → HeadSt) : (c.modHd h g).clock = c.clock := by cases h <;> rfl
@[simp] theorem Ctl.modHd_lastBeat (c : Ctl) (h : Head) (g : HeadSt → HeadSt) : (c.modHd h g).lastBeat = c.lastBeat := by cases h <;> rfl
@[simp] theorem Ctl.modHd_lastBeatNo (c : Ctl) (h : Head) (g : HeadSt → HeadSt) : (c.modHd h g).lastBeatNo = c.lastBeatNo := by cases h <;> rfl
@[simp] theorem Ctl.modHd_stepped (c : Ctl) (h : Head) (g : HeadSt → HeadSt) : (c.modHd h g).stepped = c.stepped := by cases h <;> rfl
@[simp] theorem Ctl.modHd_holdDue (c : Ctl) (h : Head) (g : HeadSt → HeadSt) : (c.modHd h g).holdDue = c.holdDue := by cases h <;> rfl
@[simp] theorem Ctl.modHd_preferDue (c : Ctl) (h : Head) (g : HeadSt → HeadSt) : (c.modHd h g).preferDue = c.preferDue := by cases h <;> rfl
@[simp] theorem Ctl.modHd_timeBase (c : Ctl) (h : Head) (g : HeadSt → HeadSt) : (c.modHd h g).timeBase = c.timeBase := by cases h <;> rfl
@[simp] theorem Ctl.modHd_slew (c : Ctl) (h : Head) (g : HeadSt → HeadSt) : (c.modHd h g).slew = c.slew := by cases h <;> rfl
@[simp] theorem Ctl.modHd_slewAcc (c : Ctl) (h : Head) (g : HeadSt → HeadSt) : (c.modHd h g).slewAcc = c.slewAcc := by cases h <;> rfl
@[simp] theorem Ctl.modHd_rate (c : Ctl) (h : Head) (g : HeadSt → HeadSt) : (c.modHd h g).rate = c.rate := by cases h <;> rfl
@[simp] theorem Ctl.modHd_rateAcc (c : Ctl) (h : Head) (g : HeadSt → HeadSt) : (c.modHd h g).rateAcc = c.rateAcc := by cases h <;> rfl
@[simp] theorem Ctl.modHd_lastRead (c : Ctl) (h : Head) (g : HeadSt → HeadSt) : (c.modHd h g).lastRead = c.lastRead := by cases h <;> rfl
@[simp] theorem Ctl.modHd_headsStrap (c : Ctl) (h : Head) (g : HeadSt → HeadSt) : (c.modHd h g).headsStrap = c.headsStrap := by cases h <;> rfl
@[simp] theorem Ctl.modHd_stkPend (c : Ctl) (h : Head) (g : HeadSt → HeadSt) : (c.modHd h g).stkPend = c.stkPend := by cases h <;> rfl
@[simp] theorem Ctl.modHd_snapPend (c : Ctl) (h : Head) (g : HeadSt → HeadSt) : (c.modHd h g).snapPend = c.snapPend := by cases h <;> rfl
@[simp] theorem Ctl.modHd_free (c : Ctl) (h : Head) (g : HeadSt → HeadSt) : (c.modHd h g).free = c.free := by cases h <;> rfl
@[simp] theorem Ctl.modHd_outbox (c : Ctl) (h : Head) (g : HeadSt → HeadSt) : (c.modHd h g).outbox = c.outbox := by cases h <;> rfl
@[simp] theorem Ctl.modHd_flt (c : Ctl) (h : Head) (g : HeadSt → HeadSt) : (c.modHd h g).flt = c.flt := by cases h <;> rfl
@[simp] theorem Ctl.modHd_kpr (c : Ctl) (h : Head) (g : HeadSt → HeadSt) : (c.modHd h g).kpr = c.kpr := by cases h <;> rfl
@[simp] theorem Ctl.modHd_job (c : Ctl) (h : Head) (g : HeadSt → HeadSt) : (c.modHd h g).job = c.job := by cases h <;> rfl
@[simp] theorem Ctl.modHd_dec (c : Ctl) (h : Head) (g : HeadSt → HeadSt) : (c.modHd h g).dec = c.dec := by cases h <;> rfl
@[simp] theorem Ctl.modHd_stx (c : Ctl) (h : Head) (g : HeadSt → HeadSt) : (c.modHd h g).stx = c.stx := by cases h <;> rfl
@[simp] theorem Ctl.modHd_stk (c : Ctl) (h : Head) (g : HeadSt → HeadSt) : (c.modHd h g).stk = c.stk := by cases h <;> rfl
@[simp] theorem Ctl.modHd_ecc (c : Ctl) (h : Head) (g : HeadSt → HeadSt) : (c.modHd h g).ecc = c.ecc := by cases h <;> rfl
@[simp] theorem Ctl.modHd_frg (c : Ctl) (h : Head) (g : HeadSt → HeadSt) : (c.modHd h g).frg = c.frg := by cases h <;> rfl
@[simp] theorem Ctl.modHd_sea (c : Ctl) (h : Head) (g : HeadSt → HeadSt) : (c.modHd h g).sea = c.sea := by cases h <;> rfl
@[simp] theorem Ctl.modHd_qos (c : Ctl) (h : Head) (g : HeadSt → HeadSt) : (c.modHd h g).qos = c.qos := by cases h <;> rfl
@[simp] theorem Ctl.modHd_rst (c : Ctl) (h : Head) (g : HeadSt → HeadSt) : (c.modHd h g).rst = c.rst := by cases h <;> rfl
@[simp] theorem Ctl.modHd_clk (c : Ctl) (h : Head) (g : HeadSt → HeadSt) : (c.modHd h g).clk = c.clk := by cases h <;> rfl
@[simp] theorem Ctl.modHd_fus (c : Ctl) (h : Head) (g : HeadSt → HeadSt) : (c.modHd h g).fus = c.fus := by cases h <;> rfl
@[simp] theorem Ctl.modHd_cal (c : Ctl) (h : Head) (g : HeadSt → HeadSt) : (c.modHd h g).cal = c.cal := by cases h <;> rfl
@[simp] theorem Ctl.modHd_thm (c : Ctl) (h : Head) (g : HeadSt → HeadSt) : (c.modHd h g).thm = c.thm := by cases h <;> rfl
@[simp] theorem Ctl.modHd_phy (c : Ctl) (h : Head) (g : HeadSt → HeadSt) : (c.modHd h g).phy = c.phy := by cases h <;> rfl
@[simp] theorem Ctl.modHd_sbp (c : Ctl) (h : Head) (g : HeadSt → HeadSt) : (c.modHd h g).sbp = c.sbp := by cases h <;> rfl

@[simp] theorem Ctl.setHd_hd (c : Ctl) (h : Head) (x : HeadSt) : (c.setHd h x).hd h = x := by cases h <;> rfl
@[simp] theorem Ctl.modHd_hd (c : Ctl) (h : Head) (g : HeadSt → HeadSt) : (c.modHd h g).hd h = g (c.hd h) := by
  cases h <;> rfl
theorem Ctl.setHd_hd_ne (c : Ctl) (h k : Head) (x : HeadSt) (n : k ≠ h) : (c.setHd h x).hd k = c.hd k := by
  cases h <;> cases k <;> first | rfl | exact absurd rfl n
theorem Ctl.modHd_hd_ne (c : Ctl) (h k : Head) (g : HeadSt → HeadSt) (n : k ≠ h) : (c.modHd h g).hd k = c.hd k :=
  c.setHd_hd_ne h k _ n
@[simp] theorem Ctl.set_hd (c : Ctl) (x : Fld) (v : Nat) (h : Head) : (c.set x v).hd h = c.hd h := by cases h <;> rfl
@[simp] theorem Ctl.bump_hd (c : Ctl) (x : Fld) (n : Nat) (h : Head) : (c.bump x n).hd h = c.hd h := by cases h <;> rfl
@[simp] theorem Ctl.emit_hd (c : Ctl) (o : Out) (h : Head) : (c.emit o).hd h = c.hd h := by cases h <;> rfl
@[simp] theorem Ctl.fresh_hd (c : Ctl) (h : Head) : (c.fresh.2).hd h = c.hd h := by cases h <;> rfl

/-! ## Sparse maps -/

@[simp] theorem mapGet_nil {κ ν : Type} [DecidableEq κ] (k : κ) : mapGet ([] : List (κ × ν)) k = none := rfl

theorem mapGet_mapDel_same {κ ν : Type} [DecidableEq κ] (l : List (κ × ν)) (k : κ) : mapGet (mapDel l k) k = none := by
  induction l with
  | nil => rfl
  | cons e t ih =>
    by_cases h : e.1 = k
    · simp [mapDel, h] at ih ⊢; exact ih
    · simp only [mapDel, List.filter, h, ne_eq, not_false_eq_true, decide_true, mapGet]
      rw [if_neg (fun e' => h e'.symm)]; exact ih

theorem mapGet_mapDel_ne {κ ν : Type} [DecidableEq κ] (l : List (κ × ν)) (k j : κ) (n : j ≠ k) :
    mapGet (mapDel l k) j = mapGet l j := by
  induction l with
  | nil => rfl
  | cons e t ih =>
    obtain ⟨a, b⟩ := e
    by_cases h : a = k
    · subst h
      have : mapDel ((a, b) :: t) a = mapDel t a := by simp [mapDel]
      rw [this, ih]; simp [mapGet, n]
    · have : mapDel ((a, b) :: t) k = (a, b) :: mapDel t k := by simp [mapDel, h]
      rw [this]; simp only [mapGet]; rw [ih]

@[simp] theorem mapGet_mapPut_same {κ ν : Type} [DecidableEq κ] (l : List (κ × ν)) (k : κ) (v : ν) :
    mapGet (mapPut l k v) k = some v := by simp [mapPut, mapGet]

theorem mapGet_mapPut_ne {κ ν : Type} [DecidableEq κ] (l : List (κ × ν)) (k j : κ) (v : ν) (n : j ≠ k) :
    mapGet (mapPut l k v) j = mapGet l j := by
  simp only [mapPut, mapGet, if_neg n]; exact mapGet_mapDel_ne l k j n

/-! ## Register fields -/

@[simp] theorem Ctl.get_set_same (c : Ctl) (x : Fld) (v : Nat) : (c.set x v).get x = v % 2 ^ x.width := by
  simp [Ctl.get, Ctl.set]

theorem Ctl.get_set_ne (c : Ctl) (x y : Fld) (v : Nat) (n : y.key ≠ x.key) : (c.set x v).get y = c.get y := by
  simp [Ctl.get, Ctl.set, mapGet_mapPut_ne _ _ _ _ n]

theorem Ctl.get_bump_ne (c : Ctl) (x y : Fld) (k : Nat) (n : y.key ≠ x.key) : (c.bump x k).get y = c.get y :=
  c.get_set_ne x y _ n

@[simp] theorem Ctl.get_emit (c : Ctl) (o : Out) (x : Fld) : (c.emit o).get x = c.get x := rfl
@[simp] theorem Ctl.get_setHd (c : Ctl) (h : Head) (v : HeadSt) (x : Fld) : (c.setHd h v).get x = c.get x := by
  cases h <;> rfl
@[simp] theorem Ctl.get_modHd (c : Ctl) (h : Head) (g : HeadSt → HeadSt) (x : Fld) : (c.modHd h g).get x = c.get x := by
  cases h <;> rfl

/-- A field read depends on the listed registers only. -/
theorem Ctl.get_congr (c d : Ctl) (e : c.regs = d.regs) (x : Fld) : c.get x = d.get x := by simp [Ctl.get, e]

end Sys2Proof.Machine
end

