-- ==== Sys2Proof/Laws/Mailbox.lean ====
section
/-! SUPPORT. What the shared reports can do: MSI-X messages, mailbox completions, waiting commands, claims. One lemma says
everything an operation may change; the lemmas per field follow from it. -/

namespace Sys2Proof.Machine

/-- A message changes what is kept for its head and the outbox, and nothing else. -/
theorem Ctl.msix_frame (c : Ctl) (h : Head) (v : Nat) :
    c.msix h v = { c.setHd h ((c.msix h v).hd h) with outbox := (c.msix h v).outbox } := by
  unfold Ctl.msix
  dsimp only
  repeat' split
  all_goals cases h <;> rfl

/-- Of what is kept for a head, a message changes its pending vectors and what waits for its link. -/
theorem Ctl.msix_kept (c : Ctl) (h : Head) (v : Nat) :
    (c.msix h v).hd h =
      { c.hd h with msixPend := ((c.msix h v).hd h).msixPend, waiting := ((c.msix h v).hd h).waiting } := by
  unfold Ctl.msix
  dsimp only
  repeat' split
  all_goals cases h <;> rfl

theorem Ctl.msix_eq (c : Ctl) (h : Head) (v : Nat) :
    ∃ x ob, c.msix h v = { c.setHd h x with outbox := ob } ∧ x.mbox = (c.hd h).mbox ∧ x.logs = (c.hd h).logs ∧
      x.hdm = (c.hd h).hdm :=
  ⟨_, _, c.msix_frame h v, by rw [c.msix_kept h v], by rw [c.msix_kept h v], by rw [c.msix_kept h v]⟩

@[simp] theorem Ctl.msix_mbox (c : Ctl) (h : Head) (v : Nat) : ((c.msix h v).hd h).mbox = (c.hd h).mbox := by
  obtain ⟨x, ob, e, m, -⟩ := c.msix_eq h v
  rw [e, ← m]; cases h <;> rfl

theorem Ctl.msix_hd_ne (c : Ctl) (h k : Head) (v : Nat) (n : k ≠ h) : (c.msix h v).hd k = c.hd k := by
  obtain ⟨x, ob, e, -⟩ := c.msix_eq h v
  rw [e]; cases h <;> cases k <;> first | rfl | exact absurd rfl n

@[simp] theorem Ctl.msix_part (c : Ctl) (h : Head) (v : Nat) : (c.msix h v).part = c.part := by
  obtain ⟨x, ob, e, -⟩ := c.msix_eq h v; rw [e]; cases h <;> rfl
@[simp] theorem Ctl.msix_regs (c : Ctl) (h : Head) (v : Nat) : (c.msix h v).regs = c.regs := by
  obtain ⟨x, ob, e, -⟩ := c.msix_eq h v; rw [e]; cases h <;> rfl
@[simp] theorem Ctl.msix_eff (c : Ctl) (h : Head) (v : Nat) : (c.msix h v).eff = c.eff := by
  obtain ⟨x, ob, e, -⟩ := c.msix_eq h v; rw [e]; cases h <;> rfl
@[simp] theorem Ctl.msix_snap (c : Ctl) (h : Head) (v : Nat) : (c.msix h v).snap = c.snap := by
  obtain ⟨x, ob, e, -⟩ := c.msix_eq h v; rw [e]; cases h <;> rfl
@[simp] theorem Ctl.msix_claims (c : Ctl) (h : Head) (v : Nat) : (c.msix h v).claims = c.claims := by
  obtain ⟨x, ob, e, -⟩ := c.msix_eq h v; rw [e]; cases h <;> rfl
@[simp] theorem Ctl.msix_clock (c : Ctl) (h : Head) (v : Nat) : (c.msix h v).clock = c.clock := by
  obtain ⟨x, ob, e, -⟩ := c.msix_eq h v; rw [e]; cases h <;> rfl
@[simp] theorem Ctl.msix_lastBeat (c : Ctl) (h : Head) (v : Nat) : (c.msix h v).lastBeat = c.lastBeat := by
  obtain ⟨x, ob, e, -⟩ := c.msix_eq h v; rw [e]; cases h <;> rfl
@[simp] theorem Ctl.msix_lastBeatNo (c : Ctl) (h : Head) (v : Nat) : (c.msix h v).lastBeatNo = c.lastBeatNo := by
  obtain ⟨x, ob, e, -⟩ := c.msix_eq h v; rw [e]; cases h <;> rfl
@[simp] theorem Ctl.msix_stepped (c : Ctl) (h : Head) (v : Nat) : (c.msix h v).stepped = c.stepped := by
  obtain ⟨x, ob, e, -⟩ := c.msix_eq h v; rw [e]; cases h <;> rfl
@[simp] theorem Ctl.msix_holdDue (c : Ctl) (h : Head) (v : Nat) : (c.msix h v).holdDue = c.holdDue := by
  obtain ⟨x, ob, e, -⟩ := c.msix_eq h v; rw [e]; cases h <;> rfl
@[simp] theorem Ctl.msix_preferDue (c : Ctl) (h : Head) (v : Nat) : (c.msix h v).preferDue = c.preferDue := by
  obtain ⟨x, ob, e, -⟩ := c.msix_eq h v; rw [e]; cases h <;> rfl
@[simp] theorem Ctl.msix_timeBase (c : Ctl) (h : Head) (v : Nat) : (c.msix h v).timeBase = c.timeBase := by
  obtain ⟨x, ob, e, -⟩ := c.msix_eq h v; rw [e]; cases h <;> rfl
@[simp] theorem Ctl.msix_slew (c : Ctl) (h : Head) (v : Nat) : (c.msix h v).slew = c.slew := by
  obtain ⟨x, ob, e, -⟩ := c.msix_eq h v; rw [e]; cases h <;> rfl
@[simp] theorem Ctl.msix_slewAcc (c : Ctl) (h : Head) (v : Nat) : (c.msix h v).slewAcc = c.slewAcc := by
  obtain ⟨x, ob, e, -⟩ := c.msix_eq h v; rw [e]; cases h <;> rfl
@[simp] theorem Ctl.msix_rate (c : Ctl) (h : Head) (v : Nat) : (c.msix h v).rate = c.rate := by
  obtain ⟨x, ob, e, -⟩ := c.msix_eq h v; rw [e]; cases h <;> rfl
@[simp] theorem Ctl.msix_rateAcc (c : Ctl) (h : Head) (v : Nat) : (c.msix h v).rateAcc = c.rateAcc := by
  obtain ⟨x, ob, e, -⟩ := c.msix_eq h v; rw [e]; cases h <;> rfl
@[simp] theorem Ctl.msix_lastRead (c : Ctl) (h : Head) (v : Nat) : (c.msix h v).lastRead = c.lastRead := by
  obtain ⟨x, ob, e, -⟩ := c.msix_eq h v; rw [e]; cases h <;> rfl
@[simp] theorem Ctl.msix_headsStrap (c : Ctl) (h : Head) (v : Nat) : (c.msix h v).headsStrap = c.headsStrap := by
  obtain ⟨x, ob, e, -⟩ := c.msix_eq h v; rw [e]; cases h <;> rfl
@[simp] theorem Ctl.msix_stkPend (c : Ctl) (h : Head) (v : Nat) : (c.msix h v).stkPend = c.stkPend := by
  obtain ⟨x, ob, e, -⟩ := c.msix_eq h v; rw [e]; cases h <;> rfl
@[simp] theorem Ctl.msix_snapPend (c : Ctl) (h : Head) (v : Nat) : (c.msix h v).snapPend = c.snapPend := by
  obtain ⟨x, ob, e, -⟩ := c.msix_eq h v; rw [e]; cases h <;> rfl
@[simp] theorem Ctl.msix_free (c : Ctl) (h : Head) (v : Nat) : (c.msix h v).free = c.free := by
  obtain ⟨x, ob, e, -⟩ := c.msix_eq h v; rw [e]; cases h <;> rfl
@[simp] theorem Ctl.msix_flt (c : Ctl) (h : Head) (v : Nat) : (c.msix h v).flt = c.flt := by
  obtain ⟨x, ob, e, -⟩ := c.msix_eq h v; rw [e]; cases h <;> rfl
@[simp] theorem Ctl.msix_kpr (c : Ctl) (h : Head) (v : Nat) : (c.msix h v).kpr = c.kpr := by
  obtain ⟨x, ob, e, -⟩ := c.msix_eq h v; rw [e]; cases h <;> rfl
@[simp] theorem Ctl.msix_job (c : Ctl) (h : Head) (v : Nat) : (c.msix h v).job = c.job := by
  obtain ⟨x, ob, e, -⟩ := c.msix_eq h v; rw [e]; cases h <;> rfl
@[simp] theorem Ctl.msix_dec (c : Ctl) (h : Head) (v : Nat) : (c.msix h v).dec = c.dec := by
  obtain ⟨x, ob, e, -⟩ := c.msix_eq h v; rw [e]; cases h <;> rfl
@[simp] theorem Ctl.msix_stx (c : Ctl) (h : Head) (v : Nat) : (c.msix h v).stx = c.stx := by
  obtain ⟨x, ob, e, -⟩ := c.msix_eq h v; rw [e]; cases h <;> rfl
@[simp] theorem Ctl.msix_stk (c : Ctl) (h : Head) (v : Nat) : (c.msix h v).stk = c.stk := by
  obtain ⟨x, ob, e, -⟩ := c.msix_eq h v; rw [e]; cases h <;> rfl
@[simp] theorem Ctl.msix_ecc (c : Ctl) (h : Head) (v : Nat) : (c.msix h v).ecc = c.ecc := by
  obtain ⟨x, ob, e, -⟩ := c.msix_eq h v; rw [e]; cases h <;> rfl
@[simp] theorem Ctl.msix_frg (c : Ctl) (h : Head) (v : Nat) : (c.msix h v).frg = c.frg := by
  obtain ⟨x, ob, e, -⟩ := c.msix_eq h v; rw [e]; cases h <;> rfl
@[simp] theorem Ctl.msix_sea (c : Ctl) (h : Head) (v : Nat) : (c.msix h v).sea = c.sea := by
  obtain ⟨x, ob, e, -⟩ := c.msix_eq h v; rw [e]; cases h <;> rfl
@[simp] theorem Ctl.msix_qos (c : Ctl) (h : Head) (v : Nat) : (c.msix h v).qos = c.qos := by
  obtain ⟨x, ob, e, -⟩ := c.msix_eq h v; rw [e]; cases h <;> rfl
@[simp] theorem Ctl.msix_rst (c : Ctl) (h : Head) (v : Nat) : (c.msix h v).rst = c.rst := by
  obtain ⟨x, ob, e, -⟩ := c.msix_eq h v; rw [e]; cases h <;> rfl
@[simp] theorem Ctl.msix_clk (c : Ctl) (h : Head) (v : Nat) : (c.msix h v).clk = c.clk := by
  obtain ⟨x, ob, e, -⟩ := c.msix_eq h v; rw [e]; cases h <;> rfl
@[simp] theorem Ctl.msix_fus (c : Ctl) (h : Head) (v : Nat) : (c.msix h v).fus = c.fus := by
  obtain ⟨x, ob, e, -⟩ := c.msix_eq h v; rw [e]; cases h <;> rfl
@[simp] theorem Ctl.msix_cal (c : Ctl) (h : Head) (v : Nat) : (c.msix h v).cal = c.cal := by
  obtain ⟨x, ob, e, -⟩ := c.msix_eq h v; rw [e]; cases h <;> rfl
@[simp] theorem Ctl.msix_thm (c : Ctl) (h : Head) (v : Nat) : (c.msix h v).thm = c.thm := by
  obtain ⟨x, ob, e, -⟩ := c.msix_eq h v; rw [e]; cases h <;> rfl
@[simp] theorem Ctl.msix_phy (c : Ctl) (h : Head) (v : Nat) : (c.msix h v).phy = c.phy := by
  obtain ⟨x, ob, e, -⟩ := c.msix_eq h v; rw [e]; cases h <;> rfl
@[simp] theorem Ctl.msix_sbp (c : Ctl) (h : Head) (v : Nat) : (c.msix h v).sbp = c.sbp := by
  obtain ⟨x, ob, e, -⟩ := c.msix_eq h v; rw [e]; cases h <;> rfl

/-- A message sent on top of a change of a head's state, the claims and the outbox changes the same three. -/
theorem Ctl.msix_over (c : Ctl) (h : Head) (v : Nat) (y : HeadSt) (cl : List (Nat × Head)) (o : List Out) :
    ∃ x ob, ({ c.setHd h y with claims := cl, outbox := o } : Ctl).msix h v = { c.setHd h x with claims := cl, outbox := ob } ∧
      x.mbox = y.mbox := by
  obtain ⟨x, ob, e, m, -⟩ := Ctl.msix_eq { c.setHd h y with claims := cl, outbox := o } h v
  refine ⟨x, ob, ?_, ?_⟩
  · rw [e]; cases h <;> rfl
  · rw [m]; cases h <;> rfl

/-- A completion changes what is kept for its head, the claims and the outbox, and nothing else; the completion stands in
the mailbox and no command is in progress. -/
theorem Ctl.finishAs_eq (c : Ctl) (h : Head) (op rc ocs : Nat) (out : Bytes) :
    ∃ x cl ob, c.finishAs h op rc ocs out = { c.setHd h x with claims := cl, outbox := ob } ∧
      x.mbox = { (c.hd h).mbox with pend := none, last := some ⟨op, rc, ocs, out⟩ } ∧
      cl = c.claims.filter (fun e => decide (e.2 ≠ h) || decide (256 ≤ e.1)) := by
  generalize hy : ({ c.hd h with mbox := { (c.hd h).mbox with pend := none, last := some ⟨op, rc, ocs, out⟩ } } : HeadSt) = y
  have d : c.finishAs h op rc ocs out = if y.mbox.doorbellIrq = true
      then ({ c.setHd h y with
        claims := c.claims.filter (fun e => decide (e.2 ≠ h) || decide (256 ≤ e.1))
        outbox := .mailbox h ⟨op, rc, ocs, out⟩ :: c.outbox } : Ctl).msix h 0
      else ({ c.setHd h y with
        claims := c.claims.filter (fun e => decide (e.2 ≠ h) || decide (256 ≤ e.1))
        outbox := .mailbox h ⟨op, rc, ocs, out⟩ :: c.outbox } : Ctl) := by
    subst hy; cases h <;> rfl
  have m : y.mbox = { (c.hd h).mbox with pend := none, last := some ⟨op, rc, ocs, out⟩ } := by subst hy; rfl
  rw [d]
  split
  · obtain ⟨x, ob, e, k⟩ := c.msix_over h 0 y (c.claims.filter (fun e => decide (e.2 ≠ h) || decide (256 ≤ e.1)))
      (.mailbox h ⟨op, rc, ocs, out⟩ :: c.outbox)
    exact ⟨x, _, ob, e, k.trans m, rfl⟩
  · exact ⟨y, _, _, rfl, m, rfl⟩

theorem Ctl.finishAs_last (c : Ctl) (h : Head) (op rc ocs : Nat) (out : Bytes) :
    ((c.finishAs h op rc ocs out).hd h).mbox.last = some ⟨op, rc, ocs, out⟩ := by
  obtain ⟨x, cl, ob, e, m, -⟩ := c.finishAs_eq h op rc ocs out
  rw [e]; cases h <;> exact (congrArg Mailbox.last m)

theorem Ctl.finishAs_pend (c : Ctl) (h : Head) (op rc ocs : Nat) (out : Bytes) :
    ((c.finishAs h op rc ocs out).hd h).mbox.pend = none := by
  obtain ⟨x, cl, ob, e, m, -⟩ := c.finishAs_eq h op rc ocs out
  rw [e]; cases h <;> exact (congrArg Mailbox.pend m)

theorem Ctl.finishAs_bg (c : Ctl) (h : Head) (op rc ocs : Nat) (out : Bytes) :
    ((c.finishAs h op rc ocs out).hd h).mbox.bg = (c.hd h).mbox.bg := by
  obtain ⟨x, cl, ob, e, m, -⟩ := c.finishAs_eq h op rc ocs out
  rw [e]
  have k := congrArg Mailbox.bg m
  cases h <;> exact k

theorem Ctl.finishAs_hd_ne (c : Ctl) (h k : Head) (op rc ocs : Nat) (out : Bytes) (n : k ≠ h) :
    (c.finishAs h op rc ocs out).hd k = c.hd k := by
  obtain ⟨x, cl, ob, e, -⟩ := c.finishAs_eq h op rc ocs out
  rw [e]; cases h <;> cases k <;> first | rfl | exact absurd rfl n

@[simp] theorem Ctl.finishAs_part (c : Ctl) (h : Head) (op rc ocs : Nat) (out : Bytes) : (c.finishAs h op rc ocs out).part = c.part := by
  obtain ⟨x, cl, ob, e, -⟩ := c.finishAs_eq h op rc ocs out; rw [e]; cases h <;> rfl
@[simp] theorem Ctl.finishAs_regs (c : Ctl) (h : Head) (op rc ocs : Nat) (out : Bytes) : (c.finishAs h op rc ocs out).regs = c.regs := by
  obtain ⟨x, cl, ob, e, -⟩ := c.finishAs_eq h op rc ocs out; rw [e]; cases h <;> rfl
@[simp] theorem Ctl.finishAs_eff (c : Ctl) (h : Head) (op rc ocs : Nat) (out : Bytes) : (c.finishAs h op rc ocs out).eff = c.eff := by
  obtain ⟨x, cl, ob, e, -⟩ := c.finishAs_eq h op rc ocs out; rw [e]; cases h <;> rfl
@[simp] theorem Ctl.finishAs_snap (c : Ctl) (h : Head) (op rc ocs : Nat) (out : Bytes) : (c.finishAs h op rc ocs out).snap = c.snap := by
  obtain ⟨x, cl, ob, e, -⟩ := c.finishAs_eq h op rc ocs out; rw [e]; cases h <;> rfl
@[simp] theorem Ctl.finishAs_clock (c : Ctl) (h : Head) (op rc ocs : Nat) (out : Bytes) : (c.finishAs h op rc ocs out).clock = c.clock := by
  obtain ⟨x, cl, ob, e, -⟩ := c.finishAs_eq h op rc ocs out; rw [e]; cases h <;> rfl
@[simp] theorem Ctl.finishAs_lastBeat (c : Ctl) (h : Head) (op rc ocs : Nat) (out : Bytes) : (c.finishAs h op rc ocs out).lastBeat = c.lastBeat := by
  obtain ⟨x, cl, ob, e, -⟩ := c.finishAs_eq h op rc ocs out; rw [e]; cases h <;> rfl
@[simp] theorem Ctl.finishAs_lastBeatNo (c : Ctl) (h : Head) (op rc ocs : Nat) (out : Bytes) : (c.finishAs h op rc ocs out).lastBeatNo = c.lastBeatNo := by
  obtain ⟨x, cl, ob, e, -⟩ := c.finishAs_eq h op rc ocs out; rw [e]; cases h <;> rfl
@[simp] theorem Ctl.finishAs_stepped (c : Ctl) (h : Head) (op rc ocs : Nat) (out : Bytes) : (c.finishAs h op rc ocs out).stepped = c.stepped := by
  obtain ⟨x, cl, ob, e, -⟩ := c.finishAs_eq h op rc ocs out; rw [e]; cases h <;> rfl
@[simp] theorem Ctl.finishAs_holdDue (c : Ctl) (h : Head) (op rc ocs : Nat) (out : Bytes) : (c.finishAs h op rc ocs out).holdDue = c.holdDue := by
  obtain ⟨x, cl, ob, e, -⟩ := c.finishAs_eq h op rc ocs out; rw [e]; cases h <;> rfl
@[simp] theorem Ctl.finishAs_preferDue (c : Ctl) (h : Head) (op rc ocs : Nat) (out : Bytes) : (c.finishAs h op rc ocs out).preferDue = c.preferDue := by
  obtain ⟨x, cl, ob, e, -⟩ := c.finishAs_eq h op rc ocs out; rw [e]; cases h <;> rfl
@[simp] theorem Ctl.finishAs_timeBase (c : Ctl) (h : Head) (op rc ocs : Nat) (out : Bytes) : (c.finishAs h op rc ocs out).timeBase = c.timeBase := by
  obtain ⟨x, cl, ob, e, -⟩ := c.finishAs_eq h op rc ocs out; rw [e]; cases h <;> rfl
@[simp] theorem Ctl.finishAs_slew (c : Ctl) (h : Head) (op rc ocs : Nat) (out : Bytes) : (c.finishAs h op rc ocs out).slew = c.slew := by
  obtain ⟨x, cl, ob, e, -⟩ := c.finishAs_eq h op rc ocs out; rw [e]; cases h <;> rfl
@[simp] theorem Ctl.finishAs_slewAcc (c : Ctl) (h : Head) (op rc ocs : Nat) (out : Bytes) : (c.finishAs h op rc ocs out).slewAcc = c.slewAcc := by
  obtain ⟨x, cl, ob, e, -⟩ := c.finishAs_eq h op rc ocs out; rw [e]; cases h <;> rfl
@[simp] theorem Ctl.finishAs_rate (c : Ctl) (h : Head) (op rc ocs : Nat) (out : Bytes) : (c.finishAs h op rc ocs out).rate = c.rate := by
  obtain ⟨x, cl, ob, e, -⟩ := c.finishAs_eq h op rc ocs out; rw [e]; cases h <;> rfl
@[simp] theorem Ctl.finishAs_rateAcc (c : Ctl) (h : Head) (op rc ocs : Nat) (out : Bytes) : (c.finishAs h op rc ocs out).rateAcc = c.rateAcc := by
  obtain ⟨x, cl, ob, e, -⟩ := c.finishAs_eq h op rc ocs out; rw [e]; cases h <;> rfl
@[simp] theorem Ctl.finishAs_lastRead (c : Ctl) (h : Head) (op rc ocs : Nat) (out : Bytes) : (c.finishAs h op rc ocs out).lastRead = c.lastRead := by
  obtain ⟨x, cl, ob, e, -⟩ := c.finishAs_eq h op rc ocs out; rw [e]; cases h <;> rfl
@[simp] theorem Ctl.finishAs_headsStrap (c : Ctl) (h : Head) (op rc ocs : Nat) (out : Bytes) : (c.finishAs h op rc ocs out).headsStrap = c.headsStrap := by
  obtain ⟨x, cl, ob, e, -⟩ := c.finishAs_eq h op rc ocs out; rw [e]; cases h <;> rfl
@[simp] theorem Ctl.finishAs_stkPend (c : Ctl) (h : Head) (op rc ocs : Nat) (out : Bytes) : (c.finishAs h op rc ocs out).stkPend = c.stkPend := by
  obtain ⟨x, cl, ob, e, -⟩ := c.finishAs_eq h op rc ocs out; rw [e]; cases h <;> rfl
@[simp] theorem Ctl.finishAs_snapPend (c : Ctl) (h : Head) (op rc ocs : Nat) (out : Bytes) : (c.finishAs h op rc ocs out).snapPend = c.snapPend := by
  obtain ⟨x, cl, ob, e, -⟩ := c.finishAs_eq h op rc ocs out; rw [e]; cases h <;> rfl
@[simp] theorem Ctl.finishAs_free (c : Ctl) (h : Head) (op rc ocs : Nat) (out : Bytes) : (c.finishAs h op rc ocs out).free = c.free := by
  obtain ⟨x, cl, ob, e, -⟩ := c.finishAs_eq h op rc ocs out; rw [e]; cases h <;> rfl
@[simp] theorem Ctl.finishAs_flt (c : Ctl) (h : Head) (op rc ocs : Nat) (out : Bytes) : (c.finishAs h op rc ocs out).flt = c.flt := by
  obtain ⟨x, cl, ob, e, -⟩ := c.finishAs_eq h op rc ocs out; rw [e]; cases h <;> rfl
@[simp] theorem Ctl.finishAs_kpr (c : Ctl) (h : Head) (op rc ocs : Nat) (out : Bytes) : (c.finishAs h op rc ocs out).kpr = c.kpr := by
  obtain ⟨x, cl, ob, e, -⟩ := c.finishAs_eq h op rc ocs out; rw [e]; cases h <;> rfl
@[simp] theorem Ctl.finishAs_job (c : Ctl) (h : Head) (op rc ocs : Nat) (out : Bytes) : (c.finishAs h op rc ocs out).job = c.job := by
  obtain ⟨x, cl, ob, e, -⟩ := c.finishAs_eq h op rc ocs out; rw [e]; cases h <;> rfl
@[simp] theorem Ctl.finishAs_dec (c : Ctl) (h : Head) (op rc ocs : Nat) (out : Bytes) : (c.finishAs h op rc ocs out).dec = c.dec := by
  obtain ⟨x, cl, ob, e, -⟩ := c.finishAs_eq h op rc ocs out; rw [e]; cases h <;> rfl
@[simp] theorem Ctl.finishAs_stx (c : Ctl) (h : Head) (op rc ocs : Nat) (out : Bytes) : (c.finishAs h op rc ocs out).stx = c.stx := by
  obtain ⟨x, cl, ob, e, -⟩ := c.finishAs_eq h op rc ocs out; rw [e]; cases h <;> rfl
@[simp] theorem Ctl.finishAs_stk (c : Ctl) (h : Head) (op rc ocs : Nat) (out : Bytes) : (c.finishAs h op rc ocs out).stk = c.stk := by
  obtain ⟨x, cl, ob, e, -⟩ := c.finishAs_eq h op rc ocs out; rw [e]; cases h <;> rfl
@[simp] theorem Ctl.finishAs_ecc (c : Ctl) (h : Head) (op rc ocs : Nat) (out : Bytes) : (c.finishAs h op rc ocs out).ecc = c.ecc := by
  obtain ⟨x, cl, ob, e, -⟩ := c.finishAs_eq h op rc ocs out; rw [e]; cases h <;> rfl
@[simp] theorem Ctl.finishAs_frg (c : Ctl) (h : Head) (op rc ocs : Nat) (out : Bytes) : (c.finishAs h op rc ocs out).frg = c.frg := by
  obtain ⟨x, cl, ob, e, -⟩ := c.finishAs_eq h op rc ocs out; rw [e]; cases h <;> rfl
@[simp] theorem Ctl.finishAs_sea (c : Ctl) (h : Head) (op rc ocs : Nat) (out : Bytes) : (c.finishAs h op rc ocs out).sea = c.sea := by
  obtain ⟨x, cl, ob, e, -⟩ := c.finishAs_eq h op rc ocs out; rw [e]; cases h <;> rfl
@[simp] theorem Ctl.finishAs_qos (c : Ctl) (h : Head) (op rc ocs : Nat) (out : Bytes) : (c.finishAs h op rc ocs out).qos = c.qos := by
  obtain ⟨x, cl, ob, e, -⟩ := c.finishAs_eq h op rc ocs out; rw [e]; cases h <;> rfl
@[simp] theorem Ctl.finishAs_rst (c : Ctl) (h : Head) (op rc ocs : Nat) (out : Bytes) : (c.finishAs h op rc ocs out).rst = c.rst := by
  obtain ⟨x, cl, ob, e, -⟩ := c.finishAs_eq h op rc ocs out; rw [e]; cases h <;> rfl
@[simp] theorem Ctl.finishAs_clk (c : Ctl) (h : Head) (op rc ocs : Nat) (out : Bytes) : (c.finishAs h op rc ocs out).clk = c.clk := by
  obtain ⟨x, cl, ob, e, -⟩ := c.finishAs_eq h op rc ocs out; rw [e]; cases h <;> rfl
@[simp] theorem Ctl.finishAs_fus (c : Ctl) (h : Head) (op rc ocs : Nat) (out : Bytes) : (c.finishAs h op rc ocs out).fus = c.fus := by
  obtain ⟨x, cl, ob, e, -⟩ := c.finishAs_eq h op rc ocs out; rw [e]; cases h <;> rfl
@[simp] theorem Ctl.finishAs_cal (c : Ctl) (h : Head) (op rc ocs : Nat) (out : Bytes) : (c.finishAs h op rc ocs out).cal = c.cal := by
  obtain ⟨x, cl, ob, e, -⟩ := c.finishAs_eq h op rc ocs out; rw [e]; cases h <;> rfl
@[simp] theorem Ctl.finishAs_thm (c : Ctl) (h : Head) (op rc ocs : Nat) (out : Bytes) : (c.finishAs h op rc ocs out).thm = c.thm := by
  obtain ⟨x, cl, ob, e, -⟩ := c.finishAs_eq h op rc ocs out; rw [e]; cases h <;> rfl
@[simp] theorem Ctl.finishAs_phy (c : Ctl) (h : Head) (op rc ocs : Nat) (out : Bytes) : (c.finishAs h op rc ocs out).phy = c.phy := by
  obtain ⟨x, cl, ob, e, -⟩ := c.finishAs_eq h op rc ocs out; rw [e]; cases h <;> rfl
@[simp] theorem Ctl.finishAs_sbp (c : Ctl) (h : Head) (op rc ocs : Nat) (out : Bytes) : (c.finishAs h op rc ocs out).sbp = c.sbp := by
  obtain ⟨x, cl, ob, e, -⟩ := c.finishAs_eq h op rc ocs out; rw [e]; cases h <;> rfl

@[simp] theorem Ctl.finish_last (c : Ctl) (h : Head) (op : Nat) (o : Ocs) (out : Bytes) :
    ((c.finish h op o out).hd h).mbox.last = some ⟨op, o.rc, o.num, out⟩ := c.finishAs_last h op _ _ out
@[simp] theorem Ctl.finish_pend (c : Ctl) (h : Head) (op : Nat) (o : Ocs) (out : Bytes) :
    ((c.finish h op o out).hd h).mbox.pend = none := c.finishAs_pend h op _ _ out
@[simp] theorem Ctl.finish_bg (c : Ctl) (h : Head) (op : Nat) (o : Ocs) (out : Bytes) :
    ((c.finish h op o out).hd h).mbox.bg = (c.hd h).mbox.bg := c.finishAs_bg h op _ _ out
theorem Ctl.finish_hd_ne (c : Ctl) (h k : Head) (op : Nat) (o : Ocs) (out : Bytes) (n : k ≠ h) :
    (c.finish h op o out).hd k = c.hd k := c.finishAs_hd_ne h k op _ _ out n
@[simp] theorem Ctl.finish_part (c : Ctl) (h : Head) (op : Nat) (o : Ocs) (out : Bytes) :
    (c.finish h op o out).part = c.part := c.finishAs_part h op _ _ out
@[simp] theorem Ctl.finish_regs (c : Ctl) (h : Head) (op : Nat) (o : Ocs) (out : Bytes) :
    (c.finish h op o out).regs = c.regs := c.finishAs_regs h op _ _ out
@[simp] theorem Ctl.finish_eff (c : Ctl) (h : Head) (op : Nat) (o : Ocs) (out : Bytes) :
    (c.finish h op o out).eff = c.eff := c.finishAs_eff h op _ _ out
@[simp] theorem Ctl.finish_snap (c : Ctl) (h : Head) (op : Nat) (o : Ocs) (out : Bytes) :
    (c.finish h op o out).snap = c.snap := c.finishAs_snap h op _ _ out
@[simp] theorem Ctl.finish_clock (c : Ctl) (h : Head) (op : Nat) (o : Ocs) (out : Bytes) :
    (c.finish h op o out).clock = c.clock := c.finishAs_clock h op _ _ out
@[simp] theorem Ctl.finish_lastBeat (c : Ctl) (h : Head) (op : Nat) (o : Ocs) (out : Bytes) :
    (c.finish h op o out).lastBeat = c.lastBeat := c.finishAs_lastBeat h op _ _ out
@[simp] theorem Ctl.finish_lastBeatNo (c : Ctl) (h : Head) (op : Nat) (o : Ocs) (out : Bytes) :
    (c.finish h op o out).lastBeatNo = c.lastBeatNo := c.finishAs_lastBeatNo h op _ _ out
@[simp] theorem Ctl.finish_stepped (c : Ctl) (h : Head) (op : Nat) (o : Ocs) (out : Bytes) :
    (c.finish h op o out).stepped = c.stepped := c.finishAs_stepped h op _ _ out
@[simp] theorem Ctl.finish_holdDue (c : Ctl) (h : Head) (op : Nat) (o : Ocs) (out : Bytes) :
    (c.finish h op o out).holdDue = c.holdDue := c.finishAs_holdDue h op _ _ out
@[simp] theorem Ctl.finish_preferDue (c : Ctl) (h : Head) (op : Nat) (o : Ocs) (out : Bytes) :
    (c.finish h op o out).preferDue = c.preferDue := c.finishAs_preferDue h op _ _ out
@[simp] theorem Ctl.finish_timeBase (c : Ctl) (h : Head) (op : Nat) (o : Ocs) (out : Bytes) :
    (c.finish h op o out).timeBase = c.timeBase := c.finishAs_timeBase h op _ _ out
@[simp] theorem Ctl.finish_slew (c : Ctl) (h : Head) (op : Nat) (o : Ocs) (out : Bytes) :
    (c.finish h op o out).slew = c.slew := c.finishAs_slew h op _ _ out
@[simp] theorem Ctl.finish_slewAcc (c : Ctl) (h : Head) (op : Nat) (o : Ocs) (out : Bytes) :
    (c.finish h op o out).slewAcc = c.slewAcc := c.finishAs_slewAcc h op _ _ out
@[simp] theorem Ctl.finish_rate (c : Ctl) (h : Head) (op : Nat) (o : Ocs) (out : Bytes) :
    (c.finish h op o out).rate = c.rate := c.finishAs_rate h op _ _ out
@[simp] theorem Ctl.finish_rateAcc (c : Ctl) (h : Head) (op : Nat) (o : Ocs) (out : Bytes) :
    (c.finish h op o out).rateAcc = c.rateAcc := c.finishAs_rateAcc h op _ _ out
@[simp] theorem Ctl.finish_lastRead (c : Ctl) (h : Head) (op : Nat) (o : Ocs) (out : Bytes) :
    (c.finish h op o out).lastRead = c.lastRead := c.finishAs_lastRead h op _ _ out
@[simp] theorem Ctl.finish_headsStrap (c : Ctl) (h : Head) (op : Nat) (o : Ocs) (out : Bytes) :
    (c.finish h op o out).headsStrap = c.headsStrap := c.finishAs_headsStrap h op _ _ out
@[simp] theorem Ctl.finish_stkPend (c : Ctl) (h : Head) (op : Nat) (o : Ocs) (out : Bytes) :
    (c.finish h op o out).stkPend = c.stkPend := c.finishAs_stkPend h op _ _ out
@[simp] theorem Ctl.finish_snapPend (c : Ctl) (h : Head) (op : Nat) (o : Ocs) (out : Bytes) :
    (c.finish h op o out).snapPend = c.snapPend := c.finishAs_snapPend h op _ _ out
@[simp] theorem Ctl.finish_free (c : Ctl) (h : Head) (op : Nat) (o : Ocs) (out : Bytes) :
    (c.finish h op o out).free = c.free := c.finishAs_free h op _ _ out
@[simp] theorem Ctl.finish_flt (c : Ctl) (h : Head) (op : Nat) (o : Ocs) (out : Bytes) :
    (c.finish h op o out).flt = c.flt := c.finishAs_flt h op _ _ out
@[simp] theorem Ctl.finish_kpr (c : Ctl) (h : Head) (op : Nat) (o : Ocs) (out : Bytes) :
    (c.finish h op o out).kpr = c.kpr := c.finishAs_kpr h op _ _ out
@[simp] theorem Ctl.finish_job (c : Ctl) (h : Head) (op : Nat) (o : Ocs) (out : Bytes) :
    (c.finish h op o out).job = c.job := c.finishAs_job h op _ _ out
@[simp] theorem Ctl.finish_dec (c : Ctl) (h : Head) (op : Nat) (o : Ocs) (out : Bytes) :
    (c.finish h op o out).dec = c.dec := c.finishAs_dec h op _ _ out
@[simp] theorem Ctl.finish_stx (c : Ctl) (h : Head) (op : Nat) (o : Ocs) (out : Bytes) :
    (c.finish h op o out).stx = c.stx := c.finishAs_stx h op _ _ out
@[simp] theorem Ctl.finish_stk (c : Ctl) (h : Head) (op : Nat) (o : Ocs) (out : Bytes) :
    (c.finish h op o out).stk = c.stk := c.finishAs_stk h op _ _ out
@[simp] theorem Ctl.finish_ecc (c : Ctl) (h : Head) (op : Nat) (o : Ocs) (out : Bytes) :
    (c.finish h op o out).ecc = c.ecc := c.finishAs_ecc h op _ _ out
@[simp] theorem Ctl.finish_frg (c : Ctl) (h : Head) (op : Nat) (o : Ocs) (out : Bytes) :
    (c.finish h op o out).frg = c.frg := c.finishAs_frg h op _ _ out
@[simp] theorem Ctl.finish_sea (c : Ctl) (h : Head) (op : Nat) (o : Ocs) (out : Bytes) :
    (c.finish h op o out).sea = c.sea := c.finishAs_sea h op _ _ out
@[simp] theorem Ctl.finish_qos (c : Ctl) (h : Head) (op : Nat) (o : Ocs) (out : Bytes) :
    (c.finish h op o out).qos = c.qos := c.finishAs_qos h op _ _ out
@[simp] theorem Ctl.finish_rst (c : Ctl) (h : Head) (op : Nat) (o : Ocs) (out : Bytes) :
    (c.finish h op o out).rst = c.rst := c.finishAs_rst h op _ _ out
@[simp] theorem Ctl.finish_clk (c : Ctl) (h : Head) (op : Nat) (o : Ocs) (out : Bytes) :
    (c.finish h op o out).clk = c.clk := c.finishAs_clk h op _ _ out
@[simp] theorem Ctl.finish_fus (c : Ctl) (h : Head) (op : Nat) (o : Ocs) (out : Bytes) :
    (c.finish h op o out).fus = c.fus := c.finishAs_fus h op _ _ out
@[simp] theorem Ctl.finish_cal (c : Ctl) (h : Head) (op : Nat) (o : Ocs) (out : Bytes) :
    (c.finish h op o out).cal = c.cal := c.finishAs_cal h op _ _ out
@[simp] theorem Ctl.finish_thm (c : Ctl) (h : Head) (op : Nat) (o : Ocs) (out : Bytes) :
    (c.finish h op o out).thm = c.thm := c.finishAs_thm h op _ _ out
@[simp] theorem Ctl.finish_phy (c : Ctl) (h : Head) (op : Nat) (o : Ocs) (out : Bytes) :
    (c.finish h op o out).phy = c.phy := c.finishAs_phy h op _ _ out
@[simp] theorem Ctl.finish_sbp (c : Ctl) (h : Head) (op : Nat) (o : Ocs) (out : Bytes) :
    (c.finish h op o out).sbp = c.sbp := c.finishAs_sbp h op _ _ out

@[simp] theorem Ctl.finish_get (c : Ctl) (h : Head) (op : Nat) (o : Ocs) (out : Bytes) (x : Fld) :
    (c.finish h op o out).get x = c.get x := Ctl.get_congr _ _ (by simp) x
@[simp] theorem Ctl.finishAs_get (c : Ctl) (h : Head) (op rc ocs : Nat) (out : Bytes) (x : Fld) :
    (c.finishAs h op rc ocs out).get x = c.get x := Ctl.get_congr _ _ (by simp) x
@[simp] theorem Ctl.msix_get (c : Ctl) (h : Head) (v : Nat) (x : Fld) : (c.msix h v).get x = c.get x :=
  Ctl.get_congr _ _ (by simp) x

@[simp] theorem Ctl.await_part (c : Ctl) (h : Head) (op : Nat) (p : Bytes) (wt : Wait) (aux : Nat) (bl : List Nat) :
    (c.await h op p wt aux bl).part = c.part := by cases h <;> rfl
@[simp] theorem Ctl.await_regs (c : Ctl) (h : Head) (op : Nat) (p : Bytes) (wt : Wait) (aux : Nat) (bl : List Nat) :
    (c.await h op p wt aux bl).regs = c.regs := by cases h <;> rfl
@[simp] theorem Ctl.await_eff (c : Ctl) (h : Head) (op : Nat) (p : Bytes) (wt : Wait) (aux : Nat) (bl : List Nat) :
    (c.await h op p wt aux bl).eff = c.eff := by cases h <;> rfl
@[simp] theorem Ctl.await_snap (c : Ctl) (h : Head) (op : Nat) (p : Bytes) (wt : Wait) (aux : Nat) (bl : List Nat) :
    (c.await h op p wt aux bl).snap = c.snap := by cases h <;> rfl
@[simp] theorem Ctl.await_claims (c : Ctl) (h : Head) (op : Nat) (p : Bytes) (wt : Wait) (aux : Nat) (bl : List Nat) :
    (c.await h op p wt aux bl).claims = c.claims := by cases h <;> rfl
@[simp] theorem Ctl.await_clock (c : Ctl) (h : Head) (op : Nat) (p : Bytes) (wt : Wait) (aux : Nat) (bl : List Nat) :
    (c.await h op p wt aux bl).clock = c.clock := by cases h <;> rfl
@[simp] theorem Ctl.await_lastBeat (c : Ctl) (h : Head) (op : Nat) (p : Bytes) (wt : Wait) (aux : Nat) (bl : List Nat) :
    (c.await h op p wt aux bl).lastBeat = c.lastBeat := by cases h <;> rfl
@[simp] theorem Ctl.await_lastBeatNo (c : Ctl) (h : Head) (op : Nat) (p : Bytes) (wt : Wait) (aux : Nat) (bl : List Nat) :
    (c.await h op p wt aux bl).lastBeatNo = c.lastBeatNo := by cases h <;> rfl
@[simp] theorem Ctl.await_stepped (c : Ctl) (h : Head) (op : Nat) (p : Bytes) (wt : Wait) (aux : Nat) (bl : List Nat) :
    (c.await h op p wt aux bl).stepped = c.stepped := by cases h <;> rfl
@[simp] theorem Ctl.await_holdDue (c : Ctl) (h : Head) (op : Nat) (p : Bytes) (wt : Wait) (aux : Nat) (bl : List Nat) :
    (c.await h op p wt aux bl).holdDue = c.holdDue := by cases h <;> rfl
@[simp] theorem Ctl.await_preferDue (c : Ctl) (h : Head) (op : Nat) (p : Bytes) (wt : Wait) (aux : Nat) (bl : List Nat) :
    (c.await h op p wt aux bl).preferDue = c.preferDue := by cases h <;> rfl
@[simp] theorem Ctl.await_timeBase (c : Ctl) (h : Head) (op : Nat) (p : Bytes) (wt : Wait) (aux : Nat) (bl : List Nat) :
    (c.await h op p wt aux bl).timeBase = c.timeBase := by cases h <;> rfl
@[simp] theorem Ctl.await_slew (c : Ctl) (h : Head) (op : Nat) (p : Bytes) (wt : Wait) (aux : Nat) (bl : List Nat) :
    (c.await h op p wt aux bl).slew = c.slew := by cases h <;> rfl
@[simp] theorem Ctl.await_slewAcc (c : Ctl) (h : Head) (op : Nat) (p : Bytes) (wt : Wait) (aux : Nat) (bl : List Nat) :
    (c.await h op p wt aux bl).slewAcc = c.slewAcc := by cases h <;> rfl
@[simp] theorem Ctl.await_rate (c : Ctl) (h : Head) (op : Nat) (p : Bytes) (wt : Wait) (aux : Nat) (bl : List Nat) :
    (c.await h op p wt aux bl).rate = c.rate := by cases h <;> rfl
@[simp] theorem Ctl.await_rateAcc (c : Ctl) (h : Head) (op : Nat) (p : Bytes) (wt : Wait) (aux : Nat) (bl : List Nat) :
    (c.await h op p wt aux bl).rateAcc = c.rateAcc := by cases h <;> rfl
@[simp] theorem Ctl.await_lastRead (c : Ctl) (h : Head) (op : Nat) (p : Bytes) (wt : Wait) (aux : Nat) (bl : List Nat) :
    (c.await h op p wt aux bl).lastRead = c.lastRead := by cases h <;> rfl
@[simp] theorem Ctl.await_headsStrap (c : Ctl) (h : Head) (op : Nat) (p : Bytes) (wt : Wait) (aux : Nat) (bl : List Nat) :
    (c.await h op p wt aux bl).headsStrap = c.headsStrap := by cases h <;> rfl
@[simp] theorem Ctl.await_stkPend (c : Ctl) (h : Head) (op : Nat) (p : Bytes) (wt : Wait) (aux : Nat) (bl : List Nat) :
    (c.await h op p wt aux bl).stkPend = c.stkPend := by cases h <;> rfl
@[simp] theorem Ctl.await_snapPend (c : Ctl) (h : Head) (op : Nat) (p : Bytes) (wt : Wait) (aux : Nat) (bl : List Nat) :
    (c.await h op p wt aux bl).snapPend = c.snapPend := by cases h <;> rfl
@[simp] theorem Ctl.await_free (c : Ctl) (h : Head) (op : Nat) (p : Bytes) (wt : Wait) (aux : Nat) (bl : List Nat) :
    (c.await h op p wt aux bl).free = c.free := by cases h <;> rfl
@[simp] theorem Ctl.await_outbox (c : Ctl) (h : Head) (op : Nat) (p : Bytes) (wt : Wait) (aux : Nat) (bl : List Nat) :
    (c.await h op p wt aux bl).outbox = c.outbox := by cases h <;> rfl
@[simp] theorem Ctl.await_flt (c : Ctl) (h : Head) (op : Nat) (p : Bytes) (wt : Wait) (aux : Nat) (bl : List Nat) :
    (c.await h op p wt aux bl).flt = c.flt := by cases h <;> rfl
@[simp] theorem Ctl.await_kpr (c : Ctl) (h : Head) (op : Nat) (p : Bytes) (wt : Wait) (aux : Nat) (bl : List Nat) :
    (c.await h op p wt aux bl).kpr = c.kpr := by cases h <;> rfl
@[simp] theorem Ctl.await_job (c : Ctl) (h : Head) (op : Nat) (p : Bytes) (wt : Wait) (aux : Nat) (bl : List Nat) :
    (c.await h op p wt aux bl).job = c.job := by cases h <;> rfl
@[simp] theorem Ctl.await_dec (c : Ctl) (h : Head) (op : Nat) (p : Bytes) (wt : Wait) (aux : Nat) (bl : List Nat) :
    (c.await h op p wt aux bl).dec = c.dec := by cases h <;> rfl
@[simp] theorem Ctl.await_stx (c : Ctl) (h : Head) (op : Nat) (p : Bytes) (wt : Wait) (aux : Nat) (bl : List Nat) :
    (c.await h op p wt aux bl).stx = c.stx := by cases h <;> rfl
@[simp] theorem Ctl.await_stk (c : Ctl) (h : Head) (op : Nat) (p : Bytes) (wt : Wait) (aux : Nat) (bl : List Nat) :
    (c.await h op p wt aux bl).stk = c.stk := by cases h <;> rfl
@[simp] theorem Ctl.await_ecc (c : Ctl) (h : Head) (op : Nat) (p : Bytes) (wt : Wait) (aux : Nat) (bl : List Nat) :
    (c.await h op p wt aux bl).ecc = c.ecc := by cases h <;> rfl
@[simp] theorem Ctl.await_frg (c : Ctl) (h : Head) (op : Nat) (p : Bytes) (wt : Wait) (aux : Nat) (bl : List Nat) :
    (c.await h op p wt aux bl).frg = c.frg := by cases h <;> rfl
@[simp] theorem Ctl.await_sea (c : Ctl) (h : Head) (op : Nat) (p : Bytes) (wt : Wait) (aux : Nat) (bl : List Nat) :
    (c.await h op p wt aux bl).sea = c.sea := by cases h <;> rfl
@[simp] theorem Ctl.await_qos (c : Ctl) (h : Head) (op : Nat) (p : Bytes) (wt : Wait) (aux : Nat) (bl : List Nat) :
    (c.await h op p wt aux bl).qos = c.qos := by cases h <;> rfl
@[simp] theorem Ctl.await_rst (c : Ctl) (h : Head) (op : Nat) (p : Bytes) (wt : Wait) (aux : Nat) (bl : List Nat) :
    (c.await h op p wt aux bl).rst = c.rst := by cases h <;> rfl
@[simp] theorem Ctl.await_clk (c : Ctl) (h : Head) (op : Nat) (p : Bytes) (wt : Wait) (aux : Nat) (bl : List Nat) :
    (c.await h op p wt aux bl).clk = c.clk := by cases h <;> rfl
@[simp] theorem Ctl.await_fus (c : Ctl) (h : Head) (op : Nat) (p : Bytes) (wt : Wait) (aux : Nat) (bl : List Nat) :
    (c.await h op p wt aux bl).fus = c.fus := by cases h <;> rfl
@[simp] theorem Ctl.await_cal (c : Ctl) (h : Head) (op : Nat) (p : Bytes) (wt : Wait) (aux : Nat) (bl : List Nat) :
    (c.await h op p wt aux bl).cal = c.cal := by cases h <;> rfl
@[simp] theorem Ctl.await_thm (c : Ctl) (h : Head) (op : Nat) (p : Bytes) (wt : Wait) (aux : Nat) (bl : List Nat) :
    (c.await h op p wt aux bl).thm = c.thm := by cases h <;> rfl
@[simp] theorem Ctl.await_phy (c : Ctl) (h : Head) (op : Nat) (p : Bytes) (wt : Wait) (aux : Nat) (bl : List Nat) :
    (c.await h op p wt aux bl).phy = c.phy := by cases h <;> rfl
@[simp] theorem Ctl.await_sbp (c : Ctl) (h : Head) (op : Nat) (p : Bytes) (wt : Wait) (aux : Nat) (bl : List Nat) :
    (c.await h op p wt aux bl).sbp = c.sbp := by cases h <;> rfl

@[simp] theorem Ctl.await_pend (c : Ctl) (h : Head) (op : Nat) (p : Bytes) (wt : Wait) (aux : Nat) (bl : List Nat) :
    ((c.await h op p wt aux bl).hd h).mbox.pend = some ⟨op, p, wt, aux⟩ := by cases h <;> rfl
@[simp] theorem Ctl.await_get (c : Ctl) (h : Head) (op : Nat) (p : Bytes) (wt : Wait) (aux : Nat) (bl : List Nat) (x : Fld) :
    (c.await h op p wt aux bl).get x = c.get x := Ctl.get_congr _ _ (by simp) x

/-- A background command that starts changes what is kept for its head, the claims and the outbox. -/
theorem Ctl.startBg_eq (c : Ctl) (h : Head) (op : Nat) (p : Bytes) (aux : Nat) :
    ∃ x cl ob, c.startBg h op p aux = { c.setHd h x with claims := cl, outbox := ob } ∧
      x.mbox = { (c.hd h).mbox with pend := none, last := some ⟨op, 1, 0, []⟩, bg := some ⟨op, p, 0, aux⟩,
                                    bgTracked := true } := by
  unfold Ctl.startBg
  dsimp only
  split
  · rename_i k
    obtain ⟨x, ob, e, m, -⟩ := Ctl.msix_eq _ h 0
    refine ⟨x, c.claims.map (fun (e : Nat × Head) => if e.2 = h ∧ e.1 < 256 then (e.1 + 256, e.2) else e), ob, e.trans ?_, m.trans ?_⟩ <;> cases h <;> rfl
  · refine ⟨{ c.hd h with mbox := { (c.hd h).mbox with pend := none, last := some ⟨op, 1, 0, []⟩, bg := some ⟨op, p, 0, aux⟩, bgTracked := true } },
      c.claims.map (fun (e : Nat × Head) => if e.2 = h ∧ e.1 < 256 then (e.1 + 256, e.2) else e), .mailbox h ⟨op, 1, 0, []⟩ :: c.outbox, ?_, rfl⟩
    cases h <;> rfl

theorem Ctl.startBg_mbox (c : Ctl) (h : Head) (op : Nat) (p : Bytes) (aux : Nat) :
    ((c.startBg h op p aux).hd h).mbox.bg = some ⟨op, p, 0, aux⟩ ∧
      ((c.startBg h op p aux).hd h).mbox.last = some ⟨op, 1, 0, []⟩ ∧
      ((c.startBg h op p aux).hd h).mbox.pend = none := by
  obtain ⟨x, cl, ob, e, m⟩ := c.startBg_eq h op p aux
  rw [e]
  have k : (({ c.setHd h x with claims := cl, outbox := ob } : Ctl).hd h).mbox = x.mbox := by cases h <;> rfl
  rw [k, m]; exact ⟨rfl, rfl, rfl⟩

@[simp] theorem Ctl.startBg_part (c : Ctl) (h : Head) (op : Nat) (p : Bytes) (aux : Nat) : (c.startBg h op p aux).part = c.part := by
  obtain ⟨x, cl, ob, e, -⟩ := c.startBg_eq h op p aux; rw [e]; cases h <;> rfl
@[simp] theorem Ctl.startBg_regs (c : Ctl) (h : Head) (op : Nat) (p : Bytes) (aux : Nat) : (c.startBg h op p aux).regs = c.regs := by
  obtain ⟨x, cl, ob, e, -⟩ := c.startBg_eq h op p aux; rw [e]; cases h <;> rfl
@[simp] theorem Ctl.startBg_eff (c : Ctl) (h : Head) (op : Nat) (p : Bytes) (aux : Nat) : (c.startBg h op p aux).eff = c.eff := by
  obtain ⟨x, cl, ob, e, -⟩ := c.startBg_eq h op p aux; rw [e]; cases h <;> rfl
@[simp] theorem Ctl.startBg_snap (c : Ctl) (h : Head) (op : Nat) (p : Bytes) (aux : Nat) : (c.startBg h op p aux).snap = c.snap := by
  obtain ⟨x, cl, ob, e, -⟩ := c.startBg_eq h op p aux; rw [e]; cases h <;> rfl
@[simp] theorem Ctl.startBg_clock (c : Ctl) (h : Head) (op : Nat) (p : Bytes) (aux : Nat) : (c.startBg h op p aux).clock = c.clock := by
  obtain ⟨x, cl, ob, e, -⟩ := c.startBg_eq h op p aux; rw [e]; cases h <;> rfl
@[simp] theorem Ctl.startBg_lastBeat (c : Ctl) (h : Head) (op : Nat) (p : Bytes) (aux : Nat) : (c.startBg h op p aux).lastBeat = c.lastBeat := by
  obtain ⟨x, cl, ob, e, -⟩ := c.startBg_eq h op p aux; rw [e]; cases h <;> rfl
@[simp] theorem Ctl.startBg_lastBeatNo (c : Ctl) (h : Head) (op : Nat) (p : Bytes) (aux : Nat) : (c.startBg h op p aux).lastBeatNo = c.lastBeatNo := by
  obtain ⟨x, cl, ob, e, -⟩ := c.startBg_eq h op p aux; rw [e]; cases h <;> rfl
@[simp] theorem Ctl.startBg_stepped (c : Ctl) (h : Head) (op : Nat) (p : Bytes) (aux : Nat) : (c.startBg h op p aux).stepped = c.stepped := by
  obtain ⟨x, cl, ob, e, -⟩ := c.startBg_eq h op p aux; rw [e]; cases h <;> rfl
@[simp] theorem Ctl.startBg_holdDue (c : Ctl) (h : Head) (op : Nat) (p : Bytes) (aux : Nat) : (c.startBg h op p aux).holdDue = c.holdDue := by
  obtain ⟨x, cl, ob, e, -⟩ := c.startBg_eq h op p aux; rw [e]; cases h <;> rfl
@[simp] theorem Ctl.startBg_preferDue (c : Ctl) (h : Head) (op : Nat) (p : Bytes) (aux : Nat) : (c.startBg h op p aux).preferDue = c.preferDue := by
  obtain ⟨x, cl, ob, e, -⟩ := c.startBg_eq h op p aux; rw [e]; cases h <;> rfl
@[simp] theorem Ctl.startBg_timeBase (c : Ctl) (h : Head) (op : Nat) (p : Bytes) (aux : Nat) : (c.startBg h op p aux).timeBase = c.timeBase := by
  obtain ⟨x, cl, ob, e, -⟩ := c.startBg_eq h op p aux; rw [e]; cases h <;> rfl
@[simp] theorem Ctl.startBg_slew (c : Ctl) (h : Head) (op : Nat) (p : Bytes) (aux : Nat) : (c.startBg h op p aux).slew = c.slew := by
  obtain ⟨x, cl, ob, e, -⟩ := c.startBg_eq h op p aux; rw [e]; cases h <;> rfl
@[simp] theorem Ctl.startBg_slewAcc (c : Ctl) (h : Head) (op : Nat) (p : Bytes) (aux : Nat) : (c.startBg h op p aux).slewAcc = c.slewAcc := by
  obtain ⟨x, cl, ob, e, -⟩ := c.startBg_eq h op p aux; rw [e]; cases h <;> rfl
@[simp] theorem Ctl.startBg_rate (c : Ctl) (h : Head) (op : Nat) (p : Bytes) (aux : Nat) : (c.startBg h op p aux).rate = c.rate := by
  obtain ⟨x, cl, ob, e, -⟩ := c.startBg_eq h op p aux; rw [e]; cases h <;> rfl
@[simp] theorem Ctl.startBg_rateAcc (c : Ctl) (h : Head) (op : Nat) (p : Bytes) (aux : Nat) : (c.startBg h op p aux).rateAcc = c.rateAcc := by
  obtain ⟨x, cl, ob, e, -⟩ := c.startBg_eq h op p aux; rw [e]; cases h <;> rfl
@[simp] theorem Ctl.startBg_lastRead (c : Ctl) (h : Head) (op : Nat) (p : Bytes) (aux : Nat) : (c.startBg h op p aux).lastRead = c.lastRead := by
  obtain ⟨x, cl, ob, e, -⟩ := c.startBg_eq h op p aux; rw [e]; cases h <;> rfl
@[simp] theorem Ctl.startBg_headsStrap (c : Ctl) (h : Head) (op : Nat) (p : Bytes) (aux : Nat) : (c.startBg h op p aux).headsStrap = c.headsStrap := by
  obtain ⟨x, cl, ob, e, -⟩ := c.startBg_eq h op p aux; rw [e]; cases h <;> rfl
@[simp] theorem Ctl.startBg_stkPend (c : Ctl) (h : Head) (op : Nat) (p : Bytes) (aux : Nat) : (c.startBg h op p aux).stkPend = c.stkPend := by
  obtain ⟨x, cl, ob, e, -⟩ := c.startBg_eq h op p aux; rw [e]; cases h <;> rfl
@[simp] theorem Ctl.startBg_snapPend (c : Ctl) (h : Head) (op : Nat) (p : Bytes) (aux : Nat) : (c.startBg h op p aux).snapPend = c.snapPend := by
  obtain ⟨x, cl, ob, e, -⟩ := c.startBg_eq h op p aux; rw [e]; cases h <;> rfl
@[simp] theorem Ctl.startBg_free (c : Ctl) (h : Head) (op : Nat) (p : Bytes) (aux : Nat) : (c.startBg h op p aux).free = c.free := by
  obtain ⟨x, cl, ob, e, -⟩ := c.startBg_eq h op p aux; rw [e]; cases h <;> rfl
@[simp] theorem Ctl.startBg_flt (c : Ctl) (h : Head) (op : Nat) (p : Bytes) (aux : Nat) : (c.startBg h op p aux).flt = c.flt := by
  obtain ⟨x, cl, ob, e, -⟩ := c.startBg_eq h op p aux; rw [e]; cases h <;> rfl
@[simp] theorem Ctl.startBg_kpr (c : Ctl) (h : Head) (op : Nat) (p : Bytes) (aux : Nat) : (c.startBg h op p aux).kpr = c.kpr := by
  obtain ⟨x, cl, ob, e, -⟩ := c.startBg_eq h op p aux; rw [e]; cases h <;> rfl
@[simp] theorem Ctl.startBg_job (c : Ctl) (h : Head) (op : Nat) (p : Bytes) (aux : Nat) : (c.startBg h op p aux).job = c.job := by
  obtain ⟨x, cl, ob, e, -⟩ := c.startBg_eq h op p aux; rw [e]; cases h <;> rfl
@[simp] theorem Ctl.startBg_dec (c : Ctl) (h : Head) (op : Nat) (p : Bytes) (aux : Nat) : (c.startBg h op p aux).dec = c.dec := by
  obtain ⟨x, cl, ob, e, -⟩ := c.startBg_eq h op p aux; rw [e]; cases h <;> rfl
@[simp] theorem Ctl.startBg_stx (c : Ctl) (h : Head) (op : Nat) (p : Bytes) (aux : Nat) : (c.startBg h op p aux).stx = c.stx := by
  obtain ⟨x, cl, ob, e, -⟩ := c.startBg_eq h op p aux; rw [e]; cases h <;> rfl
@[simp] theorem Ctl.startBg_stk (c : Ctl) (h : Head) (op : Nat) (p : Bytes) (aux : Nat) : (c.startBg h op p aux).stk = c.stk := by
  obtain ⟨x, cl, ob, e, -⟩ := c.startBg_eq h op p aux; rw [e]; cases h <;> rfl
@[simp] theorem Ctl.startBg_ecc (c : Ctl) (h : Head) (op : Nat) (p : Bytes) (aux : Nat) : (c.startBg h op p aux).ecc = c.ecc := by
  obtain ⟨x, cl, ob, e, -⟩ := c.startBg_eq h op p aux; rw [e]; cases h <;> rfl
@[simp] theorem Ctl.startBg_frg (c : Ctl) (h : Head) (op : Nat) (p : Bytes) (aux : Nat) : (c.startBg h op p aux).frg = c.frg := by
  obtain ⟨x, cl, ob, e, -⟩ := c.startBg_eq h op p aux; rw [e]; cases h <;> rfl
@[simp] theorem Ctl.startBg_sea (c : Ctl) (h : Head) (op : Nat) (p : Bytes) (aux : Nat) : (c.startBg h op p aux).sea = c.sea := by
  obtain ⟨x, cl, ob, e, -⟩ := c.startBg_eq h op p aux; rw [e]; cases h <;> rfl
@[simp] theorem Ctl.startBg_qos (c : Ctl) (h : Head) (op : Nat) (p : Bytes) (aux : Nat) : (c.startBg h op p aux).qos = c.qos := by
  obtain ⟨x, cl, ob, e, -⟩ := c.startBg_eq h op p aux; rw [e]; cases h <;> rfl
@[simp] theorem Ctl.startBg_rst (c : Ctl) (h : Head) (op : Nat) (p : Bytes) (aux : Nat) : (c.startBg h op p aux).rst = c.rst := by
  obtain ⟨x, cl, ob, e, -⟩ := c.startBg_eq h op p aux; rw [e]; cases h <;> rfl
@[simp] theorem Ctl.startBg_clk (c : Ctl) (h : Head) (op : Nat) (p : Bytes) (aux : Nat) : (c.startBg h op p aux).clk = c.clk := by
  obtain ⟨x, cl, ob, e, -⟩ := c.startBg_eq h op p aux; rw [e]; cases h <;> rfl
@[simp] theorem Ctl.startBg_fus (c : Ctl) (h : Head) (op : Nat) (p : Bytes) (aux : Nat) : (c.startBg h op p aux).fus = c.fus := by
  obtain ⟨x, cl, ob, e, -⟩ := c.startBg_eq h op p aux; rw [e]; cases h <;> rfl
@[simp] theorem Ctl.startBg_cal (c : Ctl) (h : Head) (op : Nat) (p : Bytes) (aux : Nat) : (c.startBg h op p aux).cal = c.cal := by
  obtain ⟨x, cl, ob, e, -⟩ := c.startBg_eq h op p aux; rw [e]; cases h <;> rfl
@[simp] theorem Ctl.startBg_thm (c : Ctl) (h : Head) (op : Nat) (p : Bytes) (aux : Nat) : (c.startBg h op p aux).thm = c.thm := by
  obtain ⟨x, cl, ob, e, -⟩ := c.startBg_eq h op p aux; rw [e]; cases h <;> rfl
@[simp] theorem Ctl.startBg_phy (c : Ctl) (h : Head) (op : Nat) (p : Bytes) (aux : Nat) : (c.startBg h op p aux).phy = c.phy := by
  obtain ⟨x, cl, ob, e, -⟩ := c.startBg_eq h op p aux; rw [e]; cases h <;> rfl
@[simp] theorem Ctl.startBg_sbp (c : Ctl) (h : Head) (op : Nat) (p : Bytes) (aux : Nat) : (c.startBg h op p aux).sbp = c.sbp := by
  obtain ⟨x, cl, ob, e, -⟩ := c.startBg_eq h op p aux; rw [e]; cases h <;> rfl

@[simp] theorem Ctl.startBg_get (c : Ctl) (h : Head) (op : Nat) (p : Bytes) (aux : Nat) (x : Fld) :
    (c.startBg h op p aux).get x = c.get x := Ctl.get_congr _ _ (by simp) x

/-! ## Mailbox commands past the gate (R248, R290 to R293, R303) -/

/-- A command that finds the mailbox free and passes the gate is carried out. -/
theorem Ctl.ocs_run (c : Ctl) (h : Head) (op : Nat) (k : CmdKind) (p : Bytes) (run : Ctl → Ctl)
    (f : c.mboxFree h = true) (g : c.gate h k p = none) : c.ocs h op k p run = run c := by simp [Ctl.ocs, f, g]

theorem Ctl.ocs_refuse (c : Ctl) (h : Head) (op : Nat) (k : CmdKind) (p : Bytes) (run : Ctl → Ctl) (e : Ocs)
    (f : c.mboxFree h = true) (g : c.gate h k p = some e) : c.ocs h op k p run = c.finish h op e [] := by
  simp [Ctl.ocs, f, g]

theorem State.ocs_run (s : State) (h : Head) (op : Nat) (k : CmdKind) (p : Bytes) (run : State → State)
    (f : s.ctl.mboxFree h = true) (g : s.ctl.gate h k p = none) : s.ocs h op k p run = run s := by
  simp [State.ocs, f, g]

/-- A command that no claim holds back takes its claims and runs (R293). -/
theorem Ctl.claiming_run (c : Ctl) (h : Head) (op : Nat) (p : Bytes) (bs : List Nat) (run : Ctl → Ctl)
    (f : (bs.any fun b => c.claimedByOther h b) = false) : c.claiming h op p bs run = run (c.takeClaims h bs) := by
  simp [Ctl.claiming, f]

/-- A command that a claim of the other head holds back waits (R293). -/
theorem Ctl.claiming_wait (c : Ctl) (h : Head) (op : Nat) (p : Bytes) (bs : List Nat) (run : Ctl → Ctl)
    (f : (bs.any fun b => c.claimedByOther h b) = true) : c.claiming h op p bs run = c.await h op p .slot c.clock bs := by
  simp [Ctl.claiming, f]


/-- Two states of the control side that differ in register fields only. -/
def OnlyRegs (c d : Ctl) : Prop := d = { c with regs := d.regs }

theorem OnlyRegs.refl (c : Ctl) : OnlyRegs c c := rfl
theorem OnlyRegs.trans {c d e : Ctl} (a : OnlyRegs c d) (b : OnlyRegs d e) : OnlyRegs c e := by
  unfold OnlyRegs at *; rw [b, a]
theorem OnlyRegs.set {c d : Ctl} (a : OnlyRegs c d) (x : Fld) (v : Nat) : OnlyRegs c (d.set x v) :=
  a.trans (by unfold OnlyRegs; rfl)
theorem OnlyRegs.foldl {α : Type} (l : List α) (g : Ctl → α → Ctl) (k : ∀ c a, OnlyRegs c (g c a)) (c : Ctl) :
    OnlyRegs c (l.foldl g c) := by
  induction l generalizing c with
  | nil => exact .refl c
  | cons a t ih => exact (k c a).trans (ih (g c a))

/-- Dropping the shadow values of a block changes register fields only (R20). -/
theorem Ctl.dropShadows_onlyRegs (c : Ctl) (b : Nat) : OnlyRegs c (c.dropShadows b) := by
  unfold Ctl.dropShadows
  dsimp only
  split
  · refine OnlyRegs.foldl (List.range 16) _ (fun _ _ => ?_) _
    exact rfl
  · split
    · exact rfl
    · split
      · refine OnlyRegs.set (OnlyRegs.set ?_ _ _) _ _
        refine OnlyRegs.trans ?_ (OnlyRegs.foldl (List.range 5) _ (fun _ _ => ?_) _)
        · refine OnlyRegs.trans ?_ (OnlyRegs.foldl (List.range 16) _ (fun _ _ => ?_) _)
          · refine OnlyRegs.set (OnlyRegs.set ?_ _ _) _ _
            refine OnlyRegs.foldl (List.range 8) _ (fun _ _ => ?_) _
            exact rfl
          · exact rfl
        · exact rfl
      · exact .refl c

theorem Ctl.dropShadows_eq (c : Ctl) (b : Nat) : ∃ r, c.dropShadows b = { c with regs := r } :=
  ⟨_, c.dropShadows_onlyRegs b⟩

/-- Taking a claim changes the claims and, by dropping shadow values, register fields (R20). -/
theorem Ctl.takeClaims_eq (c : Ctl) (h : Head) (bs : List Nat) :
    ∃ cl r, c.takeClaims h bs = { c with claims := cl, regs := r } := by
  induction bs generalizing c with
  | nil => exact ⟨c.claims, c.regs, rfl⟩
  | cons b t ih =>
    obtain ⟨r, e⟩ := c.dropShadows_eq b
    obtain ⟨cl', r', e'⟩ := ih (c.claim h b)
    refine ⟨cl', r', ?_⟩
    show (c.claim h b).takeClaims h t = _
    rw [e']; unfold Ctl.claim; rw [e]

@[simp] theorem Ctl.takeClaims_part (c : Ctl) (h : Head) (bs : List Nat) : (c.takeClaims h bs).part = c.part := by
  obtain ⟨cl, r, e⟩ := c.takeClaims_eq h bs; rw [e]
@[simp] theorem Ctl.takeClaims_eff (c : Ctl) (h : Head) (bs : List Nat) : (c.takeClaims h bs).eff = c.eff := by
  obtain ⟨cl, r, e⟩ := c.takeClaims_eq h bs; rw [e]
@[simp] theorem Ctl.takeClaims_snap (c : Ctl) (h : Head) (bs : List Nat) : (c.takeClaims h bs).snap = c.snap := by
  obtain ⟨cl, r, e⟩ := c.takeClaims_eq h bs; rw [e]
@[simp] theorem Ctl.takeClaims_clock (c : Ctl) (h : Head) (bs : List Nat) : (c.takeClaims h bs).clock = c.clock := by
  obtain ⟨cl, r, e⟩ := c.takeClaims_eq h bs; rw [e]
@[simp] theorem Ctl.takeClaims_lastBeat (c : Ctl) (h : Head) (bs : List Nat) : (c.takeClaims h bs).lastBeat = c.lastBeat := by
  obtain ⟨cl, r, e⟩ := c.takeClaims_eq h bs; rw [e]
@[simp] theorem Ctl.takeClaims_lastBeatNo (c : Ctl) (h : Head) (bs : List Nat) : (c.takeClaims h bs).lastBeatNo = c.lastBeatNo := by
  obtain ⟨cl, r, e⟩ := c.takeClaims_eq h bs; rw [e]
@[simp] theorem Ctl.takeClaims_stepped (c : Ctl) (h : Head) (bs : List Nat) : (c.takeClaims h bs).stepped = c.stepped := by
  obtain ⟨cl, r, e⟩ := c.takeClaims_eq h bs; rw [e]
@[simp] theorem Ctl.takeClaims_holdDue (c : Ctl) (h : Head) (bs : List Nat) : (c.takeClaims h bs).holdDue = c.holdDue := by
  obtain ⟨cl, r, e⟩ := c.takeClaims_eq h bs; rw [e]
@[simp] theorem Ctl.takeClaims_preferDue (c : Ctl) (h : Head) (bs : List Nat) : (c.takeClaims h bs).preferDue = c.preferDue := by
  obtain ⟨cl, r, e⟩ := c.takeClaims_eq h bs; rw [e]
@[simp] theorem Ctl.takeClaims_timeBase (c : Ctl) (h : Head) (bs : List Nat) : (c.takeClaims h bs).timeBase = c.timeBase := by
  obtain ⟨cl, r, e⟩ := c.takeClaims_eq h bs; rw [e]
@[simp] theorem Ctl.takeClaims_slew (c : Ctl) (h : Head) (bs : List Nat) : (c.takeClaims h bs).slew = c.slew := by
  obtain ⟨cl, r, e⟩ := c.takeClaims_eq h bs; rw [e]
@[simp] theorem Ctl.takeClaims_slewAcc (c : Ctl) (h : Head) (bs : List Nat) : (c.takeClaims h bs).slewAcc = c.slewAcc := by
  obtain ⟨cl, r, e⟩ := c.takeClaims_eq h bs; rw [e]
@[simp] theorem Ctl.takeClaims_rate (c : Ctl) (h : Head) (bs : List Nat) : (c.takeClaims h bs).rate = c.rate := by
  obtain ⟨cl, r, e⟩ := c.takeClaims_eq h bs; rw [e]
@[simp] theorem Ctl.takeClaims_rateAcc (c : Ctl) (h : Head) (bs : List Nat) : (c.takeClaims h bs).rateAcc = c.rateAcc := by
  obtain ⟨cl, r, e⟩ := c.takeClaims_eq h bs; rw [e]
@[simp] theorem Ctl.takeClaims_lastRead (c : Ctl) (h : Head) (bs : List Nat) : (c.takeClaims h bs).lastRead = c.lastRead := by
  obtain ⟨cl, r, e⟩ := c.takeClaims_eq h bs; rw [e]
@[simp] theorem Ctl.takeClaims_headsStrap (c : Ctl) (h : Head) (bs : List Nat) : (c.takeClaims h bs).headsStrap = c.headsStrap := by
  obtain ⟨cl, r, e⟩ := c.takeClaims_eq h bs; rw [e]
@[simp] theorem Ctl.takeClaims_stkPend (c : Ctl) (h : Head) (bs : List Nat) : (c.takeClaims h bs).stkPend = c.stkPend := by
  obtain ⟨cl, r, e⟩ := c.takeClaims_eq h bs; rw [e]
@[simp] theorem Ctl.takeClaims_snapPend (c : Ctl) (h : Head) (bs : List Nat) : (c.takeClaims h bs).snapPend = c.snapPend := by
  obtain ⟨cl, r, e⟩ := c.takeClaims_eq h bs; rw [e]
@[simp] theorem Ctl.takeClaims_free (c : Ctl) (h : Head) (bs : List Nat) : (c.takeClaims h bs).free = c.free := by
  obtain ⟨cl, r, e⟩ := c.takeClaims_eq h bs; rw [e]
@[simp] theorem Ctl.takeClaims_outbox (c : Ctl) (h : Head) (bs : List Nat) : (c.takeClaims h bs).outbox = c.outbox := by
  obtain ⟨cl, r, e⟩ := c.takeClaims_eq h bs; rw [e]
@[simp] theorem Ctl.takeClaims_hdA (c : Ctl) (h : Head) (bs : List Nat) : (c.takeClaims h bs).hdA = c.hdA := by
  obtain ⟨cl, r, e⟩ := c.takeClaims_eq h bs; rw [e]
@[simp] theorem Ctl.takeClaims_hdB (c : Ctl) (h : Head) (bs : List Nat) : (c.takeClaims h bs).hdB = c.hdB := by
  obtain ⟨cl, r, e⟩ := c.takeClaims_eq h bs; rw [e]
@[simp] theorem Ctl.takeClaims_flt (c : Ctl) (h : Head) (bs : List Nat) : (c.takeClaims h bs).flt = c.flt := by
  obtain ⟨cl, r, e⟩ := c.takeClaims_eq h bs; rw [e]
@[simp] theorem Ctl.takeClaims_kpr (c : Ctl) (h : Head) (bs : List Nat) : (c.takeClaims h bs).kpr = c.kpr := by
  obtain ⟨cl, r, e⟩ := c.takeClaims_eq h bs; rw [e]
@[simp] theorem Ctl.takeClaims_job (c : Ctl) (h : Head) (bs : List Nat) : (c.takeClaims h bs).job = c.job := by
  obtain ⟨cl, r, e⟩ := c.takeClaims_eq h bs; rw [e]
@[simp] theorem Ctl.takeClaims_dec (c : Ctl) (h : Head) (bs : List Nat) : (c.takeClaims h bs).dec = c.dec := by
  obtain ⟨cl, r, e⟩ := c.takeClaims_eq h bs; rw [e]
@[simp] theorem Ctl.takeClaims_stx (c : Ctl) (h : Head) (bs : List Nat) : (c.takeClaims h bs).stx = c.stx := by
  obtain ⟨cl, r, e⟩ := c.takeClaims_eq h bs; rw [e]
@[simp] theorem Ctl.takeClaims_stk (c : Ctl) (h : Head) (bs : List Nat) : (c.takeClaims h bs).stk = c.stk := by
  obtain ⟨cl, r, e⟩ := c.takeClaims_eq h bs; rw [e]
@[simp] theorem Ctl.takeClaims_ecc (c : Ctl) (h : Head) (bs : List Nat) : (c.takeClaims h bs).ecc = c.ecc := by
  obtain ⟨cl, r, e⟩ := c.takeClaims_eq h bs; rw [e]
@[simp] theorem Ctl.takeClaims_frg (c : Ctl) (h : Head) (bs : List Nat) : (c.takeClaims h bs).frg = c.frg := by
  obtain ⟨cl, r, e⟩ := c.takeClaims_eq h bs; rw [e]
@[simp] theorem Ctl.takeClaims_sea (c : Ctl) (h : Head) (bs : List Nat) : (c.takeClaims h bs).sea = c.sea := by
  obtain ⟨cl, r, e⟩ := c.takeClaims_eq h bs; rw [e]
@[simp] theorem Ctl.takeClaims_qos (c : Ctl) (h : Head) (bs : List Nat) : (c.takeClaims h bs).qos = c.qos := by
  obtain ⟨cl, r, e⟩ := c.takeClaims_eq h bs; rw [e]
@[simp] theorem Ctl.takeClaims_rst (c : Ctl) (h : Head) (bs : List Nat) : (c.takeClaims h bs).rst = c.rst := by
  obtain ⟨cl, r, e⟩ := c.takeClaims_eq h bs; rw [e]
@[simp] theorem Ctl.takeClaims_clk (c : Ctl) (h : Head) (bs : List Nat) : (c.takeClaims h bs).clk = c.clk := by
  obtain ⟨cl, r, e⟩ := c.takeClaims_eq h bs; rw [e]
@[simp] theorem Ctl.takeClaims_fus (c : Ctl) (h : Head) (bs : List Nat) : (c.takeClaims h bs).fus = c.fus := by
  obtain ⟨cl, r, e⟩ := c.takeClaims_eq h bs; rw [e]
@[simp] theorem Ctl.takeClaims_cal (c : Ctl) (h : Head) (bs : List Nat) : (c.takeClaims h bs).cal = c.cal := by
  obtain ⟨cl, r, e⟩ := c.takeClaims_eq h bs; rw [e]
@[simp] theorem Ctl.takeClaims_thm (c : Ctl) (h : Head) (bs : List Nat) : (c.takeClaims h bs).thm = c.thm := by
  obtain ⟨cl, r, e⟩ := c.takeClaims_eq h bs; rw [e]
@[simp] theorem Ctl.takeClaims_phy (c : Ctl) (h : Head) (bs : List Nat) : (c.takeClaims h bs).phy = c.phy := by
  obtain ⟨cl, r, e⟩ := c.takeClaims_eq h bs; rw [e]
@[simp] theorem Ctl.takeClaims_sbp (c : Ctl) (h : Head) (bs : List Nat) : (c.takeClaims h bs).sbp = c.sbp := by
  obtain ⟨cl, r, e⟩ := c.takeClaims_eq h bs; rw [e]
@[simp] theorem Ctl.takeClaims_hd (c : Ctl) (h k : Head) (bs : List Nat) : (c.takeClaims h bs).hd k = c.hd k := by
  obtain ⟨cl, r, e⟩ := c.takeClaims_eq h bs; rw [e]; cases k <;> rfl

end Sys2Proof.Machine
end

