-- ==== Sys2Proof/Laws/Memory.lean ====
section
/-! SUPPORT. The stack's bytes: every operation keeps the canonical form, a read after a write gives what was written, and a
write leaves every other byte alone. -/

namespace Sys2Proof.Machine

/-! ## Sorted keys -/

theorem sortedKeys_iff {ν : Type} (l : List (Nat × ν)) :
    sortedKeys l = true ↔ l.Pairwise fun a b => a.1 < b.1 := by
  induction l with
  | nil => simp [sortedKeys]
  | cons a t ih =>
    obtain ⟨k, v⟩ := a
    cases t with
    | nil => simp [sortedKeys]
    | cons b u =>
      obtain ⟨k', v'⟩ := b
      simp only [sortedKeys, Bool.and_eq_true, decide_eq_true_eq, List.pairwise_cons] at ih ⊢
      rw [ih]
      constructor
      · rintro ⟨h, h1, h2⟩
        refine ⟨?_, h1, h2⟩
        intro e he
        rcases List.mem_cons.mp he with rfl | he
        · exact h
        · exact Nat.lt_trans h (h1 e he)
      · rintro ⟨h, h1, h2⟩
        exact ⟨h _ (List.mem_cons_self ..), h1, h2⟩

theorem mem_sortedPut {ν : Type} (l : List (Nat × ν)) (k : Nat) (v : ν) (e : Nat × ν) (h : e ∈ sortedPut l k v) :
    e = (k, v) ∨ e ∈ l := by
  induction l with
  | nil => simp [sortedPut] at h; exact .inl h
  | cons a t ih =>
    obtain ⟨k', v'⟩ := a
    unfold sortedPut at h
    split at h
    · rcases List.mem_cons.mp h with h | h
      · exact .inl h
      · exact .inr h
    · split at h
      · rcases List.mem_cons.mp h with h | h
        · exact .inl h
        · exact .inr (List.mem_cons_of_mem _ h)
      · rcases List.mem_cons.mp h with h | h
        · exact .inr (h ▸ List.mem_cons_self ..)
        · rcases ih h with h | h
          · exact .inl h
          · exact .inr (List.mem_cons_of_mem _ h)

theorem sortedPut_sorted {ν : Type} (l : List (Nat × ν)) (k : Nat) (v : ν)
    (h : l.Pairwise fun a b => a.1 < b.1) : (sortedPut l k v).Pairwise fun a b => a.1 < b.1 := by
  induction l with
  | nil => simp [sortedPut]
  | cons a t ih =>
    obtain ⟨k', v'⟩ := a
    obtain ⟨h1, h2⟩ := List.pairwise_cons.mp h
    unfold sortedPut
    split
    · rename_i lt
      refine List.pairwise_cons.mpr ⟨?_, h⟩
      intro e he
      rcases List.mem_cons.mp he with rfl | he
      · exact lt
      · exact Nat.lt_trans lt (h1 e he)
    · split
      · rename_i e
        refine List.pairwise_cons.mpr ⟨?_, h2⟩
        intro x hx
        exact e ▸ h1 x hx
      · rename_i nlt ne
        refine List.pairwise_cons.mpr ⟨?_, ih h2⟩
        intro x hx
        rcases mem_sortedPut t k v x hx with rfl | hx
        · exact Nat.lt_of_le_of_ne (Nat.le_of_not_lt nlt) (fun q => ne q.symm)
        · exact h1 x hx

/-! ## The canonical form -/

theorem Memory.wf_iff (m : List Host.Cell) :
    Memory.wf m = true ↔ (m.Pairwise fun a b => a.1 < b.1) ∧ ∀ e ∈ m, e.2 ≠ memDefault := by
  simp [Memory.wf, sortedKeys_iff]

theorem Memory.wf_filter (m : List Host.Cell) (p : Host.Cell → Bool) (h : Memory.wf m = true) :
    Memory.wf (m.filter p) = true := by
  rw [Memory.wf_iff] at h ⊢
  exact ⟨h.1.filter _, fun e he => h.2 e (List.mem_filter.mp he).1⟩

/-- One byte written keeps the canonical form. -/
theorem memPut_wf (m : List Host.Cell) (a : Nat) (v : BitVec 8) (h : Memory.wf m = true) :
    Memory.wf (memPut m a v) = true := by
  unfold memPut
  split
  · exact Memory.wf_filter m _ h
  · rename_i n
    rw [Memory.wf_iff] at h ⊢
    refine ⟨sortedPut_sorted m a v h.1, ?_⟩
    intro e he
    rcases mem_sortedPut m a v e he with rfl | he
    · exact n
    · exact h.2 e he

/-- A string of bytes written keeps the canonical form. -/
theorem memWrite_wf (m : List Host.Cell) (a : Nat) (b : Bytes) (h : Memory.wf m = true) :
    Memory.wf (memWrite m a b) = true := by
  induction b generalizing m a with
  | nil => exact h
  | cons x t ih => exact ih _ _ (memPut_wf m a x h)

/-- A range forgotten keeps the canonical form. -/
theorem memDrop_wf (m : List Host.Cell) (lo hi : Nat) (h : Memory.wf m = true) : Memory.wf (memDrop m lo hi) = true :=
  Memory.wf_filter m _ h

/-! ## Read after write -/

theorem mapGet_sortedPut_same {ν : Type} (l : List (Nat × ν)) (k : Nat) (v : ν) : mapGet (sortedPut l k v) k = some v := by
  induction l with
  | nil => simp [sortedPut, mapGet]
  | cons a t ih =>
    obtain ⟨k', v'⟩ := a
    unfold sortedPut
    split
    · simp [mapGet]
    · split
      · simp [mapGet]
      · rename_i n; simp [mapGet, n, ih]

theorem mapGet_sortedPut_ne {ν : Type} (l : List (Nat × ν)) (k j : Nat) (v : ν) (n : j ≠ k) :
    mapGet (sortedPut l k v) j = mapGet l j := by
  induction l with
  | nil => simp [sortedPut, mapGet, n]
  | cons a t ih =>
    obtain ⟨k', v'⟩ := a
    unfold sortedPut
    split
    · simp [mapGet, n]
    · split
      · rename_i e; subst e; simp [mapGet, n]
      · simp only [mapGet, ih]

/-- A byte read after it was written is the byte written. -/
@[simp] theorem memGet_memPut_same (m : List Host.Cell) (a : Nat) (v : BitVec 8) : memGet (memPut m a v) a = v := by
  unfold memPut memGet
  split
  · rename_i e; rw [mapGet_mapDel_same, e]; rfl
  · rw [mapGet_sortedPut_same]; rfl

/-- A byte written leaves every other byte alone. -/
theorem memGet_memPut_ne (m : List Host.Cell) (a b : Nat) (v : BitVec 8) (n : b ≠ a) :
    memGet (memPut m a v) b = memGet m b := by
  unfold memPut memGet
  split
  · rw [mapGet_mapDel_ne _ _ _ n]
  · rw [mapGet_sortedPut_ne _ _ _ _ n]

/-- A string written leaves every byte outside it alone. -/
theorem memGet_memWrite_outside (m : List Host.Cell) (a b : Nat) (d : Bytes) (n : b < a ∨ a + d.length ≤ b) :
    memGet (memWrite m a d) b = memGet m b := by
  induction d generalizing m a with
  | nil => rfl
  | cons x t ih =>
    simp only [List.length_cons] at n
    unfold memWrite
    rw [ih _ _ (by omega), memGet_memPut_ne _ _ _ _ (by omega)]

/-- A string read after it was written is the string written. -/
theorem memGet_memWrite_inside (m : List Host.Cell) (a i : Nat) (d : Bytes) (h : i < d.length) :
    memGet (memWrite m a d) (a + i) = d[i] := by
  induction d generalizing m a i with
  | nil => simp at h
  | cons x t ih =>
    unfold memWrite
    cases i with
    | zero => rw [memGet_memWrite_outside _ _ _ _ (by omega)]; simp
    | succ j =>
      have : a + (j + 1) = (a + 1) + j := by omega
      rw [this, ih _ _ _ (by simpa using h)]; rfl

theorem mapGet_filter_keep {ν : Type} (l : List (Nat × ν)) (p : Nat → Bool) (k : Nat) (h : p k = true) :
    mapGet (l.filter fun e => p e.1) k = mapGet l k := by
  induction l with
  | nil => rfl
  | cons a t ih =>
    obtain ⟨k', v⟩ := a
    by_cases q : p k' = true
    · simp only [List.filter, q, mapGet, ih]
    · simp only [List.filter, q]
      by_cases e : k = k'
      · subst e; exact absurd h q
      · simp [mapGet, e, ih]

theorem mapGet_filter_drop {ν : Type} (l : List (Nat × ν)) (p : Nat → Bool) (k : Nat) (h : p k = false) :
    mapGet (l.filter fun e => p e.1) k = none := by
  induction l with
  | nil => rfl
  | cons a t ih =>
    obtain ⟨k', v⟩ := a
    by_cases q : p k' = true
    · have : k ≠ k' := by rintro rfl; simp [h] at q
      simp [List.filter, q, mapGet, this, ih]
    · simp [List.filter, q, ih]

/-- A forgotten range reads as the default. -/
theorem memGet_memDrop_inside (m : List Host.Cell) (lo hi a : Nat) (h : lo ≤ a ∧ a < hi) :
    memGet (memDrop m lo hi) a = memDefault := by
  unfold memGet memDrop
  rw [mapGet_filter_drop m (fun k => !(decide (lo ≤ k) && decide (k < hi))) a (by simp [h])]; rfl

/-- A forgotten range leaves every byte outside it alone. -/
theorem memGet_memDrop_outside (m : List Host.Cell) (lo hi a : Nat) (h : ¬(lo ≤ a ∧ a < hi)) :
    memGet (memDrop m lo hi) a = memGet m a := by
  unfold memGet memDrop
  rw [mapGet_filter_keep m (fun k => !(decide (lo ≤ k) && decide (k < hi))) a (by simp; omega)]

/-! ## Lines -/

@[simp] theorem State.storeLine_ctl (s : State) (sa : Nat) (d : Bytes) : (s.storeLine sa d).ctl = s.ctl := by
  unfold State.storeLine; split <;> rfl
@[simp] theorem State.storeLine_pending (s : State) (sa : Nat) (d : Bytes) : (s.storeLine sa d).pending = s.pending := by
  unfold State.storeLine; split <;> rfl
@[simp] theorem State.storeMired_ctl (s : State) (sa k : Nat) : (s.storeMired sa k).ctl = s.ctl := by
  unfold State.storeMired; split <;> rfl
@[simp] theorem State.storeMired_pending (s : State) (sa k : Nat) : (s.storeMired sa k).pending = s.pending := by
  unfold State.storeMired; split <;> rfl
@[simp] theorem State.forget_ctl (s : State) (lo hi : Nat) : (s.forget lo hi).ctl = s.ctl := rfl
@[simp] theorem State.forget_pending (s : State) (lo hi : Nat) : (s.forget lo hi).pending = s.pending := rfl
@[simp] theorem State.setStatus_ctl (s : State) (sa : Nat) (x : LineStatus) : (s.setStatus sa x).ctl = s.ctl := rfl
@[simp] theorem State.setStatus_mem (s : State) (sa : Nat) (x : LineStatus) : (s.setStatus sa x).mem = s.mem := rfl
@[simp] theorem State.setStatus_pending (s : State) (sa : Nat) (x : LineStatus) :
    (s.setStatus sa x).pending = s.pending := rfl

/-- A line stored keeps the canonical form. -/
theorem State.storeLine_wf (s : State) (sa : Nat) (d : Bytes) (h : Memory.wf s.mem = true) :
    Memory.wf (s.storeLine sa d).mem = true := by
  unfold State.storeLine
  split
  · exact h
  · exact memWrite_wf _ _ _ h

/-- A mired line keeps the canonical form. -/
theorem State.storeMired_wf (s : State) (sa k : Nat) (h : Memory.wf s.mem = true) :
    Memory.wf (s.storeMired sa k).mem = true := by
  unfold State.storeMired
  split
  · exact h
  · exact memDrop_wf _ _ _ h

/-- A forgotten range of lines keeps the canonical form. -/
theorem State.forget_wf (s : State) (lo hi : Nat) (h : Memory.wf s.mem = true) : Memory.wf (s.forget lo hi).mem = true :=
  memDrop_wf _ _ _ h

/-- A line stored leaves every byte of other lines alone. -/
theorem State.storeLine_outside (s : State) (sa a : Nat) (d : Bytes) (n : a / 64 ≠ sa / 64) :
    memGet (s.storeLine sa d).mem a = memGet s.mem a := by
  unfold State.storeLine
  split
  · rfl
  · have l : (d.take 64).length ≤ 64 := by simp
    exact memGet_memWrite_outside _ _ _ _ (by omega)

/-- A read of a line changes no byte, no status and no waiting command. -/
theorem State.readLine_frame (s : State) (sa : Nat) :
    (s.readLine sa).2.2.mem = s.mem ∧ (s.readLine sa).2.2.lines = s.lines ∧ (s.readLine sa).2.2.pending = s.pending := by
  unfold State.readLine
  split <;> exact ⟨rfl, rfl, rfl⟩

end Sys2Proof.Machine
end

