-- ==== Sys2Proof/Laws/Stack.lean ====
section
/-! SUPPORT. What the named updates of the stack side do: a channel, a lane, a bank, the comb cells and the recent activates; and what
the shared operations of the controllers can do: an instant chosen, a request or a transfer let in, a column command. -/

namespace Sys2Proof.Machine

/-! ## Channels, banks and lanes -/

@[simp] theorem Ctl.setChan_regs (c : Ctl) (n : Nat) (x : ChanSt) : (c.setChan n x).regs = c.regs := rfl
@[simp] theorem Ctl.setChan_clock (c : Ctl) (n : Nat) (x : ChanSt) : (c.setChan n x).clock = c.clock := rfl
@[simp] theorem Ctl.setChan_job (c : Ctl) (n : Nat) (x : ChanSt) : (c.setChan n x).job = c.job := rfl
@[simp] theorem Ctl.setChan_get (c : Ctl) (n : Nat) (x : ChanSt) (f : Fld) : (c.setChan n x).get f = c.get f := rfl
@[simp] theorem Ctl.setChan_lane (c : Ctl) (n : Nat) (x : ChanSt) (l : Nat) : (c.setChan n x).lane l = c.lane l := rfl
@[simp] theorem Ctl.setChan_cells (c : Ctl) (n : Nat) (x : ChanSt) : (c.setChan n x).stk.cells = c.stk.cells := rfl
@[simp] theorem Ctl.setChan_dieActs (c : Ctl) (n : Nat) (x : ChanSt) (d : Nat) : (c.setChan n x).dieActs d = c.dieActs d := rfl
@[simp] theorem Ctl.setChan_chan (c : Ctl) (n : Nat) (x : ChanSt) : (c.setChan n x).chan n = x := by
  simp [Ctl.chan, Ctl.setChan]
theorem Ctl.setChan_chan_ne (c : Ctl) (n m : Nat) (x : ChanSt) (h : m ≠ n) : (c.setChan n x).chan m = c.chan m := by
  simp [Ctl.chan, Ctl.setChan, mapGet_mapPut_ne _ _ _ _ h]

@[simp] theorem Ctl.setLane_regs (c : Ctl) (n : Nat) (x : LaneSt) : (c.setLane n x).regs = c.regs := rfl
@[simp] theorem Ctl.setLane_clock (c : Ctl) (n : Nat) (x : LaneSt) : (c.setLane n x).clock = c.clock := rfl
@[simp] theorem Ctl.setLane_job (c : Ctl) (n : Nat) (x : LaneSt) : (c.setLane n x).job = c.job := rfl
@[simp] theorem Ctl.setLane_get (c : Ctl) (n : Nat) (x : LaneSt) (f : Fld) : (c.setLane n x).get f = c.get f := rfl
@[simp] theorem Ctl.setLane_chan (c : Ctl) (n : Nat) (x : LaneSt) (ch : Nat) : (c.setLane n x).chan ch = c.chan ch := rfl
@[simp] theorem Ctl.setLane_cells (c : Ctl) (n : Nat) (x : LaneSt) : (c.setLane n x).stk.cells = c.stk.cells := rfl
@[simp] theorem Ctl.setLane_lane (c : Ctl) (n : Nat) (x : LaneSt) : (c.setLane n x).lane n = x := by
  simp [Ctl.lane, Ctl.setLane]
theorem Ctl.setLane_lane_ne (c : Ctl) (n m : Nat) (x : LaneSt) (h : m ≠ n) : (c.setLane n x).lane m = c.lane m := by
  simp [Ctl.lane, Ctl.setLane, mapGet_mapPut_ne _ _ _ _ h]

@[simp] theorem ChanSt.setBank_queue (x : ChanSt) (b : Nat) (k : BankSt) : (x.setBank b k).queue = x.queue := rfl
@[simp] theorem ChanSt.setBank_waiting (x : ChanSt) (b : Nat) (k : BankSt) : (x.setBank b k).waiting = x.waiting := rfl
@[simp] theorem ChanSt.setBank_flight (x : ChanSt) (b : Nat) (k : BankSt) : (x.setBank b k).flight = x.flight := rfl
@[simp] theorem ChanSt.setBank_starts (x : ChanSt) (b : Nat) (k : BankSt) : (x.setBank b k).starts = x.starts := rfl
@[simp] theorem ChanSt.setBank_bank (x : ChanSt) (b : Nat) (k : BankSt) : (x.setBank b k).bank b = k := by
  simp [ChanSt.bank, ChanSt.setBank]
theorem ChanSt.setBank_bank_ne (x : ChanSt) (b j : Nat) (k : BankSt) (h : j ≠ b) : (x.setBank b k).bank j = x.bank j := by
  simp [ChanSt.bank, ChanSt.setBank, mapGet_mapPut_ne _ _ _ _ h]

@[simp] theorem Ctl.noteActs_regs (c : Ctl) (d : Nat) (ts : List Nat) (l : Bool) : (c.noteActs d ts l).regs = c.regs := rfl
@[simp] theorem Ctl.noteActs_chan (c : Ctl) (d : Nat) (ts : List Nat) (l : Bool) (ch : Nat) :
    (c.noteActs d ts l).chan ch = c.chan ch := rfl
theorem Ctl.mem_noteActs (c : Ctl) (d t : Nat) (ts : List Nat) (l : Bool) (h : t ∈ ts) :
    (t, l) ∈ (c.noteActs d ts l).dieActs d := by
  simp only [Ctl.dieActs, Ctl.noteActs, mapGet_mapPut_same, Option.getD_some, List.mem_append, List.mem_map]
  exact .inl ⟨t, h, rfl⟩

/-! ## Comb cells -/

@[simp] theorem Ctl.takeCells_regs (c : Ctl) (k n : Nat) : (c.takeCells k n).regs = c.regs := rfl
@[simp] theorem Ctl.takeCells_chan (c : Ctl) (k n ch : Nat) : (c.takeCells k n).chan ch = c.chan ch := rfl
@[simp] theorem Ctl.takeCells_lane (c : Ctl) (k n l : Nat) : (c.takeCells k n).lane l = c.lane l := rfl
@[simp] theorem Ctl.freeCells_regs (c : Ctl) (k n : Nat) : (c.freeCells k n).regs = c.regs := rfl
@[simp] theorem Ctl.freeCells_chan (c : Ctl) (k n ch : Nat) : (c.freeCells k n).chan ch = c.chan ch := rfl
@[simp] theorem Ctl.freeCells_lane (c : Ctl) (k n l : Nat) : (c.freeCells k n).lane l = c.lane l := rfl

/-- Cells of a slot after it takes some. -/
theorem Ctl.takeCells_get (c : Ctl) (k n : Nat) :
    (mapGet (c.takeCells k n).stk.cells k).getD 0 = (mapGet c.stk.cells k).getD 0 + n := by simp [Ctl.takeCells]

/-- Cells of a slot after it gives some up. -/
theorem Ctl.freeCells_get (c : Ctl) (k n : Nat) :
    (mapGet (c.freeCells k n).stk.cells k).getD 0 = (mapGet c.stk.cells k).getD 0 - n := by
  simp only [Ctl.freeCells]
  split
  · rename_i h; simp [mapGet_mapDel_same, h]
  · simp

/-! ## What the shared operations can do -/

/-- An instant that `earliest` puts no later than its start passes the test and is the start. -/
theorem earliest_of_le (t : Nat) (points : List Nat) (ok : Nat → Bool) (h : earliest t points ok ≤ t) :
    earliest t points ok = t ∧ ok t = true := by
  unfold earliest at *
  cases e : (List.insertionSort (· ≤ ·) (t :: points.filter (t ≤ ·))).find? ok with
  | none => rw [e] at h; simp at h
  | some u =>
    rw [e] at h
    simp only [Option.getD_some] at h ⊢
    have hm := List.mem_of_find?_eq_some e
    have hge : t ≤ u := by
      rcases List.mem_cons.1 ((List.mem_insertionSort _).1 hm) with rfl | hp
      · exact Nat.le_refl _
      · simpa using (List.mem_filter.1 hp).2
    have : u = t := Nat.le_antisymm h hge
    exact ⟨this, this ▸ List.find?_some e⟩

/-- An instant that is clear of a bank's refreshes ends before each or starts after it. -/
theorem clearOf_iff (slots : List Nat) (lead t : Nat) :
    clearOf slots lead t = true ↔ ∀ s ∈ slots, t + lead ≤ s ∨ s + 110000 ≤ t := by
  simp [clearOf]

/-- What a controller's admission can do: nothing, or one waiting request takes the next place in the order. -/
theorem Ctl.admitWaiting_cases (c : Ctl) (ch : Nat) : c.admitWaiting ch = c ∨
    ∃ r ∈ (c.chan ch).waiting, c.mayEnter ch r = true ∧ c.admitWaiting ch =
      { c.setChan ch { c.chan ch with queue := (c.chan ch).queue ++ [{ r with seq := c.stk.order, entry := (c.entryFor ch r).getD .general }]
                                      waiting := (c.chan ch).waiting.erase r } with stk.order := c.stk.order + 1 } := by
  cases e : List.insertionSort (fun (a b : Req) => c.waitKey ch a ≤ c.waitKey ch b) ((c.chan ch).waiting.filter (c.mayEnter ch)) with
  | nil => exact .inl (by simp only [Ctl.admitWaiting, e])
  | cons r t =>
    have hm : r ∈ (c.chan ch).waiting.filter (c.mayEnter ch) :=
      (List.mem_insertionSort _).1 (e ▸ List.mem_cons_self ..)
    exact .inr ⟨r, (List.mem_filter.1 hm).1, (List.mem_filter.1 hm).2, by simp only [Ctl.admitWaiting, e]⟩

@[simp] theorem Ctl.admitWaiting_regs (c : Ctl) (ch : Nat) : (c.admitWaiting ch).regs = c.regs := by
  rcases c.admitWaiting_cases ch with e | ⟨r, -, -, e⟩ <;> rw [e]; rfl

/-- What a lane's admission can do: nothing, or one waiting transfer takes the next place in the order. -/
theorem Ctl.admitLane_cases (c : Ctl) (l : Nat) : c.admitLane l = c ∨
    ∃ x ∈ (c.lane l).waiting, c.laneOpen l x = true ∧ c.admitLane l =
      { c.setLane l { c.lane l with pending := (c.lane l).pending ++ [{ x with seq := c.stk.order }]
                                    waiting := (c.lane l).waiting.erase x } with stk.order := c.stk.order + 1 } := by
  cases e : List.insertionSort (fun (a b : Xfer) => c.rankKey a.asReq ≤ c.rankKey b.asReq) ((c.lane l).waiting.filter (c.laneOpen l)) with
  | nil => exact .inl (by simp only [Ctl.admitLane, e])
  | cons r t =>
    have hm : r ∈ (c.lane l).waiting.filter (c.laneOpen l) :=
      (List.mem_insertionSort _).1 (e ▸ List.mem_cons_self ..)
    exact .inr ⟨r, (List.mem_filter.1 hm).1, (List.mem_filter.1 hm).2, by simp only [Ctl.admitLane, e]⟩

@[simp] theorem Ctl.admitLane_regs (c : Ctl) (l : Nat) : (c.admitLane l).regs = c.regs := by
  rcases c.admitLane_cases l with e | ⟨r, -, -, e⟩ <;> rw [e]; rfl

/-- A channel with no transfer under way has nothing to count. -/
theorem Ctl.settle_of_idle (c : Ctl) (ch : Nat) (h : (c.chan ch).flight = []) : c.settle ch = c := by
  simp [Ctl.settle, h]

/-- The first-ranked transfer of a list is one of it. -/
theorem Ctl.firstXfer_mem (c : Ctl) (l : List Xfer) (x : Xfer) (h : c.firstXfer l = some x) : x ∈ l :=
  (List.mem_insertionSort _).1 (List.mem_of_head? h)

/-- What spending a credit can do: nothing, or its head has one fewer (R317). -/
theorem Ctl.spendCredit_cases (c : Ctl) (h : Head) : c.spendCredit h = c ∨
    c.memCredits ≤ c.memHeld h ∧ c.spendCredit h = c.modHd h fun x => { x with credits := x.credits - 1 } := by
  unfold Ctl.spendCredit
  split
  · exact .inl rfl
  · rename_i hc; exact .inr ⟨Nat.le_of_not_lt hc, rfl⟩

@[simp] theorem Ctl.spendCredit_regs (c : Ctl) (h : Head) : (c.spendCredit h).regs = c.regs := by
  rcases c.spendCredit_cases h with e | ⟨-, e⟩ <;> rw [e]; simp
@[simp] theorem Ctl.spendCredit_stk (c : Ctl) (h : Head) : (c.spendCredit h).stk = c.stk := by
  rcases c.spendCredit_cases h with e | ⟨-, e⟩ <;> rw [e]; simp
@[simp] theorem Ctl.spendCredit_outbox (c : Ctl) (h : Head) : (c.spendCredit h).outbox = c.outbox := by
  rcases c.spendCredit_cases h with e | ⟨-, e⟩ <;> rw [e]; simp

/-- The canary turn of a channel is the one change of R163 that a refresh makes. -/
@[simp] theorem Ctl.turnCanary_regs (c : Ctl) (ch : Nat) : (c.turnCanary ch).regs = c.regs := rfl
@[simp] theorem Ctl.turnCanary_chan (c : Ctl) (ch n : Nat) : (c.turnCanary ch).chan n = c.chan n := rfl

end Sys2Proof.Machine
end

