-- ==== Sys2Proof/Tests/Slice0.lean ====
section
/-! SUPPORT. Tests of one step on small states, and for every statement with hypotheses a state and operands that meet them.
Expected values come from the rules that each test names. -/

namespace Sys2Proof.Tests

open Sys2Proof Sys2Proof.Machine

-- The witnesses below are evaluated by the kernel, which waits for every declaration before it; one after another they
-- need one thread, at once they need one thread each.
set_option Elab.async false

/-- A control side on which a start is complete (R342): Keeper READY, both heads built and UP with expert level on, every
granule present and assigned to partition 0 of Head A. -/
def ready : Ctl :=
  { kpr.phase := 3
    rst.awaiting := 8
    hdA := { bme := true, msixEn := true, mbox := { } }
    hdB := { bme := true, msixEn := true, mbox := { } }
    regs := [((R.HD_STATE_STATE 0).key, 2), ((R.HD_STATE_STATE 1).key, 2), (R.IDC_CTRL_LEVEL_A_EXPERT.key, 1),
      (R.IDC_CTRL_LEVEL_B_EXPERT.key, 1), (R.MAP_TAG_BASE_GRAN.key, 622592), ((R.MAP_GRAN_PRESENT 0).key, 1),
      ((R.MAP_GRAN_ASSIGNED 0).key, 1), (R.STK_ACT_CFG_FUSED_MAX.key, 24), (R.IDC_FW_STAT_READY.key, 1),
      (R.CLK_GATE_EN_EN.key, 0x3FFFF), (R.CLK_GATE_STAT_OPEN.key, 0x3FFFF), (R.IDC_CAP3_HDR0_CAP_ID.key, 0x20),
      (R.IDC_CAP5_HDR0_CAP_ID.key, 0x40), (R.IDC_OTP_ID_DIVISION.key, 2)] }

/-- The state around a control side. -/
def st (c : Ctl) : State := { ctl := c, mem := [], lines := [], pending := [] }

/-- The control side with a field set. -/
def wf (c : Ctl) (x : Fld) (v : Nat) : Ctl := c.set x v

/-- Witness of StepRunsTheFrontCommand: a queue with a command, and an empty one. -/
theorem witness_step : ({ st ready with pending := [.sbBusClear] } : State).pending = [.sbBusClear] ∧ State.reset.pending = [] :=
  ⟨rfl, rfl⟩

/-- Witness of EveryStepOnlyBlowsFuses: bit 0 of the life-cycle word of `ready`. -/
theorem witness_fusesStay : step (st ready) = .next (st ready) ∧ tb (otpWord ready.fus.words 0) 0 = true := ⟨rfl, by decide +kernel⟩

/-- Witness of EveryStepKeepsTheMemoryForm. -/
theorem witness_memOk : State.reset.MemOk ∧ State.reset.LinesOk ∧ step State.reset = .next State.reset :=
  ⟨by unfold State.MemOk; decide, by unfold State.LinesOk; decide, rfl⟩

/-- Witness of CommandsNeverTouchTheQueue. -/
theorem witness_queue : exec .sbBusClear State.reset = .next State.reset := rfl

/-- Witness of OtherCommandsKeepTheStack. -/
theorem witness_keepsStack : Obligations.reachesStack .sbBusClear = false ∧ exec .sbBusClear State.reset = .next State.reset :=
  ⟨rfl, rfl⟩

/-- Witness of CommitWritesAskForTheirCommit. -/
theorem witness_commits :
    (st ready).reached .a R.STK_COMMIT_COMMIT 1 0 ∧ (st ready).reached .a R.MAP_COMMIT_COMMIT 1 0 ∧
    (st ready).reached .a R.QOS_SCHED_COMMIT_COMMIT 1 0 ∧ (st ready).reached .a R.QOS_CLASS_COMMIT_COMMIT 1 0 ∧
    (st ready).reached .a R.QOS_BW_SNAP_CTL_TAKE 1 0 := by
  unfold State.reached Ctl.reached; decide +kernel

/-- Witness of WritesThatDoNotReachAreCounted: each reason in turn, ring 0 being Head A's and lane 8 Head B's. -/
theorem witness_drops :
    (wf ready (R.HD_STATE_STATE 0) 5).fenced .a = true ∧ (wf ready R.IDC_CTRL_LEVEL_A_EXPERT 0).expert .a = false ∧
    (wf ready R.CLK_GATE_EN_EN 0).gateClosed 0x100000 = true ∧ ready.foreign .b 0x111000 0 = 1 ∧
    ready.foreign .b 0xB0004 0 = 2 ∧ ready.foreign .a 0xE8000 0 = 3 := by decide +kernel

/-- A control side on which Head A's default CXL.io stream is insecure (R219). -/
def insecure : Ctl := { ready with hdA := { ready.hdA with ioStreams := ready.hdA.ioStreams.set 0 { state := 2 } } }

/-- Witness of WritesThatDoNotReachAreCounted: an insecure stream, a hole, a claimed block with a register of its own and STK_COMMIT,
and a 64-bit write to a register that is reached. -/
theorem witness_claims :
    let c : Ctl := { ready with claims := [(blockOf 0x310010, .b), (blockOf 0x320010, .b)] }
    insecure.ioRefused .a (insecure.hdA.bar0 + 0x310010) = true ∧ insecure.fenced .a = false ∧ (findReg 0x10020).isSome = false ∧
    c.ioRefused .a (c.hdA.bar0 + 0x310010) = false ∧ c.claimed (blockOf 0x310010) = true ∧ c.foreign .a 0x310010 7 = 0 ∧
    c.gateClosed 0x310010 = false ∧ ((findReg 0x310010).any fun a => a.hasConfig .a 7 && (a.fieldsOf .a).all fun r => decide (r.acc ≠ .w1c)) = true ∧ c.claimed (blockOf 0x320010) = true ∧
    c.expert .a = true ∧ c.gateClosed 0x320010 = false ∧ (findReg 0x320010).isSome = true ∧
    insecure.ioRefused .a (insecure.hdA.bar2 + 0x10000) = true ∧ ready.reached .a 0x310010 7 := by
  unfold Ctl.reached
  refine ⟨?_, ?_, ?_, ?_, ?_, ?_, ?_, ?_, ?_, ?_, ?_, ?_, ?_, ?_⟩ <;> decide +kernel

/-- Witness of RegisterWritesFollowAccessTypes. -/
theorem witness_writes : ready.reached .a 0x310010 0xFFFF0080 ∧ ready.reached .a 0x320010 2 ∧ ready.reached .b 0x40 0 ∧
    ready.get R.STK_COMMIT_REJECT < 2 := by
  unfold Ctl.reached; decide +kernel

/-- Witness of ReadsClearTheirRcFields: IDC_LEVEL_DROP_CNT. -/
theorem witness_rc : ∃ a, findReg 0x54 = some a ∧ ready.hiddenReg 0x54 = false ∧ ready.gateClosed 0x54 = false ∧
    a.row.size = 4 ∧ ¬(0xE0000 ≤ (0x54 : Nat) ∧ 0x54 < 0xF0000) ∧ ready.ioRefused .a (ready.hdA.bar0 + 0x54) = false ∧
    insecure.ioRefused .a (insecure.hdA.bar0 + 0x54) = true :=
  ⟨_, rfl, by decide +kernel, by decide +kernel, rfl, by decide, by decide +kernel, by decide +kernel⟩

/-- Witness of SnapshotsServeOneRequester: CMB_DMC_HIT_CNT. -/
theorem witness_snapshot : ∃ a b, findReg (offsetOf R.CMB_DMC_HIT_CNT_HITS) = some a ∧ a.row.size = 8 ∧ a.word = 0 ∧
    findReg (offsetOf R.CMB_DMC_HIT_CNT_HITS + 4) = some b ∧ b.row.size = 8 ∧ b.word = 1 ∧ b.base = a.base ∧
    (∀ c : Ctl, c.regValue b .a = c.regValue a .a) ∧
    ready.hiddenReg (offsetOf R.CMB_DMC_HIT_CNT_HITS) = false ∧ ready.gateClosed (offsetOf R.CMB_DMC_HIT_CNT_HITS) = false ∧
    ready.ioRefused .a (ready.hdA.bar0 + offsetOf R.CMB_DMC_HIT_CNT_HITS) = false ∧
    ready.ioRefused .a (ready.hdA.bar0 + (offsetOf R.CMB_DMC_HIT_CNT_HITS + 4)) = false :=
  ⟨_, _, rfl, rfl, rfl, rfl, rfl, rfl, rfl, fun _ => rfl, by decide +kernel, by decide +kernel, by decide +kernel, by decide +kernel⟩

/-- A control side whose SQ 0 and CQ 0 are enabled with 16 entries. -/
def ringed : Ctl := wf (wf (wf (wf ready (R.JRG_SQ_CFG_ENABLE 0) 1) (R.JRG_SQ_CFG_SIZE 0) 16) (R.JRG_CQ_CFG_ENABLE 0) 1)
  (R.JRG_CQ_CFG_SIZE 0) 16

/-- Witness of HostErrorsStayWithinTheirBounds. -/
theorem witness_hostErrors :
    ringed.flag (R.JRG_SQ_CFG_ENABLE 0) = true ∧ ringed.reached .a (offsetOf (R.JRG_SQ_BASE_BASE 0)) 0x1000 ∧
    ringed.flag (R.JRG_CQ_CFG_ENABLE 0) = true ∧ ringed.reached .a (offsetOf (R.JRG_CQ_BASE_BASE 0)) 0x1000 ∧
    ringed.doorbellDrops .a (ringed.sqOwner 0) (ringed.flag (R.JRG_SQ_CFG_ENABLE 0)) = none ∧
    ringed.get (R.JRG_SQ_CFG_SIZE 0) ≤ 16 ∧
    ringed.doorbellDrops .a (ringed.cqOwner 0) (ringed.flag (R.JRG_CQ_CFG_ENABLE 0)) = none ∧
    ringed.get (R.JRG_CQ_CFG_SIZE 0) ≤ 16 := by
  unfold Ctl.reached; decide +kernel

/-- A control side on which pinned entries hold the 16 ways of entry 0. -/
def allPinned : Ctl := { ready with
  stx.cache := (List.range 16).map fun i => 16384 * (i + 1)
  stx.pins := (List.range 16).map fun i => (0, 16384 * (i + 1)) }

/-- Witness of WindowAndTimeWritesAct. -/
theorem witness_windowAndTime :
    (st ready).reached .a (R.STX_WIN_CTL_CMD 0) 1 0 ∧ ready.get (R.STX_WIN_CTL_BUSY 0) = 0 ∧
    mapGet ({ ready with stx.entries := [(0, .lost)] } : Ctl).stx.entries (bitsOf (R.STX_WIN_CTL_INDEX 0) 0) = some .lost ∧
    (st (wf (wf ready R.TIM_STATUS_SOURCE 0) R.TIM_STATUS_B_LOCKED 1)).reached .a R.TIM_CMD_SWITCH 1 0 ∧
    (wf (wf ready R.TIM_STATUS_SOURCE 0) R.TIM_STATUS_B_LOCKED 1).locked .b = true ∧
    (st ready).reached .a R.RST_CTL_WARM 1 0xA5000000 ∧ bitsOf R.RST_CTL_KEY 0xA5000000 = 0xA5 ∧
    (st ready).reached .a R.BST_CTL_START 1 1 ∧ ready.bistTarget (bitsOf R.BST_CTL_TARGET 1) = true ∧
    (st ready).reached .a R.CMB_DMC_FLUSH_FLUSH 1 0 ∧ ({ ready with stx.cache := [0] } : Ctl).stx.cache.contains 0 = true ∧
    ready.stx.cache.contains 0 = false ∧ ready.wayFree 0 = true ∧ allPinned.stx.cache.contains 0 = false ∧
    allPinned.wayFree 0 = false ∧
    ({ ready with dec.wants := [(0, [1])] } : Ctl).dmcWanted [1] = true := by
  unfold State.reached Ctl.reached; decide +kernel

/-- Witness of RingEnablesFollowTheirConfiguration: ring 0 of Head A with 16 entries. -/
theorem witness_ringEnables :
    (st ready).reached .a (R.JRG_SQ_CFG_ENABLE 0) 1 16 ∧ ready.get (R.JRG_SQ_CFG_ENABLE 0) = 0 ∧
    sizeOk (bitsOf (R.JRG_SQ_CFG_SIZE 0) 16) = true ∧ (st ringed).reached .a (R.JRG_SQ_CFG_ENABLE 0) 0 16 ∧
    ringed.get (R.JRG_SQ_CFG_ENABLE 0) = 1 ∧ ringed.get (R.JRG_SQ_CFG_SIZE 0) = bitsOf (R.JRG_SQ_CFG_SIZE 0) 16 ∧
    (st ready).reached .a (R.JRG_CQ_CFG_ENABLE 0) 1 16 ∧ (st ringed).reached .a (R.JRG_CQ_CFG_ENABLE 0) 0 16 ∧
    ringed.get (R.JRG_CQ_CFG_ENABLE 0) = 1 ∧ ringed.get (R.JRG_CQ_CFG_SIZE 0) = bitsOf (R.JRG_CQ_CFG_SIZE 0) 16 ∧
    ringed.fenced .a = false ∧ ringed.expert .a = true ∧ ringed.sqOwner 0 = .a ∧ ringed.cqOwner 0 = .a ∧
    ringed.flag (R.JRG_SQ_CFG_ENABLE 0) = true ∧ ringed.flag (R.JRG_CQ_CFG_ENABLE 0) = true ∧
    15 < ringed.get (R.JRG_SQ_CFG_SIZE 0) ∧ 15 < ringed.get (R.JRG_CQ_CFG_SIZE 0) ∧
    ready.flag (R.JRG_SQ_CFG_ENABLE 0) = false := by
  unfold State.reached Ctl.reached; decide +kernel

/-- A control side whose Head A's link carries CXL.mem. -/
def linked : Ctl := wf ready (R.HD_STATE_LINK_UP 0) 1

/-- Witness of MemoryRequestsFollowTheirGate: line 0 of granule 0, which is Head A's; granule 1 is not present. -/
theorem witness_memory : linked.stk.memWait = [] ∧ linked.stk.ingest.length < 4096 ∧ linked.memArrives .a = true ∧
    linked.memArrives .b = false ∧ linked.fenced .a = false ∧ linked.get R.IDC_KPR_STAT_PARKED = 0 ∧
    linked.get R.THM_STATUS_STAGE ≠ 4 ∧ linked.mayReach .a 0 = true ∧ linked.mayReach .a (1 * GiB) = false ∧
    linked.get (R.QOS_CLASS_CFG_LIMIT (linked.memClass .a 0)) ≠ 0 ∧ linked.ecc.merges = [] ∧ linked.sealAt 0 = 0 ∧
    linked.rowUnplaced 0 = false ∧ ({ st linked with lines := [(0, .good)] } : State).status 0 = .good ∧
    ({ st linked with lines := [(0, .mired 1)] } : State).status 0 = .mired 1 ∧
    (wf linked (R.HD_STATE_STATE 0) 5).memArrives .a = true ∧ (wf linked (R.HD_STATE_STATE 0) 5).fenced .a = true ∧
    (wf linked R.IDC_KPR_STAT_PARKED 1).memArrives .a = true ∧ (wf linked (R.SEA_GRAN_STATE 0) 2).sealAt 0 = 2 ∧
    (wf linked (R.SEA_GRAN_STATE 0) 2).memHandle .a 0 = false ∧ linked.pageBusy 0 = false ∧
    linked.moveHolds false 0 = false ∧ linked.moveHolds true 0 = false ∧ linked.gateHolds .a 0 = false := by decide +kernel

/-- Witness of HdmDecodersCommitWithinTheirHead. -/
theorem witness_hdm : (ready.hd .a).hdm[0]? = some ({} : HdmDecoder) ∧ ready.userEnd = 622592 * 65536 := by decide +kernel

/-- A job of Head A in slot 0, and one with its record changed. -/
def oneJob : Job := { slot := 0, owner := .a, desc := List.replicate 128 0, phase := .running }

/-- Witness of FetchesAndLinkRequestsEnd: SQ 0 with four entries, a read outstanding, a list that has arrived, an invalid
descriptor and a NOP, and a read and a write of a running job. -/
theorem witness_fetches :
    let fed : Ctl := ringed.setRing 0 { sqTail := 4 }
    let dma : DmaReq := ⟨5, .a, 0, 0, 64, false, .data, 0, 0⟩
    let busy : Ctl := { ready with job.jobs := [oneJob], job.dma := [dma, { dma with tag := 6, write := true }] }
    let listed : Job := { oneJob with
      phase := .listWait, desc := toLE 4 1 ++ List.replicate 84 0 ++ toLE 4 1 ++ List.replicate 36 0 }
    fed.admits = true ∧ fed.feeds 0 = true ∧ 0 < min fed.fetchRoom (4096 - fed.npOutstanding) ∧
    ({ ringed with job.fetches := [(0, 3)] } : Ctl).job.fetches.find? (fun e => decide (e.1 = 0)) = some (0, 3) ∧
    ringed.jobAt 0 = none ∧ ringed.get (R.JRG_SQ_CFG_SIZE 0) ≤ 65536 ∧
    ringed.descBad (ringed.makeJob 0 .a [10]) = true ∧ ringed.descBad (ringed.makeJob 0 .a [0]) = false ∧
    (ringed.makeJob 0 .a [0]).hasList = false ∧
    ({ ready with job.jobs := [listed] } : Ctl).jobAt 0 = some listed ∧ listed.srcSpace = 1 ∧ listed.listCount = 0 ∧
    gather listed.ingested 1 0 0 = some [] ∧
    busy.jobAt 0 = some oneJob ∧ busy.job.dma.find? (fun d => decide (d.tag = 5) && !d.write) = some dma ∧
    busy.job.dma.find? (fun d => decide (d.tag = 6) && d.write) = some { dma with tag := 6, write := true } ∧
    (∀ x ∈ busy.job.jobs, x.toRead = []) ∧ (wf ready (R.QOS_CLASS_CFG_LIMIT 0) 100).classAdmits listed = true ∧
    listed.adopted = false ∧ listed.aborter = none := by
  refine ⟨?_, ?_, ?_, ?_, ?_, ?_, ?_, ?_, ?_, ?_, ?_, ?_, ?_, ?_, ?_, ?_, ?_, ?_, ?_, ?_⟩ <;> decide +kernel

/-- A COPY from host memory into the stack. -/
def copyIn : Job := { oneJob with desc := [7] ++ List.replicate 87 0 ++ [1] ++ List.replicate 39 0 }

/-- Witness of FetchesAndLinkRequestsEnd: a list in the stack that its job may not read, granule 1 being absent, and a FILL of the
stack by read completions. -/
theorem witness_stackList :
    let listed : Job := { oneJob with
      phase := .listWait, desc := [1] ++ List.replicate 7 0 ++ toLE 4 0x00010102 ++ List.replicate 52 0 ++ toLE 8 GiB ++ List.replicate 56 0 }
    let c : Ctl := { wf ready (R.QOS_CLASS_CFG_LIMIT 0) 100 with job.jobs := [listed] }
    c.jobAt 0 = some listed ∧ listed.srcSpace = 0 ∧ listed.ocs = false ∧ listed.aborter = none ∧ c.classAdmits listed = true ∧
    (c.judgeSpans listed (Job.bufRange listed.srcSpace listed.src (16 * listed.listCount))).isSome = true ∧
    ready.readLines copyIn .data 0xFFFE 0 64 ≠ [] := by
  refine ⟨?_, ?_, ?_, ?_, ?_, ?_, ?_⟩ <;> decide +kernel

/-- A COPY of 64 bytes, a NOP, and an ENCODE of 64 bytes of the XOR code of one data fragment, all in the stack, ready or
running. -/
def copyJob : Job := { oneJob with
  phase := .ready, desc := [7] ++ List.replicate 59 0 ++ [64] ++ List.replicate 67 0 }
def fillJob : Job := { oneJob with
  desc := [8] ++ List.replicate 59 0 ++ [64] ++ List.replicate 35 0 ++ List.replicate 16 0xA5 ++ List.replicate 16 0 }
def encodeJob : Job := { oneJob with
  desc := [1] ++ List.replicate 7 0 ++ toLE 4 0x00010102 ++ List.replicate 28 0 ++ toLE 8 2 ++ toLE 4 64 ++
    List.replicate 8 0 ++ toLE 4 64 ++ List.replicate 64 0
  code := 0x00010102, flen := 64, frags := [⟨0, 0⟩, ⟨4096, 0⟩] }

/-- The ready control side with one job. -/
def withJob (j : Job) : Ctl := { wf ready (R.QOS_CLASS_CFG_LIMIT 0) 100 with job.jobs := [j] }

/-- Witness of NopCompletesBehindItsFence: a fenced NOP of a ring and one of OCS, ready to start. -/
theorem witness_nop :
    let n : Job := { oneJob with phase := .ready, desc := [0, 1] ++ List.replicate 126 0 }
    let o : Job := { n with ocs := true, handle := some 3 }
    n ∈ (withJob n).job.jobs ∧ n.op = opNop ∧ (withJob n).mayStart n = true ∧ n.fFence = true ∧ n.aborter = none ∧
    (withJob o).mayStart o = true ∧ o.handle = some 3 ∧ ((withJob o).hd o.owner).mbox.pend = none := by
  refine ⟨?_, ?_, ?_, ?_, ?_, ?_, ?_, ?_⟩ <;> decide +kernel

/-- A computed or running stripe job of an opcode with its flags, over one data fragment of 64 bytes at 0 and its output at 4096 or, packed,
at 8192; a TRANSCODE has the same code and places on its second side. -/
def stripeJob (op flags : Nat) (computed : Bool) : Job := { oneJob with
  desc := [BitVec.ofNat 8 op, BitVec.ofNat 8 flags] ++ List.replicate 6 0 ++ toLE 4 0x00010102 ++ toLE 4 0x00010102 ++
    List.replicate 24 0 ++ toLE 8 2 ++ toLE 4 64 ++ toLE 4 64 ++ List.replicate 4 0 ++ toLE 4 64 ++ List.replicate 8 0 ++
    toLE 8 8192 ++ List.replicate 48 0
  code := 0x00010102, flen := 64, frags := [⟨0, 0⟩, ⟨4096, 0⟩, ⟨12288, 0⟩, ⟨16384, 0⟩], computed := computed }

/-- Witness of JobsAreJudgedRunAndEnded: the passes of the other stripe operations and of a packed output, a packed output that ends, and
a COPY within the stack. -/
theorem witness_passes :
    (∀ op ∈ [opReconstruct, opUpdate, opTranscode], let j := stripeJob op 0 false
      (withJob j).macReady j = true ∧ (withJob j).passViolation j = none ∧
      (∀ k ∈ j.passInputs, ((withJob j).inputAt j k).1 = 0 ∧ ((withJob j).inputAt j k).2 % 64 = 0 ∧
        (withJob j).sealAt ((withJob j).inputAt j k).2 = 0)) ∧
    (let j := stripeJob opEncode 16 false
     (withJob j).macReady j = true ∧ j.fPacked = true ∧ j.dstSpace = 0 ∧ (withJob j).passViolation j = none) ∧
    (let j : Job := { stripeJob opEncode 16 true with packBuf := [⟨8192, false, List.replicate 64 0⟩] }
     j.packBuf = (List.range 1).map (fun i => ⟨j.dst + 64 * i, false, List.replicate 64 0⟩) ∧ (withJob j).packReady j = true ∧
     (withJob j).runViolation j = none ∧ (withJob j).jobDma 0 true = [] ∧ j.dst % 64 = 0 ∧ j.fCtx = false ∧ j.stop = none) ∧
    (let j : Job := { copyJob with phase := .running }
     j.op = opCopy ∧ (withJob j).bufferReady j = true ∧ (withJob j).runViolation j = none ∧ j.srcSpace = 0 ∧ j.src % 64 = 0 ∧
     j.dstSpace = 0 ∧ j.dst % 64 = 0 ∧ j.length = 64 ∧ (withJob j).sealAt j.src = 0 ∧
     ({ st (withJob j) with lines := [(0, .good)] } : State).status j.src = .good) := by
  refine ⟨?_, ?_, ?_, ?_⟩ <;> decide +kernel

/-- Witness of JobsAreJudgedRunAndEnded, but for its decode clauses: a COPY that may start and one that may not, a NOP,
an ENCODE pass, a stopped and a finished job, a FILL. -/
theorem witness_jobs :
    (withJob copyJob).mayStart copyJob = true ∧ copyJob.op ≠ opNop ∧ copyJob.length = 64 ∧ copyJob.fCtx = false ∧
    (withJob copyJob).judgeRanges copyJob = none ∧
    ((withJob { copyJob with owner := .b }).judgeRanges { copyJob with owner := .b }).isSome = true ∧
    (withJob { oneJob with phase := .ready }).mayStart { oneJob with phase := .ready } = true ∧
    ({ oneJob with phase := .ready } : Job).op = opNop ∧
    (withJob encodeJob).jobAt 0 = some encodeJob ∧ encodeJob.outputs = [1] ∧ encodeJob.fPacked = false ∧
    (withJob encodeJob).macReady encodeJob = true ∧ (withJob encodeJob).passViolation encodeJob = none ∧
    encodeJob.passInputs = [(.frag 0, 0)] ∧ (withJob encodeJob).inputAt encodeJob (.frag 0, 0) = (0, 0) ∧
    (withJob encodeJob).sealAt 0 = 0 ∧ ({ st (withJob encodeJob) with lines := [(0, .good)] } : State).status 0 = .good ∧
    (withJob encodeJob).fragByte (encodeJob.fragA 1) encodeJob.nextOff = 4096 ∧
    (withJob encodeJob).rowUnplaced 4096 = false ∧ fillJob.op = opFill ∧
    (withJob fillJob).bufferReady fillJob = true ∧ (withJob fillJob).runViolation fillJob = none ∧
    (withJob fillJob).jobDma 0 true = [] ∧ fillJob.length = 64 ∧ fillJob.dst = 0 ∧ fillJob.dstSpace = 0 ∧
    encodeJob.isStripe = true ∧ (withJob encodeJob).ecc.merges = [] ∧
    ({ withJob copyJob with stx.cache := [9] } : Ctl).stx.cache.contains 9 = true ∧
    (withJob copyJob).stx.cache.contains 9 = false ∧ (withJob copyJob).stx.dirty = [] := by
  refine ⟨?_, ?_, ?_, ?_, ?_, ?_, ?_, ?_, ?_, ?_, ?_, ?_, ?_, ?_, ?_, ?_, ?_, ?_, ?_, ?_, ?_, ?_, ?_, ?_, ?_, ?_, ?_, ?_, ?_, ?_, ?_⟩ <;>
    decide +kernel

/-- Witness of JobsAreJudgedRunAndEnded: a queued key, one whose inversion has failed once, and a miss that waits. -/
theorem witness_decode :
    let e : DmcEntry := ⟨0, [1, 2], none, 0, true, false⟩
    let c : Ctl := { ready with dec := { entries := [e], wants := [(0, [1, 2])], queue := [[1, 2]] } }
    let w : Ctl := { ready with dec := { wants := [(0, [1, 2])], wayWait := [0] } }
    ready.domainOpen 8 = true ∧ (wf ready R.CLK_GATE_STAT_OPEN 0).domainOpen 8 = false ∧
    c.dec.queue = [1, 2] :: [] ∧ c.dmcEntry [1, 2] = some e ∧ e.failed = true ∧
    w.dec.wants.find? (fun w => decide (w.1 = 0)) = some (0, [1, 2]) ∧ w.dmcEntry [1, 2] = none ∧
    w.dmcFree (dmcSet [1, 2]) = true ∧
    (let e : DmcEntry := ⟨dmcSet [1, 2], [1, 2], some [], 0, false, false⟩
     let d : Ctl := { withJob encodeJob with dec := { entries := [e], wants := [(0, [1, 2])] } }
     d.macReady encodeJob = true ∧ d.dec.wants.find? (fun w => decide (w.1 = encodeJob.slot)) = some (0, [1, 2])) := by
  refine ⟨?_, ?_, ?_, ?_, ?_, ?_, ?_, ?_, ?_⟩ <;> decide +kernel

/-- An ended ring job of SQ 0, whose CQ is CQ 0. -/
def endedJob : Job := { oneJob with phase := .ended }

/-- Witness of CompletionsArePostedAndRingsKept: a completion that may be written, one on a full CQ, one on a stopped CQ;
unsignalled completions; the ring commands on SQ 1 and CQ 1, and on the enabled rings 0. -/
theorem witness_completions :
    let c : Ctl := { ringed with job.jobs := [endedJob] }
    c.jobAt 0 = some endedJob ∧ c.jobCq endedJob = 0 ∧ c.fenced .a = false ∧ c.cqFull 0 = false ∧
    c.linkReady (c.cqOwner 0) = true ∧ (wf c (R.JRG_CQ_STATUS_TAIL 0) 15).cqFull 0 = true ∧
    (wf c (R.JRG_CQ_STATUS_WRITE_ERR 0) 1).get (R.JRG_CQ_STATUS_WRITE_ERR 0) ≠ 0 ∧
    (wf (c.setRing 0 { unsignalled := 1 }) (R.JRG_CQ_IRQ_COAL_US 0) 5).get (R.JRG_CQ_IRQ_COAL_US 0) ≠ 0 ∧
    ((wf (c.setRing 0 { unsignalled := 1 }) (R.JRG_CQ_IRQ_COAL_US 0) 5).ring 0).unsignalled ≠ 0 ∧
    c.get (R.JRG_CQ_CFG_ENABLE 0) ≠ 0 := by
  refine ⟨?_, ?_, ?_, ?_, ?_, ?_, ?_, ?_, ?_, ?_⟩ <;> decide +kernel

/-- Witness of CompletionsArePostedAndRingsKept: the ring commands. -/
theorem witness_ringCommands :
    (st ringed).unclaimed .a [blkJrg] ∧ (st ringed).takes .a { min := 24 } ([0, 1, 0, 0, 16] ++ List.replicate 19 0) ∧
    ringed.ringOwner 0 1 = .a ∧ ringed.get (R.JRG_SQ_CFG_ENABLE 1) = 0 ∧ sizeOk 16 = true ∧
    ringed.get (R.JRG_CQ_CFG_ENABLE 0) ≠ 0 ∧ ringed.cqOwner 0 = .a ∧ ringed.get (R.JRG_SQ_CFG_ENABLE 0) ≠ 0 ∧
    (st ringed).takes .a { min := 2, background := true } [1, 0] ∧ ringed.cqFreed 0 = false ∧ ringed.cqFreed 1 = true ∧
    (st ringed).takes .a { min := 3 } [0, 1, 1] ∧ ringed.twoHeads = true ∧
    ({ ringed with hdA.mbox.bg := some ⟨0xC111, [0, 1], 0, 1⟩, hdA.mbox.bgTracked := true } : Ctl).sqInFlight 1 = 0 := by
  unfold State.takes State.unclaimed; decide +kernel

/-- An OCS job of Head A that runs under handle 3. -/
def ocsJob : Job := { oneJob with ocs := true, handle := some 3 }

/-- Witness of OcsJobsLiveByTheirHandles: a submission, invalid and valid, without a wait; the waits; the queries; the
aborts, on SQ 0. -/
theorem witness_ocsJobs :
    (st ready).takes .a { min := 136, stack := true } (List.replicate 136 0) ∧ ready.ocsHeld .a < 64 ∧
    ready.slotsHeld + ready.job.fetches.length + ready.job.slotWaiters.length < 4096 ∧ ready.jobAt 0 = none ∧
    ready.handleHeld .a 1 = false ∧ ready.descBad (ready.makeJob 0 .a (List.replicate 128 0)) = false ∧
    (ready.makeJob 0 .a (List.replicate 128 0)).hasList = false ∧ waitNs (List.replicate 136 0) = 0 ∧
    ready.descBad (ready.makeJob 0 .a (10 :: List.replicate 127 0)) = true ∧
    ({ ready with hdA.mbox.pend := some ⟨0xC100, [], .slot, 0⟩ } : Ctl).submitWaits .a .slot = some ⟨0xC100, [], .slot, 0⟩ ∧
    ({ ready with hdA.mbox.pend := some ⟨0xC100, [], .job, 1⟩ } : Ctl).submitWaits .a .job = some ⟨0xC100, [], .job, 1⟩ ∧
    (st ready).takes .a { min := 4 } [3, 0, 0, 0] ∧
    mapGet (({ ready with job.doneA := [(3, [])] } : Ctl).done .a) 3 = some [] ∧
    (withJob ocsJob).handleHeld .a 3 = true ∧ (st ready).takes .a { min := 4 } (List.replicate 7 0) ∧
    ready.sqOwner 0 = .a ∧ ready.ringJobs 0 0 = [] ∧ (st ringed).reached .a R.JRG_ABORT_SQ 0 0 ∧
    (withJob oneJob).ringJobs 0 0 = [oneJob] := by
  unfold State.takes State.reached Ctl.reached; decide +kernel

/-- Errors in six symbols that are six of the nine of a codeword of RS(72,64), the coefficients of its g(x) (R170). -/
def sixErrors : List (Nat × Byte) := [(0, 1), (1, 255), (2, 11), (3, 81), (4, 54), (5, 239)]

/-- Witness of LineErrorsAreCorrectedOrMired: one symbol in error, four, six that decode as three others, an unverifiable granule, and
records to read. -/
theorem witness_lineErrors : ((st ready).status (64 * 5)).isMired = false ∧ ready.correctable (ready.dieOf (64 * 5)) = 3 ∧
    ready.unverifiedCause (64 * 5) = none ∧ (wf ready (R.SEA_GRAN_STATE 0) 3).unverifiedCause (64 * 5) = some 3 ∧
    (errorPattern [(3, 1)]).length = 1 ∧ (errorPattern [(3, 1), (4, 1), (5, 1), (70, 1)]).length = 4 ∧
    ready.surelyFound (ready.dieOf (64 * 5)) = 5 ∧ ready.metaAt (64 * 5) = none ∧ (errorPattern sixErrors).length = 6 ∧
    decodePattern 3 ((st ready).arriving (64 * 5) (errorPattern sixErrors)) = some [(6, 173), (7, 200), (8, 24)] ∧
    ready.rowUnplaced (64 * 5) = false ∧
    (wf { ready with ecc.merges := [⟨64 * 5, [], 0, .a⟩] } (R.QOS_CLASS_CFG_LIMIT 0) 100).ecc.merges = ⟨64 * 5, [], 0, .a⟩ :: [] ∧
    ready.pageBusy (64 * 5) = false ∧ ready.sealGated (64 * 5) = false ∧ ready.moveHolds true (64 * 5) = false ∧
    (wf ready (R.QOS_CLASS_CFG_LIMIT 0) 100).get (R.QOS_CLASS_CFG_LIMIT 0) ≠ 0 ∧
    ({ ready with ecc.log := [⟨0, 1, 1, 0, 0⟩, ⟨1, 2, 1, 0, 0⟩] } : Ctl).ecc.log = ⟨0, 1, 1, 0, 0⟩ :: ([] ++ ⟨1, 2, 1, 0, 0⟩ :: []) ∧
    (({ st ready with lines := [(5, .mired 1)] } : State).status (64 * 5)).isMired = true ∧
    ({ st ready with lines := [(5, .good)] } : State).status (64 * 5) = .good ∧ ready.sealAt (64 * 5) = 0 ∧
    (wf { ready with ecc := { ready.ecc with window := 16 } } R.TIM_BEAT_CNT_VALUE 1048576).get R.TIM_BEAT_CNT_VALUE %
      (16 * 65536) = 0 ∧ ready.kpr.phase = 3 ∧ ready.ecc.log.length < 1048576 ∧
    (st ready).takes .a { min := 6 } [1, 0, 0, 0, 1, 0] ∧ (st ready).unclaimed .a [blkEcc] ∧ ready.ecc.staging = [] ∧
    2 ^ 31 ≤ (le [1, 0, 0, 0, 1, 0] 0 4 + 2 ^ 32 - (wf ready R.ECC_MIRE_SEQ_NEXT 2).get R.ECC_MIRE_SEQ_NEXT) % 2 ^ 32 ∧
    (le [1, 0, 0, 0, 1, 0] 0 4 + 2 ^ 32 - ready.get R.ECC_MIRE_SEQ_NEXT) % 2 ^ 32 < 2 ^ 31 := by
  unfold State.takes State.unclaimed; decide +kernel

/-- Witness of LineErrorsAreCorrectedOrMired: a line of zeros whose check symbols change to the mire word's, where the word is this one,
arrives as a mired line does. -/
theorem witness_mireArrives (h : Config.mireWord = [1, 2, 3, 4, 5, 6, 7, 8]) :
    (errorPattern ((List.range 8).map fun i => (64 + i, BitVec.ofNat 8 (i + 1)))).length = 8 ∧
    ({ st ready with lines := [(5, .good)] } : State).arriving (64 * 5)
      (errorPattern ((List.range 8).map fun i => (64 + i, BitVec.ofNat 8 (i + 1)))) = mireSyndromes := by
  unfold mireSyndromes; rw [h]; decide +kernel

/-- Witness of RetirementMovesAndRepairs. -/
theorem witness_retire : (st ready).takes .a { min := 2, stack := true } [3, 0] ∧ le [3, 0] 0 1 < ready.nd ∧
    ready.dieRetired 3 = false ∧ ready.get R.MAP_LAYOUT_RES_BOUND = 0 ∧ ready.get R.ECC_MIG_ACTIVE = 0 ∧
    (st ready).unclaimed .a [blkEcc] ∧ (st ready).takes .a { min := 2, stack := true } [12, 0] ∧ (st ready).takes .a {} [] ∧
    ready.stk.memWait = [] ∧ ready.ecc.moves = [] ∧
    (wf (wf ready R.ECC_MIG_ACTIVE 1) R.ECC_MIG_KIND 3).stackAwake = true ∧
    (wf ready R.ECC_MIG_ACTIVE 1).get R.ECC_MIG_KIND ≠ 3 ∧
    skipCarried ready.ecc.moveCarried 4 ((wf ready R.ECC_MIG_ACTIVE 1).get R.ECC_MIG_FRONT_FRONT + 1) <
      (wf ready R.ECC_MIG_ACTIVE 1).moveRows ∧
    (wf ready R.ECC_MIG_ACTIVE 1).moveRows ≤ skipCarried 0 4 ((wf (wf ready R.ECC_MIG_ACTIVE 1) R.ECC_MIG_FRONT_FRONT
      ((wf ready R.ECC_MIG_ACTIVE 1).moveRows - 1)).get R.ECC_MIG_FRONT_FRONT + 1) ∧
    (wf ready R.ECC_MIG_ACTIVE 1).moveRows ≤ 2 ^ R.ECC_MIG_FRONT_FRONT.width ∧
    3 ∉ ready.stk.feedsOpen ∧ (st ready).takes .a { min := 16, stack := true } (1 :: List.replicate 15 0) ∧
    ready.metaRegion 4 = some (ready.get R.MAP_STX_BASE_GRAN * 65536, ready.get R.MAP_KPR_BASE_GRAN * 65536) ∧
    (st ready).takes .a { min := 16, stack := true } (List.replicate 16 0) ∧ ready.linkReady .a = true ∧
    (({ ready with stk.repairs := [⟨7, 5, 1, 0⟩] } : Ctl).repairIn fun r => decide (r.unit = 7) && decide (7 < 48)) =
      some ⟨7, 5, 1, 0⟩ ∧ 0 < (wf ready (R.TSV_CH_REPAIR_SPARES_LEFT 7) 2).get (R.TSV_CH_REPAIR_SPARES_LEFT 7) := by
  unfold State.takes State.unclaimed; decide +kernel

/-- Witness of RetirementMovesAndRepairs: a cause of another die that waits, with CONFIRM and without. -/
theorem witness_retireSecond :
    let c : Ctl := { ready with ecc.causes := [{ kind := 0, unit := 5, reason := 1, abrupt := false }] }
    (st c).takes .a { min := 2, stack := true } [3, 0x5A] ∧ (∃ k ∈ c.ecc.causes, k.kind = 0 ∧ k.unit ≠ le [3, 0x5A] 0 1) ∧
    le [3, 0x5A] 1 1 = 0x5A ∧ le [3, 0] 1 1 ≠ 0x5A ∧ c.get R.MAP_LAYOUT_RES_BOUND = 0 := by
  unfold State.takes; decide +kernel

/-- A control side with one live key of Head A in slot 0, generation 1, one free seal slot, and granule 0 PLAIN. -/
def keyed : Ctl := wf (wf (wf ready (R.SEA_KEY_STAT_LIVE 0) 1) (R.SEA_KEY_STAT_GEN 0) 1) R.MAP_LAYOUT_SEAL_BUDGET 1

/-- Witness of KeysAreCreatedAndErased; slot 1 is the lowest that is free. -/
theorem witness_keys : (st keyed).unclaimed .a [blkSea] ∧ (st keyed).takes .a { min := 1, sealCap := true } [3] ∧
    keyed.get (R.SEA_KEY_STAT_LIVE 1) = 0 ∧ keyed.get (R.SEA_KEY_STAT_GEN 1) < 63 ∧
    (∀ j, j < 1 → keyed.get (R.SEA_KEY_STAT_LIVE j) ≠ 0 ∨ 63 ≤ keyed.get (R.SEA_KEY_STAT_GEN j)) ∧
    le [3] 0 1 ≤ keyed.maxBudget ∧ keyed.maxBudget < le [39] 0 1 ∧
    (st keyed).takes .a { min := 2, sealCap := true } [0, 4] ∧ keyed.handleLive (le [0, 4] 0 2) = true ∧
    keyed.keyOwner 0 = .a ∧ keyed.handleLive (le [1, 4] 0 2) = false ∧ (st keyed).takes .a { sealCap := true } [] ∧
    ({ keyed with sea.erasing := [(0, .a)] } : Ctl).sea.erasing.find? (fun e => decide (e.1 = 0)) = some (0, .a) ∧
    ({ keyed with hdA.mbox.pend := some ⟨0xC142, [0, 4], .zeroise, 0⟩ } : Ctl).hdA.mbox.pend =
      some ⟨0xC142, [0, 4], .zeroise, 0⟩ := by
  unfold State.takes State.unclaimed; decide +kernel

/-- A map that lists one value under every key lists it under each. -/
theorem mapGet_const (f : Nat → Nat) (v j : Nat) (l : List Nat) (h : j ∈ l) :
    mapGet (l.map fun n => (f n, v)) (f j) = some v := by
  induction l with
  | nil => cases h
  | cons a l ih =>
    simp only [List.map_cons, mapGet]
    split
    · rfl
    · rename_i hne
      rcases List.mem_cons.1 h with rfl | h'
      · exact absurd rfl hne
      · exact ih h'

/-- Witness of KeysAreCreatedAndErased: with every slot spent none is free. -/
theorem witness_keysSpent (j : Nat) (hj : j < 1024) : 63 ≤ ({ keyed with
    regs := (List.range 1024).map fun n => ((R.SEA_KEY_STAT_GEN n).key, 63) } : Ctl).get (R.SEA_KEY_STAT_GEN j) := by
  unfold Ctl.get
  rw [mapGet_const (fun n => (R.SEA_KEY_STAT_GEN n).key) 63 j _ (List.mem_range.2 hj)]
  exact Nat.le_refl 63

/-- Witness of SealCommandsHoldTheirGranule: granule 0 under the key of slot 0, PLAIN, SEALED, in SEALING, and without a
seal slot; granule 1 is not the head's. -/
theorem witness_seals :
    (st keyed).takes .a { min := 4, stack := true, sealCap := true, background := true } [0, 0, 0, 4] ∧
    keyed.ownGranule .a 0 = true ∧ keyed.ownGranule .a 1 = false ∧ keyed.handleLive (le [0, 0, 0, 4] 2 2) = true ∧
    keyed.keyOwner 0 = .a ∧ keyed.sealingNow 0 = false ∧ keyed.get (R.SEA_GRAN_STATE 0) = 0 ∧ keyed.sealSlotsLeft ≠ 0 ∧
    keyed.get (R.SEA_KEY_STAT_EPOCH 0) ≠ 0xFFFF ∧ keyed.granInUse 0 = false ∧ (st keyed).unclaimed .a [blkSea] ∧
    (wf keyed R.MAP_LAYOUT_SEAL_BUDGET 0).sealSlotsLeft = 0 ∧ (wf keyed (R.SEA_GRAN_STATE 0) 1).sealingNow 0 = true ∧
    (wf keyed (R.SEA_GRAN_STATE 0) 2).get (R.SEA_GRAN_STATE 0) ≠ 0 ∧ (wf keyed (R.SEA_GRAN_STATE 0) 2).sealingNow 0 = false ∧
    (st keyed).takes .a { min := 1, stack := true, sealCap := true } [0] ∧ keyed.kpr.phase = 3 := by
  unfold State.takes State.unclaimed; decide +kernel

/-- A control side whose granule 0 is SEALED under slot 0. -/
def sealed : Ctl := wf keyed (R.SEA_GRAN_STATE 0) 2

/-- Witness of SealedLinesFailIntoTheirCauses: metadata in order and uncorrectable, a dirty counter block damaged in the cache, a page
that is re-encrypted, and a dropped segment with a live key. -/
theorem witness_sealedLines : sealed.sealAt 64 = 2 ∧ ((st sealed).status 64).isMired = false ∧ ready.sealAt 64 ≠ 2 ∧
    firstBad (sealed.arrivals 64 ((st sealed).refetched 64 [])) = none ∧
    firstBad (sealed.arrivals 64 ((st sealed).refetched 64 [(2, .uncorrectable)])) = some (2, .uncorrectable) ∧
    ((List.range 8).all fun i => !({ st sealed with ctl := { sealed with sea.reenc := [0] } } : State).tagLost (512 * i)) = true ∧
    sealed.sea.tags = [] ∧ sealed.sea.unv.length < 256 ∧
    (st sealed).arrivedTag 64 .uncorrectable = none ∧
    ((List.range 8).all fun i => decide (sealed.tagAddr 64 / 64 ≠ 64 / 512 * 8 + i)) = true ∧
    ({ sealed with sea.dirty := [metaKey 0 64] } : Ctl).sea.dirty.contains (metaKey 0 64) = true ∧
    sealed.rowUnplaced (sealed.nodeAddr 0 64) = false ∧ sealed.nodeAddr 0 64 / 64 ≠ 64 / 64 ∧ sealed.pageBusy 64 = false ∧
    ({ sealed with sea.reenc := [0] } : Ctl).pageBusy 64 = true ∧ sealed.stk.memWait = [] ∧
    ({ sealed with stk.selfRef := 3 } : Ctl).stk.selfRef = 3 ∧ sealed.stk.selfRef ≠ 3 ∧
    tb ((wf sealed R.STK_SR_STAT_DROPPED 1).get R.STK_SR_STAT_DROPPED) 0 = true ∧ sealed.sealingNow 0 = false ∧
    sealed.get (R.SEA_GRAN_STATE 0) ≠ 0 ∧ sealed.sealEff 0 ≠ 4 ∧
    sealed.get (R.SEA_KEY_STAT_LIVE (sealed.get (R.SEA_GRAN_KEY_SLOT 0))) ≠ 0 ∧
    sealed.get (R.SEA_KEY_STAT_EPOCH (sealed.get (R.SEA_GRAN_KEY_SLOT 0))) ≠ 0xFFFF := by
  refine ⟨?_, ?_, ?_, ?_, ?_, ?_, ?_, ?_, ?_, ?_, ?_, ?_, ?_, ?_, ?_, ?_, ?_, ?_, ?_, ?_, ?_, ?_, ?_, ?_⟩ <;> decide +kernel

/-- A tag is 8 bytes long. -/
theorem tagOf_length (s : State) (sa : Nat) : (s.tagOf sa).length = 8 := by simp [State.tagOf, Ctl.tagFor]

/-- A control side whose granule 0 is SEALED under a key that Head A's CXL.mem may use, its metadata in the cache. -/
def memSealed : Ctl := { wf (wf (wf linked (R.SEA_GRAN_STATE 0) 2) (R.SEA_KEY_STAT_CXL_MASK 0) 1) (R.SEA_KEY_STAT_LIVE 0) 1 with
  sea.cached := (List.range 4).map (fun l => metaKey l 64) ++ [tagKey 64] }

/-- Witness of MemoryRequestsFollowTheirGate: a sealed line with its tag in order, with another one, and with its minor counter at 127; and a
class whose LIMIT is 0. -/
theorem witness_sealedMemory :
    let s : State := { st memSealed with lines := [(1, .good)] }
    let full : Ctl := { memSealed with sea.ctrs := [(0, (0, List.replicate 64 127))] }
    s.ctl.sealAt 64 = 2 ∧ s.ctl.memHandle .a (s.ctl.get (R.SEA_GRAN_KEY_SLOT (granOf 64))) = true ∧ s.ctl.unvOver 64 = none ∧
    s.ctl.rowUnplaced 64 = false ∧ s.status 64 = .good ∧ s.pathFault 64 = none ∧ s.tagLost 64 = false ∧
    mapGet s.ctl.sea.tags (64 / 64) = none ∧ s.ctl.missing 64 = [] ∧ s.ctl.sea.cached.contains (tagKey 64) = true ∧
    s.ctl.sea.cached.length ≤ 16 ∧ (s.ctl.pageCtr (64 / 4096)).2.getD (minorIndex 64) 0 < 127 ∧
    127 ≤ (full.pageCtr (64 / 4096)).2.getD (minorIndex 64) 0 ∧ (full.pageCtr (64 / 4096)).1 < 2 ^ 64 - 1 ∧
    s.ctl.memArrives .a = true ∧ s.ctl.fenced .a = false ∧ s.ctl.mayReach .a 64 = true ∧
    s.ctl.get (R.QOS_CLASS_CFG_LIMIT (s.ctl.memClass .a 64)) ≠ 0 ∧
    s.ctl.pageBusy 64 = false ∧ s.ctl.gateHolds .a 64 = false ∧ s.ctl.moveHolds true 64 = false ∧ s.ctl.moveHolds false 64 = false ∧
    (wf linked (R.QOS_CLASS_CFG_LIMIT (linked.memClass .a 64)) 0).get (R.QOS_CLASS_CFG_LIMIT (linked.memClass .a 64)) = 0 := by
  refine ⟨?_, ?_, ?_, ?_, ?_, ?_, ?_, ?_, ?_, ?_, ?_, ?_, ?_, ?_, ?_, ?_, ?_, ?_, ?_, ?_, ?_, ?_, ?_⟩ <;> decide +kernel

/-- Witness of MemoryRequestsFollowTheirGate: the tag that stands is the line's where none is recorded, and not where an empty one is. -/
theorem witness_storedTags :
    (st memSealed).storedTag 64 = (st memSealed).tagOf 64 ∧
    (st { memSealed with sea.tags := [(1, [])] }).storedTag 64 ≠ (st { memSealed with sea.tags := [(1, [])] }).tagOf 64 := by
  refine ⟨?_, fun e => ?_⟩
  · have h : mapGet memSealed.sea.tags (64 / 64) = none := by decide +kernel
    have u : mapGet memSealed.sea.under (64 / 64) = none := by decide +kernel
    unfold State.storedTag
    rw [show (st memSealed).ctl = memSealed from rfl, h, u]
    cases (State.status (st memSealed) 64).isMired <;> rfl
  · have h := tagOf_length (st { memSealed with sea.tags := [(1, [])] }) 64
    rw [← e] at h
    exact absurd h (by decide +kernel)

/-- Witness of SealedLinesFailIntoTheirCauses: a tag line that holds the line's tag, and an empty one that does not. -/
theorem witness_tags :
    (st sealed).arrivedTag 64 (.line (List.replicate 8 0 ++ (st sealed).tagOf 64) 0) = some ((st sealed).tagOf 64) ∧
    (st sealed).arrivedTag 64 (.line [] 0) = some [] ∧ ([] : Bytes) ≠ (st sealed).tagOf 64 := by
  refine ⟨?_, rfl, fun e => ?_⟩
  · simp [State.arrivedTag, List.take_of_length_le, tagOf_length]
  · simpa [← e] using tagOf_length (st sealed) 64

/-- A node of level 3 fails when its MAC is not its parent's entry. -/
theorem arrivals_macFails (c : Ctl) (sa : Nat) (x p : Bytes)
    (h : c.childMac (granOf sa) 3 (sa % GiB / 2 ^ (12 + 3 * 3)) (padTo 64 x) ≠ parentEntry 3 sa (padTo 64 p)) :
    firstBad (c.arrivals sa [(3, .line x 0), (4, .line p 0)]) = some (3, .macFails) := by
  have hj : c.judgeFetched sa 3 (padTo 64 p) (.line x 0) = .macFails := by
    unfold Ctl.judgeFetched
    exact if_neg h
  have ha : c.arrivals sa [(3, .line x 0), (4, .line p 0)] = [(3, .macFails), (4, .good)] := by
    rw [← hj]; rfl
  rw [ha]; rfl

/-- Witness of SealedLinesFailIntoTheirCauses: under one of two parents the node's MAC is not its parent's entry. -/
theorem witness_macFails (s : State) : ∃ p : Bytes,
    firstBad (s.ctl.arrivals 64 (s.refetched 64 [(3, .line [] 0), (4, .line p 0)])) = some (3, .macFails) := by
  let c := s.ctl
  change ∃ p : Bytes, firstBad (c.arrivals 64 [(3, .line [] 0), (4, .line p 0)]) = some (3, .macFails)
  have hne : parentEntry 3 64 (padTo 64 []) ≠ parentEntry 3 64 (padTo 64 (List.replicate 64 1)) := by decide
  by_cases h : c.childMac (granOf 64) 3 (64 % GiB / 2 ^ (12 + 3 * 3)) (padTo 64 []) = parentEntry 3 64 (padTo 64 [])
  · exact ⟨_, arrivals_macFails c 64 [] _ (h ▸ hne)⟩
  · exact ⟨_, arrivals_macFails c 64 [] _ h⟩

/-- A control side whose Head A is in TRAINING with its PHY PLL locked. -/
def training : Ctl := wf (wf ready (R.HD_STATE_STATE 0) 1) R.CLK_STATUS_PHYA_LOCK 1

/-- Witness of LinksComeAndGo. -/
theorem witness_links : training.headBlocked .a = false ∧ training.phyLocked .a = true ∧
    training.get (R.HD_STATE_LINK_UP 0) = 0 ∧ training.hstate .a < 2 ∧ (wf training (R.HD_STATE_STATE 0) 0).headBlocked .a = false ∧
    (wf training (R.HD_STATE_STATE 0) 5).headBlocked .a = false ∧ training.linkLegal .a { rate := 5, lanes := 0xFF, flit := true, reversed := false, polarity := 0 } = true ∧
    training.linkLegal .a { rate := 1, lanes := 0xF, flit := false, reversed := false, polarity := 0 } = true ∧
    training.linkLegal .a { rate := 5, lanes := 7, flit := true, reversed := false, polarity := 0 } = false ∧
    (wf training R.CLK_STATUS_PHYA_LOCK 0 |>.set (R.PHYL_STATUS_LOOP 3) 1).headBlocked .a = true ∧
    training.rst.quiesce = 0 ∧ ({ training with rst.quiesce := 1 } : Ctl).rst.quiesce ≠ 0 ∧
    (wf ready (R.HD_STATE_LINK_UP 0) 1).get (R.HD_STATE_LINK_UP 0) ≠ 0 ∧ (wf ready (R.HD_STATE_LINK_UP 0) 1).hstate .a = 2 ∧
    ({ ready with hdA := { linkRate := 1 } } : Ctl).hdA.linkRate ≤ 2 ∧ ready.get (R.HD_STATE_LINK_UP 0) = 0 ∧
    ({ ready with hdA := { linkRate := 6 } } : Ctl).hdA.linkRate = 6 := by decide +kernel

/-- A control side whose Head B is in a state, with capability 0x0040 in the chain. -/
def headB (n : Nat) : Ctl := wf ready (R.HD_STATE_STATE 1) n

/-- Witness of FencesStopTheirHead, for Head B. -/
theorem witness_fences : (headB 3).hstate .b = 3 ∧
    ({ headB 3 with eff := [((R.HD_FENCE_CFG_TIMEOUT_MS 1).key, 100)] } : Ctl).fenceNs .b = some 100000000 ∧
    ({ headB 2 with hdB := { admitted := true } } : Ctl).hstate .b = 2 ∧
    (wf (headB 2) (R.HD_STATE_LINK_UP 1) 1).get (R.HD_STATE_LINK_UP 1) ≠ 0 ∧
    (st (headB 2)).takes .a { min := 1, dualCap := true } [1] ∧ le [1] 0 1 = Head.num .b ∧ (headB 2).hstate .b = 2 ∧
    (st (headB 5)).takes .a { min := 1, dualCap := true } [1] ∧ (headB 5).fenced .b = true ∧ (headB 5).hstate .a = 2 ∧
    (headB 5).get (R.HD_STATE_ADOPTED 1) = 0 ∧ (headB 4).hstate .b = 4 ∧ (headB 4).twoHeads = true ∧
    (st (wf (headB 5) (R.HD_STATE_LINK_UP 1) 1)).takes .b { whileFenced := true, dualCap := true } [] ∧
    (wf (headB 5) (R.HD_STATE_LINK_UP 1) 1).get (R.HD_STATE_LINK_UP 1) ≠ 0 := by
  unfold State.takes; decide +kernel

/-- Witness of FencesStopTheirHead: PERST of an admitted head that is DOWN, and a FENCE of one that is FENCING. -/
theorem witness_fencesDown :
    ({ headB 3 with hdB := { admitted := true } } : Ctl).hstate .b = 3 ∧
    (({ headB 3 with hdB := { admitted := true } } : Ctl).hd .b).admitted = true ∧
    (st (headB 4)).takes .a { min := 1, dualCap := true } [1] ∧ (st (headB 3)).takes .a { min := 1, dualCap := true } [1] := by
  unfold State.takes; decide +kernel

/-- Witness of HeadCommandsAndFunctionState: granule 0 is Head A's. -/
theorem witness_headCommands : (st ready).takes .a { whileFenced := true } [] ∧ (st ready).takes .a { min := 2 } [0, 1] ∧
    ready.mayAssign .a [0, 1] = true ∧ (st ready).unclaimed .a [blkMap] ∧ ready.jobsOn [0] = false ∧
    (st ready).takes .b { min := 2 } [0, 1] ∧ ready.granOwner 0 = some .a ∧ ready.mayGive .a [0, 1] = true ∧
    ready.partOwner 0 = .a ∧ (st ready).takes .a { min := 6 } [0, 0, 0, 0, 0, 0] ∧
    (st ready).unclaimed .a [blkTim, blkHda] ∧ (st ready).takes .a { min := 6 } [1, 0, 0, 0, 0, 0] ∧ ready.hstate .a ≠ 6 ∧
    (headB 6).hstate .b = 6 ∧ ready.hdA.funcMask = false ∧ 5 ∉ ({ ready with hdA.msixMask := [] } : Ctl).hdA.msixMask ∧ (wf (wf ready R.STX_ADOPT_ACTIVE 1) R.STX_ADOPT_FROM 1).get R.STX_ADOPT_FROM = Head.num .b := by
  unfold State.takes State.unclaimed; decide +kernel

/-- A control side whose Head A waits for a PTM response, with a time source. -/
def asking (src : Nat) : Ctl := wf { ready with hdA := { ptmOut := true, ptmDue := true, ptmEn := true, ptmMiss := 3 } }
  R.TIM_STATUS_SOURCE src

/-- Witness of PlatformTimeFollowsItsSource. -/
theorem witness_time : (asking 0).hdA.ptmOut = true ∧ (asking 0).hstate .a = 2 ∧
    (wf (asking 0) (R.HD_STATE_LINK_UP 0) 1).get (R.HD_STATE_LINK_UP 0) ≠ 0 ∧ (asking 0).get R.TIM_STATUS_SOURCE = 0 ∧
    (asking 1).get R.TIM_STATUS_SOURCE = Head.num (Head.other .a) ∧ (asking 2).get R.TIM_STATUS_SOURCE = 2 ∧
    (asking 2).preferred = .a ∧ ((500 : Int) - (asking 0).timeBase - ((asking 0).now : Int)).natAbs ≤ 1000 ∧
    1000 < ((5000 : Int) - (asking 0).timeBase - ((asking 0).now : Int)).natAbs ∧ (asking 0).locked .b = false ∧
    (wf (asking 0) R.TIM_STATUS_B_LOCKED 1).locked .b = true ∧
    ({ asking 0 with holdDue := some 1 } : Ctl).get R.TIM_STATUS_SOURCE = 0 ∧
    (wf (wf (asking 2) R.TIM_STATUS_A_LOCKED 1) R.TIM_CFG_PREFER 1).preferred = .b := by decide +kernel

/-- Witness of CommandsAreCheckedBeforeTheirRules: a DIE_RETIRE on a parked stack, a short one, and a fenced head. -/
theorem witness_gate : Obligations.ocsCommand (.dieRetire .a [3, 0]) = some (.a, 0xC132, { min := 2, stack := true }, [3, 0]) ∧
    Obligations.ocsCommand (.unseal .a []) = some (.a, 0xC145, { min := 1, stack := true, sealCap := true }, []) ∧
    ready.mboxFree .a = true ∧ ready.kpr.phase = 3 ∧ ready.fenced .a = false ∧
    (wf ready R.IDC_KPR_STAT_PARKED 1).get R.IDC_KPR_STAT_PARKED ≠ 0 ∧
    (wf ready (R.HD_STATE_STATE 0) 5).fenced .a = true ∧ State.reset.ctl.kpr.phase ≠ 3 ∧
    State.reset.ctl.hasSeal = false := by
  refine ⟨rfl, rfl, ?_⟩; decide +kernel

/-- Witness of IdentityAndHealthAnswers. -/
theorem witness_identity : (st ready).takes .a {} [] ∧ ready.sbp.recs.all (fun r => decide (r.kind ≠ 3)) = true := by
  unfold State.takes; decide +kernel

/-- Witness of LevelCommandsActOnTheirHeadOnly. -/
theorem witness_levels : (st ready).takes .a { min := 1 } [0] ∧ ready.get (expertField .a) ≠ le [0] 0 1 ∧
    ready.get (lockField .a) = 0 ∧ (wf ready (lockField .a) 1).get (lockField .a) ≠ 0 ∧ (st ready).takes .a {} [] ∧
    (st ready).takes .a { min := 1 } [2] ∧ (st ready).takes .a { min := 1 } [1] ∧ ready.get (expertField .a) = le [1] 0 1 := by
  unfold State.takes; decide +kernel

/-- Witness of RecordCommandsQueueTheirWrite. -/
theorem witness_records : (st ready).takes .a { min := 1 } [1] ∧ le [1] 0 1 < 2 ∧
    ({ ready with kpr.slotB := { cause := 0, image := { svn := 5 } } } : Ctl).imgOk 1 = true ∧
    (st ready).takes .b { min := 22 } (List.replicate 22 1) ∧ le (List.replicate 22 1) 1 1 < 4 ∧ (st ready).takes .a {} [] ∧
    (wf ready R.IDC_FW_STAT_STATE 1).get R.IDC_FW_STAT_STATE = 1 ∧ ready.get R.IDC_FW_STAT_RUNNING < 2 := by
  unfold State.takes; decide +kernel

/-- A control side whose stack Head A has parked. -/
def parked : Ctl := wf { ready with
  stk.selfRef := 2
  hdA := { ready.hdA with mbox := { bg := some ⟨0xC007, [], 0, 0⟩, bgTracked := true } } } R.IDC_KPR_STAT_PARKED 1

/-- Witness of ParkStopsAndUnparkResumes. -/
theorem witness_park : (st ready).takes .a { background := true } [] ∧ ready.job.jobs = [] ∧ ready.frg.passes = [] ∧
    (ready.hd .b).mbox.bg = none ∧ ready.get R.ECC_MIG_ACTIVE = 0 ∧ ready.get R.STX_ADOPT_ACTIVE = 0 ∧
    ready.get R.IDC_KPR_STAT_PARKED = 0 ∧ ready.get R.THM_STATUS_STAGE ≠ 4 ∧ ready.stk.selfRef = 0 ∧
    (st (wf ready R.ECC_MIG_ACTIVE 1)).takes .a { background := true } [] ∧ (wf ready R.ECC_MIG_ACTIVE 1).get R.ECC_MIG_ACTIVE ≠ 0 ∧
    parked.stk.selfRef = 2 ∧ (parked.hd .a).mbox.bg = some ⟨0xC007, [], 0, 0⟩ ∧ (st parked).takes .a {} [] ∧
    parked.get R.IDC_KPR_STAT_PARKED ≠ 0 ∧ parked.get R.THM_STATUS_STAGE ≠ 4 ∧ (st ready).takes .a {} [] := by
  unfold State.takes; decide +kernel

/-- The bytes of a number, most significant first. -/
def be (n v : Nat) : Bytes := (toLE n v).reverse

/-- An empty image of SVN 5, signed by the key whose digest the OTP of `ready` holds (FIPS 186-5, with 1 as the private key and as the nonce
of its signature, so that the base point is the public key). -/
def goodImage : Image :=
  { svn := 5, rinros := true, body := []
    digest := be 48 0x38B060A751AC96384CD9327EB1B1E36A21FDB71114BE07434C0CC7BF63F6E1DA274EDEBFE76F65FBD51AD2F14898B95B
    key := be 48 basePoint.x ++ be 48 basePoint.y
    signature := be 48 0xAA87CA22BE8B05378EB1C71EF320AD746E1D3B628BA79B9859F741E082542A385502F25DBF55296C3A545E3872760AB7 ++ be 48 0x499223BCC1726F66E1B4582341E004656F2E7AD33BD11D16671B291B20D23D734F62BF22B23149E90C3A3B75D793DC3D }

/-- A control side with the fuses of `ready` sensed. -/
def fused : Ctl := { ready with fus.shadow := ready.fus.words }

/-- Witness of KeeperRestartsAndImages: each check of R304 passes for that image, and an absent image does not pass. -/
theorem witness_image :
    let c := fused
    sha384 goodImage.key = c.keyDigest ∧ ecdsaVerify goodImage.key (imageSigned goodImage) goodImage.signature = true ∧
    sha384 goodImage.body = goodImage.digest ∧ goodImage.rinros = true ∧ c.get R.FUS_STATUS_MIN_SVN ≤ goodImage.svn.val ∧
    c.imageCause none ≠ 0 ∧ goodImage.body.length ≤ bodyMax := by
  refine ⟨?_, ?_, ?_, ?_, ?_, ?_, ?_⟩ <;> decide +kernel

/-- Witness of KeeperRestartsAndImages: that image passes all checks together. -/
theorem witness_imagePasses : fused.imageCause (some goodImage) = 0 := by
  obtain ⟨h1, h2, h3, h4, -, -, h7⟩ := witness_image
  simp [Ctl.imageCause, h1, h2, h3, h4, Nat.not_lt.2 h7]

/-- Witness of KeeperRestartsAndImages: a Keeper in its ROM, of a start and of a restart, and an image that runs on trial. -/
theorem witness_keeper :
    ready.kpr.phase = 3 ∧ ({ ready with kpr.phase := 1, rst.awaiting := 4 } : Ctl).rst.awaiting = 4 ∧
    ({ ready with kpr.phase := 1, kpr.bootNext := some (0, 2) } : Ctl).kpr.bootNext = some (0, 2) ∧
    ready.get R.FUS_STATUS_MIN_SVN ≤ 5 ∧ (lcOf (otpWord ready.fus.shadow 0)).getD 0 ≠ 4 ∧ ready.selRec.selected = 0 ∧
    ({ ready with kpr.phase := 2, kpr.restarted := true } : Ctl).kpr.rolled = false ∧
    (wf { ready with kpr.phase := 2 } R.IDC_FW_STAT_STATE 1).get R.IDC_FW_STAT_STATE = 1 ∧
    ready.get R.IDC_FW_STAT_STATE ≠ 1 ∧ (ready.sramTest []).2.1 = 0 ∧ ({ ready with kpr.phase := 4 } : Ctl).kpr.phase = 4 ∧
    (ready.sramTest ((List.range 9).map fun i => (0, i))).2.1 ≠ 0 := by decide +kernel

/-- Witness of KeeperRestartsAndImages: a fault in test mode, a BLANK part and one that is not at step 5, and a restart with a candidate. -/
theorem witness_keeperStarts :
    ({ ready with cal.testMode := true } : Ctl).cal.testMode = true ∧ ready.cal.testMode = false ∧ ready.rst.warmReq = none ∧
    ready.rst.quiesce = 0 ∧ otpWord ({ ready with rst.awaiting := 4 } : Ctl).fus.shadow 0 = 0 ∧ otpWord fused.fus.shadow 0 ≠ 0 ∧
    railIo ∉ fused.rst.railsOut ∧ (fused.sramTest []).2.1 = 0 ∧
    ({ fused with kpr.phase := 1, kpr.bootNext := some (0, 2) } : Ctl).rst.awaiting ≠ 4 := by
  refine ⟨?_, ?_, ?_, ?_, ?_, ?_, ?_, ?_, ?_⟩ <;> decide +kernel

/-- Witness of CommandsAreCheckedBeforeTheirRules: an opcode that no chapter defines, and a background command. -/
theorem witness_opcode : (st ready).takes .a {} [] ∧ 0xC3FF ∉ ocsOpcodes ∧
    (parked.hd .a).mbox.bg = some ⟨0xC007, [], 0, 0⟩ := by
  unfold State.takes; decide +kernel

/-- Witness of StartStepsAdvance: a blank OTP, and one that is DEPLOYED with SVN 0. -/
theorem witness_startSteps :
    State.reset.ctl.rst.vaux = true ∧ State.reset.ctl.rst.oscStable = false ∧ State.reset.ctl.rst.awaiting = 1 ∧
    ({ ready with rst.awaiting := 3, fus := { ready.fus with words := [] } } : Ctl).fus.words = [] ∧
    lcOf (otpWord ready.fus.words 0) = some 2 ∧
    svnOf ready.fus.words = some 0 ∧
    regionStat ready.fus.words [] ⟨0x003, 0x03F, 1⟩ = 0 ∧
    ready.rst.warm = false ∧ ready.sbp.recs = [] ∧ ready.ecc.causes = [] ∧ ready.fus.shadow = [] ∧ ready.stk.failing = [] := by
  decide +kernel

/-- Witness of StartFailuresAndRails. -/
theorem witness_startFails :
    ({ ready with rst.awaiting := 2 } : Ctl).rst.awaiting = 2 ∧ lcOf (otpWord [(0, 1)] 0) = none ∧ ready.rst.awaiting = 8 ∧
    ready.rst.warm = false ∧ ({ ready with rst.vaux := false } : Ctl).rst.vaux = false := by decide +kernel

/-- Witness of ClocksAndGates. -/
theorem witness_clocks :
    (wf { ready with clk := { ready.clk with monitor := true, goodA := 199 } } R.IDC_OTP_ID_DIVISION 1).twoHeads = false ∧
    ready.get R.CLK_MON_A_QUALIFIED = 0 ∧ (wf ready R.CLK_MON_A_QUALIFIED 1).get R.CLK_MON_A_QUALIFIED ≠ 0 ∧
    (wf ready R.CLK_MON_A_QUALIFIED 1).refQualified .a = true ∧ ready.hstate .a ≠ 6 ∧ ready.part = .rc4812 ∧
    ready.hstate .b ≠ 6 ∧ ready.get R.CLK_GATE_POL_HOLD_OPEN = 0 ∧
    (wf ready R.CLK_GATE_POL_IDLE_US 5).get R.CLK_GATE_POL_IDLE_US ≠ 0 ∧ tb (ready.get R.CLK_GATE_EN_EN) 17 = true ∧
    17 ∈ ({ ready with clk.closing := [17] } : Ctl).clk.closing ∧ ready.domainBusy 5 = false ∧ ready.domainBusy 17 = false ∧
    ready.gateWindow 17 = 0 ∧ ready.gateWindow 12 ≠ 0 ∧ ready.clk.monitor = false ∧ ready.bestRef = 0 := by decide +kernel

/-- Witness of WarmResetsQuiesceAndKeep. -/
theorem witness_warm :
    (st ready).takes .a { min := 1 } [0x5A] ∧ le [0x5A] 0 1 = 0x5A ∧ (st ready).takes .a { min := 1 } [0] ∧
    ready.rst.awaiting = 8 ∧ ready.rst.quiesce = 0 ∧ ready.rst.warmReq = none ∧ ready.cal.testMode = false ∧
    ({ ready with rst.warmReq := some 1, cal.testMode := true } : Ctl).rst.warmReq = some 1 ∧
    ({ ready with stk.selfRef := 1 } : Ctl).ecc.merges = [] ∧ ready.fus.marginal = [] ∧
    (otpRegions.all fun r => decide (regionStat ready.fus.shadow [] r ≠ 2)) = true ∧
    ({ ready with rst.quiesce := 1 } : Ctl).stk.selfRef ≠ 2 ∧
    ({ ready with rst.quiesce := 1, stk.selfRef := 2 } : Ctl).rst.quiesce = 1 ∧
    R.QOS_SCHED_COMMIT_PENDING.key / 524288 = 0xA := by
  unfold State.takes; decide +kernel

/-- Witness of OneFaultOccurrenceIsRecorded: source 630. -/
theorem witness_fault : (faultRow 630).isSome = true ∧ tb (ready.faultPlan 630).react 2 = false ∧
    tb (ready.faultPlan 630).react 3 = false := by decide +kernel

/-- A control side on which source 3 is pending, routed to Head A, with one log record. -/
def faulted : Ctl := wf (wf { ready with flt.routed := [(3, 1)], flt.log := [⟨0, 3, 1, false, 0, 0, 0⟩] } (R.FLT_PEND_PEND 0) 8)
  R.FLT_LOG_SEQ_NEXT 1

/-- Witness of FaultCommandsAcknowledgeAndRead. -/
theorem witness_faultCommands :
    (st faulted).takes .a { min := 2 } [3, 0] ∧ faulted.srcPending 3 = true ∧ faulted.mayAck .a 3 = true ∧
    (st faulted).takes .b { min := 2 } [3, 0] ∧ faulted.mayAck .b 3 = false ∧
    (st faulted).takes .a { min := 2 } [0xFF, 0xFF] ∧ (st faulted).takes .a { min := 6 } [0, 0, 0, 0, 1, 0] ∧
    2 ^ 31 ≤ (le [0, 0, 0, 0, 1, 0] 0 4 + 2 ^ 32 - faulted.get R.FLT_LOG_SEQ_NEXT) % 2 ^ 32 ∧
    (le [1, 0, 0, 0, 1, 0] 0 4 + 2 ^ 32 - faulted.get R.FLT_LOG_SEQ_NEXT) % 2 ^ 32 < 2 ^ 31 ∧
    faulted.reached .a (offsetOf (R.FLT_PEND_PEND 0)) 8 ∧ faulted.get (R.FLT_PEND_PEND 0) < 2 ^ 32 := by
  unfold State.takes Ctl.reached; decide +kernel

/-- Witness of ErrorPinAndCombResume. -/
theorem witness_errorPin :
    ({ ready with flt.pulseEnd := some 2000000 } : Ctl).flt.pulseEnd = some 2000000 ∧ ready.get R.IDC_COMPAT_ERRN_LATCH = 0 ∧
    ready.flt.tripHold = false ∧ (wf ready R.FLT_STATUS_ERRN 1).get R.FLT_STATUS_ERRN = 1 ∧
    (st (wf ready R.FLT_STATUS_ERRN 1)).reached .a R.FLT_ERRN_RELEASE 1 0 ∧
    ({ ready with job.stopped := true } : Ctl).job.stopped = true := by
  unfold State.reached Ctl.reached; decide +kernel

/-- Witness of SidebandReadsAndWrites. -/
theorem witness_sideband : (st ready).ctl.rst.vaux = true ∧ ready.inReset = false := by decide +kernel

/-- Witness of FlashRecordsAndFruCommands. -/
theorem witness_flash :
    (st ready).takes .a { min := 4 } [0, 0, 1, 0, 7] ∧ fruBad (le [0, 0, 1, 0, 7] 0 2) (le [0, 0, 1, 0, 7] 2 2) = false ∧
    ({ ready with sbp.writes := [⟨7, [1], none, false, some 1⟩] } : Ctl).sbp.writes = [⟨7, [1], none, false, some 1⟩] ∧
    recordFits 1 (toLE 8 0).length = true ∧ 4 + le [0, 0, 1, 0, 7] 2 2 ≤ [0, 0, 1, 0, 7].length ∧
    ready.kpr.phase = 3 ∧ railIo ∉ ready.rst.railsOut ∧ (st ready).takes .a { } [] ∧
    railIo ∈ ({ ready with rst.railsOut := [railIo] } : Ctl).rst.railsOut ∧
    (st { ready with rst.railsOut := [railIo] }).takes .a { min := 4 } [0, 0, 1, 0, 7] := by
  unfold State.takes; decide +kernel

/-- A SEALED context of Head A: XOR of one data fragment, 64 bytes, LINEAR at 0; and its image. -/
def mainA : CtxMain :=
  { state := 2, owner := .a, chkValid := true, kind := 1, firstCh := 0, unavail := 0, spec := 0x00010102, fragLen := 64, base := 0
    chk := List.replicate 44 0 }
def imageA : Bytes := (CtxEntry.main mainA).encode

/-- The same, LIST. -/
def listA : Bytes := (CtxEntry.main { mainA with kind := 2 }).encode

/-- A control side with that context at entry 0. -/
def stxed : Ctl := { wf ready R.STX_FREE_CNT_FREE 100 with stx.entries := [(0, .main mainA)] }

/-- Witness of ContextCommandsKeepTheTable: CTX_ALLOC with entry 0 taken, CTX_READ, and the commands on entry 0. -/
theorem witness_contexts :
    stxed.get R.STX_FREE_CNT_FREE + 1 < 2 ^ 23 ∧ (st stxed).takes .a { min := 64, stack := true } imageA ∧
    imageAt imageA 0 .a = some mainA ∧ stxed.imageBad mainA = false ∧ mainA.kind ≠ 2 ∧
    stxed.imageBad { mainA with kind := 3 } = true ∧ stxed.entryFree 1 = true ∧ stxed.entryFree 0 = false ∧
    imageAt listA 0 .a = some { mainA with kind := 2 } ∧ stxed.imageBad { mainA with kind := 2 } = false ∧
    (st stxed).takes .a { min := 4 } [0, 0, 0, 0] ∧ le [0, 0, 0, 0] 0 4 < ctxCount ∧ ctxCount ≤ le [0, 0, 64, 0] 0 4 ∧
    stxed.ctxInUse 0 = false ∧ stxed.ctxEntry 0 = .main mainA ∧ stxed.ownsCtx .a .a = true ∧ stxed.ownsCtx .b .a = false ∧
    (st stxed).takes .a { min := 68, stack := true } (toLE 4 0 ++ imageA) ∧ imageAt (toLE 4 0 ++ imageA) 4 .a = some mainA ∧
    (st stxed).takes .a { min := 20, stack := true } (List.replicate 20 0) ∧
    maskWithin (le (List.replicate 20 0) 4 8) 20 (20 + spN mainA.spec) = true ∧
    (st stxed).takes .a { min := 4, stack := true } [0, 0, 0, 0] ∧
    (st stxed).takes .a { min := 5, stack := true } [0, 0, 0, 0, 1] ∧
    ({ stxed with job.jobs := [{ oneJob with desc := [1, 4] ++ List.replicate 126 0 }] } : Ctl).ctxInUse 0 = true := by
  unfold State.takes; decide +kernel

/-- A VERIFY of context 0 by Head A that waits for its line. -/
def waitJob : Job := { oneJob with phase := .ctxWait, desc := [3, 4] ++ List.replicate 126 0 }

/-- Witness of JobsAreJudgedRunAndEnded: jobs that end with a change of their context, over the whole range and part of it. -/
theorem witness_ctxEnds :
    let c : CtxMain → Job → Ctl := fun m j => { withJob j with stx.entries := [(0, .main m)] }
    let sealing : CtxMain := { mainA with state := 1 }
    let stale : CtxMain := { mainA with chkValid := false }
    let cut : Job → Job := fun j => { j with flen := 128 }
    (∀ op ∈ [opEncode, opReconstruct, opUpdate, opTranscode], let j := stripeJob op 4 true
      j.fCtx = true ∧ (c mainA j).ctxMain j.ctxIndex = some mainA ∧ j.outputs.Nodup ∧ spN j.code ≤ 44 ∧ mainA.spec = j.code ∧
      (c mainA j).jobDma 0 true = [] ∧ j.outputs ≠ [] ∧ j.wholeRange = true ∧ (cut j).wholeRange = false) ∧
    mainA.chk.length = 44 ∧ mainA.chkValid = true ∧ (c sealing (stripeJob opEncode 4 true)).ctxMain 0 = some sealing ∧
    sealing.state = 1 ∧ (c stale (stripeJob opUpdate 4 true)).ctxMain 0 = some stale ∧ stale.chkValid = false ∧
    (∃ i ∈ (cut (stripeJob opEncode 4 true)).outputs, tb mainA.unavail i = false) ∧
    (stripeJob opReconstruct 20 true).fPacked = true ∧ (stripeJob opReconstruct 20 true).fCtx = true := by
  refine ⟨?_, ?_, ?_, ?_, ?_, ?_, ?_, ?_, ?_, ?_⟩ <;> decide +kernel

/-- Witness of HeldContextsAndTheCache: held commands, a held window write and a held seal whose jobs have ended; window
writes of a free entry and a foreign one; waiting jobs. -/
theorem witness_holds :
    let c : Ctl := { stxed with
      hdA := { stxed.hdA with mbox := { pend := some ⟨0xC124, [0, 0, 0, 0], .hold, 0⟩, bg := some ⟨0xC143, [0, 0, 0, 4], 0, 0⟩ } }
      stx.winHold := [(.a, 0, 5, [])], sea.sealing := [⟨0, 0, 3, some .a, 1⟩], job.jobs := [waitJob], stx.waiters := [] }
    let d : Ctl := { c with stx.waiters := [0], stx.entries := [(0, .main { mainA with owner := .b })] }
    (c.hd .a).mbox.pend = some ⟨0xC124, [0, 0, 0, 0], .hold, 0⟩ ∧ stxed.ctxInUse 0 = false ∧ c.ctxInUse 0 = true ∧
    c.stx.winHold.find? (fun e => decide (e.1 = .a)) = some (.a, 0, 5, []) ∧ c.ctxInUse 5 = false ∧
    c.sea.sealing.find? (fun j => decide (j.step = 3) && decide (j.bg = some .a)) = some ⟨0, 0, 3, some .a, 1⟩ ∧
    c.granInUse 0 = false ∧ (c.hd .a).mbox.bg = some ⟨0xC143, [0, 0, 0, 4], 0, 0⟩ ∧
    (st stxed).reached .a (R.STX_WIN_CTL_CMD 0) 2 1 ∧ stxed.get (R.STX_WIN_CTL_BUSY 0) = 0 ∧ stxed.ctxEntry 1 = .free ∧
    decodeEntry ((wf stxed (R.STX_WIN_DATA_DATA 0 0) 5).winBytes .a) = .ext .a 0 (List.replicate 15 0) ∧
    c.jobAt 0 = some waitJob ∧ c.fenced .a = false ∧ c.ctxMain waitJob.ctxIndex = some mainA ∧ c.ctxOwner .a = waitJob.owner ∧
    ctxAdmitsAll waitJob mainA = true ∧ ctxAdmitsAll waitJob { mainA with state := 4 } = false ∧ d.ctxOwner .b ≠ waitJob.owner ∧
    d.jobAt 0 = some waitJob ∧ d.ctxNeeds waitJob = [0] ∧ d.wayFree 0 = true ∧
    (wf c (R.QOS_CLASS_CFG_LIMIT waitJob.cls) 100).get (R.QOS_CLASS_CFG_LIMIT waitJob.cls) ≠ 0 ∧
    (let l : Ctl := { stxed with stx.entries := [(0, .main { mainA with kind := 2, base := 5 }), (5, .lost)] }
     l.ctxEntry 0 = .main { mainA with kind := 2, base := 5 } ∧ l.ctxMain 0 = none) ∧
    (stxed.ctxExts { mainA with owner := .a }.tidy).isSome = true := by
  refine ⟨?_, ?_, ?_, ?_, ?_, ?_, ?_, ?_, ?_, ?_, ?_, ?_, ?_, ?_, ?_, ?_, ?_, ?_, ?_, ?_, ?_, ?_, ?_, ?_, ?_⟩ <;>
    (try unfold State.reached Ctl.reached) <;> decide +kernel

/-- Witness of HeldContextsAndTheCache: a dispatch that is stopped, and a fenced head whose job waits for its line. -/
theorem witness_stoppedHolds :
    let c : Ctl := { wf stxed (R.QOS_CLASS_CFG_LIMIT waitJob.cls) 100 with job.jobs := [waitJob], job.stopped := true }
    c.jobAt 0 = some waitJob ∧ c.job.stopped = true ∧ 0 ∉ c.stx.waiters ∧ (wf c (R.HD_STATE_STATE 0) 5).fenced .a = true ∧
    ({ c with job.stopped := false } : Ctl).job.stopped = false := by
  refine ⟨?_, ?_, ?_, ?_, ?_⟩ <;> decide +kernel

/-- Witness of StoppedKeeperCompletesEveryCommand: one command of each kind, the Keeper in reset. -/
theorem witness_stoppedKeeper :
    Obligations.ocsCommand (.thermalGet .a []) = some (.a, 0xC160, {}, []) ∧
    Obligations.standardCommand (.getFwInfo .a []) = some (.a, 0x0200, []) ∧ (0xC00F : Nat) ∉ ocsOpcodes ∧
    (5 : Nat) ∉ stdOpcodes ∧ ({ ready with kpr.phase := 0 } : Ctl).mboxFree .a = true ∧
    ({ ready with kpr.phase := 0 } : Ctl).kpr.phase ≠ 3 := by
  refine ⟨rfl, rfl, ?_, ?_, ?_, ?_⟩ <;> decide +kernel

/-- An event record, and a control side on which Head A's Warning log holds two and its Failure log has overflowed. -/
def warnRec (n : Nat) : EventRec := ⟨n, 0, 0x0301, 0xFFFF, 5, 6, 0⟩
def logged : Ctl := { ready with hdA.logs :=
  [{}, { recs := [warnRec 1, warnRec 2], nextHandle := 3 }, { recs := [warnRec 7], overflow := 2 }, {}] }

/-- Witness of StandardCommandsAnswer: each payload length, each log case, the poison list, DOE with and without a session. -/
theorem witness_standard :
    (st logged).takesStd .a true 0 [] ∧ (st logged).takesStd .a false 0 [] ∧
    (st logged).takesStd .a false 8 (List.replicate 8 7) ∧ (st logged).takesStd .a false 4 [1, 2, 3, 4] ∧
    (logged.hd .a).logs.length = 4 ∧ (st logged).takesStd .a false 24 (celUuid ++ toLE 4 4 ++ toLE 4 8) ∧
    le (celUuid ++ toLE 4 4 ++ toLE 4 8) 16 4 + le (celUuid ++ toLE 4 4 ++ toLE 4 8) 20 4 ≤ celBytes.length ∧
    (List.replicate 24 (0 : BitVec 8)).take 16 ≠ celUuid ∧ (st logged).takesStd .a true 1 [1] ∧ 4 ≤ le [4] 0 1 ∧
    (logged.hd .a).logs[1]? = some { recs := [warnRec 1, warnRec 2], nextHandle := 3 } ∧
    (st logged).takesStd .a true 6 [1, 0, 1, 0, 0, 0, 1, 0] ∧
    clearHandles [1, 0, 1, 0, 0, 0, 1, 0] = ([warnRec 1, warnRec 2].take 1).map EventRec.handle ∧
    clearHandles [1, 0, 1, 0, 0, 0, 2, 0] ≠ ([warnRec 1, warnRec 2].take 1).map EventRec.handle ∧
    tb (le [1, 0, 1, 0, 0, 0, 1, 0] 1 1) 0 = false ∧ tb (le [2, 1, 0, 0, 0, 0] 1 1) 0 = true ∧
    ((logged.hd .a).logs[2]?.map EventLog.overflow) = some 2 ∧ (5 : Nat) ∉ stdOpcodes := by
  unfold State.takesStd
  refine ⟨?_, ?_, ?_, ?_, ?_, ?_, ?_, ?_, ?_, ?_, ?_, ?_, ?_, ?_, ?_, ?_, ?_, ?_⟩ <;> decide +kernel

/-- Witness of StandardCommandsAnswer: line 1 of granule 0 mired and in the mire log, and DOE. -/
theorem witness_poison :
    let s : State := { st { ready with ecc.log := [⟨0, 1, 1, 0, 0⟩] } with lines := [(1, .mired 1)] }
    s.takesStd .a false 16 (toLE 8 0 ++ toLE 8 4) ∧ s.poisonList .a 0 4 = [(64, 1)] ∧ 0 < s.ctl.userEnd ∧
    s.ctl.userEnd ≤ le (toLE 8 (2 ^ 40) ++ toLE 8 4) 0 8 / 64 * 64 ∧ (s.ctl.hd .a).poisonAt = none ∧ s.ctl.lcState ≠ 3 ∧
    s.ctl.kpr.phase = 3 ∧ (s.ctl.hd .a).spdm = false ∧ (({ ready with hdA.spdm := true } : Ctl).hd .a).spdm = true := by
  unfold State.takesStd
  refine ⟨?_, ?_, ?_, ?_, ?_, ?_, ?_, ?_, ?_⟩ <;> decide +kernel

/-- Witness of StandardCommandsAnswer: an identity key of a start and none, and a selective stream. -/
theorem witness_identityKey :
    ({ ready with kpr.idKey := some 5 } : Ctl).kpr.idKey = some 5 ∧ State.reset.ctl.kpr.idKey = none ∧
    (({ ready with hdA.spdm := true } : Ctl).hd .a).ioStreams[0]?.isSome = true ∧
    ((insecure.hd .a).ioStreams[0]?.map IoStream.state) = some 2 := by
  refine ⟨?_, ?_, ?_, ?_⟩ <;> decide +kernel

/-- A payload of Transfer FW with two bytes of data: action, slot and offset. -/
def part (action slot off : Nat) : Bytes :=
  toLE 1 action ++ toLE 1 slot ++ toLE 2 0 ++ toLE 4 off ++ List.replicate 120 0 ++ [1, 2]

/-- A control side on which both images pass, and the same with a transfer of Head A under way. -/
def imaged : Ctl := wf { ready with kpr.slotA := { cause := 0 }, kpr.slotB := { cause := 0 } } R.IDC_FW_STAT_SVN 40
def sending : Ctl := { imaged with kpr.xferHead := some .a, kpr.xferSlot := 1, kpr.xferData := List.replicate 256 0 }

/-- Witness of FirmwareIsTransferredAndActivated: transfers by action, activations, and a commit of SVN 33. -/
theorem witness_firmware :
    imaged.get R.IDC_FW_STAT_RUNNING = 0 ∧ (st imaged).takesStd .a true 0 [] ∧ railIo ∉ imaged.rst.railsOut ∧
    (st imaged).takesStd .a false 128 (part 0 2 0) ∧ le (part 0 2 0) 0 1 = 0 ∧ le (part 0 2 0) 1 1 = 2 ∧
    le (part 0 1 0) 1 1 = 1 ∧ le (part 1 2 0) 0 1 = 1 ∧ le (part 1 2 0) 4 4 = 0 ∧ imaged.kpr.xferHead = none ∧
    sending.kpr.xferHead = some .a ∧ sending.kpr.xferSlot = 1 ∧ le (part 2 2 2) 4 4 * 128 = sending.kpr.xferData.length ∧
    le (part 2 2 2) 0 1 = 2 ∧ le (part 3 2 2) 0 1 = 3 ∧ le (part 4 2 2) 0 1 = 4 ∧ (Head.b).other = .a ∧
    (st imaged).takesStd .a false 2 [1, 2] ∧ imaged.imgOk 1 = true ∧ ready.imgOk 1 = false ∧
    imaged.get R.ECC_MIG_ACTIVE = 0 ∧ imaged.get R.STX_ADOPT_ACTIVE = 0 ∧
    ((List.range 64).all fun g => decide (imaged.get (R.SEA_GRAN_STATE g) ≠ 1)) = true ∧
    (imaged.hd .a).mbox.bg = none ∧ (imaged.hd .b).mbox.bg = none ∧ (imaged.hd .b).mbox.pend = none ∧
    (({ imaged with hdB.mbox.pend := some ⟨0xC100, [], .job, 1⟩ } : Ctl).hd .b).mbox.pend ≠ none ∧
    (st imaged).takes .a { min := 1 } [33] ∧ imaged.get R.FUS_STATUS_MIN_SVN < 33 ∧ 33 ≤ imaged.get R.IDC_FW_STAT_SVN ∧
    imaged.get R.IDC_FW_STAT_STATE = 0 ∧ imaged.get R.IDC_FW_STAT_SVN < 41 := by
  unfold State.takesStd State.takes
  refine ⟨?_, ?_, ?_, ?_, ?_, ?_, ?_, ?_, ?_, ?_, ?_, ?_, ?_, ?_, ?_, ?_, ?_, ?_, ?_, ?_, ?_, ?_, ?_, ?_, ?_, ?_, ?_, ?_, ?_,
    ?_, ?_, ?_⟩ <;> decide +kernel

/-- Witness of FirmwareIsTransferredAndActivated: a part that fits its slot, and an activation that waits for the other head's command, in
its 100 ms and past them. -/
theorem witness_activation :
    ((part 0 2 0).drop 128).length ≤ slotBytes ∧ (sending.kpr.xferData ++ (part 2 2 2).drop 128).length ≤ slotBytes ∧
    (let q : PendCmd := ⟨0x0202, [1, 2], .reset, 0⟩
     let c : Ctl := { imaged with hdA.mbox.pend := some q, hdB.mbox.pend := some ⟨0xC100, [], .job, 1⟩ }
     (c.hd .a).mbox.pend = some q ∧ q.op = 0x0202 ∧ q.wait = .reset ∧ c.activationBusy = false ∧ c.clock < q.aux + 100000000 ∧
     ((c.hd (Head.other .a)).mbox.pend ≠ none) ∧ q.aux + 100000000 ≤ ({ c with clock := 100000000 } : Ctl).clock ∧
     (wf c R.ECC_MIG_ACTIVE 1).activationBusy = true) := by
  refine ⟨?_, ?_, ?_⟩ <;> decide +kernel

/-- Witness of FirmwareIsTransferredAndActivated: a part larger than a slot. -/
theorem witness_partTooLong (l : Bytes) (h : l.length = slotBytes + 1) : slotBytes < ((List.replicate 128 0 ++ l).drop 128).length := by
  rw [List.drop_left' (by simp), h]; exact Nat.lt_succ_self _

/-- A control side whose lane 3 is in Head A's link at 64 GT/s, and one whose heads are absent. -/
def laned : Ctl := wf (wf linked (R.PHYL_STATUS_IN_LINK 3) 1) (R.PHYL_STATUS_RATE 3) 5
def absent : Ctl := wf (wf ready (R.HD_STATE_STATE 0) 0) (R.HD_STATE_STATE 1) 0

/-- Witness of LanesAdaptScanAndLoop on lane 3: adaptation, sweeps, margining and scans. -/
theorem witness_lanes :
    laned.laneInLink 3 = true ∧ ready.laneInLink 3 = false ∧ laned.frozen 3 = false ∧
    (wf laned R.PHYC_CFG_FREEZE_A 1).frozen 3 = true ∧ laned.phy.satRuns = [] ∧
    1023 ≤ (mapGet ({ laned with phy.satRuns := [((3, 0), 1023)] } : Ctl).phy.satRuns (3, 0)).getD 0 ∧
    laned.get (R.PHYL_STATUS_DFE_SAT 3) = 0 ∧ 3 ∈ ({ laned with phy.fomDue := [3] } : Ctl).phy.fomDue ∧
    3 ∈ ({ laned with phy.sweeping := [3] } : Ctl).phy.sweeping ∧ 3 ∉ laned.phy.fomDue ∧ 3 ∉ laned.phy.sweeping ∧
    laned.get (R.PHYL_STATUS_RATE 3) = 5 ∧ ready.get (R.PHYL_STATUS_RATE 3) ≠ 5 ∧
    (wf laned (R.PHYL_SCAN_CTL_BUSY 3) 1).get (R.PHYL_SCAN_CTL_BUSY 3) ≠ 0 ∧ laned.get (R.PHYL_SCAN_CTL_BUSY 3) = 0 ∧
    (st laned).reached .a (R.PHYL_SCAN_CTL_START 3) 1 0 ∧
    mapGet ({ laned with phy.scans := [(3, 2)] } : Ctl).phy.scans 3 = some 2 ∧
    mapGet ({ laned with phy.scans := [(3, 1)] } : Ctl).phy.scans 3 = some 1 ∧
    laned.get (R.PHYL_SCAN_CTL_PAUSED 3) = 0 ∧ (wf laned (R.PHYL_SCAN_CTL_PAUSED 3) 1).get (R.PHYL_SCAN_CTL_PAUSED 3) ≠ 0 := by
  unfold State.reached Ctl.reached
  refine ⟨?_, ?_, ?_, ?_, ?_, ?_, ?_, ?_, ?_, ?_, ?_, ?_, ?_, ?_, ?_, ?_, ?_, ?_, ?_, ?_⟩ <;> decide +kernel

/-- Witness of LanesAdaptScanAndLoop: a scan read that its stream lets through. -/
theorem witness_scanRead : laned.ioRefused .a (laned.hdA.bar0 + (0xE0038 + 0x1000 * 3)) = false := by decide +kernel

/-- Witness of LanesAdaptScanAndLoop: loops over lane 3, MODE 1. -/
theorem witness_loops :
    absent.headBlocked .a = false ∧ absent.laneFollows 3 = false ∧ 3 ∈ ({ laned with phy.retrained := [3] } : Ctl).phy.retrained ∧ absent.get (R.HD_STATE_LINK_UP 0) = 0 ∧ linked.get (R.HD_STATE_LINK_UP 0) ≠ 0 ∧
    3 ∈ absent.lanesOf .a ∧ 3 ∉ absent.lanesOf .b ∧ (st absent).reached .a R.PHYC_LOOP_START 1 0x08000008 ∧
    (st absent).reached .a R.PHYC_LOOP_START 0 0 ∧ bitsOf R.PHYC_LOOP_LANE_MASK 0x08000008 = 8 ∧
    bitsOf R.PHYC_LOOP_MODE 0x08000008 = 1 ∧ absent.loopAllowed 8 = true ∧ ready.loopAllowed 8 = false ∧
    absent.get R.PHYC_LOOP_ACTIVE = 0 ∧ (wf absent R.PHYC_LOOP_ACTIVE 1).get R.PHYC_LOOP_ACTIVE ≠ 0 ∧
    (wf absent (R.PHYL_STATUS_LOOP 3) 1).laneLooped 3 = true ∧ (st absent).takes .a { min := 4 } (toLE 4 0x88000008) ∧
    tb (le (toLE 4 0x88000008) 0 4) 31 = true ∧ le (toLE 4 0x88000008) 0 4 % 65536 = 8 ∧
    le (toLE 4 0x88000008) 0 4 / 2 ^ 27 % 4 = 1 ∧ tb (le (toLE 4 0) 0 4) 31 = false ∧ (st absent).unclaimed .a [blkPhy] ∧
    ({ absent with claims := [(blkPhy, .b)] } : Ctl).claimedByOther .a blkPhy = true := by
  unfold State.reached Ctl.reached State.takes State.unclaimed
  refine ⟨?_, ?_, ?_, ?_, ?_, ?_, ?_, ?_, ?_, ?_, ?_, ?_, ?_, ?_, ?_, ?_, ?_, ?_, ?_, ?_, ?_, ?_, ?_⟩ <;> decide +kernel

/-- A payload of CFG_WRITE with one entry. -/
def entry (off v : Nat) : Bytes := toLE 4 1 ++ toLE 4 off ++ toLE 4 v

/-- Witness of CfgReadAndWriteReachRegisters: a read of IDC_LEVEL_DROP_CNT and of a hole, writes of TSV_REPAIR_CFG and
STK_COMMIT, a bad offset, and a window that Head B's command claims. -/
theorem witness_cfg :
    (st ready).takes .a { min := 4 } (toLE 4 1 ++ toLE 4 0x54) ∧ le (toLE 4 1 ++ toLE 4 0x54) 0 1 = 1 ∧
    le (toLE 4 1 ++ toLE 4 0x54) 4 4 = 0x54 ∧ le (toLE 4 1 ++ toLE 4 2) 4 4 % 4 ≠ 0 ∧ findReg 0xFFFFF0 = none ∧
    ready.gateClosed 0xFFFFF0 = false ∧ (st ready).takes .a { min := 4 } (entry 0x310010 0x30007) ∧
    cfgEntries (entry 0x310010 0x30007) = [(0x310010, 0x30007)] ∧ ready.cfgBad .a (0x310010, 0x30007) = false ∧
    windowOf 0x310010 = some 0x31 ∧
    ready.claimedByOther .a 0x31 = false ∧ ({ ready with claims := [(0x31, .b)] } : Ctl).claimedByOther .a 0x31 = true ∧
    cfgEntries (entry 0x320010 1) = [(0x320010, 1)] ∧ ready.cfgBad .a (0x320010, 1) = false ∧
    windowOf 0x320010 = some 0x32 ∧ ready.cfgBad .a (0x320100, 0) = true ∧
    ready.foreign .a 0xC0004 0 ≠ 0 := by
  unfold State.takes
  refine ⟨?_, ?_, ?_, ?_, ?_, ?_, ?_, ?_, ?_, ?_, ?_, ?_, ?_, ?_, ?_, ?_, ?_⟩ <;> decide +kernel

/-- A part in MANUFACTURE whose regions but SECURITY have their lock fuses blown, and the same parked and in self-refresh. -/
def made : Ctl := wf (wf { ready with fus.words := [(0, 0xFF), (0x51, 24)] } R.FUS_STATUS_LC_STATE 1) R.FUS_LOCK_FUSED 0x1E
def parkedMade : Ctl := { wf made R.IDC_KPR_STAT_PARKED 1 with stk.selfRef := 2 }

/-- Witness of FusesCalibrationAndTestEngine: the fuse commands. -/
theorem witness_fuses :
    (st made).takes .a { min := 2 } [0x51, 0] ∧ secretWord 0x40 = true ∧ secretWord 0x51 = false ∧ 0x7F1 ≤ le [0xF1, 7] 0 2 ∧
    otpWord made.fus.words 0x51 < 2 ^ 32 ∧ made.get R.FUS_STATUS_LC_STATE = 1 ∧ ready.get R.FUS_STATUS_LC_STATE = 0 ∧
    (st made).takes .a { min := 8 } ([0x51, 0, 0, 0] ++ toLE 4 3) ∧ made.wordLocked 0x51 = false ∧
    (wf made R.FUS_LOCK_LOCKED 0x1F).wordLocked 0x51 = true ∧ tb 3 0 = true ∧ tb 24 0 = false ∧ tb 1 0 = true ∧
    (st made).takes .a { min := 1 } [4] ∧ (st made).takes .a { min := 4 } [2, 0, 0, 0] ∧
    made.get R.FUS_LOCK_FUSED / 2 % 16 = 15 ∧ otpWord made.fus.words 0 = lcCode 1 ∧
    otpWord ready.fus.words 0 = lcCode 2 ∧ (wf ready R.FUS_STATUS_LC_STATE 2).get R.FUS_STATUS_LC_STATE = 2 ∧
    tb (otpWord made.fus.words 0x7F0) 4 = false ∧ tb (otpWord ready.fus.words 0x7F0) 4 = true := by
  unfold State.takes
  refine ⟨?_, ?_, ?_, ?_, ?_, ?_, ?_, ?_, ?_, ?_, ?_, ?_, ?_, ?_, ?_, ?_, ?_, ?_, ?_, ?_, ?_⟩ <;> decide +kernel

/-- Witness of FusesCalibrationAndTestEngine: an authorisation of RMA that the key of the running image has signed. -/
theorem witness_rma :
    ({ ready with kpr.slotA := { cause := 0, image := goodImage } } : Ctl).rmaAuthorised
      ([3, 0, 0, 0] ++ be 48 0xAA87CA22BE8B05378EB1C71EF320AD746E1D3B628BA79B9859F741E082542A385502F25DBF55296C3A545E3872760AB7 ++ be 48 0xBBD2C8121E320AA7F79D30A26B68439692CBF012E251FDA4C6170F20E4EBFBCA3004382BFE2F7D08142BA232DB8E41D2) = true ∧
    ready.rmaAuthorised [3, 0, 0, 0] = false := by
  refine ⟨?_, ?_⟩ <;> decide +kernel

/-- Witness of FusesCalibrationAndTestEngine: calibration, REPAIR_COMMIT with nothing to commit and with no word free, and the
test engine. -/
theorem witness_testEngine :
    (st made).takes .a { min := 1 } [7] ∧ le [7] 0 1 < made.nd ∧ made.nd ≤ le [12] 0 1 ∧ made.cal.current = none ∧
    ({ made with cal.current := some 7, cal.windows := 32 } : Ctl).cal.current = some 7 ∧
    32 ≤ ({ made with cal.current := some 7, cal.windows := 32 } : Ctl).cal.windows ∧ made.cal.windows < 32 ∧
    CalItem.railed [2] ⟨0, 5, 31⟩ = true ∧ CalItem.railed [2] ⟨0, 5, 7⟩ = false ∧ CalItem.railed [2] ⟨2, 2, 7⟩ = true ∧
    made.calItemOk 7 ⟨0, 5, 31⟩ = true ∧ bistReaches 2 (80, 0) = true ∧ made.get R.THM_STATUS_STAGE ≠ 4 ∧
    (wf made R.THM_STATUS_STAGE 4).get R.THM_STATUS_STAGE = 4 ∧ (st parkedMade).takes .a {} [] ∧
    parkedMade.get R.IDC_KPR_STAT_PARKED ≠ 0 ∧ parkedMade.stk.selfRef = 2 ∧ made.get R.IDC_KPR_STAT_PARKED = 0 ∧
    (wf made R.FUS_LOCK_LOCKED 0x10).locked5 4 = true ∧ made.locked5 4 = false ∧
    made.placeRepairs made.repairWords [] = some [] ∧
    (let c := wf { made with fus.shadow := [(0x203, 1)] } (R.TSV_CH_REPAIR_SRC0 3) 2
     c.placeRepairs c.repairWords [] = none) ∧
    (st parkedMade).takes .a { min := 1, background := true } [1] ∧ parkedMade.cal.testMode = false ∧ parkedMade.bistTarget 1 = true ∧
    parkedMade.cal.test = none ∧ ({ parkedMade with cal.testMode := true } : Ctl).cal.testMode = true ∧
    ({ parkedMade with cal.test := some (0x10, some .a) } : Ctl).cal.test = some (0x10, some .a) ∧ 0 < parkedMade.userEnd ∧
    parkedMade.get (R.SEA_GRAN_STATE (granOf 0)) = 0 := by
  unfold State.takes
  refine ⟨?_, ?_, ?_, ?_, ?_, ?_, ?_, ?_, ?_, ?_, ?_, ?_, ?_, ?_, ?_, ?_, ?_, ?_, ?_, ?_, ?_, ?_, ?_, ?_, ?_, ?_, ?_, ?_, ?_, ?_⟩ <;> decide +kernel

/-- A control side in a stage whose die D0 alone has power, five of its sensors reading `v` quarters of a degree. -/
def feeling (v stage : Nat) : Ctl :=
  { ready with
    regs := (List.range 5).flatMap (fun n => [((R.THM_SENS_READING n).key, v), ((R.THM_SENS_VALID n).key, 1),
      ((R.THM_SENS_TRUSTED n).key, 1), ((R.THM_SENS_TRIMMED n).key, 1)]) ++ [(R.THM_STATUS_STAGE.key, stage)]
    stk.feedsOpen := (List.range 12).drop 1 }

/-- Witness of ThermalStagesAndShutdown: the timers, at 50 C and at 105 C. -/
theorem witness_stages :
    (⟨0, 420, 0⟩ : Governed) ∈ (feeling 420 1).governed ∧ (⟨0, 420, 0⟩ : Governed).limit 95 105 ≤ 420 ∧
    ((feeling 200 1).governed.all fun g => decide (g.temp < g.limit 95 105)) = true ∧
    ((feeling 200 3).governed.all fun g => decide (g.temp < g.limit 95 105 - 4 * (feeling 200 3).hystC)) = true ∧
    ((List.range (feeling 200 3).nd).all fun d => !(feeling 200 3).modelGoverned d) = true ∧ ready.modelGoverned 0 = true ∧
    0 < ready.nd ∧ (feeling 200 3).get R.THM_STATUS_STAGE = 3 ∧ (feeling 200 2).get R.THM_STATUS_STAGE = 2 ∧
    ({ ready with thm.graceDue := some 5 } : Ctl).thm.graceDue = some 5 ∧
    ({ ready with thm.escalDue := some 5 } : Ctl).thm.escalDue = some 5 ∧
    ({ ready with thm.releaseDue := some 5 } : Ctl).thm.releaseDue = some 5 ∧ ready.thm.graceDue = none ∧
    ready.thm.escalDue = none ∧ ready.thm.releaseDue = none := by
  refine ⟨?_, ?_, ?_, ?_, ?_, ?_, ?_, ?_, ?_, ?_, ?_, ?_, ?_, ?_, ?_⟩ <;> decide +kernel

/-- A control side in an orderly shutdown. -/
def shutting (step : Nat) : Ctl :=
  { wf (withJob oneJob) R.THM_STATUS_STAGE 4 with thm.shutAt := some 1000000, thm.shutStep := step, thm.resumeSince := some 5 }

/-- Witness of ThermalStagesAndShutdown: the steps of a shutdown, cool and hot, parked by a host and not, and the resumption. -/
theorem witness_shutdown :
    (shutting 0).thm.shutAt = some 1000000 ∧ (shutting 0).thm.shutStep = 0 ∧ (shutting 1).thm.shutStep = 1 ∧
    ((shutting 0).job.jobs.map Job.slot).Nodup ∧ (shutting 0).jobAt 0 = some oneJob ∧ oneJob.phase = .running ∧
    (shutting 1).tooHot = false ∧ ({ feeling 460 4 with thm.shutAt := some 5, thm.shutStep := 1 } : Ctl).tooHot = true ∧
    ({ shutting 1 with stk.srcPark := 1 } : Ctl).stk.srcPark = 1 ∧ (shutting 1).stk.srcPark ≠ 1 ∧
    (shutting 2).thm.resumeSince = some 5 ∧ (shutting 2).get R.THM_STATUS_STAGE = 4 ∧ 2 ≤ (shutting 2).thm.shutStep ∧
    (shutting 2).get R.THM_STATUS_POWER_DOWN = 0 ∧
    (wf (shutting 3) R.THM_STATUS_POWER_DOWN 1).get R.THM_STATUS_POWER_DOWN ≠ 0 ∧ ready.thm.shutAt = none ∧
    ready.thm.resumeSince = none := by
  refine ⟨?_, ?_, ?_, ?_, ?_, ?_, ?_, ?_, ?_, ?_, ?_, ?_, ?_, ?_, ?_, ?_, ?_⟩ <;> decide +kernel

/-- Witness of SensorsSamplesAndPower: conversions, samples, canaries, and telemetry of a phase with its spare and without. -/
theorem witness_sensors :
    ready.sensing = true ∧ ({ ready with rst.vaux := false } : Ctl).sensing = false ∧ ready.get R.THM_STATUS_STAGE = 0 ∧
    ready.guardC ≤ 6 ∧ ((List.range 12).all fun d => decide (ready.estimate d < 80)) = true ∧ ready.sensBuilt 5 = true ∧
    ready.dieOpen 0 = false ∧ ready.thm.distrusted = [] ∧ ready.thm.sampleDue = false ∧
    ({ ready with thm.sampleDue := true } : Ctl).thm.sampleDue = true ∧ ready.kpr.phase = 3 ∧ 2 < ready.nd ∧
    ready.dieOpen 2 = false ∧ (1, 0) ∉ ready.thm.spares ∧ (1, 0) ∈ ({ ready with thm.spares := [(1, 0)] } : Ctl).thm.spares ∧
    ready.get R.PWR_STATUS_DUTY ≤ 64 ∧ ready.get R.STK_ACT_CFG_FUSED_MAX ≤ 255 := by
  refine ⟨?_, ?_, ?_, ?_, ?_, ?_, ?_, ?_, ?_, ?_, ?_, ?_, ?_, ?_, ?_, ?_, ?_⟩ <;> decide +kernel

/-- Witness of SensorsSamplesAndPower: readings of sensor 16 of die 2 at 95 C, 105 C and 120 C, each over readings of 80 C. -/
theorem witness_hotSensors :
    let f : Int → Nat → Int := fun v k => if k = 16 then v else 320
    16 / 8 = 2 ∧ 2 < ready.nd ∧ ready.dieOpen 2 = false ∧ (380 ≤ f 380 16 ∧ 420 ≤ f 420 16 ∧ 480 ≤ f 480 16) ∧
    (∀ k < 128, -160 ≤ f 380 k ∧ f 380 k < 388) ∧ (∀ k < 128, -160 ≤ f 420 k ∧ f 420 k < 448) ∧
    (∀ k < 128, -160 ≤ f 480 k ∧ f 480 k ≤ 600) ∧ (∀ k < 128, k / 8 ≠ 2 → f 380 k < 348) ∧
    ready.get R.THM_STATUS_STAGE = 0 ∧ ready.get R.THM_STATUS_POWER_DOWN = 0 ∧ ready.thm.distrusted = [] := by
  refine ⟨?_, ?_, ?_, ?_, ?_, ?_, ?_, ?_, ?_, ?_, ?_⟩ <;> decide +kernel

/-- Witness of SensorsSamplesAndPower: a refresh window that reaches the canary row of channel 0. -/
theorem witness_canary : ∃ c : Ctl, c.canaryDue (4 * 0 + 0) = true ∧ c.kpr.phase = 3 ∧ c.dieOpen 0 = false ∧ ready.canaryDue 0 = false :=
  ⟨{ ready with
      regs := [((R.DMC_REF_STAT_POINTER 0).key, (Config.canaryPlace 0).1.val)]
      stk.chans := [(0, { window := some 1, nextBank := (Config.canaryPlace 0).2.val })] },
    by simp [Ctl.canaryDue, Ctl.canaryHere, Ctl.chan, Ctl.get, mapGet, ready], rfl, by decide +kernel,
    by decide +kernel⟩

/-- Channel 5 with a request for row 7 of bank 2, the bank in a state and an activate made there before; tRP, tRCD and the rest are
over. -/
def queued (k : BankSt) : Ctl := { (wf ready R.PWR_STATUS_ACT_CAP 24).setChan 5 {
  queue := [{ kind := .port 1, cls := 0, arrival := 0, deadline := 0, write := false, bank := 2, row := 7, line := 0 }]
  banks := [(2, k)] } with clock := 1000 }

/-- Channel 5 in the command cycle 3 ns later, and the command it chooses. -/
def cycle (c : Ctl) : Ctl := (((c.pass 3).settle 5).admitWaiting 5).countPromotions 5
def chosen (c : Ctl) : Option DramCmd :=
  let d := (((cycle c).ranked 5).map Prod.snd).foldl (Ctl.countStall 5) (cycle c)
  (d.chooseCmd 5 (d.ranked 5)).map Prod.snd

/-- Witness of RefreshCommandsAndLaneTransfers: windows, the four commands, and an idle open row. -/
theorem witness_refresh :
    (5 : Nat) < ready.nch ∧ (ready.setChan 5 { starts := [7] }).chan 5 = { starts := [7] } ∧ ready.stk.selfRef = 0 ∧
    ((ready.setChan 5 { window := some 2000000 }).chan 5).window = some 2000000 ∧ (ready.chan 5).starts = [] ∧
    ((queued {}).chan 5).closed = false ∧ 5 / 4 ∉ (queued {}).stk.feedsOpen ∧ ((queued {}).chan 5).flight = [] ∧
    (cycle (queued {})).neighbourDue 5 = none ∧ chosen (queued {}) = some .activate ∧
    chosen (queued { openRow := some 7 }) = some .column ∧ chosen (queued { openRow := some 8 }) = some .precharge ∧
    ((cycle (queued { nref := 2 })).neighbourDue 5).isSome = true ∧ (cycle (queued { openRow := some 8 })).idleOpen 5 = some 2 ∧
    (cycle ready).idleOpen 5 = none ∧ chosen ready = none ∧ ready.nch ≤ 48 := by
  refine ⟨?_, ?_, ?_, ?_, ?_, ?_, ?_, ?_, ?_, ?_, ?_, ?_, ?_, ?_, ?_, ?_, ?_⟩ <;> decide +kernel

/-- A transfer of row 7 of bank 2 of channel 5, and lane 1 in a run of three with it pending and its row open. -/
def rowXfer (write : Bool) : Xfer :=
  { chan := 5, bank := 2, row := 7, write := write, cls := 0, port := 2, arrival := 0, deadline := 0 }
def running (write : Bool) : Ctl :=
  { wf (ready.setChan 5 { banks := [(2, { openRow := some 7 })] }) R.ROWL_STATUS_LANE1 1 with
    clock := 1000, stk.lanes := [(1, { pending := [rowXfer write], write := write, run := 3, chosen := true })]
    stk.cells := [(4096, 9)] }

/-- Witness of RefreshCommandsAndLaneTransfers: a lane out of service, a read and a write that take the cycle, one whose row is closed,
a change of direction, a landed row. -/
theorem witness_laneCycle :
    let cyc : Ctl → Ctl := fun c => ((c.pass 3).countCycle 1).admitLane 1
    let cand : Ctl → List Xfer := fun c => (c.lane 1).pending.filter fun q => decide (q.write = (c.lane 1).write) && c.xferReady 1 q &&
      (decide (q.port ≠ 2) || decide ((c.lane 1).jobRows < c.dutyLimit))
    (running true).laneUp 1 = true ∧ ready.laneUp 1 = false ∧ (running true).stk.selfRef = 0 ∧ (running true).domainOpen 14 = true ∧
    (∀ w : Bool, let c := cyc (running w)
      (c.lane 1).chosen = true ∧ (c.lane 1).run = 3 ∧ rowXfer w ∈ (c.lane 1).pending ∧ (rowXfer w).write = (c.lane 1).write ∧
      c.firstXfer (cand c) = some (rowXfer w)) ∧
    (let c := cyc ((running true).setChan 5 {})
     c.firstXfer (cand c) = none) ∧
    (let c := cyc ((running true).setLane 1 { pending := [rowXfer true] })
     (c.lane 1).chosen = false ∧ c.firstXfer (c.lane 1).pending = some (rowXfer true) ∧ (rowXfer true).write ≠ (c.lane 1).write) ∧
    (let c := cyc ((running true).setLane 1 { pending := [rowXfer false] })
     (c.lane 1).chosen = false ∧ c.firstXfer (c.lane 1).pending = some (rowXfer false) ∧ (rowXfer false).write = (c.lane 1).write) ∧
    ((cyc ready).lane 1).pending = [] ∧
    (({ ready with stk.lanes := [(1, { landing := [(8000, rowXfer false)] })] } : Ctl).lane 1).landing =
      (8000, rowXfer false) :: [] ∧ (ready.lane 1).landing = [] := by
  refine ⟨?_, ?_, ?_, ?_, ?_, ?_, ?_, ?_, ?_, ?_, ?_⟩ <;> decide +kernel

/-- Witness of EffectiveDeadlineIsArrivalPlusTarget: the Keeper, a running job in row mode with a deadline, a slot with no job, and
lane 0 in service and out. -/
theorem witness_deadline :
    let c : Ctl := wf (withJob { oneJob with mode := 1, deadline := some 5 }) R.ROWL_STATUS_LANE0 1
    (c.place 0).chan < c.nch ∧ (c.place 0).chan / 4 ∉ c.stk.feedsOpen ∧ c.reqFrom (.job 0) 0 = some (.port 2, 0, some 5) ∧
    c.reqFrom .keeper 0 = some (.port 4, 7, none) ∧ c.reqFrom (.job 1) 0 = none ∧ c.laneJob (.job 0) = some (some 0) ∧
    c.laneUp ((c.place 0).chan / 4 % 4) = true ∧ ready.laneUp ((ready.place 0).chan / 4 % 4) = false ∧
    c.job.jobs.find? (fun j => decide (j.slot = 0) && decide (j.phase ≠ .ended)) =
      some { oneJob with mode := 1, deadline := some 5 } := by
  refine ⟨?_, ?_, ?_, ?_, ?_, ?_, ?_, ?_, ?_⟩ <;> decide +kernel

/-- Witness of BoundariesCountAndApplyCommits: before the oscillator count, during a start, and with a commit pending, good and
bad. -/
theorem witness_boundaries :
    State.reset.ctl.beats = false ∧ ({ ready with rst.awaiting := 5 } : Ctl).beats = true ∧ ready.beats = true ∧
    ready.rst.awaiting = 8 ∧ ready.rst.quiesce = 0 ∧ ready.hdA.mbox.pend = none ∧ ready.hdB.mbox.pend = none ∧
    ready.sea.sealing = [] ∧ ready.sea.unseals = [] ∧ ready.sea.toUnv = [] ∧ ready.ecc.causes = [] ∧
    ready.stk.tsvHits = [] ∧ ready.stk.memWait = [] ∧ ready.ecc.merges = [] ∧ ready.phy.fomPend = [] ∧
    ready.sea.dirty = [] ∧ ready.stk.chans = [] ∧
    ({ ready with stkPend := true } : Ctl).stkPend = true ∧ ready.get R.STK_ACT_CFG_SH_ACT_MAX ≠ 0 ∧
    ready.get R.STK_ACT_CFG_SH_ROW_SHARE ≤ ready.get R.STK_ACT_CFG_SH_ACT_MAX ∧ ready.get R.STK_ACT_CFG_SH_ACT_MAX < 256 ∧
    (wf ready R.STK_ACT_CFG_SH_ACT_MAX 0).get R.STK_ACT_CFG_SH_ACT_MAX = 0 := by
  refine ⟨?_, ?_, ?_, ?_, ?_, ?_, ?_, ?_, ?_, ?_, ?_, ?_, ?_, ?_, ?_, ?_, ?_, ?_, ?_, ?_, ?_, ?_⟩ <;> decide +kernel

/-- Witness of BoundariesCountAndApplyCommits: each other commit pending, its shadows good and bad, and a snapshot. -/
theorem witness_boundaryCommits :
    let sched := wf ready R.QOS_SCHED_COMMIT_PENDING 1
    let cls := wf ready R.QOS_CLASS_COMMIT_PENDING 1
    (wf ready R.MAP_COMMIT_PENDING 1).get R.MAP_COMMIT_PENDING ≠ 0 ∧ (wf ready R.MAP_COMMIT_PENDING 1).combShadowBad = false ∧
    (wf (wf (wf (wf (wf ready R.MAP_COMMIT_PENDING 1) (R.MAP_COMB_SH_LO_EN 0) 1) (R.MAP_COMB_SH_HI_BANDS 0) 1)
      (R.MAP_COMB_SH_LO_EN 1) 1) (R.MAP_COMB_SH_HI_BANDS 1) 1).combShadowBad = true ∧
    sched.get R.QOS_SCHED_COMMIT_PENDING ≠ 0 ∧ sched.schedShadowBad = false ∧
    (wf sched (R.QOS_PORT_LAT_SH_TARGET 0) 0).schedShadowBad = true ∧
    cls.get R.QOS_CLASS_COMMIT_PENDING ≠ 0 ∧ 128 < (wf cls (R.QOS_CLASS_CFG_SH_LIMIT 3) 129).get (R.QOS_CLASS_CFG_SH_LIMIT 3) ∧
    (∀ k < 8, cls.get (R.QOS_CLASS_CFG_SH_LIMIT k) ≤ 128 ∧ cls.get (R.QOS_CLASS_CFG_SH_LANE_LIMIT k) ≤ 256 ∧
      cls.get (R.QOS_CLASS_CFG_SH_RESERVE k) ≤ cls.get (R.QOS_CLASS_CFG_RESERVE k) ∧
      (cls.get (R.QOS_CLASS_CFG_SH_RESERVE k) = 0 ∨ cls.get (R.QOS_CLASS_CFG_SH_LIMIT k) ≠ 0)) ∧
    (∀ i < 2, ∀ w < 8, cls.get (R.QOS_WIN_SH_LO_EN i w) = 0) ∧ ({ ready with snapPend := true } : Ctl).snapPend = true := by
  refine ⟨?_, ?_, ?_, ?_, ?_, ?_, ?_, ?_, ?_, ?_, ?_⟩ <;> decide +kernel

/-- Witness of BoundariesCountAndApplyCommits: the commands that wait for a boundary, and granules that change their state. -/
theorem witness_boundaryCommands :
    let waits : Nat → Bytes → Ctl → Ctl := fun op p c => { c with hdA.mbox.pend := some ⟨op, p, .boundary, 0⟩ }
    ((waits 0xC154 [3, 5] ready).hd .a).mbox.pend = some ⟨0xC154, [3, 5], .boundary, 0⟩ ∧
    (le [3, 5] 0 1 < 64 ∧ le [3, 5] 1 1 < 64 ∧ le [3, 0xFF] 1 1 = 0xFF) ∧
    (waits opPartGive [3, 1] ready).hdB.mbox.pend = none ∧ (waits 0xC151 [1] ready).fenced .b = false ∧
    (waits 0xC151 [1] (headB 5)).fenced .b = true ∧ (waits 0xC151 [1] (headB 5)).hstate .b = 5 ∧
    (waits 0xC151 [1] (headB 5)).get R.STX_ADOPT_ACTIVE = 0 ∧ (waits 0xC152 [] ready).mayRejoin .a = false ∧
    (waits 0xC152 [] (wf (wf ready (R.HD_STATE_STATE 0) 5) (R.HD_STATE_LINK_UP 0) 1)).mayRejoin .a = true ∧
    (waits 0xC156 [0, 0, 5, 0, 1, 0] ready).hdA.mbox.pend = some ⟨0xC156, [0, 0, 5, 0, 1, 0], .boundary, 0⟩ ∧
    ready.sea.erased = [] ∧ ready.sea.dropUnv = [] ∧ ({ ready with sea.unseals := [7] } : Ctl).sea.unseals = [7] ∧
    ({ wf ready (R.SEA_GRAN_STATE 7) 2 with sea.toUnv := [7] } : Ctl).sea.toUnv = [7] ∧
    (wf ready (R.SEA_GRAN_STATE 7) 2).get (R.SEA_GRAN_STATE 7) = 2 ∧
    ({ ready with sea.sealing := [⟨7, 4, 2, none, 0⟩] } : Ctl).sea.sealing = [⟨7, 4, 2, none, 0⟩] ∧
    ({ ready with sea.sealing := [⟨7, 4, 0, none, 0⟩] } : Ctl).sea.sealing = [⟨7, 4, 0, none, 0⟩] ∧
    ready.get (R.SEA_KEY_STAT_EPOCH 4) ≠ 0xFFFF := by
  refine ⟨?_, ?_, ?_, ?_, ?_, ?_, ?_, ?_, ?_, ?_, ?_, ?_, ?_, ?_, ?_, ?_, ?_, ?_⟩ <;> decide +kernel

/-! ## Ill-formed commands, one for each check -/

theorem test_illFormed_access : (Instr.rcFieldRead .a 0x1000000).illFormed = some .access := by decide
theorem test_illFormed_channel : (Instr.refreshWindow 48).illFormed = some .channel := by decide
theorem test_illFormed_lane : (Instr.laneCycle 4 1).illFormed = some .lane := by decide
theorem test_illFormed_die : (Instr.canaryCheck 12 true).illFormed = some .die := by decide
theorem test_illFormed_stackAddress : (Instr.requestEnqueue .forager 51539607552 false none).illFormed = some .stackAddress := by
  decide
theorem test_illFormed_payload : (Instr.cfgRead .a (List.replicate 2049 0)).illFormed = some .payload := by decide +kernel
theorem test_illFormed_lineData : (Instr.cxlMemWrite .a 0 false []).illFormed = some .lineData := by decide
theorem test_illFormed_flip : (Instr.lineReadCheck 0 0 false [(72, 1)]).illFormed = some .lineData := by decide

/-! ## Steps whose results the rules give -/

/-- What a test looks at in the next state. -/
def after {α : Type} (o : Host.Outcome State Fault Refusal) (f : State → α) : Option α := match o with
  | .next t => some (f t)
  | .fault _ => none
  | .refused _ => none

/-- A stopped Keeper: THERMAL_GET completes with KEEPER_DOWN, OCS code 7, Return Code Busy (R291, R292). -/
theorem test_keeperDown : after (exec (.thermalGet .a []) State.reset) (fun t => (t.ctl.hd .a).mbox.last) =
    some (some ⟨0xC160, 6, 7, []⟩) := by decide +kernel

/-- LEVEL_SET 0 ends the expert level of Head A alone (R301). -/
theorem test_levelSet : after (exec (.levelSet .a [0]) (st ready)) (fun t => (t.ctl.expert .a, t.ctl.expert .b)) =
    some (false, true) := by decide +kernel

/-- A write of a head without expert level outside the IDC block is discarded and counted (R19). -/
theorem test_levelDrop : after (exec (.registerWrite .a 0x310010 false 7) (st (wf ready R.IDC_CTRL_LEVEL_A_EXPERT 0)))
    (fun t => decide (t.ctl.get R.TSV_REPAIR_CFG_COUNT = ready.get R.TSV_REPAIR_CFG_COUNT)) = some true := by decide +kernel

/-- The waits of R344: 200 ms after cause 0x04, 10 ms after the first failure, 1,000 ms at most. -/
theorem test_retryWait : retryWait 4 1 = 200000000 ∧ retryWait 5 1 = 10000000 ∧ retryWait 5 2 = 20000000 ∧
    retryWait 5 9 = 1000000000 := by decide

/-- The life-cycle codes of R357, and a word that is none. -/
theorem test_lifeCycle : lcOf 0xFFFF = some 2 ∧ lcOf 0xFFFFFF = some 3 ∧ lcOf 0x7FFF = none := by decide

end Sys2Proof.Tests
end

section
/-! SUPPORT. The queue of commands: what the operations on the whole machine, which reach the stack's bytes or the status of its
lines, leave of it. One lemma per operation, in the order of the model. -/

namespace Sys2Proof.Machine

/-- The commands that wait, by a definition of its own: two states under it are compared before either is computed. -/
def State.queue (s : State) : List Instr := s.pending

theorem foldl_keeps {σ α ι : Type} (p : σ → ι) {g : σ → α → σ} (k : ∀ a x, p (g a x) = p a) (l : List α) (a : σ) :
    p (l.foldl g a) = p a := by
  induction l generalizing a with
  | nil => rfl
  | cons x t ih => exact (ih (g a x)).trans (k a x)

theorem foldl_queue {α : Type} {g : State → α → State} (k : ∀ s a, (g s a).queue = s.queue) (l : List α) (s : State) :
    (l.foldl g s).queue = s.queue := foldl_keeps State.queue k l s

@[simp] theorem State.ite_queue (p : Prop) {d : Decidable p} (s t : State) :
    (if p then s else t).queue = if p then s.queue else t.queue := apply_ite State.queue p s t

@[simp] theorem State.mapCtl_queue (s : State) (f : Ctl → Ctl) : (s.mapCtl f).queue = s.queue := by
  unfold State.queue; rfl

@[simp] theorem State.setCtl_queue (s : State) (c : Ctl) : ({ s with ctl := c } : State).queue = s.queue := by
  unfold State.queue; rfl

@[simp] theorem State.setStatus_queue (s : State) (sa : Nat) (x : LineStatus) : (s.setStatus sa x).queue = s.queue := by
  unfold State.queue; rfl

@[simp] theorem State.storeLine_queue (s : State) (sa : Nat) (d : Bytes) : (s.storeLine sa d).queue = s.queue :=
  s.storeLine_pending sa d

@[simp] theorem State.storeMired_queue (s : State) (sa k : Nat) : (s.storeMired sa k).queue = s.queue :=
  s.storeMired_pending sa k

@[simp] theorem State.forget_queue (s : State) (lo hi : Nat) : (s.forget lo hi).queue = s.queue := by
  unfold State.queue; rfl

@[simp] theorem State.readLine_queue (s : State) (sa : Nat) : (s.readLine sa).2.2.queue = s.queue :=
  (s.readLine_frame sa).2.2

@[simp] theorem State.noteUnder_queue (s : State) (sa : Nat) : (s.noteUnder sa).queue = s.queue := by
  simp [State.noteUnder]

@[simp] theorem State.mire_queue (s : State) (sa cause source : Nat) : (s.mire sa cause source).queue = s.queue := by
  rw [State.mire, State.mapCtl_queue, State.storeMired_queue, State.noteUnder_queue]

@[simp] theorem State.mireOnce_queue (s : State) (sa cause source : Nat) : (s.mireOnce sa cause source).queue = s.queue := by
  simp [State.mireOnce]

@[simp] theorem State.sealMire_queue (s : State) (sa cause source : Nat) : (s.sealMire sa cause source).queue = s.queue := by
  unfold State.sealMire
  split
  · rfl
  · rw [State.mapCtl_queue, State.mire_queue]

@[simp] theorem State.healLine_queue (s : State) (sa : Nat) : (s.healLine sa).queue = s.queue := by
  simp [State.healLine]

@[simp] theorem State.healMeta_queue (s : State) (g : Nat) : (s.healMeta g).queue = s.queue := rfl

@[simp] theorem State.loseDie_queue (s : State) (d : Nat) : (s.loseDie d).queue = s.queue := rfl

@[simp] theorem State.dark_queue (s : State) (f : Ctl → Ctl) : (s.dark f).queue = s.queue := rfl

@[simp] theorem State.startFail_queue (s : State) (cause : Nat) : (s.startFail cause).queue = s.queue := rfl

@[simp] theorem State.powerOn_queue (s : State) (o : Nat) : (s.powerOn o).queue = s.queue := rfl

@[simp] theorem State.powerDown_queue (s : State) : s.powerDown.queue = s.queue := rfl

@[simp] theorem State.sealLeave_queue (s : State) (e : Nat × Nat × Nat) : (s.sealLeave e).queue = s.queue := by
  unfold State.sealLeave
  split <;> simp

@[simp] theorem State.sealEvict_queue (n : Nat) (e : Nat × Nat × Nat) (s : State) :
    (State.sealEvict n e s).queue = s.queue := by
  induction n generalizing e s with
  | zero => rfl
  | succ n ih =>
    unfold State.sealEvict
    split
    · rfl
    · simp [ih]

@[simp] theorem State.sealTrim_queue (s : State) (e : Nat × Nat × Nat) : (s.sealTrim e).queue = s.queue := by
  simp [State.sealTrim]

@[simp] theorem State.cacheIn_queue (s : State) (e : Nat × Nat × Nat) : (s.cacheIn e).queue = s.queue := by
  simp [State.cacheIn]

@[simp] theorem State.lineDirty_queue (s : State) (sa : Nat) : (s.lineDirty sa).queue = s.queue := by
  simp [State.lineDirty]

@[simp] theorem State.sealFlush_queue (n : Nat) (s : State) : (State.sealFlush n s).queue = s.queue := by
  induction n generalizing s with
  | zero => rfl
  | succ n ih =>
    unfold State.sealFlush
    split
    · simp [ih]
    · rfl

@[simp] theorem State.trust_queue (s : State) (sa : Nat) : (s.trust sa).2.queue = s.queue := by
  unfold State.trust
  split
  · rfl
  · exact foldl_queue (fun s l => s.cacheIn_queue _) _ s

@[simp] theorem State.tagLineLost_queue (s : State) (sa source : Nat) : (s.tagLineLost sa source).queue = s.queue := by
  simp [State.tagLineLost, foldl_queue]

@[simp] theorem State.tagFail_queue (s : State) (sa source : Nat) : (s.tagFail sa source).queue = s.queue := by
  simp [State.tagFail]

@[simp] theorem State.checkPage_queue (s : State) (page : Nat) : (s.checkPage page).queue = s.queue := by
  simp [State.checkPage, foldl_queue]

@[simp] theorem State.reencrypt_queue (s : State) (page : Nat) (bad : List (Nat × Nat)) :
    (s.reencrypt page bad).queue = s.queue := by
  simp [State.reencrypt, foldl_queue]

@[simp] theorem State.sealedWrite_queue (s : State) (sa : Nat) (d : Bytes) : (s.sealedWrite sa d).2.queue = s.queue := by
  simp [State.sealedWrite, apply_ite Prod.snd]

@[simp] theorem State.writeLine_queue (s : State) (sa : Nat) (d : Bytes) : (s.writeLine sa d).2.queue = s.queue := by
  unfold State.writeLine
  split <;> simp

@[simp] theorem State.writePoisonLine_queue (s : State) (sa source : Nat) :
    (s.writePoisonLine sa source).2.queue = s.queue := by
  unfold State.writePoisonLine
  split <;> simp

@[simp] theorem State.readSealed_queue (s : State) (sa source : Nat) : (s.readSealed sa source).2.queue = s.queue := by
  simp [State.readSealed, apply_ite Prod.snd]

@[simp] theorem State.readChecked_queue (s : State) (sa source : Nat) : (s.readChecked sa source).2.queue = s.queue := by
  unfold State.readChecked
  split
  case h_4 =>
    split
    · simp
    · simp [apply_ite Prod.snd]
  all_goals simp

@[simp] theorem State.fetchedTrusted_queue (s : State) (fetched : List (Nat × MetaLine)) (sa : Nat) :
    (s.fetchedTrusted fetched sa).queue = s.queue := foldl_queue (fun s l => by simp) _ s

@[simp] theorem State.sramLost_queue (s : State) (e : Nat × Nat × Nat) (addr : Nat) (m : MetaLine) :
    (s.sramLost e addr m).queue = s.queue := by
  cases m <;> simp [State.sramLost]

@[simp] theorem State.merge_queue (s : State) (sa : Nat) (new : List (Nat × BitVec 8)) :
    (s.merge sa new).2.queue = s.queue := by
  unfold State.merge
  dsimp only
  split
  · rfl
  · split
    · split <;> simp only [State.mapCtl_queue, State.readChecked_queue]
    · rw [State.writeLine_queue, State.readChecked_queue]

@[simp] theorem State.mergesOf_queue (s : State) (sa : Nat) : (s.mergesOf sa).queue = s.queue := by
  rw [State.mergesOf, foldl_queue (fun s _ => s.merge_queue _ _), State.mapCtl_queue]

@[simp] theorem State.metaLost_queue (s : State) (sa source : Nat) : (s.metaLost sa source).queue = s.queue := by
  unfold State.metaLost
  split
  · rfl
  · exact s.tagLineLost_queue _ _
  · rw [State.mapCtl_queue]

@[simp] theorem State.foundBad_queue (s : State) (sa source : Nat) : (s.foundBad sa source).queue = s.queue := by
  simp [State.foundBad]

@[simp] theorem State.miscorrect_queue (s : State) (sa : Nat) (wrong : List (Nat × Nat)) :
    (s.miscorrect sa wrong).queue = s.queue := by
  simp [State.miscorrect]

@[simp] theorem State.countLine_queue (s : State) (counted : Bool) (sa k : Nat) (mired new : Bool) :
    (s.countLine counted sa k mired new).queue = s.queue := by
  simp [State.countLine]

@[simp] theorem State.foragerSeal_queue (s : State) (counted : Bool) (sa : Nat) :
    (s.foragerSeal counted sa).2.queue = s.queue := by
  simp [State.foragerSeal, apply_ite Prod.snd]

@[simp] theorem State.lineGood_queue (s : State) (counted : Bool) (sa k : Nat) :
    (s.lineGood counted sa k).queue = s.queue := by
  simp [State.lineGood]

@[simp] theorem State.migratedBad_queue (s : State) (e : Nat × Nat) : (s.migratedBad e).queue = s.queue := by
  simp [State.migratedBad]

/-! ## Jobs -/

@[simp] theorem State.readLines_queue (source n ln : Nat) (s : State) :
    (State.readLines source n ln s).2.2.queue = s.queue := by
  induction n generalizing ln s with
  | zero => rfl
  | succ n ih =>
    rw [State.readLines]
    dsimp only
    rw [ih, State.readChecked_queue, State.mergesOf_queue]

@[simp] theorem State.readSpan_queue (s : State) (sa n source : Nat) : (s.readSpan sa n source).2.2.queue = s.queue := by
  unfold State.readSpan
  split
  · rfl
  · exact State.readLines_queue source _ _ s

@[simp] theorem State.ctxDamaged_queue (s : State) (x : Nat) : (s.ctxDamaged x).queue = s.queue := by
  unfold State.ctxDamaged
  dsimp only
  split
  · rfl
  · split
    · rw [State.mapCtl_queue, State.mire_queue]
    · rw [State.mapCtl_queue]

@[simp] theorem State.readInput_queue (s : State) (j : Job) (k : Src × Nat) : (s.readInput j k).2.queue = s.queue := by
  rw [State.readInput]
  dsimp only
  split
  · rw [State.readSpan_queue]
  · rfl

@[simp] theorem State.readInputs_queue (j : Job) (l : List (Src × Nat)) (s : State) :
    (State.readInputs j l s).2.queue = s.queue := by
  induction l generalizing s with
  | nil => rfl
  | cons k t ih => simp [State.readInputs, ih]

@[simp] theorem State.stackOut_queue (s : State) (slot frag off sa : Nat) (poison : Bool) (d : Bytes) :
    (s.stackOut slot frag off sa poison d).queue = s.queue := by
  unfold State.stackOut
  cases poison <;> simp

@[simp] theorem State.spanOut_queue (slot frag n sa off : Nat) (l : List (Bool × BitVec 8)) (s : State) :
    (State.spanOut slot frag n sa off l s).queue = s.queue := by
  induction n generalizing sa off l s with
  | zero => rfl
  | succ n ih =>
    simp only [State.spanOut, ih, State.ite_queue, State.mapCtl_queue, apply_ite Prod.snd,
      State.writePoisonLine_queue, State.writeLine_queue, State.merge_queue, State.mergesOf_queue, ite_self]

@[simp] theorem State.deliverLine_queue (s : State) (j : Job) (o rank : Nat) (poison : Bool) (d : Bytes) :
    (s.deliverLine j o rank poison d).queue = s.queue := by
  simp [State.deliverLine]

@[simp] theorem State.deliverAll_queue (j : Job) (l : List InLine) (outs : List (Nat × Nat)) (s : State) :
    (State.deliverAll j l outs s).queue = s.queue := by
  induction outs generalizing s with
  | nil => rfl
  | cons o t ih => simp [State.deliverAll, ih]

@[simp] theorem State.sourceBytes_queue (s : State) (j : Job) : (s.sourceBytes j).2.2.queue = s.queue := by
  simp [State.sourceBytes, apply_ite Prod.snd]

@[simp] theorem State.digestBytes_queue (s : State) (j : Job) : (s.digestBytes j).2.2.queue = s.queue := by
  simp [State.digestBytes, apply_ite Prod.snd]

@[simp] theorem State.writeDst_queue (s : State) (j : Job) (l : List (Bool × BitVec 8)) :
    (s.writeDst j l).queue = s.queue := by
  simp [State.writeDst]

@[simp] theorem State.runHash_queue (s : State) (j : Job) : (s.runHash j).queue = s.queue := by
  simp [State.runHash]

@[simp] theorem State.runMove_queue (s : State) (j : Job) : (s.runMove j).queue = s.queue := by
  simp [State.runMove]

@[simp] theorem State.endIfDone_queue (s : State) (slot : Nat) : (s.endIfDone slot).queue = s.queue := by
  unfold State.endIfDone
  split <;> simp

@[simp] theorem State.writePacked_queue (s : State) (j : Job) : (s.writePacked j).queue = s.queue := by
  simp [State.writePacked]

/-! ## Maps, seals, resets -/

@[simp] theorem State.changeViews_queue (s : State) (c : Ctl) : (s.changeViews c).queue = s.queue := by
  rw [State.changeViews]
  exact foldl_queue (fun s v => s.forget_queue v.1 v.2) (viewChanges s.ctl c) s

@[simp] theorem State.applyMap_queue (s : State) : s.applyMap.queue = s.queue := by
  simp [State.applyMap]

@[simp] theorem State.applyUnseals_queue (s : State) : s.applyUnseals.queue = s.queue := by
  rw [State.applyUnseals]
  dsimp only
  rw [State.mapCtl_queue, foldl_queue fun s g => by rw [State.mapCtl_queue, State.forget_queue]]

@[simp] theorem State.enterSealed_queue (s : State) (j : SealJob) : (s.enterSealed j).queue = s.queue := by
  rw [State.enterSealed]
  dsimp only
  rw [State.mapCtl_queue, State.healMeta_queue, State.forget_queue]

@[simp] theorem State.sealBoundary_queue (s : State) : s.sealBoundary.queue = s.queue := by
  rw [State.sealBoundary]
  dsimp only
  split
  · simp only [foldl_queue State.enterSealed_queue, State.mapCtl_queue, State.applyUnseals_queue]
  · simp only [foldl_queue (fun s _ => s.mapCtl_queue _), foldl_queue State.enterSealed_queue, State.mapCtl_queue,
      State.applyUnseals_queue]

@[simp] theorem State.dropSegments_queue (s : State) (mask : Nat) : (s.dropSegments mask).queue = s.queue := by
  rw [State.dropSegments, foldl_queue fun s n => by rw [State.mapCtl_queue, State.forget_queue]]

@[simp] theorem State.bistWipe_queue (s : State) : s.bistWipe.queue = s.queue :=
  foldl_queue (fun s g => by simp) _ s

@[simp] theorem State.thermalJudge_queue (s : State) (fresh : List Nat) : (s.thermalJudge fresh).queue = s.queue := by
  unfold State.thermalJudge
  split
  · rfl
  · dsimp only
    split
    · rw [State.powerDown_queue, State.mapCtl_queue]
    · rw [State.mapCtl_queue]

@[simp] theorem State.keeperFault_queue (s : State) (src : Nat) : (s.keeperFault src).queue = s.queue := by
  unfold State.keeperFault
  split <;> simp

@[simp] theorem State.tearLine_queue (s : State) (sa : Nat) : (s.tearLine sa).queue = s.queue := by
  rw [State.tearLine, State.mapCtl_queue, State.storeMired_queue]

@[simp] theorem State.warmDies_queue (s : State) : s.warmDies.queue = s.queue := by
  simp [State.warmDies]

@[simp] theorem State.warmBringup_queue (s : State) : s.warmBringup.queue = s.queue := by
  simp [State.warmBringup, foldl_queue]

/-! ## CXL.mem -/

@[simp] theorem State.serveRead_queue (s : State) (r : MemReq) : (s.serveRead r).queue = s.queue := by
  simp [State.serveRead]

@[simp] theorem State.serveWrite_queue (s : State) (r : MemReq) (poison : Bool) (d : Bytes) :
    (s.serveWrite r poison d).queue = s.queue := by
  cases poison <;> simp [State.serveWrite]

@[simp] theorem State.serveMem_queue (s : State) (r : MemReq) : (s.serveMem r).queue = s.queue := by
  unfold State.serveMem
  split
  · simp
  · split <;> simp

@[simp] theorem State.carryRequest_queue (s : State) (r : MemReq) : (s.carryRequest r).1.queue = s.queue := by
  unfold State.carryRequest
  dsimp only
  split
  · rw [State.readChecked_queue, State.mergesOf_queue]
  · split
    · rw [State.writePoisonLine_queue, State.mergesOf_queue]
    · rw [State.writeLine_queue, State.mergesOf_queue]
  · rw [State.merge_queue, State.mergesOf_queue]

@[simp] theorem State.serveWaits_queue (s : State) : s.serveWaits.queue = s.queue := by
  simp [State.serveWaits, foldl_queue]

@[simp] theorem State.rowLanded_queue (s : State) : s.rowLanded.queue = s.queue := by
  simp [State.rowLanded]

@[simp] theorem State.memRequest_queue (s : State) (h : Head) (dpa : Nat) (k : MemKind) :
    (s.memRequest h dpa k).queue = s.queue := by
  unfold State.memRequest
  dsimp only
  split
  · rfl
  · split <;> simp

@[simp] theorem State.carryOld_queue (s : State) (ch : List (Nat × Nat)) : (s.carryOld ch).queue = s.queue := by
  unfold State.carryOld
  dsimp only
  split
  · rfl
  · rw [State.mapCtl_queue, foldl_keeps (fun a : State × List MemReq => a.1.queue) fun a r => ?_,
      foldl_queue (fun s _ => s.mergesOf_queue _)]
    split
    · split
      · rw [State.serveMem_queue]
      · rw [State.carryRequest_queue]
    · rfl

/-! ## Beat -/

@[simp] theorem State.beatOwnership_queue (s : State) : s.beatOwnership.queue = s.queue := by
  simp [State.beatOwnership]

@[simp] theorem State.beatCommits_queue (s : State) : s.beatCommits.queue = s.queue := by
  simp [State.beatCommits]

@[simp] theorem State.healTable_queue (s : State) : s.healTable.queue = s.queue := rfl

@[simp] theorem State.beatFlush_queue (s : State) : s.beatFlush.queue = s.queue := by
  unfold State.beatFlush
  dsimp only
  split
  · rw [State.sealFlush_queue, State.healTable_queue, State.mapCtl_queue, State.mapCtl_queue]
  · rw [State.mapCtl_queue]

@[simp] theorem beatBoundary_queue (s : State) : (beatBoundary s).queue = s.queue := by
  simp [beatBoundary]

end Sys2Proof.Machine
end

section
/-! The commands one by one: each ends in a next state that holds the queue it found (R5). -/

namespace Sys2Proof.Machine

/-- An outcome is a next state that holds the queue of `s`. -/
def State.completes (s : State) (o : Host.Outcome State Fault Refusal) : Prop := ∃ t, o = .next t ∧ t.pending = s.pending

theorem State.completes_next {s t : State} (k : t.queue = s.queue) : s.completes (.next t) := ⟨t, rfl, k⟩

theorem State.completes_self (s : State) : s.completes (.next s) := s.completes_next rfl

theorem State.completes_mapCtl (s : State) (f : Ctl → Ctl) : s.completes (.next (s.mapCtl f)) :=
  s.completes_next (s.mapCtl_queue f)

theorem readBar_completes (h : Head) (off : Nat) (wide : Bool) (s : State) : s.completes (readBar h off wide s) := by
  unfold readBar
  split
  · exact s.completes_self
  · exact s.completes_mapCtl _

theorem writeBar_completes (h : Head) (off : Nat) (wide : Bool) (v : Nat) (s : State) :
    s.completes (writeBar h off wide v s) := by
  unfold writeBar
  split
  · exact s.completes_mapCtl _
  · exact s.completes_self

theorem execFeedOvercurrent_completes (d feed : Nat) (s : State) : s.completes (execFeedOvercurrent d feed s) := by
  unfold execFeedOvercurrent
  split
  · exact State.completes_next (by simp)
  · exact s.completes_self

theorem execSealMetadataArrival_completes (sa source : Nat) (fetched : List (Nat × MetaLine)) (tag : MetaLine) (s : State) :
    s.completes (execSealMetadataArrival sa source fetched tag s) := by
  unfold execSealMetadataArrival
  extract_lets sa g fetched bad s0 s1
  have lost : s0.queue = s.queue := foldl_queue (fun s _ => s.sramLost_queue _ _ _) fetched s
  have corrected : s1.queue = s.queue := (s0.mapCtl_queue _).trans lost
  clear_value s0 s1 bad fetched
  split
  · exact s.completes_self
  · split
    · exact State.completes_next (by rw [State.sealMire_queue, State.mapCtl_queue, corrected])
    · exact State.completes_next (by rw [State.sealMire_queue, State.mapCtl_queue, corrected])
    · rename_i s2 s3 _ _
      have arrived : s3.queue = s.queue := by
        rw [State.sramLost_queue, State.mapCtl_queue, State.fetchedTrusted_queue, corrected]
      clear_value s2 s3
      split
      · exact State.completes_next (by rw [State.tagLineLost_queue, arrived])
      · split
        · exact State.completes_next (by rw [State.cacheIn_queue, arrived])
        · exact State.completes_next (by rw [State.tagFail_queue, arrived])

theorem execLineReadCheck_completes (sa source : Nat) (lane : Bool) (flips : List (Nat × Byte)) (s : State) :
    s.completes (execLineReadCheck sa source lane flips s) := by
  unfold execLineReadCheck
  extract_lets sa c counted most l found bad decoded
  have badQueue (u : Unit) : (bad u).queue = s.queue := by
    simp only [bad, State.countLine_queue, State.foundBad_queue]
  have decodedQueue (u : Unit) : (decoded u).queue = s.queue := by
    dsimp only [decoded]
    split
    · rw [State.countLine_queue]
    · split
      · rw [State.lineGood_queue, State.mapCtl_queue, State.miscorrect_queue]
      · exact badQueue ()
  clear_value bad decoded found most counted c
  split
  · split
    · exact State.completes_next (s.countLine_queue _ _ _ _ _)
    · by_cases few : l.length ≤ if most = 3 then 4 else 3
      · rw [if_pos few]
        exact State.completes_next (badQueue ())
      · rw [if_neg few]
        exact State.completes_next (decodedQueue ())
  · split
    · exact State.completes_next (by rw [State.countLine_queue, State.mire_queue])
    · split
      · exact State.completes_next (s.lineGood_queue _ _ _)
      · split
        · exact State.completes_next (by rw [State.lineGood_queue, State.mapCtl_queue])
        · split
          · exact State.completes_next (badQueue ())
          · exact State.completes_next (decodedQueue ())

theorem execPartialWriteMerge_completes (s : State) : s.completes (execPartialWriteMerge s) := by
  rw [execPartialWriteMerge]
  split
  · exact s.completes_self
  · exact State.completes_next (by rw [State.merge_queue, State.mapCtl_queue])
theorem execFragmentListFetched_completes (slot : Nat) (s : State) : s.completes (execFragmentListFetched slot s) := by
  unfold execFragmentListFetched
  split
  · exact s.completes_self
  · split
    · exact s.completes_self
    · split
      · exact s.completes_self
      · split
        · split
          · exact s.completes_mapCtl _
          · dsimp only
            split
            · exact State.completes_next (by simp)
            · exact State.completes_next (by simp)
        · split
          · exact s.completes_self
          · exact s.completes_mapCtl _

theorem execJobDispatch_completes (bad : Option Nat) (s : State) : s.completes (execJobDispatch bad s) := by
  unfold execJobDispatch
  cases bad with
  | none => exact s.completes_mapCtl _
  | some x => exact State.completes_next (by simp)

theorem execMacPass_completes (bad : Bool) (s : State) : s.completes (execMacPass bad s) := by
  unfold execMacPass
  split
  · exact s.completes_self
  · split
    · exact State.completes_next (by simp)
    · exact s.completes_mapCtl _
    · dsimp only
      split
      · exact State.completes_next (by rw [State.mapCtl_queue, State.readInputs_queue])
      · exact State.completes_next (by rw [State.mapCtl_queue, State.deliverAll_queue, State.readInputs_queue])

theorem execJobEnd_completes (slot : Nat) (s : State) : s.completes (execJobEnd slot s) := by
  unfold execJobEnd
  split
  · exact s.completes_self
  · split
    · exact s.completes_self
    · split
      · exact s.completes_mapCtl _
      · split
        · exact State.completes_next (by simp)
        · split
          · split
            · split
              · exact s.completes_mapCtl _
              · exact State.completes_next (by simp)
            · exact s.completes_self
          · split
            · exact State.completes_next (by simp)
            · split
              · split
                · exact s.completes_mapCtl _
                · exact State.completes_next (by simp)
              · exact s.completes_self

theorem State.completes_startFail {s : State} (p : Prop) [Decidable p] {t : State} (k : t.queue = s.queue) (cause : Nat) :
    s.completes (if p then .next (t.startFail cause) else .next s) := by
  split
  · exact State.completes_next ((t.startFail_queue cause).trans k)
  · exact s.completes_self

theorem State.std_queue (s : State) (h : Head) (op : Nat) (ok : Bool) (min : Nat) (p : Bytes) {run : State → State}
    (k : (run s).queue = s.queue) : (s.std h op ok min p run).queue = s.queue := by
  unfold State.std
  split
  · split
    · rw [State.mapCtl_queue]
    · split
      · rw [State.mapCtl_queue]
      · split
        · rw [State.mapCtl_queue]
        · exact k
  · rfl

@[simp] theorem getPoisonList_queue (h : Head) (p : Bytes) (s : State) : (getPoisonList h p s).queue = s.queue := by
  rw [getPoisonList, State.std_queue]
  dsimp only
  split
  · rw [State.mapCtl_queue]
  · rw [State.mapCtl_queue]

theorem execSelfRefreshExited_completes (s : State) : s.completes (execSelfRefreshExited s) := by
  unfold execSelfRefreshExited
  split
  · exact State.completes_next (by rw [State.mapCtl_queue, State.dropSegments_queue, State.mapCtl_queue])
  · exact s.completes_self

theorem execForagerPassEnd_completes (s : State) : s.completes (execForagerPassEnd s) := by
  unfold execForagerPassEnd
  split
  · exact s.completes_self
  · split
    · exact s.completes_self
    · split
      · split
        · exact s.completes_mapCtl _
        · exact s.completes_self
      · split
        · exact s.completes_mapCtl _
        · split
          · exact s.completes_mapCtl _
          · split
            · exact s.completes_self
            · split
              · exact s.completes_self
              · split
                · exact s.completes_mapCtl _
                · exact State.completes_next (by rw [State.endIfDone_queue, State.writeDst_queue, State.mapCtl_queue])

theorem execRailBrownOut_completes (r : Fin 3) (s : State) : s.completes (execRailBrownOut r s) := by
  unfold execRailBrownOut
  split
  · exact s.completes_mapCtl _
  · split
    · exact State.completes_next (by rw [State.startFail_queue, State.mapCtl_queue])
    · exact State.completes_next (s.dark_queue _)

theorem execRailOutOfTolerance_completes (r : LowRail) (s : State) : s.completes (execRailOutOfTolerance r s) := by
  unfold execRailOutOfTolerance
  split
  · exact State.completes_next (by rw [State.startFail_queue, State.mapCtl_queue])
  · exact s.completes_mapCtl _

theorem execWarmReset_completes (s : State) : s.completes (execWarmReset s) := by
  unfold execWarmReset
  split
  · exact s.completes_self
  · split
    · exact s.completes_self
    · split
      · exact State.completes_next (by rw [State.powerOn_queue, State.mapCtl_queue])
      · exact s.completes_mapCtl _

theorem execSelfRefreshEntered_completes (s : State) : s.completes (execSelfRefreshEntered s) := by
  unfold execSelfRefreshEntered
  split
  · exact State.completes_next (by
      rw [State.mapCtl_queue, State.sealFlush_queue, State.mapCtl_queue, foldl_queue (fun s _ => s.merge_queue _ _),
        State.mapCtl_queue])
  · exact s.completes_self

theorem execFuseSensingDone_completes (weak : List (Nat × Nat)) (s : State) : s.completes (execFuseSensingDone weak s) := by
  unfold execFuseSensingDone
  split
  · exact s.completes_self
  · extract_lets c marginal c1
    clear_value c1
    split
    · exact State.completes_next (by rw [State.startFail_queue, State.setCtl_queue])
    · exact State.completes_next (s.setCtl_queue _)

theorem execBistDone_completes (pass : Bool) (found : List (Nat × Nat)) (s : State) : s.completes (execBistDone pass found s) := by
  unfold execBistDone
  split
  · exact s.completes_self
  · refine State.completes_next ?_
    rw [State.mapCtl_queue, State.ite_queue, State.bistWipe_queue, ite_self]

theorem execSensorConversion_completes (r : List (Option Int)) (s : State) : s.completes (execSensorConversion r s) := by
  unfold execSensorConversion
  split
  · exact State.completes_next (by rw [State.thermalJudge_queue, State.mapCtl_queue])
  · exact s.completes_self

theorem execThermalSample_completes (s : State) : s.completes (execThermalSample s) := by
  unfold execThermalSample
  split
  · exact State.completes_next (by rw [State.mapCtl_queue, State.thermalJudge_queue, State.mapCtl_queue])
  · exact s.completes_self

theorem execShutdownStopDecision_completes (s : State) : s.completes (execShutdownStopDecision s) := by
  unfold execShutdownStopDecision
  split
  · exact s.completes_self
  · split
    · exact s.completes_self
    · extract_lets s1
      have passed : s1.queue = s.queue := s.mapCtl_queue _
      clear_value s1
      split
      · exact State.completes_next (by rw [State.powerDown_queue, State.mapCtl_queue, passed])
      · split
        · exact State.completes_next passed
        · exact State.completes_next (by rw [State.mapCtl_queue, passed])

theorem execThermalResume_completes (s : State) : s.completes (execThermalResume s) := by
  unfold execThermalResume
  split
  · exact s.completes_self
  · split
    · exact s.completes_self
    · split
      · exact State.completes_next (by rw [State.powerOn_queue, State.mapCtl_queue])
      · exact s.completes_mapCtl _

theorem execImageAccepted_completes (sram : List (Nat × Nat)) (sel : Bool) (a b : Option Image) (dt : Nat) (s : State) :
    s.completes (execImageAccepted sram sel a b dt s) := by
  unfold execImageAccepted
  split
  · exact s.completes_self
  · split
    · exact State.completes_next (s.startFail_queue _)
    · split
      · exact State.completes_next (s.setCtl_queue _)
      · split
        · exact s.completes_self
        · extract_lets start c0 c
          clear_value c
          split
          split
          · exact s.completes_self
          · exact State.completes_next (s.setCtl_queue _)

theorem execNeitherImagePasses_completes (a b : Option Image) (s : State) : s.completes (execNeitherImagePasses a b s) := by
  unfold execNeitherImagePasses
  split
  · exact s.completes_self
  · extract_lets c
    clear_value c
    split
    · exact s.completes_self
    · split
      · exact State.completes_next (by rw [State.startFail_queue, State.setCtl_queue])
      · exact State.completes_next (s.setCtl_queue _)

theorem execImageReadyTimeout_completes (s : State) : s.completes (execImageReadyTimeout s) := by
  unfold execImageReadyTimeout
  split
  · exact s.completes_mapCtl _
  · split
    · exact State.completes_next (by rw [State.startFail_queue, State.mapCtl_queue])
    · exact s.completes_self

theorem execTsvTrainingDone_completes (feeds : List Nat) (pairOpen : Bool) (found : List (Nat × Nat)) (dt : Nat) (s : State) :
    s.completes (execTsvTrainingDone feeds pairOpen found dt s) := by
  unfold execTsvTrainingDone
  split
  · exact s.completes_self
  · split
    · exact s.completes_mapCtl _
    · extract_lets c l dies bound tooMany c0 c1 seen c2
      clear_value c2
      split
      · exact State.completes_next (s.startFail_queue _)
      · exact State.completes_next (s.setCtl_queue _)

theorem execStackBringupDone_completes (bad : Bool) (dt : Nat) (s : State) : s.completes (execStackBringupDone bad dt s) := by
  unfold execStackBringupDone
  split
  · exact s.completes_self
  · split
    · exact State.completes_next (s.startFail_queue _)
    · refine State.completes_next ?_
      rw [State.mapCtl_queue]
      split
      · rw [State.warmBringup_queue, State.mapCtl_queue]
      · rw [State.mapCtl_queue, State.mapCtl_queue]

theorem execPageReencryption_completes (sa : Nat) (bad : List (Nat × Nat)) (s : State) :
    s.completes (execPageReencryption sa bad s) := by
  unfold execPageReencryption
  split
  · exact State.completes_next (by rw [State.serveWaits_queue, State.reencrypt_queue])
  · exact s.completes_self

theorem execMigrationRowLanded_completes (bad : List (Nat × Nat)) (s : State) :
    s.completes (execMigrationRowLanded bad s) := by
  unfold execMigrationRowLanded
  dsimp only
  split
  · exact State.completes_next (by rw [State.rowLanded_queue, foldl_queue State.migratedBad_queue])
  · exact s.completes_self

theorem execAbruptFillRow_completes (s : State) : s.completes (execAbruptFillRow s) := by
  unfold execAbruptFillRow
  dsimp only
  split
  · exact State.completes_next s.rowLanded_queue
  · exact s.completes_self

/-- Every command ends in a next state with the same queue. The commands named reach the stack or the fates of a register access;
every other one is a change of the control side. -/
theorem exec_completes (i : Instr) (s : State) : s.completes (exec i s) := by
  cases i with
  | rcFieldRead | snapshotRead | scanDataRead => exact readBar_completes _ _ _ s
  | registerWrite | stkCommit | mapCommit | qosSchedCommit | qosClassCommit | qosBwSnapTake | cmbDmcFlush | sqEnable
    | sqDisable | cqEnable | cqDisable | jrgAbort | stxWinRead | stxWinWrite | timSwitch | eyeScanStart | nearEndLoopStart
    | nearEndLoopStop | rstCtlWarm | bistStart | fltPendAck | errnRelease => exact writeBar_completes _ _ _ _ s
  | thermalSample => exact execThermalSample_completes s
  | lineReadCheck sa source lane flips => exact execLineReadCheck_completes sa source lane flips s
  | partialWriteMerge => exact execPartialWriteMerge_completes s
  | foragerPassEnd => exact execForagerPassEnd_completes s
  | migrationRowLanded bad => exact execMigrationRowLanded_completes bad s
  | abruptFillRow => exact execAbruptFillRow_completes s
  | feedOvercurrent d feed => exact execFeedOvercurrent_completes d feed s
  | selfRefreshEntered => exact execSelfRefreshEntered_completes s
  | selfRefreshExited => exact execSelfRefreshExited_completes s
  | sealMetadataArrival sa source fetched tag => exact execSealMetadataArrival_completes sa source fetched tag s
  | pageReencryption sa bad => exact execPageReencryption_completes sa bad s
  | imageReadyTimeout => exact execImageReadyTimeout_completes s
  | sensorConversion r => exact execSensorConversion_completes r s
  | shutdownStopDecision => exact execShutdownStopDecision_completes s
  | thermalResume => exact execThermalResume_completes s
  | warmReset => exact execWarmReset_completes s
  | railBrownOut r => exact execRailBrownOut_completes r s
  | railOutOfTolerance r => exact execRailOutOfTolerance_completes r s
  | fuseSensingDone weak => exact execFuseSensingDone_completes weak s
  | imageAccepted sram sel a b dt => exact execImageAccepted_completes sram sel a b dt s
  | tsvTrainingDone feeds pairOpen found dt => exact execTsvTrainingDone_completes feeds pairOpen found dt s
  | stackBringupDone bad dt => exact execStackBringupDone_completes bad dt s
  | bistDone pass repairs => exact execBistDone_completes pass repairs s
  | neitherImagePasses a b => exact execNeitherImagePasses_completes a b s
  | beatBoundary => exact State.completes_next (beatBoundary_queue s)
  | cxlMemRead => exact State.completes_next (s.memRequest_queue _ _ _)
  | cxlMemWrite => exact State.completes_next (s.memRequest_queue _ _ _)
  | cxlMemPartialWrite => exact State.completes_next (s.memRequest_queue _ _ _)
  | lockStepMismatch => exact State.completes_next (s.keeperFault_queue _)
  | watchdogExpiry => exact State.completes_next (s.keeperFault_queue _)
  | vauxLoss => exact State.completes_next (s.dark_queue _)
  | getPoisonList => exact State.completes_next (getPoisonList_queue _ _ s)
  | fragmentListFetched slot => exact execFragmentListFetched_completes slot s
  | jobDispatch bad => exact execJobDispatch_completes bad s
  | macPass bad => exact execMacPass_completes bad s
  | jobEnd slot => exact execJobEnd_completes slot s
  | flashAnswerTimeout => exact State.completes_startFail _ (s.mapCtl_queue _) 6
  | pllLockTimeout => exact State.completes_startFail _ (s.mapCtl_queue _) 2
  | fuseWordReadTimeout => exact State.completes_startFail _ rfl 3
  | sbBusClear => exact s.completes_self
  | _ => exact s.completes_mapCtl _

/-- Settles O8: each operation of the state leaves the queue alone, so each command does. -/
theorem everyCommandCompletes : Obligations.EveryCommandCompletes := exec_completes

end Sys2Proof.Machine
end

section
/-! Register reads (R9 to R12), and the state after reset (R8). -/

namespace Sys2Proof.Machine

theorem Ctl.get_set (c : Ctl) (x y : Fld) (v : Nat) :
    (c.set x v).get y = if y.key = x.key then v % 2 ^ x.width else c.get y := by
  split
  case isTrue e => simp [Ctl.get, Ctl.set, e]
  case isFalse n => exact c.get_set_ne x y v n

theorem Ctl.keeps_refl (c : Ctl) (l : List Fld) : c.keeps c l := fun _ _ => rfl

theorem Ctl.keeps_set {c d : Ctl} {l : List Fld} (k : c.keeps d l) {x : Fld} (m : x ∈ l) (v : Nat) :
    c.keeps (d.set x v) l := fun y n => (d.get_set_ne x y v (n x m).symm).trans (k y n)

theorem foldl_clear_onlyRegs (l : List FieldRow) (p : FieldRow → Prop) [DecidablePred p] (c : Ctl) :
    OnlyRegs c (l.foldl (fun c r => if p r then c.set r.fld 0 else c) c) := by
  refine OnlyRegs.foldl l _ (fun c r => ?_) c
  split
  · exact (OnlyRegs.refl c).set r.fld 0
  · exact OnlyRegs.refl c

theorem foldl_clear_zero (l : List FieldRow) (p : FieldRow → Prop) [DecidablePred p] (x : Fld) (c : Ctl)
    (z : c.get x = 0) : (l.foldl (fun c r => if p r then c.set r.fld 0 else c) c).get x = 0 := by
  induction l generalizing c with
  | nil => exact z
  | cons r t ih =>
    refine ih _ ?_
    dsimp only
    split
    · simp [Ctl.get_set, z]
    · exact z

theorem foldl_clear_mem (l : List FieldRow) (p : FieldRow → Prop) [DecidablePred p] (c : Ctl) {r : FieldRow}
    (m : r ∈ l) (h : p r) : (l.foldl (fun c r => if p r then c.set r.fld 0 else c) c).get r.fld = 0 := by
  induction l generalizing c with
  | nil => cases m
  | cons q t ih =>
    rcases List.mem_cons.mp m with rfl | m
    · exact foldl_clear_zero t p r.fld _ (by simp [h])
    · exact ih _ m

theorem foldl_clear_keeps (l : List FieldRow) (p : FieldRow → Prop) [DecidablePred p] (x : Fld) (c : Ctl)
    (n : ∀ r ∈ l, p r → r.fld.key ≠ x.key) :
    (l.foldl (fun c r => if p r then c.set r.fld 0 else c) c).get x = c.get x := by
  induction l generalizing c with
  | nil => rfl
  | cons r t ih =>
    refine (ih _ fun q m => n q (List.mem_cons_of_mem _ m)).trans ?_
    dsimp only
    split
    case isTrue h => exact c.get_set_ne _ _ _ (n r List.mem_cons_self h).symm
    case isFalse => rfl

theorem Ctl.clearRc_onlyRegs (c : Ctl) (a : RegAt) (h : Head) : OnlyRegs c (c.clearRc a h) :=
  foldl_clear_onlyRegs (a.fieldsOf h) _ c

theorem Ctl.clearRc_get_rc (c : Ctl) (a : RegAt) (h : Head) {r : FieldRow} (m : r ∈ a.fieldsOf h) (acc : r.acc = .rc)
    (w : (r.fld.key - a.key0 h) / 32 = a.word) : (c.clearRc a h).get r.fld = 0 :=
  foldl_clear_mem (a.fieldsOf h) _ c m ⟨acc, w⟩

theorem Ctl.clearRc_get_of_ne (c : Ctl) (a : RegAt) (h : Head) (x : Fld)
    (n : ∀ r ∈ a.fieldsOf h, r.acc = .rc → r.fld.key ≠ x.key) : (c.clearRc a h).get x = c.get x :=
  foldl_clear_keeps (a.fieldsOf h) _ x c fun r m p => n r m p.1

/-! ## Reads -/

theorem barOffset_of_lt {off : Nat} (l : off < 0x1000000) : barOffset off = off := Nat.mod_eq_of_lt l

theorem readBar_refused {h : Head} {off : Nat} {wide : Bool} {s : State} (l : off < 0x1000000)
    (i : s.ctl.ioRefused h ((s.ctl.hd h).bar0 + off) = true) : readBar h off wide s = .next s := by
  simp [readBar, barOffset_of_lt l, i]

theorem readBar_aligned {h : Head} {off : Nat} {wide : Bool} {s : State} (al : aligned off wide = true) (l : off < 0x1000000)
    (i : s.ctl.ioRefused h ((s.ctl.hd h).bar0 + off) = false) :
    readBar h off wide s = .next (s.mapCtl (busReadFor h off wide)) := by
  simp [readBar, barOffset_of_lt l, i, al]

theorem readBar_misaligned {h : Head} {off : Nat} {wide : Bool} {s : State} (al : aligned off wide = false)
    (i : s.ctl.ioRefused h ((s.ctl.hd h).bar0 + off % 0x1000000) = false) :
    readBar h off wide s = .next (s.mapCtl (misread h (off % 0x1000000) wide)) := by
  simp [readBar, barOffset, i, al]

theorem Ctl.busRead_eq_readWord (c : Ctl) (q : Requester) {off : Nat} (n : ¬(0xE0000 ≤ off ∧ off < 0xF0000)) :
    c.busRead q off = c.readWord q off := if_neg fun k => n ⟨k.1, k.2.1⟩

theorem busReadFor_word (h : Head) (off : Nat) (c : Ctl) :
    busReadFor h off false c = (c.busRead (.head h) off).2.emit (.regValue h off 4 (c.busRead (.head h) off).1) := rfl

theorem busReadFor_wide (h : Head) (off : Nat) (c : Ctl) (g : c.gateClosed off = false) :
    busReadFor h off true c = (((c.busRead (.head h) off).2.busRead (.head h) (off + 4)).2).emit (.regValue h off 8
      ((c.busRead (.head h) off).1 + ((c.busRead (.head h) off).2.busRead (.head h) (off + 4)).1 * 2 ^ 32)) := by
  simp [busReadFor, g]

theorem Ctl.readWord_short (c : Ctl) (q : Requester) {off : Nat} {a : RegAt} (f : findReg off = some a) (g : c.gateClosed off = false)
    (n : c.hiddenReg off = false) (z : a.row.size = 4) :
    c.readWord q off = (c.regValue a q.of % 2 ^ 32, c.clearRc a q.of) := by
  simp [Ctl.readWord, f, g, n, z]

/-- The state that holds a new snapshot (R12). -/
def Ctl.putSnap (c : Ctl) (k v : Nat) : Ctl := { c with snap := mapPut c.snap k v }

theorem Ctl.readWord_low (c : Ctl) (q : Requester) {off : Nat} {a : RegAt} (f : findReg off = some a) (g : c.gateClosed off = false)
    (n : c.hiddenReg off = false) (z : a.row.size = 8) (w : a.word = 0) :
    c.readWord q off = (c.regValue a q.of % 2 ^ 32,
      c.putSnap (q.snapKey a.base) (c.regValue a q.of)) := by
  simp [Ctl.readWord, Ctl.putSnap, f, g, n, z, w]

theorem Ctl.readWord_high (c : Ctl) (q : Requester) {off : Nat} {a : RegAt} (f : findReg off = some a) (g : c.gateClosed off = false)
    (n : c.hiddenReg off = false) (z : a.row.size = 8) (w : a.word = 1) :
    c.readWord q off = (((mapGet c.snap (q.snapKey a.base)).getD (c.regValue a q.of)) / 2 ^ 32 % 2 ^ 32, c) := by
  simp [Ctl.readWord, f, g, n, z, w]

/-- Settles O3: no field is listed after reset, so each reads its Reset column. -/
theorem resetLeavesResetValues : Obligations.ResetLeavesResetValues :=
  ⟨fun _ => rfl, rfl, rfl, rfl, rfl, fun h => by cases h <;> exact ⟨rfl, rfl⟩, rfl, rfl, rfl, rfl, rfl⟩

/-- Settles O12: the word read is the register's, and the fold over its fields clears exactly the RC ones. -/
theorem readsClearTheirRcFields : Obligations.ReadsClearTheirRcFields := by
  intro h off a s al l ⟨hfind, hbuilt, hopen, hsize, hscan⟩
  refine ⟨fun i => readBar_refused l i, fun i => ?_⟩
  have run : exec (.rcFieldRead h off) s = .next (s.mapCtl (busReadFor h off false)) :=
    readBar_aligned (by simp [aligned, al]) l i
  have read : busReadFor h off false s.ctl =
      (s.ctl.clearRc a h).emit (.regValue h off 4 (s.ctl.regValue a h % 2 ^ 32)) := by
    rw [busReadFor_word, Ctl.busRead_eq_readWord _ _ hscan, Ctl.readWord_short _ _ hfind hopen hbuilt hsize]; rfl
  refine ⟨_, run, ?_, fun r m acc w => ?_, fun x n => ?_, rfl, rfl, rfl⟩ <;> rw [State.mapCtl_ctl, read]
  · rw [Ctl.emit_outbox, s.ctl.clearRc_onlyRegs a h]
  · exact s.ctl.clearRc_get_rc a h m acc w
  · exact s.ctl.clearRc_get_of_ne a h x n

/-- Settles O13: the low word takes the requester's snapshot, the high word is served from it and keeps it. -/
theorem snapshotsServeOneRequester : Obligations.SnapshotsServeOneRequester := by
  intro h off a b s al l hscan hlow hsize hword hhigh hsize' hword' hbase hvalue hbuilt hbuilt' hopen hopen' i i'
  have hscan' : ¬(0xE0000 ≤ off + 4 ∧ off + 4 < 0xF0000) := by omega
  have low : s.ctl.busRead (.head h) off = (s.ctl.regValue a h % 2 ^ 32,
      s.ctl.putSnap (a.base + h.num * 2 ^ 32) (s.ctl.regValue a h)) :=
    (Ctl.busRead_eq_readWord _ _ hscan).trans (Ctl.readWord_low _ _ hlow hopen hbuilt hsize hword)
  have high (c : Ctl) (g : c.gateClosed (off + 4) = false) (n : c.hiddenReg (off + 4) = false) :
      c.busRead (.head h) (off + 4) =
        ((mapGet c.snap (a.base + h.num * 2 ^ 32)).getD (c.regValue a h) / 2 ^ 32 % 2 ^ 32, c) := by
    rw [Ctl.busRead_eq_readWord _ _ hscan', Ctl.readWord_high _ _ hhigh g n hsize' hword', ← hbase, ← hvalue]; rfl
  refine ⟨⟨_, readBar_aligned (by simp [aligned]; omega) l i, ?_⟩,
    ⟨_, readBar_aligned (by simp [aligned]; omega) (by omega) i', ?_⟩,
    ⟨_, readBar_aligned (by simp [aligned]; omega) l i, ?_⟩⟩
  · rw [State.mapCtl_ctl, busReadFor_word, low]
    exact ⟨rfl, mapGet_mapPut_same _ _ _, fun k n => mapGet_mapPut_ne _ _ _ _ n, rfl, rfl, rfl, rfl⟩
  · rw [State.mapCtl_ctl, busReadFor_word, high s.ctl hopen' hbuilt']
    exact ⟨rfl, rfl, rfl, rfl, rfl, rfl⟩
  · rw [State.mapCtl_ctl, busReadFor_wide _ _ _ hopen, low, high (s.ctl.putSnap _ _) hopen' hbuilt']
    refine ⟨?_, mapGet_mapPut_same _ _ _, fun k n => mapGet_mapPut_ne _ _ _ _ n, rfl, rfl, rfl, rfl⟩
    simp [Ctl.putSnap]

end Sys2Proof.Machine
end

section
/-! Register writes that reach their register, field by field (R9, R11). -/

namespace Sys2Proof.Machine

theorem Ctl.judgeWrite_reached {c : Ctl} {h : Head} {off v : Nat} (r : c.reached h off v) :
    c.judgeWrite h off v = (.perform, c) := by
  obtain ⟨hsome, hio, hfence, hlevel, hgate, hforeign, hclaim⟩ := r
  have level : (!c.expert h && decide (65536 ≤ off)) = false := by
    rcases hlevel with e | l
    · simp [e]
    · simp [Nat.not_le.mpr l]
  simp [Ctl.judgeWrite, hio, hfence, hgate, hforeign, hclaim, level, Option.isSome_iff_ne_none.mp hsome]

theorem writeBar_reached {h : Head} {off v : Nat} {s : State} (al : off % 4 = 0) (l : off < 0x1000000) (lv : v < 2 ^ 32)
    (r : s.ctl.reached h off v) : writeBar h off false v s = .next { s with ctl := s.ctl.writeReg h off v true } := by
  have performed : s.ctl.busWrite h off false v = s.ctl.writeReg h off v true := by
    simp only [Ctl.busWrite, Nat.mod_eq_of_lt lv, Ctl.judgeWrite_reached r, Ctl.busWriteWord, Bool.false_eq_true, if_false]
  simp [writeBar, aligned, al, barOffset_of_lt l, State.mapCtl, performed]

theorem writeBar_misaligned {h : Head} {off v : Nat} {wide : Bool} {s : State} (al : aligned off wide = false) :
    writeBar h off wide v s = .next s := by
  simp [writeBar, al]

/-- An offset at which a write does no more than write fields and what `Ctl.strayRing` and `Ctl.afterWrite` say: outside the
test engine, the loop register, the error pins, the fault configuration, ECC_MODE and the lane windows. -/
def plainOffset (off : Nat) : Prop :=
  off / 65536 ≠ 5 ∧ off ≠ 0xD0010 ∧ ¬(0x80100 ≤ off ∧ off < 0x80150) ∧ ¬(0x81000 ≤ off ∧ off < 0x81A00) ∧ off ≠ 0x150000 ∧
    ¬(0xE0000 ≤ off ∧ off < 0xF0000)

theorem Ctl.fixFields_plain (c : Ctl) {off : Nat} (p : plainOffset off) : c.fixFields off = c := by
  obtain ⟨-, -, -, hfault, hecc, hlane⟩ := p
  unfold Ctl.fixFields
  rw [if_neg hfault, if_neg fun k => hecc k.1, if_neg fun k => hlane ⟨k.1, k.2.1⟩]

/-- The register at an offset where both heads have the same one: its fields, its first byte, and the word named. -/
def sharedReg (off : Nat) : Option (List FieldRow × Nat × Nat) :=
  (findReg off).bind fun a => if a.row.perHead then none else some (a.row.fields a.i a.j, a.base, a.word)

theorem findReg_of_sharedReg {off b w : Nat} {l : List FieldRow} (f : sharedReg off = some (l, b, w)) (h : Head) :
    ∃ a, findReg off = some a ∧ a.fieldsOf h = l ∧ a.key0 h = b * 8 ∧ a.word = w := by
  obtain ⟨a, found, same⟩ := Option.bind_eq_some_iff.mp f
  cases shared : a.row.perHead with
  | true => simp [shared] at same
  | false =>
    obtain ⟨fields, base, word⟩ : a.row.fields a.i a.j = l ∧ a.base = b ∧ a.word = w := by simpa [shared] using same
    exact ⟨a, found, by simp [RegAt.fieldsOf, shared, fields], by simp [RegAt.key0, shared, base], word⟩

theorem Ctl.writeReg_plain {c : Ctl} {h : Head} {off v b w : Nat} {l : List FieldRow} (f : sharedReg off = some (l, b, w))
    (n : c.hiddenReg off = false) (p : plainOffset off) : c.writeReg h off v true =
      ((l.foldl (fun c r => c.writeField r (r.fld.key - b * 8) w v true) c).strayRing c off).afterWrite c h off v := by
  obtain ⟨a, found, rfl, key, rfl⟩ := findReg_of_sharedReg f h
  have fixed (d : Ctl) : d.fixFields off = d := d.fixFields_plain p
  obtain ⟨htest, hloop, herr, -, -, -⟩ := p
  simp only [Ctl.writeReg, Ctl.writeFields, found, key, n, htest, hloop, herr, fixed, decide_false, Bool.false_and, Bool.or_self,
    Bool.false_eq_true, if_true, if_false]

/-- The offsets of the registers outside the rings and the lanes a write of which starts something. -/
def startOffsets : List Nat :=
  [R.STK_COMMIT_COMMIT, R.MAP_COMMIT_COMMIT, R.QOS_SCHED_COMMIT_COMMIT, R.QOS_CLASS_COMMIT_COMMIT, R.QOS_BW_SNAP_CTL_TAKE,
    R.CMB_DMC_FLUSH_FLUSH, R.JRG_ABORT_SQ, R.TIM_CMD_SWITCH, R.TIM_CFG_PREFER, R.FLT_ERRN_RELEASE, R.RST_CTL_WARM,
    R.BST_CTL_START, R.CLK_GATE_POL_HOLD_OPEN, R.PHYC_CFG_FREEZE_A, R.STX_WIN_CTL_CMD 0].map offsetOf

/-- The words with ENABLE stand 8 bytes into the 64 bytes of a ring. -/
theorem offsetOf_sqEnable_mod (q : Nat) : offsetOf (R.JRG_SQ_CFG_ENABLE q) % 64 = 8 := by
  simp only [offsetOf, R.JRG_SQ_CFG_ENABLE]; omega

theorem offsetOf_cqEnable_mod (q : Nat) : offsetOf (R.JRG_CQ_CFG_ENABLE q) % 64 = 8 := by
  simp only [offsetOf, R.JRG_CQ_CFG_ENABLE]; omega

theorem Ctl.afterWrite_plain (c old : Ctl) (h : Head) {off : Nat} (v : Nat) (p : plainOffset off) (n : off ∉ startOffsets)
    (m : off % 64 ≠ 8) : c.afterWrite old h off v = c := by
  obtain ⟨-, -, -, -, -, hlane⟩ := p
  have sq (q : Nat) : off ≠ offsetOf (R.JRG_SQ_CFG_ENABLE q) := fun e => m (e ▸ offsetOf_sqEnable_mod q)
  have cq (q : Nat) : off ≠ offsetOf (R.JRG_CQ_CFG_ENABLE q) := fun e => m (e ▸ offsetOf_cqEnable_mod q)
  have lane (k : Prop) : ¬(0xE0000 ≤ off ∧ off < 0xF0000 ∧ k) := fun x => hlane ⟨x.1, x.2.1⟩
  simp only [startOffsets, List.map_cons, List.map_nil, List.mem_cons, List.not_mem_nil, or_false, not_or] at n
  simp only [Ctl.afterWrite, rejectAt, n, lane, sq, cq, if_false, decide_false, Bool.false_and, Bool.false_eq_true,
    Option.isSome_none, ite_self]
  split <;> rfl

/-- A write of a commit register without COMMIT starts nothing. -/
theorem Ctl.afterWrite_unasked (c old : Ctl) (h : Head) {off v : Nat} (r : (rejectAt off).isSome = true) (ask : v % 2 = 0) :
    c.afterWrite old h off v = c := by
  simp [Ctl.afterWrite, r, ask]

theorem Ctl.strayRing_none (c old : Ctl) {off : Nat} (n : ¬(0x111000 ≤ off ∧ off < 0x113000)) : c.strayRing old off = c := by
  have none : ringAt off = none := by
    rw [ringAt, if_neg (by omega), if_neg (by omega)]
  simp [Ctl.strayRing, none]

theorem add_mul_two_pow_div_mod (x y : Nat) {pos width : Nat} (l : pos + width ≤ 32) :
    (x + y * 2 ^ 32) / 2 ^ pos % 2 ^ width = x / 2 ^ pos % 2 ^ width := by
  have split : y * 2 ^ 32 = y * 2 ^ (32 - pos - width) * 2 ^ width * 2 ^ pos := by
    rw [Nat.mul_assoc, Nat.mul_assoc, ← Nat.pow_add, ← Nat.pow_add]
    congr 2; omega
  rw [split, Nat.add_mul_div_right _ _ (Nat.two_pow_pos pos), Nat.add_mul_mod_self_right]

/-- A field that lies in word 0 takes the bits written there, whatever it held. -/
theorem mergeField_word0 (old v : Nat) {pos width : Nat} (l : pos + width ≤ 32) :
    mergeField old width pos 0 v = v / 2 ^ pos % 2 ^ width := by
  have drop := add_mul_two_pow_div_mod (v % 2 ^ 32) (v / 2 ^ 32) l
  rw [Nat.mul_comm (v / 2 ^ 32), Nat.mod_add_div] at drop
  simp only [mergeField, Nat.mul_zero, Nat.pow_zero, Nat.mod_one, Nat.zero_add, Nat.mul_one]
  rw [add_mul_two_pow_div_mod _ _ l, drop]

theorem Ctl.writeField_rw (c : Ctl) {r : FieldRow} {pos : Nat} (v : Nat) (acc : r.acc = .rw) (w : 0 < r.fld.width)
    (l : pos + r.fld.width ≤ 32) : c.writeField r pos 0 v true = c.set r.fld (v / 2 ^ pos % 2 ^ r.fld.width) := by
  have inside : inWord pos r.fld.width 0 = true := by simp [inWord]; omega
  simp [Ctl.writeField, inside, acc, mergeField_word0 _ _ l]

theorem Ctl.writeField_w1c (c : Ctl) {r : FieldRow} {pos : Nat} (v : Nat) (ok : Bool) (acc : r.acc = .w1c) (w : 0 < r.fld.width)
    (l : pos + r.fld.width ≤ 32) : c.writeField r pos 0 v ok =
      c.set r.fld (c.get r.fld - (c.get r.fld &&& v / 2 ^ pos % 2 ^ r.fld.width)) := by
  have inside : inWord pos r.fld.width 0 = true := by simp [inWord]; omega
  simp [Ctl.writeField, inside, acc, mergeField_word0 _ _ l]

theorem Ctl.writeField_wo (c : Ctl) {r : FieldRow} (pos w v : Nat) (ok : Bool) (acc : r.acc = .wo) :
    c.writeField r pos w v ok = c := by
  simp [Ctl.writeField, acc]

theorem Ctl.writeField_ro (c : Ctl) {r : FieldRow} (pos w v : Nat) (ok : Bool) (acc : r.acc = .ro) :
    c.writeField r pos w v ok = c := by
  simp [Ctl.writeField, acc]

/-- A one-bit field with write-1-to-clear access: cleared by a bit written as 1, else as it was (R9). -/
theorem clear_written_bit {r b : Nat} (l : r < 2) (k : b < 2) : (r - (r &&& b)) % 2 = if b = 1 then 0 else r := by
  interval_cases r <;> interval_cases b <;> rfl

/-! ## TSV_REPAIR_CFG, STK_COMMIT and IDC_PART_ID -/

theorem writeReg_tsvRepairCfg (c : Ctl) (h : Head) (v : Nat) : c.writeReg h 0x310010 v true =
    (c.set R.TSV_REPAIR_CFG_WINDOW_BEATS (v / 65536 % 65536)).set R.TSV_REPAIR_CFG_COUNT (v % 256) := by
  have fields : sharedReg 0x310010 =
      some ([⟨R.TSV_REPAIR_CFG_WINDOW_BEATS, .rw, false⟩, ⟨R.TSV_REPAIR_CFG_COUNT, .rw, false⟩], 0x310010, 0) := by
    decide +kernel
  have plain : plainOffset 0x310010 := by simp [plainOffset]
  have idle : (0x310010 : Nat) ∉ startOffsets := by decide +kernel
  rw [Ctl.writeReg_plain fields (by simp [Ctl.hiddenReg]) plain, Ctl.strayRing_none _ _ (by decide),
    Ctl.afterWrite_plain _ _ _ _ plain idle (by decide), List.foldl_cons, List.foldl_cons, List.foldl_nil,
    Ctl.writeField_rw _ _ rfl (by decide) (by decide), Ctl.writeField_rw _ _ rfl (by decide) (by decide)]
  simp [R.TSV_REPAIR_CFG_WINDOW_BEATS, R.TSV_REPAIR_CFG_COUNT]

theorem writeReg_stkCommit (c : Ctl) (h : Head) (v : Nat) (ask : v % 2 = 0) : c.writeReg h 0x320010 v true =
    c.set R.STK_COMMIT_REJECT (c.get R.STK_COMMIT_REJECT - (c.get R.STK_COMMIT_REJECT &&& v / 2 % 2)) := by
  have fields : sharedReg 0x320010 =
      some ([⟨R.STK_COMMIT_REJECT, .w1c, false⟩, ⟨R.STK_COMMIT_COMMIT, .wo, false⟩], 0x320010, 0) := by
    decide +kernel
  have plain : plainOffset 0x320010 := by simp [plainOffset]
  rw [Ctl.writeReg_plain fields (by simp [Ctl.hiddenReg]) plain, Ctl.strayRing_none _ _ (by decide),
    Ctl.afterWrite_unasked _ _ _ rfl ask, List.foldl_cons, List.foldl_cons, List.foldl_nil,
    Ctl.writeField_wo _ _ _ _ _ rfl, Ctl.writeField_w1c _ _ _ rfl (by decide) (by decide)]
  simp [R.STK_COMMIT_REJECT]

theorem writeReg_partId (c : Ctl) (h : Head) (v : Nat) : c.writeReg h 0x40 v true = c := by
  have fields : sharedReg 0x40 = some ([⟨R.IDC_PART_ID_PART_NUMBER, .ro, false⟩, ⟨R.IDC_PART_ID_STEP_LETTER, .ro, false⟩,
      ⟨R.IDC_PART_ID_STEP_DIGIT, .ro, false⟩, ⟨R.IDC_PART_ID_COMPAT_1604, .ro, true⟩], 0x40, 0) := by
    decide +kernel
  have plain : plainOffset 0x40 := by simp [plainOffset]
  have idle : (0x40 : Nat) ∉ startOffsets := by decide +kernel
  rw [Ctl.writeReg_plain fields (by simp [Ctl.hiddenReg]) plain, Ctl.strayRing_none _ _ (by decide),
    Ctl.afterWrite_plain _ _ _ _ plain idle (by decide)]
  simp [Ctl.writeField_ro]

/-- Settles O11, by what one field write of each access type leaves. -/
theorem registerWritesFollowAccessTypes : Obligations.RegisterWritesFollowAccessTypes := by
  intro h v s lv
  refine ⟨fun r => ⟨_, writeBar_reached (by decide) (by decide) lv r, ?_⟩,
    fun r ask bound => ⟨_, writeBar_reached (by decide) (by decide) lv r, ?_⟩,
    fun r => (writeBar_reached (by decide) (by decide) lv r).trans ?_⟩
  · rw [writeReg_tsvRepairCfg]
    refine ⟨by simp [R.TSV_REPAIR_CFG_COUNT], ?_,
      Ctl.keeps_set (Ctl.keeps_set (Ctl.keeps_refl _ _) ?_ _) ?_ _, rfl, rfl, rfl, rfl⟩
    · rw [Ctl.get_set_ne _ _ _ _ (by decide), Ctl.get_set_same]
      simp only [R.TSV_REPAIR_CFG_WINDOW_BEATS]; omega
    all_goals simp
  · rw [writeReg_stkCommit _ _ _ ask]
    refine ⟨?_, Ctl.keeps_set (Ctl.keeps_refl _ _) (by simp) _, rfl, rfl, rfl, rfl⟩
    rw [Ctl.get_set_same]
    exact clear_written_bit bound (Nat.mod_lt _ (by decide))
  · rw [writeReg_partId]

end Sys2Proof.Machine
end

section
/-! What a host error leaves (R5, R12, R125; log entry 14). -/

namespace Sys2Proof.Machine

theorem Ctl.strayField_of_eq {old c : Ctl} {f : Fld} (e : c.get f = old.get f) : Ctl.strayField old c f = c := if_pos e

theorem Ctl.strayCq_of_eq {old c : Ctl} {q : Nat} (e : c.get (R.JRG_SQ_CFG_CQ q) = old.get (R.JRG_SQ_CFG_CQ q)) :
    Ctl.strayCq old c q = c := if_pos e

/-- Of a control side only one register field differs, and how many free values were drawn. -/
def Ctl.strays (c d : Ctl) (f : Fld) : Prop := c.keeps d [f] ∧ d = { c with regs := d.regs, free := d.free }

theorem Ctl.strays_set (c : Ctl) (f : Fld) (v : Nat) : c.strays (c.set f v) f :=
  ⟨Ctl.keeps_set (Ctl.keeps_refl _ _) List.mem_cons_self v, rfl⟩

theorem Ctl.strays.strayField {c d : Ctl} {f : Fld} (k : c.strays d f) : c.strays (Ctl.strayField c d f) f := by
  obtain ⟨kept, same⟩ := k
  unfold Ctl.strayField
  split
  case isTrue => exact ⟨kept, same⟩
  case isFalse =>
    refine ⟨Ctl.keeps_set (c := c) (d := d.fresh.2) kept List.mem_cons_self _, ?_⟩
    rw [same]; rfl

theorem Ctl.strays.get {c d : Ctl} {f : Fld} (k : c.strays d f) {x : Fld} (n : f.key ≠ x.key) : d.get x = c.get x :=
  k.1 x fun y m => by rw [List.mem_singleton.mp m]; exact n

theorem Ctl.strays_writeField (c : Ctl) (r : FieldRow) (pos w v : Nat) (ok : Bool) :
    c.strays (c.writeField r pos w v ok) r.fld := by
  have same : c.strays c r.fld := ⟨Ctl.keeps_refl _ _, rfl⟩
  unfold Ctl.writeField
  split
  case isFalse => exact same
  case isTrue =>
    cases r.acc with
    | rw => cases ok with
      | true => exact c.strays_set _ _
      | false => exact same
    | w1c => exact c.strays_set _ _
    | w1s => cases ok with
      | true => exact c.strays_set _ _
      | false => exact same
    | wo => exact same
    | ro => exact same
    | rc => exact same

/-- A write that strays in BASE of an enabled SQ leaves SIZE and CQ of that ring as they were. -/
theorem Ctl.strays.strayRing_sq {c d : Ctl} {off q : Nat} (k : c.strays d (R.JRG_SQ_BASE_BASE q))
    (ring : ringAt off = some (true, q)) (on : c.flag (R.JRG_SQ_CFG_ENABLE q) = true) :
    c.strays (d.strayRing c off) (R.JRG_SQ_BASE_BASE q) := by
  have base := k.strayField
  have size := base.get (x := R.JRG_SQ_CFG_SIZE q) (by simp [R.JRG_SQ_BASE_BASE, R.JRG_SQ_CFG_SIZE])
  have cq := base.get (x := R.JRG_SQ_CFG_CQ q) (by simp [R.JRG_SQ_BASE_BASE, R.JRG_SQ_CFG_CQ])
  simpa only [Ctl.strayRing, ring, on, if_true, List.foldl_cons, List.foldl_nil, Ctl.strayField_of_eq size, Ctl.strayCq_of_eq cq]
    using base

theorem Ctl.strays.strayRing_cq {c d : Ctl} {off q : Nat} (k : c.strays d (R.JRG_CQ_BASE_BASE q))
    (ring : ringAt off = some (false, q)) (on : c.flag (R.JRG_CQ_CFG_ENABLE q) = true) :
    c.strays (d.strayRing c off) (R.JRG_CQ_BASE_BASE q) := by
  have base := k.strayField
  have size := base.get (x := R.JRG_CQ_CFG_SIZE q) (by simp [R.JRG_CQ_BASE_BASE, R.JRG_CQ_CFG_SIZE])
  simpa only [Ctl.strayRing, ring, on, if_true, List.foldl_cons, List.foldl_nil, Ctl.strayField_of_eq size] using base

/-- A write of BASE of a ring writes its field, strays, and starts nothing. -/
theorem writeReg_ringBase (c : Ctl) {h : Head} {off b : Nat} {r : FieldRow} (v : Nat) (fields : sharedReg off = some ([r], b, 0))
    (inside : 0x111000 ≤ off ∧ off < 0x113000) (first : off % 64 = 0) :
    c.writeReg h off v true = (c.writeField r (r.fld.key - b * 8) 0 v true).strayRing c off := by
  have plain : plainOffset off := by unfold plainOffset; omega
  have idle : off ∉ startOffsets := by
    intro m
    have outside : ∀ x ∈ startOffsets, ¬(0x111000 ≤ x ∧ x < 0x113000) := by decide +kernel
    exact outside off m inside
  have built : c.hiddenReg off = false := by simp [Ctl.hiddenReg]; omega
  rw [Ctl.writeReg_plain fields built plain, Ctl.afterWrite_plain _ _ _ _ plain idle (by omega)]
  rfl

theorem offsetOf_sqBase (q : Fin 64) : offsetOf (R.JRG_SQ_BASE_BASE q) = 0x111000 + 0x40 * q := by
  simp only [offsetOf, R.JRG_SQ_BASE_BASE]; omega

theorem offsetOf_cqBase (q : Fin 64) : offsetOf (R.JRG_CQ_BASE_BASE q) = 0x112000 + 0x40 * q := by
  simp only [offsetOf, R.JRG_CQ_BASE_BASE]; omega

theorem sharedReg_sqBase : ∀ q : Fin 64, sharedReg (0x111000 + 0x40 * q) =
    some ([⟨R.JRG_SQ_BASE_BASE q, .rw, true⟩], 0x111000 + 0x40 * q.val, 0) := by
  decide +kernel

theorem sharedReg_cqBase : ∀ q : Fin 64, sharedReg (0x112000 + 0x40 * q) =
    some ([⟨R.JRG_CQ_BASE_BASE q, .rw, true⟩], 0x112000 + 0x40 * q.val, 0) := by
  decide +kernel

theorem ringAt_sqBase (q : Fin 64) : ringAt (0x111000 + 0x40 * q) = some (true, q.val) := by
  rw [ringAt, if_pos (by omega), Nat.add_sub_cancel_left, Nat.mul_div_cancel_left _ (by decide)]

theorem ringAt_cqBase (q : Fin 64) : ringAt (0x112000 + 0x40 * q) = some (false, q.val) := by
  rw [ringAt, if_neg (by omega), if_pos (by omega), Nat.add_sub_cancel_left, Nat.mul_div_cancel_left _ (by decide)]

theorem writeReg_sqBase (c : Ctl) (h : Head) (q : Fin 64) (v : Nat) (on : c.flag (R.JRG_SQ_CFG_ENABLE q) = true) :
    c.strays (c.writeReg h (0x111000 + 0x40 * q) v true) (R.JRG_SQ_BASE_BASE q) := by
  rw [writeReg_ringBase c v (sharedReg_sqBase q) (by omega) (by omega)]
  exact (c.strays_writeField _ _ _ _ _).strayRing_sq (ringAt_sqBase q) on

theorem writeReg_cqBase (c : Ctl) (h : Head) (q : Fin 64) (v : Nat) (on : c.flag (R.JRG_CQ_CFG_ENABLE q) = true) :
    c.strays (c.writeReg h (0x112000 + 0x40 * q) v true) (R.JRG_CQ_BASE_BASE q) := by
  rw [writeReg_ringBase c v (sharedReg_cqBase q) (by omega) (by omega)]
  exact (c.strays_writeField _ _ _ _ _).strayRing_cq (ringAt_cqBase q) on

/-- Settles O14: a misaligned access never reaches a register, and a write to BASE of an enabled ring strays in BASE alone. -/
theorem hostErrorsStayWithinTheirBounds : Obligations.HostErrorsStayWithinTheirBounds := by
  intro h s
  refine ⟨fun off al i => ?_, fun off al i => ?_, fun off v al => writeBar_misaligned (by simp [aligned, al]),
    fun off v al => writeBar_misaligned (by simp [aligned, al]), fun q w on r => ?_, fun q w on r => ?_,
    fun q i d l big => ?_, fun q i d l big => ?_⟩
  · exact ⟨_, Config.freeNat s.ctl.free % 2 ^ 32, readBar_misaligned (by simp [aligned, al]) i,
      readBar_misaligned (by simp [aligned, al]) i,
      Nat.mod_lt _ (by decide), ⟨rfl, rfl, rfl⟩, rfl⟩
  · exact ⟨_, Config.freeNat s.ctl.free % 2 ^ 64, readBar_misaligned (by simp [aligned, al]) i,
      Nat.mod_lt _ (by decide), ⟨rfl, rfl, rfl⟩, rfl⟩
  · rw [offsetOf_sqBase] at r ⊢
    exact ⟨_, writeBar_reached (by omega) (by omega) w.isLt r, ⟨rfl, rfl, rfl⟩, writeReg_sqBase s.ctl h q w.toNat on⟩
  · rw [offsetOf_cqBase] at r ⊢
    exact ⟨_, writeBar_reached (by omega) (by omega) w.isLt r, ⟨rfl, rfl, rfl⟩, writeReg_cqBase s.ctl h q w.toNat on⟩
  · refine ⟨_, Config.freeNat s.ctl.free % 65536, rfl, Nat.mod_lt _ (by decide), ⟨rfl, rfl, rfl⟩, ?_⟩
    simp [sqDoorbell, d, Ctl.doorbellIndex, Nat.mod_eq_of_lt l, big, Ctl.fresh, Ctl.ring]
  · refine ⟨_, Config.freeNat s.ctl.free % 65536, rfl, Nat.mod_lt _ (by decide), ⟨rfl, rfl, rfl⟩, ?_⟩
    simp [cqDoorbell, d, Ctl.doorbellIndex, Nat.mod_eq_of_lt l, big, Ctl.fresh, Ctl.ring]

end Sys2Proof.Machine
end

section
/-! Direct writes and doorbells that do not reach their register (R19, R20, R87, R219, R248, R270, R285, R334, R405; log entries 19,
20, 106 and 121). -/

namespace Sys2Proof.Machine

theorem State.mapCtl_eq {s : State} {f : Ctl → Ctl} {d : Ctl} (e : f s.ctl = d) : s.mapCtl f = { s with ctl := d } := by
  subst e; rfl

/-! ## What the checks before a write say -/

/-- A head's own access gets past the fence, the stream and the register map: what is left is level, gate, ownership and claim. -/
def Ctl.passes (c : Ctl) (h : Head) (off : Nat) : Prop :=
  c.fenced h = false ∧ c.ioRefused h ((c.hd h).bar0 + off) = false ∧ (findReg off).isSome = true

/-- The count of a head's accesses below expert level (R19). -/
def Ctl.levelDrop (c : Ctl) (h : Head) : Ctl := c.dropCount h R.IDC_LEVEL_DROP_CNT_A_DROPS R.IDC_LEVEL_DROP_CNT_B_DROPS

/-- The count of the writes that a claim keeps from the configuration, with the block of the last one (R20). -/
def Ctl.claimDrop (c : Ctl) (off : Nat) : Ctl :=
  (c.bump R.IDC_CLAIM_DROP_CNT_COUNT).set R.IDC_CLAIM_DROP_CNT_LAST_BLOCK (off / 65536)

section
variable {c : Ctl} {h : Head} {off v : Nat}

/-- Behind the fence, on an insecure stream or in a hole a write is not even counted (log entries 106 and 121). -/
theorem Ctl.judgeWrite_blocked (n : ¬c.passes h off) : c.judgeWrite h off v = (.discard, c) := by
  have stopped : (c.fenced h || c.ioRefused h ((c.hd h).bar0 + off) || (findReg off).isNone) = true := by
    by_contra through
    simp only [Bool.or_eq_true, not_or, Bool.not_eq_true, Option.isNone_eq_false_iff] at through
    exact n ⟨through.1.1, through.1.2, through.2⟩
  rw [Ctl.judgeWrite, if_pos stopped]

/-- Past the first three checks the level decides. -/
theorem Ctl.judgeWrite_novice (p : c.passes h off) (novice : c.expert h = false) (outside : 65536 ≤ off) :
    c.judgeWrite h off v = (.discard, c.levelDrop h) := by
  obtain ⟨hfence, hio, hsome⟩ := p
  simp [Ctl.judgeWrite, Ctl.levelDrop, hfence, hio, Option.isSome_iff_ne_none.mp hsome, novice, outside]

/-- The level lets a head's access pass: it is an expert, or the access is to the IDC block (R19). -/
theorem Ctl.level_passes (e : c.expert h = true ∨ off < 65536) : (!c.expert h && decide (65536 ≤ off)) = false := by
  rcases e with e | l
  · simp [e]
  · simp [Nat.not_le.mpr l]

theorem Ctl.judgeWrite_gated (p : c.passes h off) (e : c.expert h = true ∨ off < 65536) (g : c.gateClosed off = true) :
    c.judgeWrite h off v = (.discard, c.bump R.CLK_GATED_ACC_CNT_ACCESSES) := by
  obtain ⟨hfence, hio, hsome⟩ := p
  simp [Ctl.judgeWrite, hfence, hio, Option.isSome_iff_ne_none.mp hsome, Ctl.level_passes e, g]

/-- Past the gate the owner of the register decides, each kind of foreign register with a count of its own. -/
theorem Ctl.judgeWrite_foreign (p : c.passes h off) (e : c.expert h = true ∨ off < 65536) (g : c.gateClosed off = false) :
    (c.foreign h off v = 1 → c.judgeWrite h off v =
      (.discard, c.dropCount h R.JRG_FOREIGN_DROP_CNT_A_DROPS R.JRG_FOREIGN_DROP_CNT_B_DROPS)) ∧
    (c.foreign h off v = 2 → c.judgeWrite h off v = (.discard, c.levelDrop h)) ∧
    (c.foreign h off v = 3 → c.judgeWrite h off v = (.discard, c.bump R.PHYC_LOOP_DROPS)) := by
  obtain ⟨hfence, hio, hsome⟩ := p
  refine ⟨fun f => ?_, fun f => ?_, fun f => ?_⟩ <;>
    simp [Ctl.judgeWrite, Ctl.levelDrop, hfence, hio, Option.isSome_iff_ne_none.mp hsome, Ctl.level_passes e, g, f]

/-- A configuration write of the head's own register in a claimed block writes the status fields alone (R20). -/
theorem Ctl.judgeWrite_claimed {a : RegAt} (p : c.passes h off) (e : c.expert h = true ∨ off < 65536) (g : c.gateClosed off = false)
    (own : c.foreign h off v = 0) (claimed : c.claimed (blockOf off) = true) (found : findReg off = some a)
    (config : a.hasConfig h v = true) : c.judgeWrite h off v = (.statusOnly, c.claimDrop off) := by
  obtain ⟨hfence, hio, -⟩ := p
  simp [Ctl.judgeWrite, Ctl.claimDrop, hfence, hio, Ctl.level_passes e, g, own, claimed, found, config]

end

/-! ## Writes by the fate of their words -/

theorem writeBar_aligned {h : Head} {off v : Nat} {wide : Bool} {s : State} (al : aligned off wide = true) (l : off < 0x1000000) :
    writeBar h off wide v s = .next { s with ctl := s.ctl.busWrite h off wide v } := by
  simp [writeBar, al, barOffset_of_lt l, State.mapCtl]

theorem writeBar_word {h : Head} {off v : Nat} {fate : WriteFate} {d : Ctl} {s : State} (al : off % 4 = 0) (l : off < 0x1000000)
    (lv : v < 2 ^ 32) (j : s.ctl.judgeWrite h off v = (fate, d)) :
    writeBar h off false v s = .next { s with ctl := d.busWriteWord h off v fate } := by
  rw [writeBar_aligned (by simp [aligned, al]) l]
  simp only [Ctl.busWrite, Nat.mod_eq_of_lt lv, j, Bool.false_eq_true, if_false]

/-- A 64-bit write of which neither word is performed: the count of the low word, unless no register occupies that word. -/
theorem Ctl.busWrite_wide_discarded {c d e : Ctl} {h : Head} {off v : Nat}
    (low : c.judgeWrite h off (v % 2 ^ 32) = (.discard, d))
    (high : d.judgeWrite h (off + 4) (v / 2 ^ 32 % 2 ^ 32) = (.discard, e)) :
    c.busWrite h off true v = if (findReg off).isNone then e else d := by
  simp only [Ctl.busWrite, low, Ctl.busWriteWord, high, if_true]
  simp

/-- A 64-bit write whose low word is performed is the write of the low word and then that of the high word. -/
theorem Ctl.busWrite_wide_performed {c : Ctl} {h : Head} {off v : Nat} (lv : v < 2 ^ 64) (r : c.reached h off (v % 2 ^ 32)) :
    c.busWrite h off true v = (c.writeReg h off (v % 2 ^ 32) true).busWrite h (off + 4) false (v / 2 ^ 32) := by
  have high : v / 2 ^ 32 % 2 ^ 32 = v / 2 ^ 32 := Nat.mod_eq_of_lt (by omega)
  simp only [Ctl.busWrite, Ctl.judgeWrite_reached r, Ctl.busWriteWord, high, decide_true, Bool.true_or, Bool.false_eq_true,
    if_true, if_false]

/-! ## The count of the level decides no check -/

theorem Ctl.get_levelDrop {c : Ctl} {h : Head} {x : Fld} (a : x.key ≠ R.IDC_LEVEL_DROP_CNT_A_DROPS.key)
    (b : x.key ≠ R.IDC_LEVEL_DROP_CNT_B_DROPS.key) : (c.levelDrop h).get x = c.get x := by
  cases h with
  | a => exact c.get_bump_ne _ x 1 a
  | b => exact c.get_bump_ne _ x 1 b

theorem Ctl.levelDrop_hd (c : Ctl) (h k : Head) : (c.levelDrop h).hd k = c.hd k := by
  cases h <;> exact c.bump_hd _ 1 k

theorem Ctl.levelDrop_fenced (c : Ctl) (h k : Head) : (c.levelDrop h).fenced k = c.fenced k := by
  have state : (c.levelDrop h).hstate k = c.hstate k := by
    cases k <;> exact Ctl.get_levelDrop (by decide) (by decide)
  rw [Ctl.fenced, Ctl.fenced, state]

theorem Ctl.levelDrop_expert (c : Ctl) (h k : Head) : (c.levelDrop h).expert k = c.expert k := by
  cases k <;> simp only [Ctl.expert, Ctl.flag] <;> rw [Ctl.get_levelDrop (by decide) (by decide)]

theorem Ctl.passes.levelDrop {c : Ctl} {h : Head} {off : Nat} (p : c.passes h off) : (c.levelDrop h).passes h off := by
  simpa only [Ctl.passes, Ctl.ioRefused, Ctl.levelDrop_fenced, Ctl.levelDrop_hd] using p

/-! ## Writes of the status fields alone -/

/-- Without W1C access a field takes nothing from a write that R20 keeps from the configuration. -/
theorem Ctl.writeField_keptOut (c : Ctl) {r : FieldRow} (pos w v : Nat) (n : r.acc ≠ .w1c) : c.writeField r pos w v false = c := by
  cases acc : r.acc with
  | w1c => exact absurd acc n
  | rw => simp [Ctl.writeField, acc]
  | w1s => simp [Ctl.writeField, acc]
  | wo => exact c.writeField_wo pos w v false acc
  | ro => exact c.writeField_ro pos w v false acc
  | rc => simp [Ctl.writeField, acc]

theorem Ctl.writeFields_keptOut (c : Ctl) {a : RegAt} {h : Head} (v : Nat) (n : ∀ r ∈ a.fieldsOf h, r.acc ≠ .w1c) :
    c.writeFields a h v false = c := by
  refine List.foldlRecOn (motive := (· = c)) (a.fieldsOf h) _ rfl fun d same r m => ?_
  rw [same]
  exact c.writeField_keptOut _ _ v (n r m)

theorem Ctl.strayRing_self (c : Ctl) (off : Nat) : c.strayRing c off = c := by
  have same (f : Fld) : Ctl.strayField c c f = c := Ctl.strayField_of_eq rfl
  have sameCq (q : Nat) : Ctl.strayCq c c q = c := Ctl.strayCq_of_eq rfl
  unfold Ctl.strayRing
  split <;> simp [same, sameCq]

/-- Outside the registers with bits that a write leaves fixed, the status fields are all that such a write changes. -/
theorem Ctl.writeReg_keptOut (c : Ctl) {a : RegAt} {h : Head} {off : Nat} (v : Nat) (found : findReg off = some a)
    (n : ∀ r ∈ a.fieldsOf h, r.acc ≠ .w1c) (fault : ¬(0x80100 ≤ off ∧ off < 0x81A00)) (ecc : off ≠ 0x150000)
    (scan : ¬(0xE0000 ≤ off ∧ off < 0xF0000 ∧ off % 0x1000 = 0x34)) : c.writeReg h off v false = c := by
  have fixed : c.fixFields off = c := by
    unfold Ctl.fixFields
    rw [if_neg (by omega), if_neg fun k => ecc k.1, if_neg scan]
  have pins : ¬(0x80100 ≤ off ∧ off < 0x80150) := by omega
  simp only [Ctl.writeReg, found, if_neg pins]
  split
  · rfl
  · split
    case isTrue loop =>
      rw [Ctl.writeLoop, ← loop, found]
      exact c.writeFields_keptOut v n
    case isFalse =>
      simp only [c.writeFields_keptOut v n, c.strayRing_self, fixed, Bool.false_eq_true, if_false]

theorem sharedReg_stkCommit : sharedReg 0x320010 =
    some ([⟨R.STK_COMMIT_REJECT, .w1c, false⟩, ⟨R.STK_COMMIT_COMMIT, .wo, false⟩], 0x320010, 0) := by
  decide +kernel

/-- STK_COMMIT in a claimed block: the COMMIT bit is dropped, the REJECT bit is cleared all the same (R20). -/
theorem writeReg_stkCommit_keptOut (c : Ctl) (h : Head) : c.writeReg h 0x320010 3 false =
    c.set R.STK_COMMIT_REJECT (c.get R.STK_COMMIT_REJECT - (c.get R.STK_COMMIT_REJECT &&& 1)) := by
  obtain ⟨a, found, fields, key, word⟩ := findReg_of_sharedReg sharedReg_stkCommit h
  have plain : plainOffset 0x320010 := by simp [plainOffset]
  have built : c.hiddenReg 0x320010 = false := by simp [Ctl.hiddenReg]
  have written : c.writeFields a h 3 false =
      c.set R.STK_COMMIT_REJECT (c.get R.STK_COMMIT_REJECT - (c.get R.STK_COMMIT_REJECT &&& 1)) := by
    rw [Ctl.writeFields, fields, key, word, List.foldl_cons, List.foldl_cons, List.foldl_nil,
      Ctl.writeField_wo _ _ _ _ _ rfl, Ctl.writeField_w1c _ _ _ rfl (by decide) (by decide)]
    simp [R.STK_COMMIT_REJECT]
  simp [Ctl.writeReg, found, built, written, Ctl.strayRing_none, Ctl.fixFields_plain _ plain]

/-! ## Doorbells -/

/-- Behind the fence, or on an insecure stream at the first doorbell (R219, R248; the model's choice, log entry 121). -/
theorem Ctl.doorbellDrops_blocked {c : Ctl} {h : Head} (owner : Head) (enabled : Bool)
    (n : c.fenced h = true ∨ c.ioRefused h ((c.hd h).bar2 + 0x10000) = true) : c.doorbellDrops h owner enabled = some c := by
  rw [Ctl.doorbellDrops, if_pos (by simpa using n)]

theorem Ctl.doorbellDrops_novice {c : Ctl} {h : Head} (owner : Head) (enabled : Bool) (hfence : c.fenced h = false)
    (hio : c.ioRefused h ((c.hd h).bar2 + 0x10000) = false) (novice : c.expert h = false) :
    c.doorbellDrops h owner enabled = some (c.levelDrop h) := by
  simp [Ctl.doorbellDrops, Ctl.levelDrop, hfence, hio, novice]

/-- A doorbell that is dropped whichever ring it names leaves what the drop leaves. -/
theorem exec_doorbell_dropped {h : Head} {q : Fin 64} {x : Nat} {i : Instr} {s : State} {d : Ctl}
    (bell : i = .sqDoorbell h q x ∨ i = .cqDoorbell h q x)
    (drop : ∀ owner enabled, s.ctl.doorbellDrops h owner enabled = some d) : exec i s = .next { s with ctl := d } := by
  rcases bell with rfl | rfl
  · exact congrArg _ (State.mapCtl_eq (by simp only [sqDoorbell, drop]))
  · exact congrArg _ (State.mapCtl_eq (by simp only [cqDoorbell, drop]))

/-- Settles O10: the checks before a write, in their order, each with what the write then leaves. -/
theorem writesThatDoNotReachAreCounted : Obligations.WritesThatDoNotReachAreCounted := by
  intro h s level claim passes
  refine ⟨fun off v al l lv => ⟨fun n => ?_, fun p novice outside => ?_, fun p e => ⟨fun g => ?_, fun g => ?_⟩⟩,
    fun p expert g claimed => ?_, fun q x i bell => ⟨fun n => ?_, fun hfence hio novice => ?_⟩,
    fun off v al l lv => ⟨fun hfence => ?_, fun p p' novice outside => ?_, fun r => ?_⟩⟩
  · exact writeBar_word al l lv (Ctl.judgeWrite_blocked n)
  · exact writeBar_word al l lv (Ctl.judgeWrite_novice p novice outside)
  · exact writeBar_word al l lv (Ctl.judgeWrite_gated p e g)
  · obtain ⟨ring, timeout, lane⟩ := Ctl.judgeWrite_foreign (v := v) p e g
    refine ⟨fun f => writeBar_word al l lv (ring f), fun f => writeBar_word al l lv (timeout f),
      fun f => writeBar_word al l lv (lane f), fun a own claimed found config status fault ecc scan => ?_⟩
    refine (writeBar_word al l lv (Ctl.judgeWrite_claimed p e g own claimed found config)).trans ?_
    rw [Ctl.busWriteWord, Ctl.writeReg_keptOut _ v found status fault ecc scan]
    rfl
  · obtain ⟨a, found, fields, key, word⟩ := findReg_of_sharedReg sharedReg_stkCommit h
    have own : s.ctl.foreign h 0x320010 3 = 0 := by simp [Ctl.foreign, ringAt]
    have config : a.hasConfig h 3 = true := by
      rw [RegAt.hasConfig, fields, key, word]
      decide
    have reject : (s.ctl.claimDrop 0x320010).get R.STK_COMMIT_REJECT = s.ctl.get R.STK_COMMIT_REJECT :=
      (Ctl.get_set_ne _ _ _ _ (by decide)).trans (Ctl.get_bump_ne _ _ _ _ (by decide))
    refine (writeBar_word (by decide) (by decide) (by decide)
      (Ctl.judgeWrite_claimed p (.inl expert) g own claimed found config)).trans ?_
    rw [Ctl.busWriteWord, writeReg_stkCommit_keptOut, reject]
    rfl
  · exact exec_doorbell_dropped bell fun owner enabled => Ctl.doorbellDrops_blocked owner enabled n
  · exact exec_doorbell_dropped bell fun owner enabled => Ctl.doorbellDrops_novice owner enabled hfence hio novice
  · have blocked (o : Nat) : ¬s.ctl.passes h o := fun p => by simp [p.1] at hfence
    refine (writeBar_aligned (by simp [aligned, al]) l).trans ?_
    rw [Ctl.busWrite_wide_discarded (Ctl.judgeWrite_blocked (blocked _)) (Ctl.judgeWrite_blocked (blocked _)), ite_self]
  · have low : s.ctl.judgeWrite h off (v % 2 ^ 32) = (.discard, s.ctl.levelDrop h) :=
      Ctl.judgeWrite_novice p novice outside
    have high : (s.ctl.levelDrop h).judgeWrite h (off + 4) (v / 2 ^ 32 % 2 ^ 32) =
        (.discard, (s.ctl.levelDrop h).levelDrop h) :=
      Ctl.judgeWrite_novice (Ctl.passes.levelDrop p') ((s.ctl.levelDrop_expert h h).trans novice) (by omega)
    have occupied : ¬(findReg off).isNone = true := by simpa using Option.isSome_iff_ne_none.mp p.2.2
    refine (writeBar_aligned (by simp [aligned, al]) l).trans ?_
    rw [Ctl.busWrite_wide_discarded low high, if_neg occupied]
    rfl
  · refine ⟨_, _, writeBar_reached (by omega) l (Nat.mod_lt _ (by decide)) r,
      writeBar_aligned (by simp [aligned]; omega) (by omega), ?_⟩
    refine (writeBar_aligned (by simp [aligned, al]) l).trans ?_
    rw [Ctl.busWrite_wide_performed lv r]

end Sys2Proof.Machine
end

section
/-! The commit writes and the snapshot (R33, R56, R169, R233, R237): writes of one field of a register, and what its bit starts. -/

namespace Sys2Proof.Machine

/-! ## A word with one field replaced -/

/-- The bits above the field, the field, and the bits below it. -/
theorem withBits_eq (f : Fld) (x v : Nat) : withBits f x v =
    2 ^ (f.key % 32) * (2 ^ f.width * (v / 2 ^ (f.key % 32) / 2 ^ f.width) + x % 2 ^ f.width) + v % 2 ^ (f.key % 32) := by
  have low := Nat.div_add_mod v (2 ^ (f.key % 32))
  have high := Nat.div_add_mod (v / 2 ^ (f.key % 32)) (2 ^ f.width)
  rw [← high] at low
  simp only [withBits, bitsOf, Nat.mul_add, Nat.mul_comm _ (2 ^ (f.key % 32))] at low ⊢
  omega

theorem withBits_div (f : Fld) (x v : Nat) : withBits f x v / 2 ^ (f.key % 32) =
    2 ^ f.width * (v / 2 ^ (f.key % 32) / 2 ^ f.width) + x % 2 ^ f.width := by
  rw [withBits_eq, Nat.mul_add_div (Nat.two_pow_pos _), Nat.div_eq_of_lt (Nat.mod_lt _ (Nat.two_pow_pos _)), Nat.add_zero]

theorem bitsOf_withBits (f : Fld) (x v : Nat) : bitsOf f (withBits f x v) = x % 2 ^ f.width := by
  rw [bitsOf, withBits_div, Nat.mul_add_mod, Nat.mod_mod]

/-- The bits above the field stay, so a field that lies in the word leaves a 32-bit word. -/
theorem withBits_lt {f : Fld} (inside : f.key % 32 + f.width ≤ 32) (x : Nat) {v : Nat} (l : v < 2 ^ 32) :
    withBits f x v < 2 ^ 32 := by
  have above : withBits f x v / 2 ^ (f.key % 32 + f.width) = v / 2 ^ (f.key % 32 + f.width) := by
    rw [Nat.pow_add, ← Nat.div_div_eq_div_mul, withBits_div, Nat.mul_add_div (Nat.two_pow_pos _),
      Nat.div_eq_of_lt (Nat.mod_lt _ (Nat.two_pow_pos _)), Nat.add_zero, Nat.div_div_eq_div_mul]
  have split : 2 ^ 32 = 2 ^ (32 - (f.key % 32 + f.width)) * 2 ^ (f.key % 32 + f.width) := by
    rw [← Nat.pow_add, Nat.sub_add_cancel inside]
  rw [split] at l ⊢
  rw [← Nat.div_lt_iff_lt_mul (Nat.two_pow_pos _)] at l ⊢
  rwa [above]

/-- A write of one field, the other bits being an operand's, is a write of the word they make. -/
theorem writeBarField_reached {h : Head} {f : Fld} {x : Nat} {w : Word} {s : State} (r : s.reached h f x w)
    (inside : f.key % 32 + f.width ≤ 32) (l : offsetOf f < 0x1000000) : writeBarField h f x w s =
      .next { s with ctl := s.ctl.writeReg h (offsetOf f) (withBits f x w.toNat) true } :=
  writeBar_reached (Nat.mul_mod_left _ _) l (withBits_lt inside x w.isLt) r

/-! ## The fields a write changes -/

/-- Of a control side only register fields differ, and of these only some of those listed. -/
def Ctl.setsOnly (c d : Ctl) (l : List Fld) : Prop := c.keeps d l ∧ c.onlyRegs d

theorem Ctl.setsOnly_refl (c : Ctl) (l : List Fld) : c.setsOnly c l := ⟨c.keeps_refl l, rfl⟩

theorem Ctl.setsOnly.set {c d : Ctl} {l : List Fld} (k : c.setsOnly d l) {x : Fld} (m : x ∈ l) (v : Nat) :
    c.setsOnly (d.set x v) l := ⟨Ctl.keeps_set k.1 m v, OnlyRegs.set k.2 x v⟩

theorem Ctl.setsOnly.mono {c d : Ctl} {l m : List Fld} (k : c.setsOnly d l) (sub : l ⊆ m) : c.setsOnly d m :=
  ⟨fun x n => k.1 x fun y i => n y (sub i), k.2⟩

theorem Ctl.writeField_eq_or_set (c : Ctl) (r : FieldRow) (pos w v : Nat) (ok : Bool) :
    c.writeField r pos w v ok = c ∨ ∃ x, c.writeField r pos w v ok = c.set r.fld x := by
  unfold Ctl.writeField
  split
  case isFalse => exact .inl rfl
  case isTrue =>
    cases r.acc with
    | rw => cases ok with
      | true => exact .inr ⟨_, rfl⟩
      | false => exact .inl rfl
    | w1c => exact .inr ⟨_, rfl⟩
    | w1s => cases ok with
      | true => exact .inr ⟨_, rfl⟩
      | false => exact .inl rfl
    | wo => exact .inl rfl
    | ro => exact .inl rfl
    | rc => exact .inl rfl

/-- A write changes no field that is read-only or write-only (R9). -/
theorem Ctl.setsOnly.writeField {c d : Ctl} {l : List Fld} (k : c.setsOnly d l) {r : FieldRow} (pos w v : Nat) (ok : Bool)
    (m : r.acc = .ro ∨ r.acc = .wo ∨ r.fld ∈ l) : c.setsOnly (d.writeField r pos w v ok) l := by
  rcases m with ro | wo | m
  · rwa [d.writeField_ro pos w v ok ro]
  · rwa [d.writeField_wo pos w v ok wo]
  · rcases d.writeField_eq_or_set r pos w v ok with same | ⟨x, put⟩
    · rwa [same]
    · rw [put]; exact k.set m x

/-- A register of which a write changes only the fields listed, and then starts what `Ctl.afterWrite` says: both heads share it, the
RC-3208 has it too, it is no ring's, and its other fields are read-only or write-only. -/
def changesOnly (off : Nat) (l : List Fld) : Prop :=
  plainOffset off ∧ ¬(0x111000 ≤ off ∧ off < 0x113000) ∧ (∀ c : Ctl, c.hiddenReg off = false) ∧
    ∃ rows b, sharedReg off = some (rows, b, 0) ∧ ∀ r ∈ rows, r.acc = .ro ∨ r.acc = .wo ∨ r.fld ∈ l

theorem changesOnly.writeReg {off : Nat} {l : List Fld} (k : changesOnly off l) (c : Ctl) (h : Head) (v : Nat) :
    ∃ d, c.setsOnly d l ∧ c.writeReg h off v true = d.afterWrite c h off v := by
  obtain ⟨plain, ring, built, rows, b, fields, fixed⟩ := k
  refine ⟨_, ?_, Ctl.writeReg_plain fields (built c) plain⟩
  rw [Ctl.strayRing_none _ _ ring]
  exact List.foldlRecOn (motive := (c.setsOnly · l)) rows _ (c.setsOnly_refl l) fun d only r m =>
    only.writeField _ _ _ _ (fixed r m)

/-! ## What the written bit starts -/

/-- COMMIT written as 1 asks for the commit. -/
theorem Ctl.afterWrite_asked (c old : Ctl) (h : Head) {off v : Nat} (r : (rejectAt off).isSome = true) (ask : v % 2 = 1) :
    c.afterWrite old h off v = c.askCommit off := by
  simp [Ctl.afterWrite, r, ask]

/-- TAKE written as 1 asks for the snapshot. -/
theorem Ctl.afterWrite_take (c old : Ctl) (h : Head) {v : Nat} (take : bitsOf R.QOS_BW_SNAP_CTL_TAKE v = 1) :
    c.afterWrite old h (offsetOf R.QOS_BW_SNAP_CTL_TAKE) v = c.askSnapshot := by
  have commits : rejectAt (offsetOf R.QOS_BW_SNAP_CTL_TAKE) = none := by decide
  simp [Ctl.afterWrite, commits, take]

/-- A write of 1 to the COMMIT field of a commit register changes REJECT at most, and asks for the commit. -/
theorem writeBarField_commit {h : Head} {f rej : Fld} {w : Word} {s : State} (r : s.reached h f 1 w)
    (bit : f.key % 32 = 0 ∧ f.width = 1) (commits : rejectAt (offsetOf f) = some rej) (k : changesOnly (offsetOf f) [rej])
    (l : offsetOf f < 0x1000000) : ∃ d, s.ctl.setsOnly d [rej] ∧
      writeBarField h f 1 w s = .next { s with ctl := d.askCommit (offsetOf f) } := by
  obtain ⟨first, single⟩ := bit
  have ask : withBits f 1 w.toNat % 2 = 1 := by
    simpa only [bitsOf, first, single, Nat.pow_zero, Nat.div_one, Nat.pow_one] using bitsOf_withBits f 1 w.toNat
  obtain ⟨d, only, written⟩ := k.writeReg s.ctl h (withBits f 1 w.toNat)
  refine ⟨d, only, ?_⟩
  rw [writeBarField_reached r (by omega) l, written, Ctl.afterWrite_asked _ _ _ (by rw [commits]; rfl) ask]

/-- The same where the commit asked for stands in a PENDING field. -/
theorem writeBarField_commit_pending {h : Head} {f rej pend : Fld} {w : Word} {s : State} (r : s.reached h f 1 w)
    (bit : f.key % 32 = 0 ∧ f.width = 1) (commits : rejectAt (offsetOf f) = some rej) (k : changesOnly (offsetOf f) [rej])
    (l : offsetOf f < 0x1000000) (asks : ∀ c : Ctl, c.askCommit (offsetOf f) = c.set pend 1) (single : pend.width = 1) :
    ∃ t, writeBarField h f 1 w s = .next t ∧ t.ctl.get pend = 1 ∧ s.ctl.keeps t.ctl [rej, pend] ∧ s.frame Ctl.onlyRegs t := by
  obtain ⟨d, only, run⟩ := writeBarField_commit r bit commits k l
  rw [asks] at run
  obtain ⟨kept, regs⟩ := (only.mono (m := [rej, pend]) (by simp)).set (x := pend) (by simp) 1
  exact ⟨_, run, by simp [single], kept, regs, rfl, rfl, rfl⟩

/-! ## The five registers -/

theorem changesOnly_stkCommit : changesOnly (offsetOf R.STK_COMMIT_COMMIT) [R.STK_COMMIT_REJECT] :=
  ⟨by unfold plainOffset; decide, by decide, fun c => by simp [Ctl.hiddenReg, offsetOf, R.STK_COMMIT_COMMIT],
    _, _, sharedReg_stkCommit, by decide⟩

theorem changesOnly_mapCommit : changesOnly (offsetOf R.MAP_COMMIT_COMMIT) [R.MAP_COMMIT_REJECT] := by
  have fields : sharedReg 0x160080 = some ([⟨R.MAP_COMMIT_PENDING, .ro, false⟩, ⟨R.MAP_COMMIT_REJECT, .w1c, false⟩,
      ⟨R.MAP_COMMIT_COMMIT, .wo, false⟩], 0x160080, 0) := by
    decide +kernel
  exact ⟨by unfold plainOffset; decide, by decide, fun c => by simp [Ctl.hiddenReg, offsetOf, R.MAP_COMMIT_COMMIT],
    _, _, fields, by decide⟩

theorem changesOnly_qosSchedCommit : changesOnly (offsetOf R.QOS_SCHED_COMMIT_COMMIT) [R.QOS_SCHED_COMMIT_REJECT] := by
  have fields : sharedReg 0xA0800 = some ([⟨R.QOS_SCHED_COMMIT_PENDING, .ro, false⟩,
      ⟨R.QOS_SCHED_COMMIT_REJECT, .w1c, false⟩, ⟨R.QOS_SCHED_COMMIT_COMMIT, .wo, false⟩], 0xA0800, 0) := by
    decide +kernel
  exact ⟨by unfold plainOffset; decide, by decide, fun c => by simp [Ctl.hiddenReg, offsetOf, R.QOS_SCHED_COMMIT_COMMIT],
    _, _, fields, by decide⟩

theorem changesOnly_qosClassCommit : changesOnly (offsetOf R.QOS_CLASS_COMMIT_COMMIT) [R.QOS_CLASS_COMMIT_REJECT] := by
  have fields : sharedReg 0xA0000 = some ([⟨R.QOS_CLASS_COMMIT_CAUSE, .ro, false⟩, ⟨R.QOS_CLASS_COMMIT_PENDING, .ro, false⟩,
      ⟨R.QOS_CLASS_COMMIT_REJECT, .w1c, false⟩, ⟨R.QOS_CLASS_COMMIT_COMMIT, .wo, false⟩], 0xA0000, 0) := by
    decide +kernel
  exact ⟨by unfold plainOffset; decide, by decide, fun c => by simp [Ctl.hiddenReg, offsetOf, R.QOS_CLASS_COMMIT_COMMIT],
    _, _, fields, by decide⟩

theorem changesOnly_qosBwSnapTake : changesOnly (offsetOf R.QOS_BW_SNAP_CTL_TAKE) [] := by
  have fields : sharedReg 0xA0600 = some ([⟨R.QOS_BW_SNAP_CTL_DONE, .ro, false⟩, ⟨R.QOS_BW_SNAP_CTL_TAKE, .wo, false⟩],
      0xA0600, 0) := by
    decide +kernel
  exact ⟨by unfold plainOffset; decide, by decide, fun c => by simp [Ctl.hiddenReg, offsetOf, R.QOS_BW_SNAP_CTL_TAKE],
    _, _, fields, by decide⟩

/-- Settles O9: each write changes REJECT at most (of the snapshot's register nothing), and its bit then starts one thing. -/
theorem commitWritesAskForTheirCommit : Obligations.CommitWritesAskForTheirCommit := by
  intro h w s
  refine ⟨fun r => ?_,
    fun r => writeBarField_commit_pending r (by decide) rfl changesOnly_mapCommit (by decide) (fun _ => rfl) rfl,
    fun r => writeBarField_commit_pending r (by decide) rfl changesOnly_qosSchedCommit (by decide) (fun _ => rfl) rfl,
    fun r => writeBarField_commit_pending r (by decide) rfl changesOnly_qosClassCommit (by decide) (fun _ => rfl) rfl,
    fun r => ?_⟩
  · obtain ⟨d, ⟨kept, regs⟩, run⟩ := writeBarField_commit r (by decide) rfl changesOnly_stkCommit (by decide)
    exact ⟨_, run, rfl, kept, congrArg (fun c : Ctl => { c with stkPend := true }) regs, rfl, rfl, rfl⟩
  · have take := bitsOf_withBits R.QOS_BW_SNAP_CTL_TAKE 1 w.toNat
    obtain ⟨d, only, written⟩ := changesOnly_qosBwSnapTake.writeReg s.ctl h (withBits R.QOS_BW_SNAP_CTL_TAKE 1 w.toNat)
    rw [Ctl.afterWrite_take _ _ _ take] at written
    obtain ⟨kept, regs⟩ := (only.mono (List.nil_subset [R.QOS_BW_SNAP_CTL_DONE])).set List.mem_cons_self 0
    refine ⟨_, writeBarField_reached r (by decide) (by decide), ?_⟩
    rw [written]
    exact ⟨rfl, Ctl.get_set_same _ _ _, kept, congrArg (fun c : Ctl => { c with snapPend := true }) regs, rfl, rfl, rfl⟩

end Sys2Proof.Machine
end
section
/-! Properties of the stack's bytes and of the status of its lines that every operation of the model keeps (R48, R174): what such a
property has to survive, and one lemma per operation on the whole machine, in the order of the model. -/

namespace Sys2Proof.Machine

/-- A property of the stack that does not look at the control side and survives each way in which the model changes the stack: a line
written, mired or given a status, entries dropped, mired lines made good, and everything lost with the power. -/
structure StackInvariant (P : State → Prop) : Prop where
  setCtl : ∀ {s : State} {c : Ctl}, P s → P { s with ctl := c }
  storeLine : ∀ {s : State} {sa : Nat} {d : Bytes}, P s → P (s.storeLine sa d)
  storeMired : ∀ {s : State} {sa cause : Nat}, P s → P (s.storeMired sa cause)
  setStatus : ∀ {s : State} {sa : Nat} {x : LineStatus}, P s → P (s.setStatus sa x)
  dropBytes : ∀ {s : State} (p : Host.Cell → Bool), P s → P { s with mem := s.mem.filter p }
  dropLines : ∀ {s : State} (p : Nat × LineStatus → Bool), P s → P { s with lines := s.lines.filter p }
  healLines : ∀ {s : State} (p : Nat × LineStatus → Bool), P s →
    P { s with lines := s.lines.map fun e => if p e then (e.1, .good) else e }
  lose : ∀ {s : State}, P s → P { s with mem := [], lines := [] }

/-- A command ends in a next state of which `P` holds. -/
def nextIn (P : State → Prop) (o : Host.Outcome State Fault Refusal) : Prop := ∃ t, o = .next t ∧ P t

theorem nextIn_next {P : State → Prop} {t : State} (h : P t) : nextIn P (.next t) := ⟨t, rfl, h⟩

theorem holds_ite {α : Type} {P : α → Prop} {p : Prop} {d : Decidable p} {a b : α} (ha : P a) (hb : P b) : P (if p then a else b) := by
  split
  · exact ha
  · exact hb

theorem holds_foldl {P : State → Prop} {α : Type} {g : State → α → State} {l : List α} {s : State}
    (step : ∀ a x, P a → P (g a x)) (h : P s) : P (l.foldl g s) :=
  List.foldlRecOn l g h fun a ha x _ => step a x ha

namespace StackInvariant

variable {P : State → Prop} (k : StackInvariant P) {s : State}
include k

theorem mapCtl {f : Ctl → Ctl} (h : P s) : P (s.mapCtl f) := k.setCtl h

theorem forget {lo hi : Nat} (h : P s) : P (s.forget lo hi) := k.dropLines _ (k.dropBytes _ h)

theorem dark {f : Ctl → Ctl} (h : P s) : P (s.dark f) := k.setCtl (k.lose h)

theorem startFail {cause : Nat} (h : P s) : P (s.startFail cause) := k.dark h

theorem powerOn {origin : Nat} (h : P s) : P (s.powerOn origin) := k.dark h

theorem powerDown (h : P s) : P s.powerDown := k.dark h

theorem readLine {sa : Nat} (h : P s) : P (s.readLine sa).2.2 := by
  unfold State.readLine
  split
  · exact h
  · exact h
  · dsimp only
    exact k.mapCtl h

theorem loseDie {d : Nat} (h : P s) : P (s.loseDie d) := k.setCtl (k.dropLines _ (k.dropBytes _ h))

/-! ## Mired lines -/

theorem noteUnder {sa : Nat} (h : P s) : P (s.noteUnder sa) :=
  holds_ite (k.mapCtl h) (h)

theorem mire {sa cause source : Nat} (h : P s) : P (s.mire sa cause source) := k.mapCtl (k.storeMired (k.noteUnder h))

theorem mireOnce {sa cause source : Nat} (h : P s) : P (s.mireOnce sa cause source) :=
  holds_ite (h) (k.mire h)

theorem sealMire {sa cause source : Nat} (h : P s) : P (s.sealMire sa cause source) :=
  holds_ite (h) (k.mapCtl (k.mire h))

theorem healMeta {g : Nat} (h : P s) : P (s.healMeta g) := k.healLines _ h

theorem healLine {addr : Nat} (h : P s) : P (s.healLine addr) :=
  holds_ite (k.setStatus h) (h)

theorem healTable (h : P s) : P s.healTable := k.dropLines _ h

/-! ## The metadata cache -/

theorem sealLeave {e : Nat × Nat × Nat} (h : P s) : P (s.sealLeave e) := by
  unfold State.sealLeave
  split
  · exact k.mapCtl h
  · exact k.healLine (k.mapCtl h)

theorem sealEvict {n : Nat} {e : Nat × Nat × Nat} (h : P s) : P (State.sealEvict n e s) := by
  induction n generalizing e s with
  | zero => exact h
  | succ n ih =>
    unfold State.sealEvict
    split
    · exact h
    · dsimp only
      split
      · exact ih (k.sealLeave (k.mapCtl h))
      · exact k.mapCtl h

theorem sealTrim {e : Nat × Nat × Nat} (h : P s) : P (s.sealTrim e) := k.sealEvict h

theorem cacheIn {e : Nat × Nat × Nat} (h : P s) : P (s.cacheIn e) := k.sealTrim (k.mapCtl h)

theorem lineDirty {sa : Nat} (h : P s) : P (s.lineDirty sa) := k.mapCtl (k.cacheIn (k.cacheIn h))

theorem sealFlush {n : Nat} (h : P s) : P (State.sealFlush n s) := by
  induction n generalizing s with
  | zero => exact h
  | succ n ih =>
    unfold State.sealFlush
    split
    · exact ih (k.sealTrim (k.sealLeave h))
    · exact h

/-! ## Lines of sealed granules -/

theorem trust {sa : Nat} (h : P s) : P (s.trust sa).2 := by
  unfold State.trust
  split
  · dsimp only
    exact k.mapCtl h
  · exact holds_foldl (fun _ _ => k.cacheIn) h

theorem tagLineLost {sa source : Nat} (h : P s) : P (s.tagLineLost sa source) :=
  k.setStatus (k.mapCtl (holds_foldl (fun _ _ => k.sealMire) (k.mapCtl h)))

theorem tagFail {sa source : Nat} (h : P s) : P (s.tagFail sa source) := k.mapCtl (k.sealMire h)

theorem checkPage {page : Nat} (h : P s) : P (s.checkPage page) := by
  unfold State.checkPage
  refine holds_foldl (fun a _ ha => ?_) (holds_foldl (fun a _ ha => ?_) h)
  · dsimp only
    split
    · exact ha
    · exact k.tagFail ha
  · dsimp only
    split
    · exact k.tagLineLost ha
    · exact ha

theorem reencrypt {page : Nat} {bad : List (Nat × Nat)} (h : P s) : P (s.reencrypt page bad) :=
  holds_foldl (fun _ _ => k.lineDirty) (holds_foldl (fun _ _ => k.mireOnce) (k.mapCtl (k.checkPage h)))

theorem sealedWrite {sa : Nat} {d : Bytes} (h : P s) : P (s.sealedWrite sa d).2 := by
  unfold State.sealedWrite
  split
  · exact h
  · dsimp only
    have done : P (if (s.trust sa).2.ctl.pageBusy sa then (s.trust sa).2.reencrypt (sa / 4096) [] else (s.trust sa).2) :=
      holds_ite (k.reencrypt (k.trust h)) (k.trust h)
    generalize (if (s.trust sa).2.ctl.pageBusy sa then (s.trust sa).2.reencrypt (sa / 4096) [] else (s.trust sa).2) = s1 at done ⊢
    have tagged : P (if s1.tagLost sa then s1.tagLineLost sa 7 else s1) := holds_ite (k.tagLineLost done) done
    generalize (if s1.tagLost sa then s1.tagLineLost sa 7 else s1) = s2 at tagged ⊢
    simp only [apply_ite Prod.snd]
    exact holds_ite (k.trust h) (holds_ite (holds_ite (k.mapCtl tagged) (k.lineDirty (k.mapCtl (k.storeLine tagged))))
      (k.lineDirty (k.mapCtl (k.storeLine tagged))))

theorem writeLine {sa : Nat} {d : Bytes} (h : P s) : P (s.writeLine sa d).2 := by
  unfold State.writeLine
  split
  · exact k.storeLine h
  · exact k.sealedWrite h
  · exact h

theorem writePoisonLine {sa source : Nat} (h : P s) : P (s.writePoisonLine sa source).2 := by
  unfold State.writePoisonLine
  split
  · exact k.mire h
  · dsimp only
    split
    · exact k.mire (k.sealedWrite h)
    · exact k.sealedWrite h
  · exact h

theorem readSealed {sa source : Nat} (h : P s) : P (s.readSealed sa source).2 := by
  unfold State.readSealed
  dsimp only
  split
  · exact k.sealMire (k.trust h)
  · split
    · exact k.tagLineLost (k.trust h)
    · split
      · exact k.readLine (k.cacheIn (k.trust h))
      · exact k.tagFail (k.cacheIn (k.trust h))

theorem readChecked {sa source : Nat} (h : P s) : P (s.readChecked sa source).2 := by
  unfold State.readChecked
  split
  · exact h
  · exact h
  · exact k.mireOnce h
  · split
    · exact k.mireOnce h
    · split
      · exact h
      · exact k.readSealed h
  · exact k.readLine h

theorem fetchedTrusted {fetched : List (Nat × MetaLine)} {sa : Nat} (h : P s) : P (s.fetchedTrusted fetched sa) := by
  exact holds_foldl (fun _ _ ha => holds_ite (k.cacheIn ha) ha) h

theorem sramLost {e : Nat × Nat × Nat} {addr : Nat} {m : MetaLine} (h : P s) : P (s.sramLost e addr m) := by
  unfold State.sramLost
  split
  · split
    · split
      · exact h
      · exact k.mapCtl h
    · dsimp only
      split
      · exact k.mapCtl (k.storeMired (k.mapCtl h))
      · split
        · exact k.mapCtl h
        · exact k.mapCtl (k.mapCtl h)
  · exact h

theorem merge {sa : Nat} {new : List (Nat × BitVec 8)} (h : P s) : P (s.merge sa new).2 := by
  unfold State.merge
  dsimp only
  split
  · exact h
  · split
    · dsimp only
      exact holds_ite (k.mapCtl (k.mapCtl (k.readChecked h))) (k.mapCtl (k.readChecked h))
    · exact k.writeLine (k.readChecked h)

theorem mergesOf {sa : Nat} (h : P s) : P (s.mergesOf sa) := holds_foldl (fun _ _ => k.merge) (k.mapCtl h)

/-! ## Checked lines -/

theorem metaLost {sa source : Nat} (h : P s) : P (s.metaLost sa source) := by
  unfold State.metaLost
  split
  · exact h
  · exact k.tagLineLost h
  · exact k.mapCtl h

theorem foundBad {sa source : Nat} (h : P s) : P (s.foundBad sa source) := k.metaLost (k.mire h)

theorem miscorrect {sa : Nat} {wrong : List (Nat × Nat)} (h : P s) : P (s.miscorrect sa wrong) :=
  holds_ite (k.mapCtl (k.storeLine h)) (k.storeLine h)

theorem countLine {counted : Bool} {sa n : Nat} {mired new : Bool} (h : P s) : P (s.countLine counted sa n mired new) :=
  holds_ite (k.mapCtl h) (h)

theorem foragerSeal {counted : Bool} {sa : Nat} (h : P s) : P (s.foragerSeal counted sa).2 := by
  unfold State.foragerSeal
  split
  · exact k.readSealed h
  · exact h

theorem lineGood {counted : Bool} {sa n : Nat} (h : P s) : P (s.lineGood counted sa n) := k.countLine (k.foragerSeal h)

theorem migratedBad {e : Nat × Nat} (h : P s) : P (s.migratedBad e) := by
  unfold State.migratedBad
  dsimp only
  split
  · exact k.foundBad h
  · split
    · exact h
    · split
      · exact k.tagFail h
      · exact k.sealMire h

/-! ## Jobs -/

theorem readLines {source n ln : Nat} (h : P s) : P (State.readLines source n ln s).2.2 := by
  induction n generalizing ln s with
  | zero => exact h
  | succ n ih => exact ih (k.readChecked (k.mergesOf h))

theorem readSpan {sa n source : Nat} (h : P s) : P (s.readSpan sa n source).2.2 := by
  unfold State.readSpan
  split
  · exact h
  · exact k.readLines h

theorem ctxDamaged {x : Nat} (h : P s) : P (s.ctxDamaged x) := by
  unfold State.ctxDamaged
  dsimp only
  split
  · exact h
  · split
    · exact k.mapCtl (k.mire h)
    · exact k.mapCtl h

theorem readInput {j : Job} {i : Src × Nat} (h : P s) : P (s.readInput j i).2 := by
  unfold State.readInput
  dsimp only
  split
  · exact k.readSpan (n := 64) (source := 2) h
  · exact h

theorem readInputs {j : Job} {l : List (Src × Nat)} (h : P s) : P (State.readInputs j l s).2 := by
  induction l generalizing s with
  | nil => exact h
  | cons i t ih => exact ih (k.readInput h)

theorem stackOut {slot frag off sa : Nat} {poison : Bool} {d : Bytes} (h : P s) : P (s.stackOut slot frag off sa poison d) := by
  have ready : P ((s.mergesOf sa).mapCtl fun c => c.addWrote slot 64) := k.mapCtl (k.mergesOf h)
  unfold State.stackOut
  cases poison
  · exact holds_ite (k.mapCtl (k.writeLine ready)) (k.writeLine ready)
  · exact holds_ite (k.mapCtl (k.writePoisonLine ready)) (k.writePoisonLine ready)

theorem spanOut {slot frag n sa off : Nat} {l : List (Bool × BitVec 8)} (h : P s) : P (State.spanOut slot frag n sa off l s) := by
  induction n generalizing sa off l s with
  | zero => exact h
  | succ n ih =>
    unfold State.spanOut
    split
    · exact h
    · extract_lets room part bad bytes s0
      have merged : P s0 := k.mergesOf h
      have written : P (if bad then s0.writePoisonLine sa 2 else if part.length = 64 then s0.writeLine sa bytes
          else s0.merge sa ((List.range part.length).map fun i => (sa % 64 + i, bytes.getD i 0))).2 := by
        simp only [apply_ite Prod.snd]
        exact holds_ite (k.writePoisonLine merged) (holds_ite (k.writeLine merged) (k.merge merged))
      exact ih (holds_ite (k.mapCtl written) written)

theorem deliverLine {j : Job} {o rank : Nat} {poison : Bool} {d : Bytes} (h : P s) : P (s.deliverLine j o rank poison d) :=
  holds_ite (holds_ite (k.mapCtl h) (k.mapCtl h)) (holds_ite (k.mapCtl h) (k.stackOut h))

theorem deliverAll {j : Job} {l : List InLine} {outs : List (Nat × Nat)} (h : P s) : P (State.deliverAll j l outs s) := by
  induction outs generalizing s with
  | nil => exact h
  | cons o t ih => exact ih (k.deliverLine (k.mapCtl h))

theorem sourceBytes {j : Job} (h : P s) : P (s.sourceBytes j).2.2 := by
  unfold State.sourceBytes
  split
  · exact h
  · split
    · exact k.readSpan h
    · exact h

theorem digestBytes {j : Job} (h : P s) : P (s.digestBytes j).2.2 := by
  unfold State.digestBytes
  split
  · exact k.readSpan h
  · exact h

theorem writeDst {j : Job} {l : List (Bool × BitVec 8)} (h : P s) : P (s.writeDst j l) :=
  holds_ite (k.spanOut h) (k.mapCtl h)

theorem runHash {j : Job} (h : P s) : P (s.runHash j) := by
  have written {j1 : Job} {l : List (Bool × BitVec 8)} :
      P (((s.sourceBytes j).2.2.mapCtl fun c => c.putJob j1).writeDst j1 l) := k.writeDst (k.mapCtl (k.sourceBytes h))
  unfold State.runHash
  dsimp only
  exact holds_ite (holds_ite (k.mapCtl (k.digestBytes written)) written) (k.mapCtl (k.sourceBytes h))

theorem runMove {j : Job} (h : P s) : P (s.runMove j) := k.writeDst (k.mapCtl (k.sourceBytes h))

theorem endIfDone {slot : Nat} (h : P s) : P (s.endIfDone slot) := by
  unfold State.endIfDone
  split
  · exact h
  · split
    · exact k.mapCtl h
    · exact h

theorem writePacked {j : Job} (h : P s) : P (s.writePacked j) :=
  holds_ite (h) (k.writeDst (k.mapCtl h))

/-! ## Maps, seals, resets -/

theorem changeViews {c : Ctl} (h : P s) : P (s.changeViews c) := k.setCtl (holds_foldl (fun _ _ => k.forget) h)

theorem applyMap (h : P s) : P s.applyMap := by
  unfold State.applyMap
  split
  · dsimp only
    split
    · exact k.setCtl h
    · exact k.changeViews (k.setCtl h)
  · exact h

theorem applyUnseals (h : P s) : P s.applyUnseals := by
  unfold State.applyUnseals
  dsimp only
  exact k.mapCtl (holds_foldl (fun _ _ ha => k.mapCtl (k.forget ha)) h)

theorem enterSealed {j : SealJob} (h : P s) : P (s.enterSealed j) := by
  unfold State.enterSealed
  dsimp only
  exact k.mapCtl (k.healMeta (k.forget h))

theorem sealBoundary (h : P s) : P s.sealBoundary := by
  unfold State.sealBoundary
  extract_lets s1 ready s2 s3
  have h2 : P s2 := holds_foldl (fun _ _ => k.enterSealed) (k.mapCtl (k.mapCtl (k.applyUnseals (k.mapCtl h))))
  clear_value s2
  split
  · exact h2
  · exact k.mapCtl (k.mapCtl (holds_foldl (fun _ _ => k.mapCtl) h2))

theorem dropSegments {mask : Nat} (h : P s) : P (s.dropSegments mask) := holds_foldl (fun _ _ ha => k.mapCtl (k.forget ha)) h

theorem bistWipe (h : P s) : P s.bistWipe := holds_foldl (fun _ _ ha => holds_ite (k.forget ha) ha) h

theorem thermalJudge {fresh : List Nat} (h : P s) : P (s.thermalJudge fresh) := by
  unfold State.thermalJudge
  split
  · exact k.dark h
  · dsimp only
    split
    · exact k.powerDown (k.mapCtl h)
    · exact k.mapCtl h

theorem keeperFault {src : Nat} (h : P s) : P (s.keeperFault src) := by
  unfold State.keeperFault
  split
  · split
    · exact k.startFail (k.mapCtl h)
    · exact k.mapCtl h
  · exact k.mapCtl h
  · exact k.mapCtl h
  · exact h

theorem tearLine {sa : Nat} (h : P s) : P (s.tearLine sa) := k.mapCtl (k.storeMired h)

theorem warmDies (h : P s) : P s.warmDies := by
  unfold State.warmDies
  dsimp only
  split
  · exact k.mapCtl (k.mapCtl h)
  · exact k.mapCtl (k.dropSegments (k.mapCtl h))

theorem warmBringup (h : P s) : P s.warmBringup := by
  unfold State.warmBringup
  extract_lets torn n s0 s1 s2
  have teared : P s1 := holds_foldl (fun _ _ ha => holds_foldl (fun _ _ => k.tearLine) ha) (k.mapCtl h)
  exact k.mapCtl (k.warmDies (k.mapCtl teared))

/-! ## CXL.mem -/

theorem serveRead {r : MemReq} (h : P s) : P (s.serveRead r) := by
  unfold State.serveRead
  dsimp only
  split
  · split
    · exact k.mapCtl (k.mireOnce (k.mergesOf h))
    · exact k.mapCtl (k.mergesOf h)
  · exact k.mapCtl (k.readChecked (k.mergesOf h))

theorem serveWrite {r : MemReq} {poison : Bool} {d : Bytes} (h : P s) : P (s.serveWrite r poison d) := by
  unfold State.serveWrite
  dsimp only
  split
  · exact k.mapCtl h
  · split
    · exact k.mapCtl (k.writePoisonLine (k.mergesOf h))
    · exact k.mapCtl (k.writeLine (k.mergesOf h))

theorem serveMem {r : MemReq} (h : P s) : P (s.serveMem r) := by
  unfold State.serveMem
  split
  · exact k.mapCtl h
  · split
    · exact k.mapCtl h
    · exact k.mapCtl h
    · exact k.serveRead h
    · exact k.serveWrite h
    · exact k.mapCtl h

theorem carryRequest {r : MemReq} (h : P s) : P (s.carryRequest r).1 := by
  unfold State.carryRequest
  dsimp only
  split
  · exact k.readChecked (k.mergesOf h)
  · split
    · exact k.writePoisonLine (k.mergesOf h)
    · exact k.writeLine (k.mergesOf h)
  · exact k.merge (k.mergesOf h)

theorem carryOld {ch : List (Nat × Nat)} (h : P s) : P (s.carryOld ch) := by
  unfold State.carryOld
  dsimp only
  split
  · exact h
  · refine k.mapCtl (List.foldlRecOn (motive := fun a : State × List MemReq => P a.1) _ _
      (holds_foldl (fun _ _ => k.mergesOf) h) fun a ha r _ => ?_)
    split
    · split
      · exact k.serveMem ha
      · exact k.carryRequest ha
    · exact ha

theorem serveWaits (h : P s) : P s.serveWaits := by
  refine holds_foldl (fun a r ha => ?_) (k.mapCtl h)
  dsimp only
  split
  · exact k.serveMem ha
  · exact k.mapCtl ha

theorem rowLanded (h : P s) : P s.rowLanded := k.serveWaits (k.mapCtl h)

theorem memRequest {hd : Head} {dpa : Nat} {kind : MemKind} (h : P s) : P (s.memRequest hd dpa kind) := by
  unfold State.memRequest
  dsimp only
  split
  · exact h
  · split
    · exact k.setCtl h
    · split
      · exact k.mapCtl h
      · split
        · exact k.mapCtl h
        · exact k.serveMem (k.mapCtl h)

/-! ## Beat -/

theorem beatOwnership (h : P s) : P s.beatOwnership := k.mapCtl (k.sealBoundary (k.mapCtl h))

theorem beatCommits (h : P s) : P s.beatCommits := by
  unfold State.beatCommits
  exact k.mapCtl (holds_ite (k.applyMap (k.carryOld h)) (k.mapCtl h))

theorem beatFlush (h : P s) : P s.beatFlush :=
  holds_ite (k.sealFlush (k.healTable (k.mapCtl (k.mapCtl h)))) (k.mapCtl h)

theorem beatBoundary (h : P s) : P (Machine.beatBoundary s) := by
  unfold Machine.beatBoundary
  split
  · exact h
  · dsimp only
    split
    · exact k.mapCtl (k.mapCtl h)
    · exact k.mapCtl (k.beatFlush (k.mapCtl (k.serveWaits (k.beatCommits (k.beatOwnership (k.mapCtl h))))))

end StackInvariant

end Sys2Proof.Machine
end
section
/-! The commands one by one: each ends in a next state, of which every property of the stack that held before still holds; and the
two such properties of Safety.lean (R48, R174). -/

namespace Sys2Proof.Machine

namespace StackInvariant

variable {P : State → Prop} (k : StackInvariant P) {s : State}
include k

theorem nextIn_mapCtl {f : Ctl → Ctl} (h : P s) : nextIn P (.next (s.mapCtl f)) := nextIn_next (k.mapCtl h)

theorem readBar {hd : Head} {off : Nat} {wide : Bool} (h : P s) : nextIn P (Machine.readBar hd off wide s) :=
  holds_ite (nextIn_next h) (k.nextIn_mapCtl h)

theorem writeBar {hd : Head} {off : Nat} {wide : Bool} {v : Nat} (h : P s) : nextIn P (Machine.writeBar hd off wide v s) :=
  nextIn_next (holds_ite (k.mapCtl h) h)

theorem execFeedOvercurrent {d feed : Nat} (h : P s) : nextIn P (Machine.execFeedOvercurrent d feed s) :=
  holds_ite (nextIn_next (k.mapCtl (k.mapCtl (k.loseDie h)))) (nextIn_next h)

theorem execSealMetadataArrival {sa source : Nat} {fetched : List (Nat × MetaLine)} {tag : MetaLine} (h : P s) :
    nextIn P (Machine.execSealMetadataArrival sa source fetched tag s) := by
  unfold Machine.execSealMetadataArrival
  extract_lets sa g fetched bad s0 s1
  have corrected : P s1 := k.mapCtl (holds_foldl (fun _ _ => k.sramLost) h)
  clear_value s1 bad
  split
  · exact nextIn_next h
  · split
    · exact nextIn_next (k.sealMire (k.mapCtl corrected))
    · exact nextIn_next (k.sealMire (k.mapCtl corrected))
    · rename_i s2 s3 _ _
      have arrived : P s3 := k.sramLost (k.mapCtl (k.fetchedTrusted corrected))
      clear_value s2 s3
      split
      · exact nextIn_next (k.tagLineLost arrived)
      · exact holds_ite (nextIn_next (k.cacheIn arrived)) (nextIn_next (k.tagFail arrived))

theorem execLineReadCheck {sa source : Nat} {lane : Bool} {flips : List (Nat × Byte)} (h : P s) :
    nextIn P (Machine.execLineReadCheck sa source lane flips s) := by
  unfold Machine.execLineReadCheck
  extract_lets sa c counted most l found bad decoded
  have found_bad (u : Unit) : P (bad u) := k.countLine (k.foundBad h)
  have word_decoded (u : Unit) : P (decoded u) := by
    unfold decoded
    refine holds_ite (k.countLine h) ?_
    split
    · exact k.lineGood (k.mapCtl (k.miscorrect h))
    · exact found_bad ()
  clear_value bad decoded found most counted c
  split
  · exact holds_ite (nextIn_next (k.countLine h)) (holds_ite (nextIn_next (found_bad ())) (nextIn_next (word_decoded ())))
  · split
    · exact nextIn_next (k.countLine (k.mire h))
    · exact holds_ite (nextIn_next (k.lineGood h)) (holds_ite (nextIn_next (k.lineGood (k.mapCtl h)))
        (holds_ite (nextIn_next (found_bad ())) (nextIn_next (word_decoded ()))))

theorem execPartialWriteMerge (h : P s) : nextIn P (Machine.execPartialWriteMerge s) := by
  refine nextIn_next ?_
  split
  · exact h
  · exact k.merge (k.mapCtl h)

theorem execFragmentListFetched {slot : Nat} (h : P s) : nextIn P (Machine.execFragmentListFetched slot s) := by
  unfold Machine.execFragmentListFetched
  split
  · exact nextIn_next h
  · refine holds_ite (nextIn_next h) (holds_ite (nextIn_next h) (holds_ite ?_ ?_))
    · split
      · exact k.nextIn_mapCtl h
      · dsimp only
        split
        · exact k.nextIn_mapCtl (k.readSpan h)
        · exact k.nextIn_mapCtl (k.readSpan h)
    · split
      · exact nextIn_next h
      · exact k.nextIn_mapCtl h

theorem execJobDispatch {bad : Option Nat} (h : P s) : nextIn P (Machine.execJobDispatch bad s) := by
  cases bad with
  | none => exact k.nextIn_mapCtl h
  | some x => exact k.nextIn_mapCtl (k.ctxDamaged h)

theorem execMacPass {bad : Bool} (h : P s) : nextIn P (Machine.execMacPass bad s) := by
  unfold Machine.execMacPass
  split
  · exact nextIn_next h
  · split
    · exact nextIn_next (k.setCtl h)
    · exact k.nextIn_mapCtl h
    · exact holds_ite (k.nextIn_mapCtl (k.readInputs h)) (k.nextIn_mapCtl (k.deliverAll (k.readInputs h)))

theorem execJobEnd {slot : Nat} (h : P s) : nextIn P (Machine.execJobEnd slot s) := by
  unfold Machine.execJobEnd
  split
  · exact nextIn_next h
  · refine holds_ite (nextIn_next h) ?_
    split
    · exact k.nextIn_mapCtl h
    · refine holds_ite (nextIn_next (holds_ite (k.endIfDone h) h)) (holds_ite (holds_ite ?_ (nextIn_next h))
        (holds_ite (nextIn_next (k.endIfDone h)) (holds_ite ?_ (nextIn_next h))))
      · split
        · exact k.nextIn_mapCtl h
        · exact nextIn_next (k.endIfDone (k.writePacked h))
      · split
        · exact k.nextIn_mapCtl h
        · exact nextIn_next (k.endIfDone (holds_ite (k.runHash h) (k.runMove h)))

theorem std {hd : Head} {op : Nat} {ok : Bool} {min : Nat} {p : Bytes} {run : State → State} (h : P s) (r : P (run s)) :
    P (s.std hd op ok min p run) :=
  holds_ite (holds_ite (k.mapCtl h) (holds_ite (k.mapCtl h) (holds_ite (k.mapCtl h) r))) h

theorem getPoisonList {hd : Head} {p : Bytes} (h : P s) : P (Machine.getPoisonList hd p s) :=
  k.std h (holds_ite (k.mapCtl h) (k.mapCtl h))

theorem execSelfRefreshExited (h : P s) : nextIn P (Machine.execSelfRefreshExited s) :=
  holds_ite (k.nextIn_mapCtl (k.dropSegments (k.mapCtl h))) (nextIn_next h)

theorem execForagerPassEnd (h : P s) : nextIn P (Machine.execForagerPassEnd s) := by
  unfold Machine.execForagerPassEnd
  split
  · exact nextIn_next h
  · refine holds_ite (nextIn_next h) ?_
    split
    · exact nextIn_next (holds_ite (k.mapCtl h) h)
    · split
      · exact k.nextIn_mapCtl h
      · refine holds_ite (k.nextIn_mapCtl h) (holds_ite (nextIn_next h) (holds_ite (nextIn_next h) ?_))
        split
        · exact k.nextIn_mapCtl h
        · exact nextIn_next (k.endIfDone (k.writeDst (k.mapCtl h)))

theorem execRailBrownOut {r : Fin 3} (h : P s) : nextIn P (Machine.execRailBrownOut r s) := by
  unfold Machine.execRailBrownOut
  split
  · exact k.nextIn_mapCtl h
  · split
    · exact nextIn_next (k.startFail (k.mapCtl h))
    · exact nextIn_next (k.dark h)

theorem execRailOutOfTolerance {r : LowRail} (h : P s) : nextIn P (Machine.execRailOutOfTolerance r s) := by
  unfold Machine.execRailOutOfTolerance
  split
  · exact nextIn_next (k.startFail (k.mapCtl h))
  · exact k.nextIn_mapCtl h

theorem execWarmReset (h : P s) : nextIn P (Machine.execWarmReset s) := by
  unfold Machine.execWarmReset
  split
  · exact nextIn_next h
  · exact holds_ite (nextIn_next h) (holds_ite (nextIn_next (k.powerOn (k.mapCtl h))) (k.nextIn_mapCtl h))

theorem execSelfRefreshEntered (h : P s) : nextIn P (Machine.execSelfRefreshEntered s) :=
  holds_ite (k.nextIn_mapCtl (k.sealFlush (k.mapCtl (holds_foldl (fun _ _ => k.merge) (k.mapCtl h))))) (nextIn_next h)

theorem execFuseSensingDone {weak : List (Nat × Nat)} (h : P s) : nextIn P (Machine.execFuseSensingDone weak s) :=
  holds_ite (nextIn_next h) (holds_ite (nextIn_next (k.startFail (k.setCtl h))) (nextIn_next (k.setCtl h)))

theorem execBistDone {pass : Bool} {found : List (Nat × Nat)} (h : P s) : nextIn P (Machine.execBistDone pass found s) := by
  unfold Machine.execBistDone
  split
  · exact nextIn_next h
  · exact k.nextIn_mapCtl (holds_ite (k.bistWipe h) h)

theorem execSensorConversion {r : List (Option Int)} (h : P s) : nextIn P (Machine.execSensorConversion r s) :=
  holds_ite (nextIn_next (k.thermalJudge (k.mapCtl h))) (nextIn_next h)

theorem execThermalSample (h : P s) : nextIn P (Machine.execThermalSample s) :=
  holds_ite (k.nextIn_mapCtl (k.thermalJudge (k.mapCtl h))) (nextIn_next h)

theorem execShutdownStopDecision (h : P s) : nextIn P (Machine.execShutdownStopDecision s) := by
  unfold Machine.execShutdownStopDecision
  split
  · exact nextIn_next h
  · exact holds_ite (nextIn_next h) (holds_ite (nextIn_next (k.powerDown (k.mapCtl (k.mapCtl h))))
      (holds_ite (k.nextIn_mapCtl h) (k.nextIn_mapCtl (k.mapCtl h))))

theorem execThermalResume (h : P s) : nextIn P (Machine.execThermalResume s) := by
  unfold Machine.execThermalResume
  split
  · exact nextIn_next h
  · exact holds_ite (nextIn_next h) (holds_ite (nextIn_next (k.powerOn (k.mapCtl h))) (k.nextIn_mapCtl h))

theorem execImageAccepted {sram : List (Nat × Nat)} {sel : Bool} {a b : Option Image} {dt : Nat} (h : P s) :
    nextIn P (Machine.execImageAccepted sram sel a b dt s) := by
  unfold Machine.execImageAccepted
  refine holds_ite (nextIn_next h) (holds_ite (nextIn_next (k.startFail h)) (holds_ite (nextIn_next (k.setCtl h))
    (holds_ite (nextIn_next h) ?_)))
  exact holds_ite (nextIn_next h) (nextIn_next (k.setCtl h))

theorem execNeitherImagePasses {a b : Option Image} (h : P s) : nextIn P (Machine.execNeitherImagePasses a b s) :=
  holds_ite (nextIn_next h) (holds_ite (nextIn_next h) (holds_ite (nextIn_next (k.startFail (k.setCtl h)))
    (nextIn_next (k.setCtl h))))

theorem execImageReadyTimeout (h : P s) : nextIn P (Machine.execImageReadyTimeout s) :=
  holds_ite (k.nextIn_mapCtl h) (holds_ite (nextIn_next (k.startFail (k.mapCtl h))) (nextIn_next h))

theorem execTsvTrainingDone {feeds : List Nat} {pairOpen : Bool} {found : List (Nat × Nat)} {dt : Nat} (h : P s) :
    nextIn P (Machine.execTsvTrainingDone feeds pairOpen found dt s) :=
  holds_ite (nextIn_next h) (holds_ite (k.nextIn_mapCtl h) (holds_ite (nextIn_next (k.startFail h)) (nextIn_next (k.setCtl h))))

theorem execStackBringupDone {bad : Bool} {dt : Nat} (h : P s) : nextIn P (Machine.execStackBringupDone bad dt s) :=
  holds_ite (nextIn_next h) (holds_ite (nextIn_next (k.startFail h))
    (k.nextIn_mapCtl (holds_ite (k.warmBringup (k.mapCtl h)) (k.mapCtl (k.mapCtl h)))))

theorem execPageReencryption {sa : Nat} {bad : List (Nat × Nat)} (h : P s) : nextIn P (Machine.execPageReencryption sa bad s) :=
  nextIn_next (holds_ite (k.serveWaits (k.reencrypt h)) h)

theorem execMigrationRowLanded {bad : List (Nat × Nat)} (h : P s) : nextIn P (Machine.execMigrationRowLanded bad s) :=
  holds_ite (nextIn_next (k.rowLanded (holds_foldl (fun _ _ => k.migratedBad) h))) (nextIn_next h)

theorem execAbruptFillRow (h : P s) : nextIn P (Machine.execAbruptFillRow s) :=
  holds_ite (nextIn_next (k.rowLanded h)) (nextIn_next h)

/-- A timeout of the start that fails the attempt when it applies. -/
theorem startTimeout {p : Prop} {d : Decidable p} {t : State} {cause : Nat} (h : P s) (ht : P t) :
    nextIn P (if p then .next (t.startFail cause) else .next s) :=
  holds_ite (nextIn_next (k.startFail ht)) (nextIn_next h)

/-- Every command keeps every property of the stack. The commands named reach the stack or the fates of a register access; every other
one is a change of the control side. -/
theorem exec (i : Instr) (h : P s) : nextIn P (Machine.exec i s) := by
  cases i with
  | rcFieldRead | snapshotRead | scanDataRead => exact k.readBar h
  | registerWrite | stkCommit | mapCommit | qosSchedCommit | qosClassCommit | qosBwSnapTake | cmbDmcFlush | sqEnable
    | sqDisable | cqEnable | cqDisable | jrgAbort | stxWinRead | stxWinWrite | timSwitch | eyeScanStart | nearEndLoopStart
    | nearEndLoopStop | rstCtlWarm | bistStart | fltPendAck | errnRelease => exact k.writeBar h
  | thermalSample => exact k.execThermalSample h
  | lineReadCheck => exact k.execLineReadCheck h
  | partialWriteMerge => exact k.execPartialWriteMerge h
  | foragerPassEnd => exact k.execForagerPassEnd h
  | migrationRowLanded => exact k.execMigrationRowLanded h
  | abruptFillRow => exact k.execAbruptFillRow h
  | feedOvercurrent => exact k.execFeedOvercurrent h
  | selfRefreshEntered => exact k.execSelfRefreshEntered h
  | selfRefreshExited => exact k.execSelfRefreshExited h
  | sealMetadataArrival => exact k.execSealMetadataArrival h
  | pageReencryption => exact k.execPageReencryption h
  | imageReadyTimeout => exact k.execImageReadyTimeout h
  | sensorConversion => exact k.execSensorConversion h
  | shutdownStopDecision => exact k.execShutdownStopDecision h
  | thermalResume => exact k.execThermalResume h
  | warmReset => exact k.execWarmReset h
  | railBrownOut => exact k.execRailBrownOut h
  | railOutOfTolerance => exact k.execRailOutOfTolerance h
  | fuseSensingDone => exact k.execFuseSensingDone h
  | imageAccepted => exact k.execImageAccepted h
  | tsvTrainingDone => exact k.execTsvTrainingDone h
  | stackBringupDone => exact k.execStackBringupDone h
  | bistDone => exact k.execBistDone h
  | neitherImagePasses => exact k.execNeitherImagePasses h
  | beatBoundary => exact nextIn_next (k.beatBoundary h)
  | cxlMemRead => exact nextIn_next (k.memRequest h)
  | cxlMemWrite => exact nextIn_next (k.memRequest h)
  | cxlMemPartialWrite => exact nextIn_next (k.memRequest h)
  | lockStepMismatch => exact nextIn_next (k.keeperFault h)
  | watchdogExpiry => exact nextIn_next (k.keeperFault h)
  | vauxLoss => exact nextIn_next (k.dark h)
  | getPoisonList => exact nextIn_next (k.getPoisonList h)
  | fragmentListFetched => exact k.execFragmentListFetched h
  | jobDispatch => exact k.execJobDispatch h
  | macPass => exact k.execMacPass h
  | jobEnd => exact k.execJobEnd h
  | flashAnswerTimeout => exact k.startTimeout h (k.mapCtl h)
  | pllLockTimeout => exact k.startTimeout h (k.mapCtl h)
  | fuseWordReadTimeout => exact k.startTimeout h h
  | sbBusClear => exact nextIn_next h
  | _ => exact k.nextIn_mapCtl h

/-- A step keeps every property of the stack that does not look at the queue. -/
theorem step {t : State} (queue : ∀ {s : State} {q : List Instr}, P s → P { s with pending := q }) (e : Machine.step s = .next t)
    (h : P s) : P t := by
  unfold Machine.step at e
  split at e
  · cases e
    exact h
  · obtain ⟨u, run, hu⟩ := k.exec _ (queue h)
    cases run.symm.trans e
    exact hu

end StackInvariant

/-! ## The canonical form of the bytes, and one status for each line -/

/-- The canonical form survives every change of the bytes. -/
theorem memOk_stackInvariant : StackInvariant State.MemOk where
  setCtl h := h
  storeLine h := State.storeLine_wf _ _ _ h
  storeMired h := State.storeMired_wf _ _ _ h
  setStatus h := h
  dropBytes p h := Memory.wf_filter _ p h
  dropLines _ h := h
  healLines _ h := h
  lose _ := rfl

/-- A map with distinct keys still has them after one is set. -/
theorem nodup_keys_mapPut {κ ν : Type} [DecidableEq κ] {l : List (κ × ν)} (h : (l.map Prod.fst).Nodup) (i : κ) (v : ν) :
    ((mapPut l i v).map Prod.fst).Nodup :=
  List.nodup_cons.2 ⟨by simp [mapDel], h.sublist (List.filter_sublist.map _)⟩

/-- One status for each line survives every change of the lines. -/
theorem linesOk_stackInvariant : StackInvariant State.LinesOk where
  setCtl h := h
  storeLine {s _ _} h := by
    unfold State.storeLine
    exact holds_ite (P := State.LinesOk) h (nodup_keys_mapPut h _ _)
  storeMired {s _ _} h := by
    unfold State.storeMired
    exact holds_ite (P := State.LinesOk) h (nodup_keys_mapPut h _ _)
  setStatus h := nodup_keys_mapPut h _ _
  dropBytes _ h := h
  dropLines p h := List.Nodup.sublist (List.filter_sublist.map _) h
  healLines {_} p h := by
    have same (e : Nat × LineStatus) : (if p e then (e.1, LineStatus.good) else e).1 = e.1 := by split <;> rfl
    simpa [State.LinesOk, Function.comp_def, same] using h
  lose _ := List.nodup_nil

/-- Settles O4: nothing is listed at reset, and a string written keeps the canonical form. -/
theorem memoryFormAtReset : Obligations.MemoryFormAtReset :=
  ⟨rfl, List.nodup_nil, fun a d => memWrite_wf _ a d rfl⟩

/-- Settles O5: every operation on the stack keeps each of the two properties, and neither looks at the queue. -/
theorem everyStepKeepsTheMemoryForm : Obligations.EveryStepKeepsTheMemoryForm := fun _ _ e =>
  ⟨memOk_stackInvariant.step id e, linesOk_stackInvariant.step id e⟩

end Sys2Proof.Machine
end
section
/-! HDM decoders (R62): which commits the device refuses, and what a commit leaves. -/

namespace Sys2Proof.Machine

/-- The settings of a decoder commit that are in order: a supported interleave, and a range that ends within the user region
rounded up to 256 MiB and is clear of the head's other committed decoders. -/
def Ctl.hdmFits (c : Ctl) (h : Head) (n size skip ways gran : Nat) : Prop :=
  let lo := (c.hd h).dpaStart n + skip * 268435456
  let hi := lo + size * 268435456 / ways
  ways ∈ [1, 2, 4, 8] ∧ gran ∈ [256, 512, 1024, 2048, 4096, 8192, 16384] ∧
    hi ≤ (c.userEnd + 268435455) / 268435456 * 268435456 ∧
    ∀ i, i < 4 → i ≠ n → ∀ e, (c.hd h).hdm[i]? = some e → e.committed = true → e.dpa + e.size ≤ lo ∨ hi ≤ e.dpa

/-- No committed decoder of a list but the one at `n` overlaps a range. -/
theorem hdm_overlap_eq_false_iff (l : List HdmDecoder) (n lo hi : Nat) :
    ((List.range 4).any fun i => decide (i ≠ n) && (match l[i]? with
      | some d => d.committed && decide (lo < d.dpa + d.size) && decide (d.dpa < hi)
      | none => false)) = false ↔
    ∀ i, i < 4 → i ≠ n → ∀ e, l[i]? = some e → e.committed = true → e.dpa + e.size ≤ lo ∨ hi ≤ e.dpa := by
  simp only [List.any_eq_false, List.mem_range]
  refine forall₂_congr fun i _ => ?_
  cases l[i]? with
  | none => simp
  | some d =>
    simp only [Bool.and_eq_true, decide_eq_true_eq, Option.some.injEq, forall_eq']
    constructor
    · intro clear ne on
      by_contra overlap
      exact clear ⟨ne, ⟨on, by omega⟩, by omega⟩
    · rintro clear ⟨ne, ⟨on, below⟩, above⟩
      rcases clear ne on with apart | apart <;> omega

/-- A commit is refused unless its settings are in order. -/
theorem Ctl.hdmBad_eq_false_iff (c : Ctl) (h : Head) (n size skip ways gran : Nat) :
    c.hdmBad h n size skip ways gran = false ↔ c.hdmFits h n size skip ways gran := by
  unfold Ctl.hdmBad Ctl.hdmFits
  dsimp only
  by_cases supported : ways ∈ hdmWays
  · have one_le : max 1 ways = ways := by
      simp only [hdmWays, List.mem_cons, List.not_mem_nil, or_false] at supported
      omega
    have rounded : c.userEnd + hdmUnit - 1 = c.userEnd + 268435455 := Nat.add_sub_assoc (by decide) _
    rw [Bool.or_eq_false_iff, Bool.or_eq_false_iff, Bool.or_eq_false_iff, one_le, rounded, decide_eq_false_iff_not, Nat.not_lt,
      Bool.not_eq_false', Bool.not_eq_false', List.contains_iff_mem, List.contains_iff_mem, and_assoc, and_assoc]
    exact and_congr Iff.rfl (and_congr Iff.rfl (and_congr Iff.rfl (hdm_overlap_eq_false_iff _ _ _ _)))
  · have refused : hdmWays.contains ways = false := by simpa using supported
    simp only [refused, Bool.not_false, Bool.true_or, Bool.true_eq_false, false_iff]
    exact fun fits => supported fits.1

/-- What a commit leaves in the place of an unlocked decoder. -/
def Ctl.hdmCommitted (c : Ctl) (h : Head) (n base size skip ways gran : Nat) (lock : Bool) (d : HdmDecoder) : HdmDecoder :=
  if c.hdmBad h n size skip ways gran then { d with committed := false, errNotCommitted := true, lockOnCommit := lock }
  else
    { base := base * hdmUnit, dpa := (c.hd h).dpaStart n + skip * hdmUnit, ways := ways, gran := gran,
      size := size * hdmUnit / ways, skip := skip * hdmUnit, committed := true, errNotCommitted := false, locked := lock,
      lockOnCommit := lock }

theorem hdmCommit_unlocked {h : Head} {n base size skip ways gran : Nat} {lock : Bool} {d : HdmDecoder} {c : Ctl}
    (found : (c.hd h).hdm[n]? = some d) (unlocked : d.locked = false) :
    hdmCommit h n base size skip ways gran lock c =
      c.modHd h fun x => { x with hdm := x.hdm.set n (c.hdmCommitted h n base size skip ways gran lock d) } := by
  unfold hdmCommit Ctl.hdmCommitted
  rw [found]
  simp only [unlocked, Bool.false_eq_true, if_false]
  split <;> rfl

theorem hdmCommit_locked {h : Head} {n base size skip ways gran : Nat} {lock : Bool} {d : HdmDecoder} {c : Ctl}
    (found : (c.hd h).hdm[n]? = some d) (locked : d.locked = true) : hdmCommit h n base size skip ways gran lock c = c := by
  unfold hdmCommit
  rw [found]
  exact if_pos locked

/-- Settles O18: a commit is refused exactly when its settings are not in order, and changes its own decoder alone. -/
theorem hdmDecodersCommitWithinTheirHead : Obligations.HdmDecodersCommitWithinTheirHead := by
  intro h n base size skip ways gran lock d s found lo hi okay
  have judged : s.ctl.hdmBad h n size skip ways gran = false ↔ okay := s.ctl.hdmBad_eq_false_iff h n size skip ways gran
  refine ⟨fun locked => congrArg Host.Outcome.next (State.mapCtl_eq (hdmCommit_locked found locked)), fun unlocked => ?_⟩
  have run : exec (.hdmDecoderCommit h n base size skip ways gran lock) s =
      .next (s.mapCtl (hdmCommit h n base size skip ways gran lock)) := rfl
  have inside : n.val < (s.ctl.hd h).hdm.length := (List.getElem?_eq_some_iff.1 found).1
  have apart : h.other ≠ h := by cases h <;> decide
  refine ⟨_, s.ctl.hdmCommitted h n base size skip ways gran lock d, run, ?_, ?_, ?_, ⟨rfl, rfl, rfl⟩, fun fits => ?_,
    fun misfits => ?_⟩
  · rw [State.mapCtl_ctl, hdmCommit_unlocked found unlocked, Ctl.modHd_hd]
    exact List.getElem?_set_self inside
  · rw [State.mapCtl_ctl, hdmCommit_unlocked found unlocked, Ctl.modHd_hd_ne _ _ _ _ apart]
  · rw [State.mapCtl_ctl, hdmCommit_unlocked found unlocked, Ctl.modHd_regs]
  · rw [Ctl.hdmCommitted, judged.2 fits]
    exact ⟨rfl, rfl, rfl, rfl, rfl, rfl, rfl, rfl, rfl⟩
  · rw [Ctl.hdmCommitted, Bool.eq_true_of_not_eq_false fun e => misfits (judged.1 e)]
    exact ⟨rfl, rfl⟩

end Sys2Proof.Machine
end

section
/-! The decode clause of JobsAreJudgedRunAndEnded fails: it says that a pass whose decode entry is damaged leaves its job as it was, but source
565 is one whose reaction may be a block reset of the comb engine (R373), which stops every running job and empties the decode-matrix cache
(R375). -/

namespace Sys2Proof.Machine

/-- An ENCODE of one data fragment of 64 bytes at address 0 into one parity fragment at 4096. -/
def damagedEncode : Job :=
  { slot := 0, owner := .a, phase := .running
    desc := [1] ++ List.replicate 7 0 ++ toLE 4 0x00010102 ++ List.replicate 28 0 ++ toLE 8 2 ++ toLE 4 64 ++ List.replicate 8 0 ++
      toLE 4 64 ++ List.replicate 64 0
    code := 0x00010102, flen := 64, frags := [⟨0, 0⟩, ⟨4096, 0⟩] }

/-- The ENCODE runs alone with the decode entry of key [1, 2] pinned and computed, every gate open and granule 0 in Head A's partition,
while FLT_SRC_CFG of source 565 selects the block reset. -/
def resettingPass : State :=
  { ctl :=
      { job.jobs := [damagedEncode]
        dec := { entries := [⟨dmcSet [1, 2], [1, 2], some [], 0, false, false⟩], wants := [(0, [1, 2])] }
        regs := [((R.FLT_SRC_CFG_REACT 565).key, 4), ((R.QOS_CLASS_CFG_LIMIT 0).key, 100), ((R.HD_STATE_STATE 0).key, 2),
          (R.MAP_TAG_BASE_GRAN.key, 622592), ((R.MAP_GRAN_PRESENT 0).key, 1), ((R.MAP_GRAN_ASSIGNED 0).key, 1),
          (R.STK_ACT_CFG_FUSED_MAX.key, 24), (R.CLK_GATE_EN_EN.key, 0x3FFFF), (R.CLK_GATE_STAT_OPEN.key, 0x3FFFF)] }
    mem := [], lines := [(0, .good)], pending := [] }

/-- The ENCODE is at the end of its inputs, its only pass may go to the array, and what it reads lies in its own partition. -/
theorem damagedEncode_ready : resettingPass.ctl.jobAt damagedEncode.slot = some damagedEncode ∧
    resettingPass.ctl.macReady damagedEncode = true ∧ resettingPass.ctl.passViolation damagedEncode = none := by
  decide +kernel

/-- Its one input is the line at address 0, good and PLAIN. -/
theorem damagedEncode_input : damagedEncode.passInputs = [(.frag 0, 0)] ∧
    resettingPass.ctl.inputAt damagedEncode (.frag 0, 0) = (0, 0) ∧ resettingPass.ctl.sealAt 0 = 0 ∧ resettingPass.status 0 = .good := by
  decide +kernel

/-- What the damaged entry leaves: the block reset that follows source 565 has stopped the job. -/
theorem resettingPass_stopped : (resettingPass.ctl.dmcDamaged damagedEncode.slot).map (fun c => c.jobAt damagedEncode.slot) =
    some (some { damagedEncode with stop := some stEngineFault }) := by
  decide +kernel

/-- A pass that finds its decode entry damaged does what the damage does, and nothing else (R81). -/
theorem macPass_damaged {s : State} {j : Job} {c : Ctl} (hj : minBy Job.rank (s.ctl.job.jobs.filter s.ctl.macReady) = some j)
    (hd : s.ctl.dmcDamaged j.slot = some c) : exec (.macPass true) s = .next { s with ctl := c } := by
  change execMacPass true s = _
  simp only [execMacPass, hj, hd, if_true]

/-- Refutes O20: the pass of `resettingPass` finds its decode entry damaged, and the block reset that source 565 is configured for stops the
job, which the decode clause says is left as it was. -/
theorem not_jobsAreJudgedRunAndEnded : ¬ Obligations.JobsAreJudgedRunAndEnded := by
  intro h
  obtain ⟨hat, hready, hviol⟩ := damagedEncode_ready
  obtain ⟨hins, hin, hplain, hgood⟩ := damagedEncode_input
  obtain ⟨-, hpass, -⟩ := h resettingPass
  have hfirst : ∀ k ∈ resettingPass.ctl.job.jobs, resettingPass.ctl.macReady k = true →
      k = damagedEncode ∨ damagedEncode.rank < k.rank := fun k hk _ => .inl (List.mem_singleton.1 hk)
  have hinputs : ∀ k ∈ damagedEncode.passInputs, (resettingPass.ctl.inputAt damagedEncode k).1 = 0 ∧
      (resettingPass.ctl.inputAt damagedEncode k).2 % 64 = 0 ∧
      resettingPass.ctl.sealAt (resettingPass.ctl.inputAt damagedEncode k).2 = 0 ∧
      resettingPass.status (resettingPass.ctl.inputAt damagedEncode k).2 = .good ∧
      ∀ m ∈ resettingPass.ctl.ecc.merges, m.sa / 64 ≠ (resettingPass.ctl.inputAt damagedEncode k).2 / 64 := by
    intro k hk
    obtain rfl : k = (.frag 0, 0) := List.mem_singleton.1 (hins ▸ hk)
    rw [hin]
    exact ⟨rfl, rfl, hplain, hgood, fun m hm => absurd hm List.not_mem_nil⟩
  obtain ⟨t, hrun, -, hkept, -, -⟩ := (hpass damagedEncode hat hready hfirst hviol hinputs).1 (0, [1, 2]) rfl
  obtain ⟨c, hc, hstop⟩ := Option.map_eq_some_iff.1 resettingPass_stopped
  have hnext : minBy Job.rank (resettingPass.ctl.job.jobs.filter resettingPass.ctl.macReady) = some damagedEncode := by
    change minBy Job.rank ([damagedEncode].filter _) = _
    rw [List.filter_singleton, hready]; rfl
  obtain rfl : { resettingPass with ctl := c } = t := by
    simpa using (macPass_damaged hnext hc).symm.trans hrun
  have hsame : damagedEncode = { damagedEncode with stop := some stEngineFault } := Option.some.inj (hkept.symm.trans hstop)
  exact absurd (congrArg Job.stop hsame) (by decide)

end Sys2Proof.Machine
end

section
/-! SUPPORT. The slots of the jobs (R85): the least element of a list, a job's record after it has been replaced or dropped, and what
the release of a slot leaves as it was. -/

namespace Sys2Proof.Machine

/-! ## The first in rank -/

theorem minBy_eq_none {α : Type} {f : α → Nat} {l : List α} (h : minBy f l = none) : l = [] := by
  cases l with
  | nil => rfl
  | cons a t =>
    rw [minBy] at h
    split at h
    · split at h <;> cases h
    · cases h

/-- What `minBy` finds is a member, and no member has a lesser key. -/
theorem minBy_spec {α : Type} {f : α → Nat} {l : List α} {a : α} (h : minBy f l = some a) : a ∈ l ∧ ∀ b ∈ l, f a ≤ f b := by
  induction l generalizing a with
  | nil => cases h
  | cons x t ih =>
    rw [minBy] at h
    split at h
    · next b hb =>
      obtain ⟨hmem, hle⟩ := ih hb
      split at h <;> rename_i hlt <;> cases h
      · exact ⟨.tail _ hmem, fun y hy => (List.mem_cons.1 hy).elim (fun e => e ▸ hlt.le) (hle y)⟩
      · exact ⟨.head _, fun y hy => (List.mem_cons.1 hy).elim (fun e => e ▸ le_rfl)
          fun hy => (Nat.le_of_not_lt hlt).trans (hle y hy)⟩
    · next hn => cases h; rw [minBy_eq_none hn]; simp

/-- A member that every other one ranks behind is the one found. -/
theorem minBy_eq_of_first {α : Type} {f : α → Nat} {l : List α} {a : α} (ha : a ∈ l) (h : ∀ b ∈ l, b = a ∨ f a < f b) :
    minBy f l = some a := by
  cases e : minBy f l with
  | none => rw [minBy_eq_none e] at ha; cases ha
  | some b =>
    obtain ⟨hb, hle⟩ := minBy_spec e
    rcases h b hb with rfl | hlt
    · rfl
    · exact absurd (hle a ha) (Nat.not_le.2 hlt)

/-! ## A job's record -/

theorem Ctl.jobAt_congr {c d : Ctl} (e : c.job.jobs = d.job.jobs) (k : Nat) : c.jobAt k = d.jobAt k := by rw [jobAt, jobAt, e]

theorem Ctl.jobAt_slot {c : Ctl} {k : Nat} {j : Job} (h : c.jobAt k = some j) : j.slot = k := by
  simpa using List.find?_some h

theorem Ctl.jobAt_mem {c : Ctl} {k : Nat} {j : Job} (h : c.jobAt k = some j) : j ∈ c.job.jobs := List.mem_of_find?_eq_some h

theorem Ctl.jobAt_isSome {c : Ctl} {k : Nat} : (c.jobAt k).isSome ↔ ∃ j ∈ c.job.jobs, j.slot = k := by
  simp [jobAt]

theorem Ctl.jobAt_eq_none {c : Ctl} {k : Nat} : c.jobAt k = none ↔ ∀ j ∈ c.job.jobs, j.slot ≠ k := by
  simp [jobAt]

/-- A job added behind the others stands in its slot when none held it. -/
theorem Ctl.jobAt_append {c d : Ctl} {j : Job} (h : c.jobAt j.slot = none) (e : d.job.jobs = c.job.jobs ++ [j]) :
    d.jobAt j.slot = some j := by
  rw [jobAt, e, List.find?_append]
  rw [jobAt] at h
  simp [h]

/-- A record put in a slot that is held stands there. -/
theorem Ctl.jobAt_putJob {c : Ctl} {j : Job} (h : (c.jobAt j.slot).isSome) : (c.putJob j).jobAt j.slot = some j := by
  obtain ⟨x, hx, hs⟩ := jobAt_isSome.1 h
  have hput : (c.putJob j).job.jobs = c.job.jobs.map fun x => if x.slot = j.slot then j else x := rfl
  cases e : (c.putJob j).jobAt j.slot with
  | none =>
    refine absurd rfl (jobAt_eq_none.1 e j ?_)
    rw [hput]
    exact List.mem_map.2 ⟨x, hx, if_pos hs⟩
  | some y =>
    have hy := jobAt_mem e
    rw [hput] at hy
    obtain ⟨z, -, rfl⟩ := List.mem_map.1 hy
    have hz := jobAt_slot e
    split at hz
    · next h => rw [if_pos h]
    · next h => exact absurd hz h

/-- Putting a record leaves the other slots. -/
theorem Ctl.jobAt_putJob_ne {c : Ctl} {j : Job} {k : Nat} (n : k ≠ j.slot) : (c.putJob j).jobAt k = c.jobAt k := by
  change ((c.job.jobs.map fun x => if x.slot = j.slot then j else x).find? fun x => decide (x.slot = k)) = _
  rw [jobAt]
  induction c.job.jobs with
  | nil => rfl
  | cons x t ih =>
    rw [List.map_cons, List.find?_cons, List.find?_cons, ih]
    by_cases hx : x.slot = j.slot
    · simp [hx, n.symm]
    · simp [hx]

/-- A dropped slot is free. -/
theorem Ctl.jobAt_of_filter {c d : Ctl} {k : Nat} (e : d.job.jobs = c.job.jobs.filter fun j => decide (j.slot ≠ k)) :
    d.jobAt k = none :=
  jobAt_eq_none.2 fun j hj => by rw [e] at hj; simpa using (List.mem_filter.1 hj).2

@[simp] theorem Ctl.putJob_regs (c : Ctl) (j : Job) : (c.putJob j).regs = c.regs := rfl
@[simp] theorem Ctl.putJob_outbox (c : Ctl) (j : Job) : (c.putJob j).outbox = c.outbox := rfl
@[simp] theorem Ctl.putJob_hd (c : Ctl) (j : Job) (h : Head) : (c.putJob j).hd h = c.hd h := by cases h <;> rfl
@[simp] theorem Ctl.putJob_get (c : Ctl) (j : Job) (x : Fld) : (c.putJob j).get x = c.get x := rfl

/-! ## A slot released -/

@[simp] theorem Ctl.judgeFlush_job (c : Ctl) : c.judgeFlush.job = c.job := by unfold judgeFlush; split <;> rfl
@[simp] theorem Ctl.judgeFlush_hd (c : Ctl) (h : Head) : c.judgeFlush.hd h = c.hd h := by
  unfold judgeFlush; split <;> cases h <;> rfl
@[simp] theorem Ctl.judgeFlush_outbox (c : Ctl) : c.judgeFlush.outbox = c.outbox := by unfold judgeFlush; split <;> rfl
@[simp] theorem Ctl.judgeFlush_clock (c : Ctl) : c.judgeFlush.clock = c.clock := by unfold judgeFlush; split <;> rfl
theorem Ctl.judgeFlush_get (c : Ctl) {x : Fld} (n : x.key ≠ R.CMB_DMC_FLUSH_FLUSH_BUSY.key) : c.judgeFlush.get x = c.get x := by
  unfold judgeFlush
  split
  · rfl
  · exact c.get_set_ne _ _ _ n

@[simp] theorem Ctl.dropJob_jobs (c : Ctl) (k : Nat) :
    (c.dropJob k).job.jobs = c.job.jobs.filter fun j => decide (j.slot ≠ k) := by
  simp [dropJob, unpinDec]
@[simp] theorem Ctl.dropJob_job (c : Ctl) (k : Nat) : (c.dropJob k).job =
    { c.job with jobs := c.job.jobs.filter fun j => decide (j.slot ≠ k), paused := false } := by
  simp [dropJob, unpinDec]
@[simp] theorem Ctl.dropJob_hd (c : Ctl) (k : Nat) (h : Head) : (c.dropJob k).hd h = c.hd h :=
  calc (c.dropJob k).hd h = (c.unpinDec k).hd h := by cases h <;> rfl
    _ = _ := (Ctl.judgeFlush_hd _ h).trans (by cases h <;> rfl)
@[simp] theorem Ctl.dropJob_outbox (c : Ctl) (k : Nat) : (c.dropJob k).outbox = c.outbox := by simp [dropJob, unpinDec]
@[simp] theorem Ctl.dropJob_clock (c : Ctl) (k : Nat) : (c.dropJob k).clock = c.clock := by simp [dropJob, unpinDec]
theorem Ctl.dropJob_get (c : Ctl) (k : Nat) {x : Fld} (n : x.key ≠ R.CMB_DMC_FLUSH_FLUSH_BUSY.key) :
    (c.dropJob k).get x = c.get x := (Ctl.judgeFlush_get _ n).trans rfl

theorem Ctl.jobAt_dropJob (c : Ctl) (k : Nat) : (c.dropJob k).jobAt k = none := jobAt_of_filter (c.dropJob_jobs k)

end Sys2Proof.Machine
end

section
/-! SUPPORT. How a job ends (R118, R121): the record it leaves, and what giving up its contexts, cells, requests and pass keeps. -/

namespace Sys2Proof.Machine

/-! ## The reserved entries of a slot returned -/

/-- The count of free entries that a return leaves is no lower, so it raises no fault (R148, R149). -/
theorem Ctl.freeChange_of_le {c : Ctl} {x n : Nat} (h : c.get R.STX_FREE_CNT_FREE ≤ n) :
    c.freeChange x n = c.set R.STX_FREE_CNT_FREE n := by
  rw [freeChange, if_neg fun e => absurd (e.1.trans h) (Nat.not_le.2 e.2)]

theorem Ctl.unreserve_eq (c : Ctl) (k : Nat) : ∃ l r, c.unreserve k = { c with stx := { c.stx with reserved := l }, regs := r } ∧
    ∀ x : Fld, x.key ≠ R.STX_FREE_CNT_FREE.key → (c.unreserve k).get x = c.get x := by
  unfold unreserve
  dsimp only
  split
  · exact ⟨_, c.regs, rfl, fun x _ => rfl⟩
  · rw [freeChange_of_le]
    · exact ⟨_, _, rfl, fun x n => (Ctl.get_set_ne _ _ _ _ n).trans rfl⟩
    · exact Nat.le_add_right _ _

/-! ## What a job holds besides its slot -/

/-- The reserved entries, comb cells, requests, Forager pass and context waits of a slot given up (R118). -/
def Ctl.giveUp (c : Ctl) (k : Nat) : Ctl :=
  let c1 := (c.unreserve k).endCells k
  { c1 with
    job.dma := c1.job.dma.filter fun d => decide (d.slot ≠ k)
    frg.passes := c1.frg.passes.filter fun p => decide (p.slot ≠ some k)
    stx.waiters := c1.stx.waiters.filter fun x => decide (x ≠ k) }

theorem Ctl.giveUp_eq (c : Ctl) (k : Nat) : ∃ x y z r, c.giveUp k =
    { c with job := { c.job with dma := c.job.dma.filter fun d => decide (d.slot ≠ k) }, stx := x, stk := y, frg := z, regs := r } := by
  obtain ⟨l, r, e, -⟩ := c.unreserve_eq k
  rw [giveUp, e]
  exact ⟨_, _, _, _, rfl⟩

@[simp] theorem Ctl.giveUp_job (c : Ctl) (k : Nat) :
    (c.giveUp k).job = { c.job with dma := c.job.dma.filter fun d => decide (d.slot ≠ k) } := by
  obtain ⟨x, y, z, r, e⟩ := c.giveUp_eq k; rw [e]
@[simp] theorem Ctl.giveUp_hd (c : Ctl) (k : Nat) (h : Head) : (c.giveUp k).hd h = c.hd h := by
  obtain ⟨x, y, z, r, e⟩ := c.giveUp_eq k; rw [e]; cases h <;> rfl
@[simp] theorem Ctl.giveUp_outbox (c : Ctl) (k : Nat) : (c.giveUp k).outbox = c.outbox := by
  obtain ⟨x, y, z, r, e⟩ := c.giveUp_eq k; rw [e]
theorem Ctl.giveUp_get (c : Ctl) (k : Nat) {x : Fld} (n : x.key ≠ R.STX_FREE_CNT_FREE.key) : (c.giveUp k).get x = c.get x := by
  obtain ⟨l, r, -, hget⟩ := c.unreserve_eq k
  exact hget x n

/-! ## The record a job leaves -/

/-- The record of a job that ends with a status. -/
def Ctl.endedJob (c : Ctl) (j : Job) (st : Nat) : Job :=
  { (j.settleErr st) with
    status := st, result0 := c.endResult j st, phase := .ended, toRead := [], stop := none, outBuf := [], packBuf := [], ingested := []
    late := j.ocs && c.lateNow j, held := if c.fenced j.owner then some j.owner else j.held }

theorem Job.settleErr_eq (j : Job) (st : Nat) : ∃ f o, j.settleErr st = { j with errFrag := f, errOffset := o } := by
  unfold settleErr
  split
  · exact ⟨j.errFrag, j.errOffset, rfl⟩
  · exact ⟨0xFFFF, 0, rfl⟩

/-- A status that a line sets keeps that line in the record (R115). -/
theorem Job.settleErr_kept {j : Job} {st : Nat}
    (h : st ∈ [stMismatch, stOutputPoisoned, stInputPoisoned, stPartition, stSealDenied, stDmaError]) : j.settleErr st = j :=
  if_pos (List.contains_iff_mem.2 h)

@[simp] theorem Ctl.endedJob_phase (c : Ctl) (j : Job) (st : Nat) : (c.endedJob j st).phase = .ended := rfl
@[simp] theorem Ctl.endedJob_status (c : Ctl) (j : Job) (st : Nat) : (c.endedJob j st).status = st := rfl
@[simp] theorem Ctl.endedJob_slot (c : Ctl) (j : Job) (st : Nat) : (c.endedJob j st).slot = j.slot := by
  obtain ⟨f, o, e⟩ := j.settleErr_eq st; rw [endedJob, e]
@[simp] theorem Ctl.endedJob_owner (c : Ctl) (j : Job) (st : Nat) : (c.endedJob j st).owner = j.owner := by
  obtain ⟨f, o, e⟩ := j.settleErr_eq st; rw [endedJob, e]
@[simp] theorem Ctl.endedJob_handle (c : Ctl) (j : Job) (st : Nat) : (c.endedJob j st).handle = j.handle := by
  obtain ⟨f, o, e⟩ := j.settleErr_eq st; rw [endedJob, e]
@[simp] theorem Ctl.endedJob_desc (c : Ctl) (j : Job) (st : Nat) : (c.endedJob j st).desc = j.desc := by
  obtain ⟨f, o, e⟩ := j.settleErr_eq st; rw [endedJob, e]
@[simp] theorem Ctl.endedJob_sq (c : Ctl) (j : Job) (st : Nat) : (c.endedJob j st).sq = j.sq := by
  obtain ⟨f, o, e⟩ := j.settleErr_eq st; rw [endedJob, e]
@[simp] theorem Ctl.endedJob_ocs (c : Ctl) (j : Job) (st : Nat) : (c.endedJob j st).ocs = j.ocs := by
  obtain ⟨f, o, e⟩ := j.settleErr_eq st; rw [endedJob, e]

/-- STATUS stands in byte 3 of a completion (R115). -/
theorem Job.completion_status (j : Job) (late phase : Bool) : le (j.completion late phase) 3 1 = j.status % 256 := by
  simp [completion, le, toLE, leNat]

/-! ## Ring jobs -/

/-- A ring job that no abort waits for ends in its slot. -/
theorem Ctl.endJob_ring {c : Ctl} {j : Job} {st : Nat} (ho : j.ocs = false) (ha : j.aborter = none) :
    c.endJob j st = (c.giveUp j.slot).putJob (c.endedJob j st) := by
  simp only [endJob, ho, ha, Bool.false_eq_true, if_false, Bool.false_and]
  simp only [giveUp, endedJob, ho, Bool.false_and]

theorem Ctl.jobAt_endJob_ring {c : Ctl} {j : Job} {st : Nat} (ho : j.ocs = false) (ha : j.aborter = none)
    (h : (c.jobAt j.slot).isSome) : (c.endJob j st).jobAt j.slot = some (c.endedJob j st) := by
  have hput := Ctl.jobAt_putJob (c := c.giveUp j.slot) (j := c.endedJob j st) (by rwa [endedJob_slot, jobAt, giveUp_job])
  rwa [endedJob_slot, ← endJob_ring ho ha] at hput

/-! ## OCS jobs -/

@[simp] theorem Ctl.countLate_job (c : Ctl) (j : Job) : (c.countLate j).job = c.job := by unfold countLate; split <;> rfl
@[simp] theorem Ctl.countLate_hd (c : Ctl) (j : Job) (h : Head) : (c.countLate j).hd h = c.hd h := by
  unfold countLate; split
  · exact Ctl.bump_hd c _ 1 h
  · rfl
@[simp] theorem Ctl.countLate_outbox (c : Ctl) (j : Job) : (c.countLate j).outbox = c.outbox := by unfold countLate; split <;> rfl
theorem Ctl.countLate_get (c : Ctl) (j : Job) {x : Fld} (n : x.key ≠ (R.QOS_LATE_JOB_CNT_JOBS j.cls).key) :
    (c.countLate j).get x = c.get x := by
  unfold countLate
  split
  · exact c.get_bump_ne _ _ _ n
  · rfl

@[simp] theorem Ctl.event_job (c : Ctl) (h : Head) (log kind code headNo info flags : Nat) :
    (c.event h log kind code headNo info flags).job = c.job := by
  unfold event
  split
  · split
    · rfl
    · dsimp only
      split <;> simp
  · rfl

@[simp] theorem Ctl.setDone_jobs (c : Ctl) (h : Head) (l : List (Nat × Bytes)) : (c.setDone h l).job.jobs = c.job.jobs := by cases h <;> rfl
@[simp] theorem Ctl.setDone_done (c : Ctl) (h : Head) (l : List (Nat × Bytes)) : (c.setDone h l).done h = l := by cases h <;> rfl
theorem Ctl.done_congr {c d : Ctl} (e : c.job = d.job) (h : Head) : c.done h = d.done h := by cases h <;> simp [done, e]

/-- An OCS job with a handle that no command waits for leaves its slot, and its completion stands first under its handle (R121). -/
theorem Ctl.deliver_unawaited {c : Ctl} {j : Job} {n : Nat} (hn : j.handle = some n) (hp : (c.hd j.owner).mbox.pend = none) :
    (c.deliver j).job.jobs = c.job.jobs.filter (fun x => decide (x.slot ≠ j.slot)) ∧
      (c.deliver j).done j.owner = (n, j.completion j.late false) :: c.done j.owner := by
  have hdone : (c.dropJob j.slot).done j.owner = c.done j.owner := by cases j.owner <;> simp [done]
  have e : c.deliver j = ((c.dropJob j.slot).setDone j.owner ((n, j.completion j.late false) :: (c.dropJob j.slot).done j.owner)).event
      j.owner logInfo kindVendor 0x0302 j.owner.num n 0 := by
    unfold deliver
    simp only [hn, dropJob_hd, hp]
  rw [e]
  exact ⟨by simp, by rw [done_congr (event_job ..), setDone_done, hdone]⟩

/-- An OCS job of an unfenced head that nothing waits for ends with its completion under its handle. -/
theorem Ctl.endJob_ocs {c : Ctl} {j : Job} {st n : Nat} (ho : j.ocs = true) (ha : j.aborter = none) (hn : j.handle = some n)
    (hf : c.fenced j.owner = false) (hp : (c.hd j.owner).mbox.pend = none) :
    (c.endJob j st).jobAt j.slot = none ∧
      ∃ b, mapGet ((c.endJob j st).done j.owner) n = some b ∧ le b 3 1 = st % 256 := by
  have e : c.endJob j st = ((c.countLate j).giveUp j.slot).deliver (c.endedJob j st) := by
    simp only [endJob, ho, ha, hf, Bool.not_false, Bool.and_self, if_true]
    simp only [giveUp, endedJob, ho, hf]
  obtain ⟨hjobs, hdone⟩ := Ctl.deliver_unawaited (c := (c.countLate j).giveUp j.slot) (j := c.endedJob j st)
    ((endedJob_handle ..).trans hn) (by simpa using hp)
  rw [endedJob_slot] at hjobs
  rw [endedJob_owner] at hdone
  rw [e]
  exact ⟨jobAt_of_filter hjobs, _, by rw [hdone, mapGet, if_pos rfl], Job.completion_status ..⟩

end Sys2Proof.Machine
end

section
/-! The first-ranked job that may start (R112, R228), and a NOP that is one (R108). -/

namespace Sys2Proof.Machine

theorem Ctl.nextJob_of_first {c : Ctl} {j : Job} (hj : j ∈ c.job.jobs) (hm : c.mayStart j = true)
    (h : ∀ k ∈ c.job.jobs, c.mayStart k = true → k = j ∨ j.rank < k.rank) : c.nextJob = some j :=
  minBy_eq_of_first (List.mem_filter.2 ⟨hj, hm⟩) fun k hk => h k (List.mem_filter.1 hk).1 (List.mem_filter.1 hk).2

/-- What holds of a job that may start, of the clauses that a statement uses. -/
theorem Ctl.mayStart_facts {c : Ctl} {j : Job} (h : c.mayStart j = true) : c.fenced j.owner = false ∧ c.fenceClear j = true := by
  simp only [mayStart, Bool.and_eq_true, Bool.not_eq_true'] at h
  obtain ⟨⟨⟨⟨⟨-, hfenced⟩, -⟩, -⟩, hclear⟩, -⟩ := h
  exact ⟨hfenced, hclear⟩

/-- FENCE holds a job back while an earlier job of its SQ, or of its head for OCS jobs, is held (R112). -/
theorem Ctl.fenceClear_iff {c : Ctl} {j : Job} : c.fenceClear j = true ↔ (j.fFence = true → ∀ k ∈ c.job.jobs, k.seq < j.seq →
    k.ocs = j.ocs → if j.ocs = true then k.owner ≠ j.owner else k.sq ≠ j.sq) := by
  cases hf : j.fFence <;> cases ho : j.ocs <;> simp [fenceClear, hf, ho]

/-- A first-ranked job with nothing to do ends at once with OK. -/
theorem jobDispatch_idle {c : Ctl} {j : Job} (hn : c.nextJob = some j) (hi : j.op = opNop ∨ (j.length = 0 ∧ j.op ≠ opScrub)) :
    jobDispatch c = c.endJob j stOk := by
  simp only [jobDispatch, hn, if_pos hi]

/-- Settles O21: a NOP that may start has its FENCE cleared, and ends at once with OK. -/
theorem nopCompletesBehindItsFence : Obligations.NopCompletesBehindItsFence := by
  intro s j hj hop hm hfirst ha
  obtain ⟨hfenced, hclear⟩ := Ctl.mayStart_facts hm
  have hrun : exec (.jobDispatch none) s = .next (s.mapCtl fun c => c.endJob j stOk) := by
    change Host.Outcome.next { s with ctl := jobDispatch s.ctl } = _
    rw [jobDispatch_idle (Ctl.nextJob_of_first hj hm hfirst) (.inl hop)]
    rfl
  refine ⟨Ctl.fenceClear_iff.1 hclear, fun ho => ?_, fun n ho hn hp => ?_⟩
  · have hat := Ctl.jobAt_endJob_ring (c := s.ctl) (st := stOk) ho ha (Ctl.jobAt_isSome.2 ⟨j, hj, rfl⟩)
    refine ⟨_, _, hrun, hat, rfl, rfl, fun late phase => Job.completion_status .., ?_, rfl, rfl, rfl⟩
    change (s.ctl.endJob j stOk).outbox = _
    rw [Ctl.endJob_ring ho ha, Ctl.putJob_outbox, Ctl.giveUp_outbox]
  · obtain ⟨hgone, b, hdone, hst⟩ := Ctl.endJob_ocs (st := stOk) ho ha hn hfenced hp
    exact ⟨_, b, hrun, hgone, hdone, hst, rfl, rfl, rfl⟩

end Sys2Proof.Machine
end

section
/-! Enables and doorbells of the rings (R87 to R90; log entries 46 and 52). -/

namespace Sys2Proof.Machine

/-! ## Bits of a word below a field that is replaced -/

theorem bitsOf_mod (f : Fld) (v : Nat) {n : Nat} (l : f.key % 32 + f.width ≤ n) : bitsOf f (v % 2 ^ n) = bitsOf f v := by
  simp only [bitsOf, ← Nat.mod_mul_right_div_self, ← Nat.pow_add]
  rw [Nat.mod_mod_of_dvd _ (Nat.pow_dvd_pow 2 l)]

theorem bitsOf_withBits_below {f g : Fld} (x v : Nat) (l : g.key % 32 + g.width ≤ f.key % 32) :
    bitsOf g (withBits f x v) = bitsOf g v := by
  rw [← bitsOf_mod g _ l, withBits_eq, Nat.mul_add_mod, Nat.mod_mod, bitsOf_mod g v l]

/-! ## The registers JRG_SQ_CFG_q and JRG_CQ_CFG_q -/

/-- A write of a ring's configuration writes its fields, strays, and starts what `Ctl.afterWrite` says. -/
theorem Ctl.writeReg_ringCfg {c : Ctl} {h : Head} {off b v : Nat} {rows : List FieldRow} (fields : sharedReg off = some (rows, b, 0))
    (inside : 0x111000 ≤ off ∧ off < 0x113000) : c.writeReg h off v true =
      ((rows.foldl (fun c r => c.writeField r (r.fld.key - b * 8) 0 v true) c).strayRing c off).afterWrite c h off v :=
  writeReg_plain fields (by simp [hiddenReg]; omega) (by unfold plainOffset; omega)

/-- Inside the ring registers a write starts nothing but what the ring's own configuration does. -/
theorem Ctl.afterWrite_ring {c old : Ctl} {h : Head} {off v q : Nat} {sq : Bool} (inside : 0x111000 ≤ off ∧ off < 0x113000)
    (ring : ringAt off = some (sq, q)) : c.afterWrite old h off v =
      if sq then (if off = offsetOf (R.JRG_SQ_CFG_ENABLE q) then c.sqCfgWritten q (old.flag (R.JRG_SQ_CFG_ENABLE q)) else c)
      else if off = offsetOf (R.JRG_CQ_CFG_ENABLE q) then c.cqCfgWritten q (old.flag (R.JRG_CQ_CFG_ENABLE q)) else c := by
  have idle : off ∉ startOffsets := by
    intro m
    have outside : ∀ x ∈ startOffsets, ¬(0x111000 ≤ x ∧ x < 0x113000) := by decide +kernel
    exact outside off m inside
  have lane (k : Prop) : ¬(0xE0000 ≤ off ∧ off < 0xF0000 ∧ k) := by omega
  simp only [startOffsets, List.map_cons, List.map_nil, List.mem_cons, List.not_mem_nil, or_false, not_or] at idle
  simp only [afterWrite, rejectAt, idle, lane, ring, if_false, decide_false, Bool.false_and, Bool.false_eq_true, Option.isSome_none]

/-- The fields of JRG_SQ_CFG_q and of JRG_CQ_CFG_q, by access type. -/
def sqCfgRows (q : Nat) : List FieldRow := [⟨R.JRG_SQ_CFG_ENABLE q, .rw, true⟩, ⟨R.JRG_SQ_CFG_ERR q, .w1c, false⟩,
  ⟨R.JRG_SQ_CFG_CQ q, .rw, true⟩, ⟨R.JRG_SQ_CFG_SIZE q, .rw, true⟩]
def cqCfgRows (q : Nat) : List FieldRow := [⟨R.JRG_CQ_CFG_ENABLE q, .rw, true⟩, ⟨R.JRG_CQ_CFG_ERR q, .w1c, false⟩,
  ⟨R.JRG_CQ_CFG_VECTOR q, .rw, true⟩, ⟨R.JRG_CQ_CFG_IEN q, .rw, true⟩, ⟨R.JRG_CQ_CFG_SIZE q, .rw, true⟩]

/-- Some fields are those of one 32-bit register at a byte address, no two of them at the same place. -/
def oneWord (rows : List FieldRow) (b : Nat) : Prop := (rows.map fun r => r.fld.key).Nodup ∧
  ∀ r ∈ rows, 0 < r.fld.width ∧ r.fld.key - b * 8 = r.fld.key % 32 ∧ r.fld.key % 32 + r.fld.width ≤ 32

theorem sharedReg_sqCfg : ∀ q : Fin 64, sharedReg (0x111008 + 0x40 * q) = some (sqCfgRows q, 0x111008 + 0x40 * q.val, 0) := by
  decide +kernel
theorem sharedReg_cqCfg : ∀ q : Fin 64, sharedReg (0x112008 + 0x40 * q) = some (cqCfgRows q, 0x112008 + 0x40 * q.val, 0) := by
  decide +kernel

theorem oneWord_sqCfg : ∀ q : Fin 64, oneWord (sqCfgRows q) (0x111008 + 0x40 * q) := by unfold oneWord; decide +kernel
theorem oneWord_cqCfg : ∀ q : Fin 64, oneWord (cqCfgRows q) (0x112008 + 0x40 * q) := by unfold oneWord; decide +kernel

theorem offsetOf_sqCfg (q : Fin 64) : offsetOf (R.JRG_SQ_CFG_ENABLE q) = 0x111008 + 0x40 * q := by
  simp only [offsetOf, R.JRG_SQ_CFG_ENABLE]; omega

theorem offsetOf_cqCfg (q : Fin 64) : offsetOf (R.JRG_CQ_CFG_ENABLE q) = 0x112008 + 0x40 * q := by
  simp only [offsetOf, R.JRG_CQ_CFG_ENABLE]; omega

theorem ringAt_sqCfg (q : Fin 64) : ringAt (0x111008 + 0x40 * q) = some (true, q.val) := by
  rw [ringAt, if_pos (by omega)]
  congr 2; omega

theorem ringAt_cqCfg (q : Fin 64) : ringAt (0x112008 + 0x40 * q) = some (false, q.val) := by
  rw [ringAt, if_neg (by omega), if_pos (by omega)]
  congr 2; omega

/-- The fields of a register's word written one after the other. -/
def Ctl.putRows (c : Ctl) (rows : List FieldRow) (b v : Nat) : Ctl :=
  rows.foldl (fun c r => c.writeField r (r.fld.key - b * 8) 0 v true) c

theorem Ctl.setsOnly_putRows (c : Ctl) (rows : List FieldRow) (b v : Nat) : c.setsOnly (c.putRows rows b v) (rows.map FieldRow.fld) := by
  suffices h : ∀ (l : List FieldRow) (d : Ctl), l ⊆ rows → c.setsOnly d (rows.map FieldRow.fld) →
      c.setsOnly (d.putRows l b v) (rows.map FieldRow.fld) from h rows c (List.Subset.refl _) (c.setsOnly_refl _)
  intro l
  induction l with
  | nil => exact fun d _ k => k
  | cons r t ih =>
    intro d sub k
    obtain ⟨hr, ht⟩ := List.cons_subset.1 sub
    exact ih _ ht (k.writeField _ _ _ _ (.inr (.inr (List.mem_map_of_mem hr))))

/-- A read-write field holds its bits of the word. -/
theorem Ctl.get_putRows {rows : List FieldRow} {b : Nat} {r : FieldRow} (c : Ctl) (v : Nat) (word : oneWord rows b) (m : r ∈ rows)
    (acc : r.acc = .rw) : (c.putRows rows b v).get r.fld = bitsOf r.fld v := by
  obtain ⟨apart, fits⟩ := word
  obtain ⟨w, pos, l⟩ := fits r m
  clear fits
  induction rows generalizing c with
  | nil => cases m
  | cons x t ih =>
    obtain ⟨hx, ht⟩ := List.nodup_cons.1 apart
    change ((c.writeField x (x.fld.key - b * 8) 0 v true).putRows t b v).get r.fld = _
    rcases List.mem_cons.1 m with rfl | m
    · rw [(setsOnly_putRows _ t b v).1, pos, c.writeField_rw v acc w l, get_set_same, bitsOf, Nat.mod_mod]
      intro y hy e
      obtain ⟨z, hz, rfl⟩ := List.mem_map.1 hy
      exact hx (List.mem_map.2 ⟨z, hz, e⟩)
    · exact ih _ m ht

theorem Ctl.writeReg_sqCfg (c : Ctl) (h : Head) (q : Fin 64) (v : Nat) : c.writeReg h (0x111008 + 0x40 * q) v true =
    ((c.putRows (sqCfgRows q) (0x111008 + 0x40 * q) v).strayRing c (0x111008 + 0x40 * q)).sqCfgWritten q
      (c.flag (R.JRG_SQ_CFG_ENABLE q)) := by
  rw [writeReg_ringCfg (sharedReg_sqCfg q) (by omega), afterWrite_ring (by omega) (ringAt_sqCfg q), if_pos rfl,
    if_pos (offsetOf_sqCfg q).symm]
  rfl

theorem Ctl.writeReg_cqCfg (c : Ctl) (h : Head) (q : Fin 64) (v : Nat) : c.writeReg h (0x112008 + 0x40 * q) v true =
    ((c.putRows (cqCfgRows q) (0x112008 + 0x40 * q) v).strayRing c (0x112008 + 0x40 * q)).cqCfgWritten q
      (c.flag (R.JRG_CQ_CFG_ENABLE q)) := by
  rw [writeReg_ringCfg (sharedReg_cqCfg q) (by omega), afterWrite_ring (by omega) (ringAt_cqCfg q), if_neg Bool.false_ne_true,
    if_pos (offsetOf_cqCfg q).symm]
  rfl

/-! ## What does not stray -/

/-- A write of a ring that was disabled strays in nothing. -/
theorem Ctl.strayRing_disabled {c old : Ctl} {off q : Nat} {sq : Bool} (ring : ringAt off = some (sq, q))
    (hoff : old.get (if sq then R.JRG_SQ_CFG_ENABLE q else R.JRG_CQ_CFG_ENABLE q) = 0) : c.strayRing old off = c := by
  cases sq <;> simp_all [strayRing, flag]

/-- A write that leaves BASE, SIZE and CQ of an SQ as they were strays in nothing. -/
theorem Ctl.strayRing_sq_same {c old : Ctl} {off q : Nat} (ring : ringAt off = some (true, q))
    (base : c.get (R.JRG_SQ_BASE_BASE q) = old.get (R.JRG_SQ_BASE_BASE q))
    (size : c.get (R.JRG_SQ_CFG_SIZE q) = old.get (R.JRG_SQ_CFG_SIZE q))
    (cq : c.get (R.JRG_SQ_CFG_CQ q) = old.get (R.JRG_SQ_CFG_CQ q)) : c.strayRing old off = c := by
  simp only [strayRing, ring, List.foldl_cons, List.foldl_nil, strayField_of_eq base, strayField_of_eq size, strayCq_of_eq cq, ite_self]

theorem Ctl.strayRing_cq_same {c old : Ctl} {off q : Nat} (ring : ringAt off = some (false, q))
    (base : c.get (R.JRG_CQ_BASE_BASE q) = old.get (R.JRG_CQ_BASE_BASE q))
    (size : c.get (R.JRG_CQ_CFG_SIZE q) = old.get (R.JRG_CQ_CFG_SIZE q)) : c.strayRing old off = c := by
  simp only [strayRing, ring, List.foldl_cons, List.foldl_nil, strayField_of_eq base, strayField_of_eq size, ite_self]

/-! ## The four writes -/

theorem sizeOk_ne_zero {n : Nat} (h : sizeOk n = true) : n ≠ 0 := by
  rintro rfl
  exact absurd h (by decide)

/-- ENABLE written 1 in a disabled SQ. -/
theorem Ctl.sqCfgWritten_on {c : Ctl} {q : Nat} (on : c.get (R.JRG_SQ_CFG_ENABLE q) = 1)
    (size : sizeOk (c.get (R.JRG_SQ_CFG_SIZE q)) = true) : c.sqCfgWritten q false =
      if c.get (R.JRG_CQ_CFG_ENABLE (c.get (R.JRG_SQ_CFG_CQ q))) ≠ 0 ∧ c.cqOwner (c.get (R.JRG_SQ_CFG_CQ q)) = c.sqOwner q
      then c.sqEnable q else (c.set (R.JRG_SQ_CFG_ENABLE q) 0).set (R.JRG_SQ_CFG_ERR q) 1 := by
  simp only [sqCfgWritten, sqOk, flag, on, size, sizeOk_ne_zero size]
  simp

theorem Ctl.cqCfgWritten_on {c : Ctl} {q : Nat} (on : c.get (R.JRG_CQ_CFG_ENABLE q) = 1)
    (size : sizeOk (c.get (R.JRG_CQ_CFG_SIZE q)) = true) : c.cqCfgWritten q false = c.cqEnable q := by
  simp [cqCfgWritten, flag, on, size, sizeOk_ne_zero size]

theorem Ctl.sqCfgWritten_off {c : Ctl} {q : Nat} (off : c.get (R.JRG_SQ_CFG_ENABLE q) = 0) : c.sqCfgWritten q true = c.sqDisable q := by
  simp [sqCfgWritten, flag, off]

theorem Ctl.cqCfgWritten_off {c : Ctl} {q : Nat} (off : c.get (R.JRG_CQ_CFG_ENABLE q) = 0) : c.cqCfgWritten q true =
    if c.cqFreed q = true then c else (c.set (R.JRG_CQ_CFG_ENABLE q) 1).set (R.JRG_CQ_CFG_ERR q) 1 := by
  cases hf : c.cqFreed q <;> simp [cqCfgWritten, flag, off, hf]

theorem Ctl.sqCfg_fields (c : Ctl) (q : Fin 64) (x : Nat) (w : Nat) :
    let d := c.putRows (sqCfgRows q) (0x111008 + 0x40 * q) (withBits (R.JRG_SQ_CFG_ENABLE q) x w)
    d.get (R.JRG_SQ_CFG_ENABLE q) = x % 2 ∧ d.get (R.JRG_SQ_CFG_CQ q) = bitsOf (R.JRG_SQ_CFG_CQ q) w ∧
      d.get (R.JRG_SQ_CFG_SIZE q) = bitsOf (R.JRG_SQ_CFG_SIZE q) w := by
  have holds {r : FieldRow} (m : r ∈ sqCfgRows q) (acc : r.acc = .rw) :=
    c.get_putRows (withBits (R.JRG_SQ_CFG_ENABLE q) x w) (oneWord_sqCfg q) m acc
  refine ⟨(holds (r := ⟨R.JRG_SQ_CFG_ENABLE q, .rw, true⟩) (by simp [sqCfgRows]) rfl).trans (bitsOf_withBits _ _ _),
    (holds (r := ⟨R.JRG_SQ_CFG_CQ q, .rw, true⟩) (by simp [sqCfgRows]) rfl).trans (bitsOf_withBits_below _ _ ?_),
    (holds (r := ⟨R.JRG_SQ_CFG_SIZE q, .rw, true⟩) (by simp [sqCfgRows]) rfl).trans (bitsOf_withBits_below _ _ ?_)⟩
  · simp only [R.JRG_SQ_CFG_CQ, R.JRG_SQ_CFG_ENABLE]; omega
  · simp only [R.JRG_SQ_CFG_SIZE, R.JRG_SQ_CFG_ENABLE]; omega

theorem Ctl.cqCfg_fields (c : Ctl) (q : Fin 64) (x : Nat) (w : Nat) :
    let d := c.putRows (cqCfgRows q) (0x112008 + 0x40 * q) (withBits (R.JRG_CQ_CFG_ENABLE q) x w)
    d.get (R.JRG_CQ_CFG_ENABLE q) = x % 2 ∧ d.get (R.JRG_CQ_CFG_SIZE q) = bitsOf (R.JRG_CQ_CFG_SIZE q) w := by
  have holds {r : FieldRow} (m : r ∈ cqCfgRows q) (acc : r.acc = .rw) :=
    c.get_putRows (withBits (R.JRG_CQ_CFG_ENABLE q) x w) (oneWord_cqCfg q) m acc
  refine ⟨(holds (r := ⟨R.JRG_CQ_CFG_ENABLE q, .rw, true⟩) (by simp [cqCfgRows]) rfl).trans (bitsOf_withBits _ _ _),
    (holds (r := ⟨R.JRG_CQ_CFG_SIZE q, .rw, true⟩) (by simp [cqCfgRows]) rfl).trans (bitsOf_withBits_below _ _ ?_)⟩
  simp only [R.JRG_CQ_CFG_SIZE, R.JRG_CQ_CFG_ENABLE]; omega

/-- A write of JRG_SQ_CFG_q changes no field of another place. -/
theorem Ctl.sqCfg_kept (c : Ctl) (q : Fin 64) (v : Nat) {x : Fld}
    (n : x.key < 8945728 + 512 * q ∨ 8945760 + 512 * q ≤ x.key) :
    (c.putRows (sqCfgRows q) (0x111008 + 0x40 * q) v).get x = c.get x := by
  refine (c.setsOnly_putRows _ _ v).1 x ?_
  simp only [sqCfgRows, List.map_cons, List.map_nil, List.forall_mem_cons, R.JRG_SQ_CFG_ENABLE, R.JRG_SQ_CFG_ERR, R.JRG_SQ_CFG_CQ,
    R.JRG_SQ_CFG_SIZE]
  refine ⟨?_, ?_, ?_, ?_, by simp⟩ <;> omega

theorem Ctl.cqCfg_kept (c : Ctl) (q : Fin 64) (v : Nat) {x : Fld}
    (n : x.key < 8978496 + 512 * q ∨ 8978528 + 512 * q ≤ x.key) :
    (c.putRows (cqCfgRows q) (0x112008 + 0x40 * q) v).get x = c.get x := by
  refine (c.setsOnly_putRows _ _ v).1 x ?_
  simp only [cqCfgRows, List.map_cons, List.map_nil, List.forall_mem_cons, R.JRG_CQ_CFG_ENABLE, R.JRG_CQ_CFG_ERR,
    R.JRG_CQ_CFG_VECTOR, R.JRG_CQ_CFG_IEN, R.JRG_CQ_CFG_SIZE]
  refine ⟨?_, ?_, ?_, ?_, ?_, by simp⟩ <;> omega

theorem Ctl.sqOwner_congr {c d : Ctl} (e : d.get R.JRG_OWNER_SQ_OWNER = c.get R.JRG_OWNER_SQ_OWNER) (q : Nat) :
    d.sqOwner q = c.sqOwner q := by rw [sqOwner, sqOwner, e]
theorem Ctl.cqOwner_congr {c d : Ctl} (e : d.get R.JRG_OWNER_CQ_OWNER = c.get R.JRG_OWNER_CQ_OWNER) (q : Nat) :
    d.cqOwner q = c.cqOwner q := by rw [cqOwner, cqOwner, e]

/-- Whether a CQ is freed reads nothing of its own configuration (R89). -/
theorem Ctl.cqFreed_congr {c d : Ctl} {q : Nat} (jobs : d.job = c.job) (kept : ∀ x : Fld, x.key < 8978432 → d.get x = c.get x) :
    d.cqFreed q = c.cqFreed q := by
  have cfg (n : Nat) (l : n < 64) : d.get (R.JRG_SQ_CFG_CQ n) = c.get (R.JRG_SQ_CFG_CQ n) ∧
      d.get (R.JRG_SQ_CFG_ENABLE n) = c.get (R.JRG_SQ_CFG_ENABLE n) :=
    ⟨kept _ (by simp only [R.JRG_SQ_CFG_CQ]; omega), kept _ (by simp only [R.JRG_SQ_CFG_ENABLE]; omega)⟩
  rw [Bool.eq_iff_iff]
  simp only [cqFreed, List.all_eq_true]
  refine forall₂_congr fun n m => ?_
  obtain ⟨hcq, hon⟩ := cfg n (List.mem_range.1 m)
  simp [hcq, flag, hon, sqInFlight, jobs]

/-- An enable of a disabled SQ, by its CQ. -/
theorem sqEnable_reached {h : Head} {q : Fin 64} {w : Word} {s : State} (r : s.reached h (R.JRG_SQ_CFG_ENABLE q) 1 w)
    (was : s.ctl.get (R.JRG_SQ_CFG_ENABLE q) = 0) (size : sizeOk (bitsOf (R.JRG_SQ_CFG_SIZE q) w.toNat) = true) :
    ∃ d t : Ctl, exec (.sqEnable h q w) s = .next { s with ctl := t } ∧
      t = if s.ctl.get (R.JRG_CQ_CFG_ENABLE (bitsOf (R.JRG_SQ_CFG_CQ q) w.toNat)) ≠ 0 ∧
          s.ctl.cqOwner (bitsOf (R.JRG_SQ_CFG_CQ q) w.toNat) = s.ctl.sqOwner q then d.sqEnable q
        else (d.set (R.JRG_SQ_CFG_ENABLE q) 0).set (R.JRG_SQ_CFG_ERR q) 1 := by
  obtain ⟨hon, hcq, hsize⟩ := s.ctl.sqCfg_fields q 1 w.toNat
  have kept {x : Fld} := s.ctl.sqCfg_kept q (withBits (R.JRG_SQ_CFG_ENABLE q) 1 w.toNat) (x := x)
  refine ⟨s.ctl.putRows (sqCfgRows q) (0x111008 + 0x40 * q) (withBits (R.JRG_SQ_CFG_ENABLE q) 1 w.toNat), _,
    writeBarField_reached r (by simp only [R.JRG_SQ_CFG_ENABLE]; omega) (by rw [offsetOf_sqCfg]; omega), ?_⟩
  have hflag : s.ctl.flag (R.JRG_SQ_CFG_ENABLE q) = false := by simp [Ctl.flag, was]
  rw [offsetOf_sqCfg, Ctl.writeReg_sqCfg, Ctl.strayRing_disabled (ringAt_sqCfg q) was, hflag,
    Ctl.sqCfgWritten_on hon (by rwa [hsize]), hcq]
  rw [kept (x := R.JRG_CQ_CFG_ENABLE _) (by simp only [R.JRG_CQ_CFG_ENABLE]; omega),
    Ctl.cqOwner_congr (kept (by simp only [R.JRG_OWNER_CQ_OWNER]; omega)),
    Ctl.sqOwner_congr (kept (by simp only [R.JRG_OWNER_SQ_OWNER]; omega))]

theorem cqEnable_reached {h : Head} {q : Fin 64} {w : Word} {s : State} (r : s.reached h (R.JRG_CQ_CFG_ENABLE q) 1 w)
    (was : s.ctl.get (R.JRG_CQ_CFG_ENABLE q) = 0) (size : sizeOk (bitsOf (R.JRG_CQ_CFG_SIZE q) w.toNat) = true) :
    ∃ d t : Ctl, exec (.cqEnable h q w) s = .next { s with ctl := t } ∧ t = d.cqEnable q := by
  obtain ⟨hon, hsize⟩ := s.ctl.cqCfg_fields q 1 w.toNat
  refine ⟨s.ctl.putRows (cqCfgRows q) (0x112008 + 0x40 * q) (withBits (R.JRG_CQ_CFG_ENABLE q) 1 w.toNat), _,
    writeBarField_reached r (by simp only [R.JRG_CQ_CFG_ENABLE]; omega) (by rw [offsetOf_cqCfg]; omega), ?_⟩
  have hflag : s.ctl.flag (R.JRG_CQ_CFG_ENABLE q) = false := by simp [Ctl.flag, was]
  rw [offsetOf_cqCfg, Ctl.writeReg_cqCfg, Ctl.strayRing_disabled (ringAt_cqCfg q) was, hflag,
    Ctl.cqCfgWritten_on hon (by rwa [hsize])]

theorem sqDisable_reached {h : Head} {q : Fin 64} {w : Word} {s : State} (r : s.reached h (R.JRG_SQ_CFG_ENABLE q) 0 w)
    (was : s.ctl.get (R.JRG_SQ_CFG_ENABLE q) = 1)
    (size : s.ctl.get (R.JRG_SQ_CFG_SIZE q) = bitsOf (R.JRG_SQ_CFG_SIZE q) w.toNat)
    (cq : s.ctl.get (R.JRG_SQ_CFG_CQ q) = bitsOf (R.JRG_SQ_CFG_CQ q) w.toNat) :
    ∃ d t : Ctl, d.job = s.ctl.job ∧ exec (.sqDisable h q w) s = .next { s with ctl := t } ∧ t = d.sqDisable q := by
  obtain ⟨hoff, hcq, hsize⟩ := s.ctl.sqCfg_fields q 0 w.toNat
  have base := s.ctl.sqCfg_kept q (withBits (R.JRG_SQ_CFG_ENABLE q) 0 w.toNat) (x := R.JRG_SQ_BASE_BASE q)
    (by simp only [R.JRG_SQ_BASE_BASE]; omega)
  refine ⟨s.ctl.putRows (sqCfgRows q) (0x111008 + 0x40 * q) (withBits (R.JRG_SQ_CFG_ENABLE q) 0 w.toNat), _, ?_,
    writeBarField_reached r (by simp only [R.JRG_SQ_CFG_ENABLE]; omega) (by rw [offsetOf_sqCfg]; omega), ?_⟩
  rotate_left
  · have hflag : s.ctl.flag (R.JRG_SQ_CFG_ENABLE q) = true := by simp [Ctl.flag, was]
    rw [offsetOf_sqCfg, Ctl.writeReg_sqCfg, Ctl.strayRing_sq_same (ringAt_sqCfg q) base (hsize.trans size.symm) (hcq.trans cq.symm),
      hflag, Ctl.sqCfgWritten_off hoff]
  · rw [(s.ctl.setsOnly_putRows _ _ _).2]

theorem cqDisable_reached {h : Head} {q : Fin 64} {w : Word} {s : State} (r : s.reached h (R.JRG_CQ_CFG_ENABLE q) 0 w)
    (was : s.ctl.get (R.JRG_CQ_CFG_ENABLE q) = 1)
    (size : s.ctl.get (R.JRG_CQ_CFG_SIZE q) = bitsOf (R.JRG_CQ_CFG_SIZE q) w.toNat) :
    ∃ d t : Ctl, d.get (R.JRG_CQ_CFG_ENABLE q) = 0 ∧ exec (.cqDisable h q w) s = .next { s with ctl := t } ∧
      t = if s.ctl.cqFreed q = true then d else (d.set (R.JRG_CQ_CFG_ENABLE q) 1).set (R.JRG_CQ_CFG_ERR q) 1 := by
  obtain ⟨hoff, hsize⟩ := s.ctl.cqCfg_fields q 0 w.toNat
  have kept {x : Fld} := s.ctl.cqCfg_kept q (withBits (R.JRG_CQ_CFG_ENABLE q) 0 w.toNat) (x := x)
  refine ⟨s.ctl.putRows (cqCfgRows q) (0x112008 + 0x40 * q) (withBits (R.JRG_CQ_CFG_ENABLE q) 0 w.toNat), _, hoff,
    writeBarField_reached r (by simp only [R.JRG_CQ_CFG_ENABLE]; omega) (by rw [offsetOf_cqCfg]; omega), ?_⟩
  have hflag : s.ctl.flag (R.JRG_CQ_CFG_ENABLE q) = true := by simp [Ctl.flag, was]
  rw [offsetOf_cqCfg, Ctl.writeReg_cqCfg, Ctl.strayRing_cq_same (ringAt_cqCfg q)
    (kept (by simp only [R.JRG_CQ_BASE_BASE]; omega)) (hsize.trans size.symm), hflag, Ctl.cqCfgWritten_off hoff,
    Ctl.cqFreed_congr (c := s.ctl) (by rw [(s.ctl.setsOnly_putRows _ _ _).2]) fun x l => kept (by omega)]

/-! ## Doorbells -/

/-- A doorbell of an unfenced head with expert level on a secure stream is dropped and counted when its ring is foreign or disabled, and
else performed (R87, R90). -/
theorem Ctl.doorbellDrops_expert {c : Ctl} {h : Head} (owner : Head) (enabled : Bool) (hf : c.fenced h = false)
    (hio : c.ioRefused h ((c.hd h).bar2 + 0x10000) = false) (he : c.expert h = true) : c.doorbellDrops h owner enabled =
      if owner ≠ h ∨ enabled = false then some (c.dropCount h R.JRG_FOREIGN_DROP_CNT_A_DROPS R.JRG_FOREIGN_DROP_CNT_B_DROPS)
      else none := by
  simp only [doorbellDrops, hf, hio, he, Bool.or_self, Bool.not_true, Bool.false_eq_true, if_false]

theorem Ctl.doorbellIndex_of_lt {c : Ctl} {size i : Nat} (hi : i < 65536) (l : i < size) : c.doorbellIndex size i = (i, c) := by
  simp [doorbellIndex, Nat.mod_eq_of_lt hi, Nat.not_le.2 l]

@[simp] theorem Ctl.ring_setRing (c : Ctl) (q : Nat) (r : RingSt) : (c.setRing q r).ring q = r := by simp [ring, setRing]
theorem Ctl.ring_setRing_ne (c : Ctl) {q p : Nat} (r : RingSt) (n : p ≠ q) : (c.setRing q r).ring p = c.ring p := by
  simp [ring, setRing, mapGet_mapPut_ne _ _ _ _ n]
@[simp] theorem Ctl.setRing_get (c : Ctl) (q : Nat) (r : RingSt) (x : Fld) : (c.setRing q r).get x = c.get x := rfl

/-- What the two doorbells share: dropped and counted, or the ring's record changed and nothing else. -/
theorem doorbell_cases {f : Ctl → Ctl} {i : Instr} {s : State} {h owner : Head} {q : Fin 64} {enable : Fld} {after : RingSt}
    (run : exec i s = .next (s.mapCtl f))
    (drops : owner ≠ h ∨ s.ctl.flag enable = false →
      f s.ctl = s.ctl.dropCount h R.JRG_FOREIGN_DROP_CNT_A_DROPS R.JRG_FOREIGN_DROP_CNT_B_DROPS)
    {p : Prop} (moves : owner = h → s.ctl.flag enable = true → p → f s.ctl = s.ctl.setRing q after) :
    (owner ≠ h ∨ s.ctl.flag enable = false → exec i s = .next
      (s.mapCtl fun c => c.dropCount h R.JRG_FOREIGN_DROP_CNT_A_DROPS R.JRG_FOREIGN_DROP_CNT_B_DROPS)) ∧
    (owner = h → s.ctl.flag enable = true → p → ∃ t, exec i s = .next t ∧ t.ctl.ring q = after ∧
      (∀ r : Fin 64, r ≠ q → t.ctl.ring r = s.ctl.ring r) ∧ t.ctl.regs = s.ctl.regs ∧ s.sameStack t) := by
  refine ⟨fun no => ?_, fun own on l => ?_⟩
  · rw [run, State.mapCtl, drops no]; rfl
  · have e := moves own on l
    refine ⟨_, run, ?_, fun r n => ?_, ?_, rfl, rfl, rfl⟩ <;> rw [State.mapCtl_ctl, e]
    · exact Ctl.ring_setRing _ _ _
    · exact Ctl.ring_setRing_ne _ _ fun e => n (Fin.ext e)
    · rfl

/-- Settles O16: each write of a configuration reaches its register and starts what its ENABLE says, and each doorbell moves its index. -/
theorem ringEnablesFollowTheirConfiguration : Obligations.RingEnablesFollowTheirConfiguration := by
  intro h q w s
  refine ⟨fun r was size => ?_, fun r was size cq => ?_, fun r was size => ?_, fun r was size => ?_, fun i hi hf hio he => ?_⟩
  · obtain ⟨d, t, run, rfl⟩ := sqEnable_reached r was size
    refine ⟨_, run, ⟨rfl, rfl, rfl⟩, ?_⟩
    dsimp only
    split
    · refine ⟨?_, ?_, ?_, ?_⟩ <;> simp [Ctl.sqEnable, Ctl.get_set, R.JRG_SQ_CFG_ENABLE, R.JRG_SQ_STATUS_HEAD, R.JRG_SQ_STATUS_FETCH_ERR]
    · constructor <;> simp [Ctl.get_set, R.JRG_SQ_CFG_ENABLE, R.JRG_SQ_CFG_ERR]
  · obtain ⟨d, t, jobs, run, rfl⟩ := sqDisable_reached r was size cq
    refine ⟨_, run, ?_, fun e m => ?_, ?_, rfl, rfl, rfl⟩
    · simp [Ctl.sqDisable]
    · simpa using (List.mem_filter.1 (show e ∈ d.job.fetches.filter fun e => decide (e.1 ≠ q.val) from m)).2
    · change d.job.jobs = _
      rw [jobs]
  · obtain ⟨d, t, run, rfl⟩ := cqEnable_reached r was size
    refine ⟨_, run, ?_, ?_, ?_, ?_, rfl, rfl, rfl⟩ <;>
      simp [Ctl.cqEnable, Ctl.get_set, R.JRG_CQ_CFG_ENABLE, R.JRG_CQ_STATUS_TAIL, R.JRG_CQ_STATUS_PHASE, R.JRG_CQ_STATUS_WRITE_ERR]
  · obtain ⟨d, t, off, run, rfl⟩ := cqDisable_reached r was size
    refine ⟨_, run, ⟨rfl, rfl, rfl⟩, ?_⟩
    dsimp only
    split
    · exact off
    · constructor <;> simp [Ctl.get_set, R.JRG_CQ_CFG_ENABLE, R.JRG_CQ_CFG_ERR]
  · have drops (owner : Head) (enabled : Bool) := Ctl.doorbellDrops_expert owner enabled hf hio he
    refine ⟨doorbell_cases rfl (fun no => ?_) fun own on l => ?_, doorbell_cases rfl (fun no => ?_) fun own on l => ?_⟩
    · simp only [sqDoorbell, drops, if_pos no]
    · simp [sqDoorbell, drops, own, on, Ctl.doorbellIndex_of_lt hi l]
    · simp only [cqDoorbell, drops, if_pos no]
    · simp [cqDoorbell, drops, own, on, Ctl.doorbellIndex_of_lt hi l]

end Sys2Proof.Machine
end

section
/-! SUPPORT. A new job in its slot (R85, R117, R118): what the checks of its own fields read, and what its admission changes. -/

namespace Sys2Proof.Machine

/-! ## The checks of R117 -/

/-- They read nothing of a job but its descriptor. -/
theorem Ctl.descBad_of_desc (c : Ctl) {i j : Job} (e : i.desc = j.desc) : c.descBad i = c.descBad j := by
  have bare (k : Job) : c.descBad k = c.descBad { slot := 0, owner := .a, desc := k.desc } := rfl
  rw [bare i, bare j, e]

theorem Job.hasList_of_desc {i j : Job} (e : i.desc = j.desc) : i.hasList = j.hasList := by
  have bare (k : Job) : k.hasList = Job.hasList { slot := 0, owner := .a, desc := k.desc } := rfl
  rw [bare i, bare j, e]

/-- Of the device they read the comb regions alone (R55). -/
theorem Ctl.descBad_congr {c d : Ctl} (part : d.part = c.part) (kept : ∀ x : Fld, 11536384 ≤ x.key → d.get x = c.get x) (j : Job) :
    d.descBad j = c.descBad j := by
  have on (n : Nat) : d.combOn n = c.combOn n := by
    simp only [combOn, flag, kept (R.MAP_COMB_LO_EN n) (by simp only [R.MAP_COMB_LO_EN]; omega),
      kept (R.MAP_COMB_HI_BANDS n) (by simp only [R.MAP_COMB_HI_BANDS]; omega)]
  have range (n : Nat) : d.combRange n = c.combRange n := by
    simp only [combRange, bandBytes, part, kept (R.MAP_COMB_LO_BASE_BAND n) (by simp only [R.MAP_COMB_LO_BASE_BAND]; omega),
      kept (R.MAP_COMB_HI_BANDS n) (by simp only [R.MAP_COMB_HI_BANDS]; omega)]
  have touches (lo len : Nat) : d.touchesComb lo len = c.touchesComb lo len := by simp only [touchesComb, on, range]
  simp only [descBad, stripeBad, touches]

/-! ## Admission -/

theorem Ctl.judgePause_eq (c : Ctl) : ∃ b r, c.judgePause = { c with job := { c.job with paused := b }, regs := r } ∧
    ∀ x : Fld, x.key ≠ R.CMB_JOB_SAT_CNT_PAUSES.key → c.judgePause.get x = c.get x := by
  unfold judgePause
  split
  · exact ⟨true, _, rfl, fun x n => (Ctl.get_bump_ne _ _ _ _ n).trans rfl⟩
  · exact ⟨c.job.paused, c.regs, rfl, fun x _ => rfl⟩

@[simp] theorem Ctl.judgePause_hd (c : Ctl) (h : Head) : c.judgePause.hd h = c.hd h := by
  obtain ⟨b, r, e, -⟩ := c.judgePause_eq; rw [e]; cases h <;> rfl
@[simp] theorem Ctl.judgePause_jobs (c : Ctl) : c.judgePause.job.jobs = c.job.jobs := by
  obtain ⟨b, r, e, -⟩ := c.judgePause_eq; rw [e]
@[simp] theorem Ctl.judgePause_part (c : Ctl) : c.judgePause.part = c.part := by
  obtain ⟨b, r, e, -⟩ := c.judgePause_eq; rw [e]
@[simp] theorem Ctl.judgePause_slotWaiters (c : Ctl) : c.judgePause.job.slotWaiters = c.job.slotWaiters := by
  obtain ⟨b, r, e, -⟩ := c.judgePause_eq; rw [e]
@[simp] theorem Ctl.judgePause_lastHandle (c : Ctl) (h : Head) : c.judgePause.lastHandle h = c.lastHandle h := by
  obtain ⟨b, r, e, -⟩ := c.judgePause_eq; rw [e]; cases h <;> rfl
theorem Ctl.judgePause_get (c : Ctl) {x : Fld} (n : x.key ≠ R.CMB_JOB_SAT_CNT_PAUSES.key) : c.judgePause.get x = c.get x := by
  obtain ⟨b, r, -, k⟩ := c.judgePause_eq; exact k x n

/-- A job holds its slot, not judged yet. -/
def Ctl.holdSlot (c : Ctl) (j : Job) : Ctl := ({ c with job := { c.job with jobs := c.job.jobs ++ [j], seq := c.job.seq + 1 } }).judgePause

@[simp] theorem Ctl.holdSlot_hd (c : Ctl) (j : Job) (h : Head) : (c.holdSlot j).hd h = c.hd h := by
  rw [holdSlot, judgePause_hd]; cases h <;> rfl
@[simp] theorem Ctl.holdSlot_jobs (c : Ctl) (j : Job) : (c.holdSlot j).job.jobs = c.job.jobs ++ [j] := judgePause_jobs _
@[simp] theorem Ctl.holdSlot_slotWaiters (c : Ctl) (j : Job) : (c.holdSlot j).job.slotWaiters = c.job.slotWaiters :=
  judgePause_slotWaiters _
@[simp] theorem Ctl.holdSlot_lastHandle (c : Ctl) (j : Job) (h : Head) : (c.holdSlot j).lastHandle h = c.lastHandle h := by
  rw [holdSlot, judgePause_lastHandle]; cases h <;> rfl
theorem Ctl.holdSlot_get (c : Ctl) (j : Job) {x : Fld} (n : x.key ≠ R.CMB_JOB_SAT_CNT_PAUSES.key) : (c.holdSlot j).get x = c.get x :=
  (Ctl.judgePause_get _ n).trans rfl

theorem Ctl.jobAt_holdSlot {c : Ctl} {j : Job} (h : c.jobAt j.slot = none) : (c.holdSlot j).jobAt j.slot = some j :=
  jobAt_append h (c.holdSlot_jobs j)

theorem Ctl.descBad_holdSlot (c : Ctl) (j k : Job) : (c.holdSlot j).descBad k = c.descBad k :=
  descBad_congr (judgePause_part _) (fun _ l => c.holdSlot_get j (by simp only [R.CMB_JOB_SAT_CNT_PAUSES]; omega)) k

theorem Ctl.judgeNew_bad {c : Ctl} {j : Job} (h : c.descBad j = true) : c.judgeNew j = (c.holdSlot j).endJob j stInvalid := by
  change (if (c.holdSlot j).descBad j = true then _ else _) = _
  rw [if_pos ((c.descBad_holdSlot j j).trans h)]
  rfl

theorem Ctl.judgeNew_ready {c : Ctl} {j : Job} (h : c.descBad j = false) (l : j.hasList = false) : c.judgeNew j = c.holdSlot j := by
  change (if (c.holdSlot j).descBad j = true then _ else if j.hasList = true then _ else c.holdSlot j) = _
  rw [if_neg (by rw [descBad_holdSlot, h]; decide), if_neg (by rw [l]; decide)]

/-! ## The job of a descriptor -/

@[simp] theorem Ctl.makeJob_desc (c : Ctl) (slot : Nat) (h : Head) (p : Bytes) : (c.makeJob slot h p).desc = padTo 128 p := rfl
@[simp] theorem Ctl.makeJob_slot (c : Ctl) (slot : Nat) (h : Head) (p : Bytes) : (c.makeJob slot h p).slot = slot := rfl
@[simp] theorem Ctl.makeJob_owner (c : Ctl) (slot : Nat) (h : Head) (p : Bytes) : (c.makeJob slot h p).owner = h := rfl
@[simp] theorem Ctl.makeJob_phase (c : Ctl) (slot : Nat) (h : Head) (p : Bytes) : (c.makeJob slot h p).phase = .ready := rfl
@[simp] theorem Ctl.makeJob_aborter (c : Ctl) (slot : Nat) (h : Head) (p : Bytes) : (c.makeJob slot h p).aborter = none := rfl
@[simp] theorem Ctl.makeJob_ocs (c : Ctl) (slot : Nat) (h : Head) (p : Bytes) : (c.makeJob slot h p).ocs = false := rfl

theorem padTo_of_length {n : Nat} {p : Bytes} (h : p.length = n) : padTo n p = p := by
  rw [padTo, ← h, List.take_left']
  rfl

/-- The lowest slot that no job holds is the free one (R85). -/
theorem Ctl.freeSlot_eq {c : Ctl} {k : Nat} (l : k < 4096) (free : c.jobAt k = none) (held : ∀ i, i < k → (c.jobAt i).isSome = true) :
    c.freeSlot = some k := by
  rw [freeSlot, List.find?_range_eq_some]
  refine ⟨by simp [free], by simpa using l, fun i hi => ?_⟩
  simpa [Option.isSome_iff_ne_none] using held i hi

end Sys2Proof.Machine
end

section
/-! SUPPORT. What the answer of a mailbox command changes (R290, R291), and the gate it has passed. -/

namespace Sys2Proof.Machine

theorem HeadSt.onlyReplies_refl (x : HeadSt) : x.onlyReplies x := rfl

theorem HeadSt.onlyReplies.trans {x y z : HeadSt} (a : x.onlyReplies y) (b : y.onlyReplies z) : x.onlyReplies z := by
  rw [onlyReplies] at *
  rw [b, a]

theorem Ctl.onlyReplies_refl (c : Ctl) : c.onlyReplies c := ⟨rfl, fun _ => HeadSt.onlyReplies_refl _⟩

theorem Ctl.onlyReplies.trans {c d e : Ctl} (a : c.onlyReplies d) (b : d.onlyReplies e) : c.onlyReplies e := by
  obtain ⟨a, ha⟩ := a
  obtain ⟨b, hb⟩ := b
  exact ⟨by rw [b, a], fun h => (ha h).trans (hb h)⟩

/-- A change of one head that is a reply changes nothing else. -/
theorem Ctl.onlyReplies_setHd {c : Ctl} {h : Head} {x : HeadSt} (r : (c.hd h).onlyReplies x) : c.onlyReplies (c.setHd h x) := by
  refine ⟨by cases h <;> rfl, fun k => ?_⟩
  by_cases e : k = h
  · rw [e, setHd_hd]; exact r
  · rw [setHd_hd_ne _ _ _ _ e]; exact HeadSt.onlyReplies_refl _

theorem Ctl.onlyReplies_msix (c : Ctl) (h : Head) (v : Nat) : c.onlyReplies (c.msix h v) := by
  rw [c.msix_frame h v]
  refine (onlyReplies_setHd (h := h) (x := (c.msix h v).hd h) ?_).trans ⟨rfl, fun k => ?_⟩
  · rw [HeadSt.onlyReplies, c.msix_kept h v]
  · cases k <;> exact HeadSt.onlyReplies_refl _

/-- A mailbox changed, a message sent and the claims changed. -/
theorem Ctl.onlyReplies_mbox (c : Ctl) (h : Head) (f : Mailbox → Mailbox) (cl : List (Nat × Head)) (ob : List Out) :
    c.onlyReplies { c.modHd h (fun x => { x with mbox := f x.mbox }) with claims := cl, outbox := ob } :=
  (onlyReplies_setHd (h := h) (x := { c.hd h with mbox := f (c.hd h).mbox }) rfl).trans
    ⟨rfl, fun k => by cases k <;> exact HeadSt.onlyReplies_refl _⟩

/-- The completion of a mailbox command is a reply and nothing else. -/
theorem Ctl.onlyReplies_finish (c : Ctl) (h : Head) (op : Nat) (o : Ocs) (out : Bytes) : c.onlyReplies (c.finish h op o out) := by
  have put := c.onlyReplies_mbox h (fun x => { x with pend := none, last := some ⟨op, o.rc, o.num, out⟩ })
    (c.claims.filter fun e => decide (e.2 ≠ h) || decide (256 ≤ e.1)) (.mailbox h ⟨op, o.rc, o.num, out⟩ :: c.outbox)
  unfold finish finishAs
  dsimp only
  split
  · refine Ctl.onlyReplies.trans ?_ (onlyReplies_msix _ _ _)
    convert put using 1
    cases h <;> rfl
  · convert put using 1
    cases h <;> rfl

theorem State.replied_finish (s : State) (c : Ctl) (h : Head) (op : Nat) (o : Ocs) (out : Bytes) :
    ({ s with ctl := c.finish h op o out } : State).replied h op o out := ⟨c.finish_last h op o out, c.finish_pend h op o out⟩

/-- A command that only answers. -/
theorem State.answers {s : State} {h : Head} {op : Nat} {o : Ocs} {out : Bytes} {i : Instr}
    (run : exec i s = .next { s with ctl := s.ctl.finish h op o out }) :
    ∃ t, exec i s = .next t ∧ t.replied h op o out ∧ s.frame Ctl.onlyReplies t :=
  ⟨_, run, s.replied_finish s.ctl h op o out, s.ctl.onlyReplies_finish h op o out, rfl, rfl, rfl⟩

/-- What a command that has passed the gate may rely on (R248, R290, R292). -/
theorem Ctl.gate_none {c : Ctl} {h : Head} {k : CmdKind} {p : Bytes} (g : c.gate h k p = none) :
    (c.fenced h = true → k.whileFenced = true) ∧ k.min ≤ p.length := by
  unfold gate at g
  split at g
  · cases g
  split at g
  · cases g
  next hf =>
  split at g
  · cases g
  split at g
  · cases g
  next hl => exact ⟨fun e => by simpa [e] using hf, Nat.not_lt.1 hl⟩

end Sys2Proof.Machine
end

section
/-! OCS jobs: submission, waits, queries and aborts (R86, R120, R121, R123, R295). -/

namespace Sys2Proof.Machine

/-! ## Handles -/

theorem nextHandle_lt (n : Nat) : nextHandle n < 2 ^ 32 := by unfold nextHandle; split <;> omega

theorem Ctl.freeHandle_of_free {c : Ctl} {h : Head} {n : Nat} (free : c.handleHeld h n = false) (fuel : Nat) :
    c.freeHandle h fuel n = n := by
  cases fuel with
  | zero => rfl
  | succ k => rw [freeHandle, free]; rfl

@[simp] theorem Ctl.setLastHandle_jobs (c : Ctl) (h : Head) (n : Nat) : (c.setLastHandle h n).job.jobs = c.job.jobs := by cases h <;> rfl
@[simp] theorem Ctl.setLastHandle_slotWaiters (c : Ctl) (h : Head) (n : Nat) :
    (c.setLastHandle h n).job.slotWaiters = c.job.slotWaiters := by cases h <;> rfl
@[simp] theorem Ctl.setLastHandle_regs (c : Ctl) (h : Head) (n : Nat) : (c.setLastHandle h n).regs = c.regs := by cases h <;> rfl
@[simp] theorem Ctl.setLastHandle_part (c : Ctl) (h : Head) (n : Nat) : (c.setLastHandle h n).part = c.part := by cases h <;> rfl
@[simp] theorem Ctl.setLastHandle_lastHandle (c : Ctl) (h : Head) (n : Nat) : (c.setLastHandle h n).lastHandle h = n := by
  cases h <;> rfl
theorem Ctl.lastHandle_congr {c d : Ctl} (e : c.job = d.job) (h : Head) : c.lastHandle h = d.lastHandle h := by
  cases h <;> simp [lastHandle, e]

/-! ## A submission that has a slot -/

/-- The handle of a submission is given, and the command waits for its job (R121). -/
def Ctl.submitWaiting (c : Ctl) (h : Head) (p : Bytes) (n : Nat) : Ctl :=
  (c.setLastHandle h n).await h opJobSubmit p .job (n + 2 ^ 32 * ((c.setLastHandle h n).clock + waitNs p))

/-- The job of a submission. -/
def Ctl.submitJob (c : Ctl) (h : Head) (p : Bytes) (n k : Nat) : Job :=
  { (c.submitWaiting h p n).makeJob k h (p.take 128) with ocs := true, handle := some n }

theorem Ctl.submitWaiting_pend (c : Ctl) (h : Head) (p : Bytes) (n : Nat) :
    ((c.submitWaiting h p n).hd h).mbox.pend =
      some ⟨opJobSubmit, p, .job, n + 2 ^ 32 * ((c.setLastHandle h n).clock + waitNs p)⟩ := await_pend ..

@[simp] theorem Ctl.submitWaiting_jobs (c : Ctl) (h : Head) (p : Bytes) (n : Nat) :
    (c.submitWaiting h p n).job.jobs = c.job.jobs := by simp [submitWaiting]
@[simp] theorem Ctl.submitWaiting_slotWaiters (c : Ctl) (h : Head) (p : Bytes) (n : Nat) :
    (c.submitWaiting h p n).job.slotWaiters = c.job.slotWaiters := by simp [submitWaiting]
@[simp] theorem Ctl.submitWaiting_regs (c : Ctl) (h : Head) (p : Bytes) (n : Nat) : (c.submitWaiting h p n).regs = c.regs := by
  simp [submitWaiting]
@[simp] theorem Ctl.submitWaiting_lastHandle (c : Ctl) (h : Head) (p : Bytes) (n : Nat) :
    (c.submitWaiting h p n).lastHandle h = n :=
  (lastHandle_congr (await_job ..) h).trans (setLastHandle_lastHandle c h n)

/-- The fields of a submitted job are judged as those of the job of its descriptor. -/
theorem Ctl.descBad_submitJob (c : Ctl) (h : Head) (p : Bytes) (n k : Nat) :
    (c.submitWaiting h p n).descBad (c.submitJob h p n k) = c.descBad (c.makeJob k h (p.take 128)) :=
  (Ctl.descBad_congr (by simp [submitWaiting]) (fun x _ => get_congr _ _ (submitWaiting_regs ..) x) _).trans
    (c.descBad_of_desc rfl)

/-- A submission: the job is judged, and a command that does not wait for it is answered. -/
theorem Ctl.submitNow_eq {c : Ctl} {h : Head} {p : Bytes} {k n : Nat} (hn : nextHandle (c.lastHandle h) = n)
    (free : c.handleHeld h n = false) : c.submitNow h p k =
      if waitNs p = 0 ∧ (((c.submitWaiting h p n).judgeNew (c.submitJob h p n k)).hd h).mbox.pend.isSome = true then
        ((c.submitWaiting h p n).judgeNew (c.submitJob h p n k)).finish h opJobSubmit .ok
          (toLE 4 n ++ toLE 4 1 ++ List.replicate 32 0)
      else (c.submitWaiting h p n).judgeNew (c.submitJob h p n k) := by
  unfold submitNow
  rw [hn, freeHandle_of_free free]
  rfl

/-- A submitted job that passes R117 and needs no list holds its slot, and the command is answered when it does not wait. -/
theorem Ctl.submitNow_ready {c : Ctl} {h : Head} {p : Bytes} {k n : Nat} (hn : nextHandle (c.lastHandle h) = n)
    (free : c.handleHeld h n = false) (good : c.descBad (c.makeJob k h (p.take 128)) = false)
    (nolist : (c.makeJob k h (p.take 128)).hasList = false) : c.submitNow h p k =
      if waitNs p = 0 then ((c.submitWaiting h p n).holdSlot (c.submitJob h p n k)).finish h opJobSubmit .ok
        (toLE 4 n ++ toLE 4 1 ++ List.replicate 32 0)
      else (c.submitWaiting h p n).holdSlot (c.submitJob h p n k) := by
  have judged : (c.submitWaiting h p n).judgeNew (c.submitJob h p n k) = _ :=
    Ctl.judgeNew_ready ((c.descBad_submitJob h p n k).trans good) nolist
  rw [submitNow_eq hn free, judged, holdSlot_hd, submitWaiting_pend]
  simp

/-- An OCS job whose JOB_SUBMIT waits for it ends with the answer of that command (R121). -/
theorem Ctl.endJob_awaited {c : Ctl} {j : Job} {st n : Nat} {q : PendCmd} (ho : j.ocs = true) (ha : j.aborter = none)
    (hn : j.handle = some n) (hf : c.fenced j.owner = false) (hp : (c.hd j.owner).mbox.pend = some q) (hop : q.op = opJobSubmit)
    (hw : q.wait = .job) (haux : q.aux % 2 ^ 32 = n) : c.endJob j st =
      (((c.countLate j).giveUp j.slot).dropJob j.slot).finish j.owner opJobSubmit .ok
        (toLE 4 n ++ toLE 4 0 ++ (c.endedJob j st).completion (c.endedJob j st).late false) := by
  have e : c.endJob j st = ((c.countLate j).giveUp j.slot).deliver (c.endedJob j st) := by
    simp only [endJob, ho, ha, hf, Bool.not_false, Bool.and_self, if_true]
    simp only [giveUp, endedJob, ho, hf]
  rw [e, deliver]
  simp only [endedJob_handle, hn, endedJob_owner, endedJob_slot, dropJob_hd, giveUp_hd, countLate_hd, hp, hop, hw, haux, and_self, if_true]

/-- A submitted job that breaks R117 ends at once, and its command with it. -/
theorem Ctl.submitNow_bad {c : Ctl} {h : Head} {p : Bytes} {k n : Nat} (hn : nextHandle (c.lastHandle h) = n)
    (free : c.handleHeld h n = false) (hf : c.fenced h = false) (bad : c.descBad (c.makeJob k h (p.take 128)) = true) :
    ∃ d : Ctl, ∃ j : Job, ∃ late, c.submitNow h p k = (d.dropJob k).finish h opJobSubmit .ok
        (toLE 4 n ++ toLE 4 0 ++ j.completion late false) ∧ j.ocs = true ∧ j.status = stInvalid := by
  have judged : (c.submitWaiting h p n).judgeNew (c.submitJob h p n k) = _ :=
    Ctl.judgeNew_bad ((c.descBad_submitJob h p n k).trans bad)
  have same : ((c.submitWaiting h p n).holdSlot (c.submitJob h p n k)).hstate h = c.hstate h :=
    (holdSlot_get _ _ (by simp only [R.HD_STATE_STATE, R.CMB_JOB_SAT_CNT_PAUSES]; cases h <;> decide)).trans
      (get_congr _ _ (submitWaiting_regs ..) _)
  have unfenced : ((c.submitWaiting h p n).holdSlot (c.submitJob h p n k)).fenced h = false := by rwa [fenced, same]
  have ended := Ctl.endJob_awaited (c := (c.submitWaiting h p n).holdSlot (c.submitJob h p n k)) (j := c.submitJob h p n k)
    (st := stInvalid) rfl rfl rfl unfenced ((congrArg (fun x : HeadSt => x.mbox.pend) (holdSlot_hd ..)).trans
      (c.submitWaiting_pend h p n)) rfl rfl (by have := hn ▸ nextHandle_lt (c.lastHandle h); dsimp only; omega)
  have e := Ctl.submitNow_eq (p := p) (k := k) hn free
  rw [judged, ended, show (c.submitJob h p n k).owner = h from rfl, finish_pend, if_neg (by simp)] at e
  exact ⟨_, _, _, e, endedJob_ocs .., rfl⟩

/-- The answer of a JOB_SUBMIT with the completion of an OCS job: handle, STATE 0, and the completion's 32 bytes (R115, R121). -/
theorem submitAnswer_fields {n : Nat} (l : n < 2 ^ 32) {j : Job} (ho : j.ocs = true) (late : Bool) :
    let out := toLE 4 n ++ toLE 4 0 ++ j.completion late false
    out.length = 40 ∧ le out 0 4 = n ∧ le out 4 4 = 0 ∧ le out 10 1 = 0x40 ∧ le out 11 1 = j.status % 256 := by
  refine ⟨?_, ?_, ?_, ?_, ?_⟩ <;> simp [Job.completion, ho, le, toLE, leNat]
  omega

/-! ## Waits that end -/

@[simp] theorem Ctl.passTo_job (c : Ctl) (t : Nat) : (c.passTo t).job = c.job := rfl
@[simp] theorem Ctl.passTo_clock (c : Ctl) (t : Nat) : (c.passTo t).clock = max c.clock t := by
  change c.clock + (t - c.clock) = _
  omega

/-! ## Aborts -/

theorem Ctl.abortJob_running {c : Ctl} {j : Job} {st : Nat} (hp : j.phase = .running) (hs : j.stop = none) :
    c.abortJob j st = c.putJob { j with stop := some st } := by
  simp [abortJob, hp, hs]

theorem Ctl.jobAt_isSome_of_filter {c : Ctl} {p : Job → Bool} {j : Job} (h : c.job.jobs.filter p = [j]) :
    (c.jobAt j.slot).isSome := jobAt_isSome.2 ⟨j, List.mem_of_mem_filter (h ▸ List.mem_singleton_self j), rfl⟩

/-- The handle of an OCS job in flight is held. -/
theorem Ctl.handleHeld_of_mem {c : Ctl} {h : Head} {n : Nat} {j : Job} (m : j ∈ c.job.jobs.filter fun j =>
    j.ocs && decide (j.owner = h) && decide (j.handle = some n) && decide (j.phase ≠ .ended)) : c.handleHeld h n = true := by
  obtain ⟨hj, hmine⟩ := List.mem_filter.1 m
  rw [Bool.and_eq_true] at hmine
  rw [handleHeld, Bool.or_eq_true]
  exact .inr (List.any_eq_true.2 ⟨j, hj, hmine.1⟩)

/-- A JOB_ABORT of one running job waits for it, and the job is marked (R123, R295). -/
theorem Ctl.abortFor_running {c : Ctl} {h : Head} {p : Bytes} {j : Job} (hp : j.phase = .running) (hs : j.stop = none) :
    c.abortFor h p [j] = ((c.await h opJobAbort p .abort c.clock).putJob { j with aborter := some h }).putJob
      { j with aborter := some h, stop := some stAborted } :=
  abortJob_running (j := { j with aborter := some h }) hp hs

theorem Ctl.jobAt_putJob_putJob {c : Ctl} {i j : Job} (e : i.slot = j.slot) (h : (c.jobAt j.slot).isSome) :
    ((c.putJob i).putJob j).jobAt j.slot = some j :=
  jobAt_putJob (by rw [← e, jobAt_putJob (by rwa [e])]; rfl)

theorem sharedReg_jrgAbort : sharedReg 0x110020 =
    some ([⟨R.JRG_ABORT_SQ, .wo, false⟩, ⟨R.JRG_ABORT_CID, .wo, false⟩], 0x110020, 0) := by
  decide +kernel

/-- A write of JRG_ABORT changes no field, and aborts the jobs that it names. -/
theorem Ctl.writeReg_jrgAbort (c : Ctl) (h : Head) (v : Nat) :
    c.writeReg h 0x110020 v true = c.jrgAbort (bitsOf R.JRG_ABORT_SQ v) (bitsOf R.JRG_ABORT_CID v) := by
  rw [writeReg_plain sharedReg_jrgAbort (by simp [hiddenReg]) (by unfold plainOffset; decide)]
  simp only [List.foldl_cons, List.foldl_nil, writeField_wo, strayRing_none _ _ (off := 0x110020) (by decide)]
  have other {f : Fld} (n : offsetOf f ≠ 0x110020) : (decide (0x110020 = offsetOf f)) = false := by simp [n.symm]
  simp only [afterWrite, show rejectAt 0x110020 = none from rfl, Option.isSome_none, Bool.false_eq_true, if_false]
  rw [other (by decide), other (by decide)]
  simp only [Bool.false_and, Bool.false_eq_true, if_false]
  rw [if_pos (by decide)]

theorem jrgAbort_reached {h : Head} {q : Fin 64} {cid : BitVec 16} {s : State}
    (r : s.reached h R.JRG_ABORT_SQ q (cid.setWidth 32)) :
    exec (.jrgAbort h q cid) s = .next { s with ctl := s.ctl.jrgAbort q cid.toNat } := by
  have sq : bitsOf R.JRG_ABORT_SQ (withBits R.JRG_ABORT_SQ q (cid.setWidth 32).toNat) = q :=
    (bitsOf_withBits _ _ _).trans (Nat.mod_eq_of_lt (show q.val < 64 from q.isLt))
  have id : bitsOf R.JRG_ABORT_CID (withBits R.JRG_ABORT_SQ q (cid.setWidth 32).toNat) = cid.toNat := by
    rw [bitsOf_withBits_below _ _ (by decide), bitsOf]
    have l := cid.isLt
    simp only [R.JRG_ABORT_CID, BitVec.toNat_setWidth, show 8913152 % 32 = 0 from rfl, Nat.pow_zero]
    omega
  refine (writeBarField_reached r (by decide) (by decide)).trans ?_
  rw [show offsetOf R.JRG_ABORT_SQ = 0x110020 from rfl, Ctl.writeReg_jrgAbort, sq, id]

/-! ## The statement, command by command -/

/-- The slot that a submission gets: the lowest that is free. -/
def Ctl.slotFree (c : Ctl) (k : Nat) : Prop := k < 4096 ∧ c.jobAt k = none ∧ ∀ i, i < k → (c.jobAt i).isSome = true

/-- A submitted job stands in its slot, ready, and no other job changes. -/
theorem Ctl.submitNow_job {c : Ctl} {h : Head} {p : Bytes} {k n : Nat} (hn : nextHandle (c.lastHandle h) = n)
    (free : c.handleHeld h n = false) (good : c.descBad (c.makeJob k h (p.take 128)) = false)
    (nolist : (c.makeJob k h (p.take 128)).hasList = false) (empty : c.jobAt k = none) :
    (c.submitNow h p k).jobAt k = some (c.submitJob h p n k) ∧ (c.submitNow h p k).lastHandle h = n ∧
      (c.submitNow h p k).job.slotWaiters = c.job.slotWaiters := by
  have none' : (c.submitWaiting h p n).jobAt (c.submitJob h p n k).slot = none :=
    (jobAt_congr (submitWaiting_jobs ..) k).trans empty
  have at_ : ((c.submitWaiting h p n).holdSlot (c.submitJob h p n k)).jobAt k = some (c.submitJob h p n k) := jobAt_holdSlot none'
  rw [submitNow_ready hn free good nolist]
  split
  · refine ⟨(jobAt_congr (congrArg _ (finish_job ..)) k).trans at_, ?_, ?_⟩
    · rw [lastHandle_congr (finish_job ..), holdSlot_lastHandle, submitWaiting_lastHandle]
    · rw [finish_job, holdSlot_slotWaiters, submitWaiting_slotWaiters]
  · exact ⟨at_, by simp, by simp⟩

/-- JOB_SUBMIT with 64 jobs held. -/
theorem jobSubmit_full {h : Head} {p : Bytes} {s : State} (g : s.takes h { min := 136, stack := true } p) (full : 64 ≤ s.ctl.ocsHeld h) :
    exec (.jobSubmit h p) s = .next { s with ctl := s.ctl.finish h opJobSubmit .busy [] } := by
  obtain ⟨hfree, hgate⟩ := g
  change Host.Outcome.next { s with ctl := jobSubmit h p s.ctl } = _
  rw [jobSubmit, Ctl.ocs_run _ _ _ _ _ _ hfree hgate, if_pos full]

/-- JOB_SUBMIT without a slot. -/
theorem jobSubmit_waits {h : Head} {p : Bytes} {s : State} (g : s.takes h { min := 136, stack := true } p)
    (room : s.ctl.ocsHeld h < 64) (none' : 4096 ≤ s.ctl.slotsHeld + s.ctl.job.fetches.length + s.ctl.job.slotWaiters.length) :
    exec (.jobSubmit h p) s = .next { s with
      ctl := (Ctl.await ({ s.ctl with job.slotWaiters := s.ctl.job.slotWaiters ++ [h] } : Ctl).judgePause h opJobSubmit p .slot
        s.ctl.clock) } := by
  obtain ⟨hfree, hgate⟩ := g
  change Host.Outcome.next { s with ctl := jobSubmit h p s.ctl } = _
  rw [jobSubmit, Ctl.ocs_run _ _ _ _ _ _ hfree hgate, if_neg (Nat.not_le.2 room), if_pos none']

/-- JOB_SUBMIT with a slot. -/
theorem jobSubmit_now {h : Head} {p : Bytes} {s : State} {k : Nat} (g : s.takes h { min := 136, stack := true } p)
    (room : s.ctl.ocsHeld h < 64) (some' : s.ctl.slotsHeld + s.ctl.job.fetches.length + s.ctl.job.slotWaiters.length < 4096)
    (slot : s.ctl.slotFree k) : exec (.jobSubmit h p) s = .next { s with ctl := s.ctl.submitNow h p k } := by
  obtain ⟨hfree, hgate⟩ := g
  obtain ⟨hk, hempty, hheld⟩ := slot
  change Host.Outcome.next { s with ctl := jobSubmit h p s.ctl } = _
  rw [jobSubmit, Ctl.ocs_run _ _ _ _ _ _ hfree hgate, if_neg (Nat.not_le.2 room), if_neg (Nat.not_le.2 some'),
    Ctl.freeSlot_eq hk hempty hheld]

/-- OCS_SLOT_GRANTED submits for the longest-waiting command. -/
theorem ocsSlotGranted_now {h : Head} {s : State} {k : Nat} {q : PendCmd} {rest : List Head}
    (waiters : s.ctl.job.slotWaiters = h :: rest) (waits : s.ctl.submitWaits h .slot = some q)
    (room : s.ctl.slotsHeld + s.ctl.job.fetches.length < 4096) (slot : s.ctl.slotFree k) : exec .ocsSlotGranted s =
      .next { s with ctl := Ctl.submitNow { s.ctl with job.slotWaiters := rest } h q.payload k } := by
  obtain ⟨hk, hempty, hheld⟩ := slot
  change Host.Outcome.next { s with ctl := ocsSlotGranted s.ctl } = _
  simp only [ocsSlotGranted, waiters, waits, if_neg (Nat.not_le.2 room), Ctl.freeSlot_eq hk hempty hheld]

/-- The wait for the job expires. -/
theorem jobSubmitWaitExpiry_run {h : Head} {s : State} {q : PendCmd} (waits : s.ctl.submitWaits h .job = some q) :
    exec (.jobSubmitWaitExpiry h) s = .next { s with
      ctl := ((s.ctl.passTo (q.aux / 2 ^ 32)).finish h opJobSubmit .ok
        (toLE 4 (q.aux % 2 ^ 32) ++ toLE 4 1 ++ List.replicate 32 0)) } := by
  change Host.Outcome.next { s with ctl := jobSubmitWaitExpiry h s.ctl } = _
  rw [jobSubmitWaitExpiry, waits]

/-- The wait for a slot expires. -/
theorem jobSubmitSlotTimeout_run {h : Head} {s : State} {q : PendCmd} (waits : s.ctl.submitWaits h .slot = some q) :
    exec (.jobSubmitSlotTimeout h) s = .next { s with
      ctl := (Ctl.finish { s.ctl.passTo (q.aux + 10000000) with
        job.slotWaiters := s.ctl.job.slotWaiters.filter fun x => decide (x ≠ h) } h opJobSubmit .busy []) } := by
  change Host.Outcome.next { s with ctl := jobSubmitSlotTimeout h s.ctl } = _
  rw [jobSubmitSlotTimeout, waits]
  rfl

/-- JOB_QUERY of a job that has finished reports it and forgets it. -/
theorem jobQuery_finished {h : Head} {p b : Bytes} {s : State} (g : s.takes h { min := 4 } p)
    (done : mapGet (s.ctl.done h) (le p 0 4) = some b) : exec (.jobQuery h p) s =
    .next { s with ctl := ((s.ctl.setDone h (mapDel (s.ctl.done h) (le p 0 4))).finish h 0xC101 .ok
      (toLE 4 (le p 0 4) ++ toLE 4 0 ++ b)) } := by
  obtain ⟨hfree, hgate⟩ := g
  change Host.Outcome.next { s with ctl := jobQuery h p s.ctl } = _
  simp only [jobQuery, Ctl.ocs_run _ _ _ _ _ _ hfree hgate, done]

/-- JOB_QUERY of another handle answers whether a job holds it. -/
theorem jobQuery_unfinished {h : Head} {p : Bytes} {s : State} (g : s.takes h { min := 4 } p)
    (none' : mapGet (s.ctl.done h) (le p 0 4) = none) : exec (.jobQuery h p) s =
    .next { s with ctl := (
      if s.ctl.handleHeld h (le p 0 4) then s.ctl.finish h 0xC101 .ok (toLE 4 (le p 0 4) ++ toLE 4 1 ++ List.replicate 32 0)
      else s.ctl.finish h 0xC101 .invalidHandle []) } := by
  obtain ⟨hfree, hgate⟩ := g
  change Host.Outcome.next { s with ctl := jobQuery h p s.ctl } = _
  simp only [jobQuery, Ctl.ocs_run _ _ _ _ _ _ hfree hgate, none']

/-- JOB_ABORT by ring and CID, or by handle. -/
theorem jobAbort_run {h : Head} {p : Bytes} {s : State} (g : s.takes h { min := 4 } p) : exec (.jobAbort h p) s =
    .next { s with ctl := (
      if le p 0 4 = 0 then
        (if p.length < 7 ∨ 64 ≤ le p 6 1 ∨ s.ctl.sqOwner (le p 6 1) ≠ h then s.ctl.finish h opJobAbort .invalidParameter []
         else s.ctl.abortFor h p (s.ctl.ringJobs (le p 6 1) (le p 4 2)))
      else if s.ctl.handleHeld h (le p 0 4) then
        s.ctl.abortFor h p (s.ctl.job.jobs.filter fun j => j.ocs && decide (j.owner = h) && decide (j.handle = some (le p 0 4)) &&
          decide (j.phase ≠ .ended))
      else s.ctl.finish h opJobAbort .invalidHandle []) } := by
  obtain ⟨hfree, hgate⟩ := g
  change Host.Outcome.next { s with ctl := jobAbort h p s.ctl } = _
  rw [jobAbort, Ctl.ocs_run _ _ _ _ _ _ hfree hgate]

@[simp] theorem Ctl.setDone_regs (c : Ctl) (h : Head) (l : List (Nat × Bytes)) : (c.setDone h l).regs = c.regs := by cases h <;> rfl

/-- Settles O23: each command is run past the gate, and its branch read off. -/
theorem ocsJobsLiveByTheirHandles : Obligations.OcsJobsLiveByTheirHandles := by
  intro h p s n slotFree
  refine ⟨fun g => ⟨fun full => State.answers (jobSubmit_full g full), fun room none' => ?_, fun k room some' slot free => ?_⟩,
    fun k q rest waiters waits room slot free good nolist => ?_, fun q waits => ?_, fun q waits => ?_, fun g => ?_, fun q cid r => ?_⟩
  · refine ⟨_, jobSubmit_waits g room none', ⟨_, Ctl.await_pend ..⟩, ?_, ?_, rfl, rfl, rfl⟩ <;> simp
  · have hlen := (Ctl.gate_none g.2).2
    have hcut : padTo 128 (p.take 128) = p.take 128 := padTo_of_length (by rw [List.length_take]; dsimp only at hlen; omega)
    refine ⟨fun good nolist => ?_, fun bad => ?_⟩
    · obtain ⟨hat, hlast, -⟩ := Ctl.submitNow_job rfl free good nolist slot.2.1
      refine ⟨_, _, jobSubmit_now g room some' slot, hat, rfl, rfl, rfl, rfl, hcut, ⟨rfl, rfl, rfl⟩, hlast, ?_⟩
      rw [Ctl.submitNow_ready rfl free good nolist]
      split
      · exact State.replied_finish ..
      · exact ⟨_, (congrArg (fun x : HeadSt => x.mbox.pend) (Ctl.holdSlot_hd ..)).trans (Ctl.submitWaiting_pend ..)⟩
    · have unfenced : s.ctl.fenced h = false := Bool.eq_false_iff.2 fun e => absurd ((Ctl.gate_none g.2).1 e) (by decide)
      obtain ⟨d, j, late, run, ho, hst⟩ := Ctl.submitNow_bad (p := p) rfl free unfenced bad
      obtain ⟨hl, hn, h0, hsq, hstat⟩ := submitAnswer_fields (nextHandle_lt (s.ctl.lastHandle h)) ho late
      have done := jobSubmit_now g room some' slot
      rw [run] at done
      refine ⟨_, _, done, State.replied_finish .., hl, hn, h0, hsq,
        by rw [hstat, hst]; rfl, ?_, rfl, rfl, rfl⟩
      exact (Ctl.jobAt_congr (congrArg _ (Ctl.finish_job ..)) k).trans (Ctl.jobAt_dropJob d k)
  · obtain ⟨hat, -, hwait⟩ := Ctl.submitNow_job (c := { s.ctl with job.slotWaiters := rest }) (p := q.payload) rfl free good nolist
      slot.2.1
    exact ⟨_, _, ocsSlotGranted_now waiters waits room slot, hwait, hat, rfl, rfl, rfl, rfl, rfl, rfl, rfl⟩
  · exact ⟨_, jobSubmitWaitExpiry_run waits, State.replied_finish .., by simp, by simp, rfl, rfl, rfl⟩
  · refine ⟨_, jobSubmitSlotTimeout_run waits, State.replied_finish .., ?_, ?_, ?_, rfl, rfl, rfl⟩
    · exact (Ctl.finish_clock ..).trans (Ctl.passTo_clock ..)
    · simp
    · simp
  · refine ⟨fun b hb => ?_, fun hb held => ?_, fun unheld hb => ?_, fun m0 bad => ?_, fun m0 hl hq own idle => ?_, fun m0 unheld => ?_,
      fun j m0 only hp hs => ?_⟩
    · refine ⟨_, jobQuery_finished g hb, State.replied_finish .., ?_, ?_, rfl, rfl, rfl⟩
      · rw [Ctl.done_congr (Ctl.finish_job ..), Ctl.setDone_done, mapGet_mapDel_same]
      · simp
    · exact State.answers ((jobQuery_unfinished g hb).trans (by rw [if_pos held]))
    · exact State.answers ((jobQuery_unfinished g hb).trans (by rw [if_neg (by rw [unheld]; decide)]))
    · exact State.answers ((jobAbort_run g).trans (by rw [if_pos m0, if_pos bad]; rfl))
    · have fine : ¬(p.length < 7 ∨ 64 ≤ le p 6 1 ∨ s.ctl.sqOwner (le p 6 1) ≠ h) := by
        rintro (l | l | l)
        · exact absurd l (Nat.not_lt.2 hl)
        · exact absurd l (Nat.not_le.2 hq)
        · exact l own
      exact State.answers ((jobAbort_run g).trans (by rw [if_pos m0, if_neg fine, idle]; rfl))
    · exact State.answers ((jobAbort_run g).trans (by rw [if_neg m0, if_neg (by rw [unheld]; decide)]; rfl))
    · have held : s.ctl.handleHeld h (le p 0 4) = true := Ctl.handleHeld_of_mem (only ▸ List.mem_singleton_self j)
      have run := (jobAbort_run g).trans (by rw [if_neg m0, if_pos held, only, Ctl.abortFor_running hp hs])
      refine ⟨_, _, run, ⟨s.ctl.clock, ?_⟩, Ctl.jobAt_putJob_putJob rfl ?_, rfl, ?_, rfl, rfl, rfl⟩
      · exact (congrArg (fun x : HeadSt => x.mbox.pend) (Ctl.putJob_hd ..)).trans
          ((congrArg (fun x : HeadSt => x.mbox.pend) (Ctl.putJob_hd ..)).trans (Ctl.await_pend ..))
      · rw [Ctl.jobAt_congr (congrArg _ (Ctl.await_job ..))]
        exact Ctl.jobAt_isSome_of_filter (j := j) only
      · simp
  · refine ⟨fun idle => ⟨_, jrgAbort_reached r, ?_, rfl, rfl, rfl⟩, fun j only hp hs =>
      ⟨_, { j with stop := some stAborted }, jrgAbort_reached r, ?_, rfl, rfl, rfl, rfl⟩⟩
    · change (s.ctl.jrgAbort q cid.toNat).job = _
      rw [Ctl.jrgAbort, idle, List.foldl_nil]
    · change (s.ctl.jrgAbort q cid.toNat).jobAt j.slot = _
      rw [Ctl.jrgAbort, only, List.foldl_cons, List.foldl_nil, Ctl.abortJob_running hp hs]
      exact Ctl.jobAt_putJob (show (s.ctl.jobAt j.slot).isSome from Ctl.jobAt_isSome_of_filter only)

end Sys2Proof.Machine
end

section
/-! SUPPORT. Bits set and cleared, and what a fault of a block without a reset of its own changes (R373 to R381): its reports leave the
jobs and every register outside the collector, and its source is pending. -/

namespace Sys2Proof.Machine

/-! ## Bits -/

/-- A power of two added where its bit is clear changes that bit alone. -/
theorem testBit_add_two_pow {n i : Nat} (clear : n.testBit i = false) (j : Nat) :
    (n + 2 ^ i).testBit j = if j = i then true else n.testBit j := by
  have low : n % 2 ^ (i + 1) < 2 ^ i := by
    rw [Nat.pow_succ, Nat.mod_mul]
    have : n / 2 ^ i % 2 = 0 := by simpa [Nat.testBit_eq_decide_div_mod_eq] using clear
    simpa [this] using Nat.mod_lt n (Nat.two_pow_pos i)
  have split : n = 2 ^ (i + 1) * (n / 2 ^ (i + 1)) + n % 2 ^ (i + 1) := (Nat.div_add_mod _ _).symm
  rcases lt_trichotomy j i with l | rfl | l
  · rw [if_neg l.ne, Nat.add_comm, Nat.testBit_two_pow_add_gt l]
  · rw [if_pos rfl, Nat.add_comm, Nat.testBit_two_pow_add_eq, clear]; rfl
  · have double : 2 ^ (i + 1) = 2 ^ i * 2 := pow_succ 2 i
    rw [if_neg l.ne', split, Nat.add_assoc, Nat.testBit_two_pow_mul_add _ (by omega), Nat.testBit_two_pow_mul_add _ (by omega),
      if_neg (by omega), if_neg (by omega)]

theorem tb_setBit (n i j : Nat) : tb (setBit n i) j = if j = i then true else tb n j := by
  unfold setBit tb
  cases h : n.testBit i with
  | true =>
    simp only [if_true]
    split
    · next e => rw [e, h]
    · rfl
  | false => exact testBit_add_two_pow h j

theorem tb_clrBit (n i j : Nat) : tb (clrBit n i) j = if j = i then false else tb n j := by
  unfold clrBit tb
  cases h : n.testBit i with
  | false =>
    simp only [Bool.false_eq_true, if_false]
    split
    · next e => rw [e, h]
    · rfl
  | true =>
    obtain ⟨m, rfl⟩ : ∃ m, n = m + 2 ^ i := ⟨n - 2 ^ i, (Nat.sub_add_cancel (Nat.ge_two_pow_of_testBit h)).symm⟩
    have clear : m.testBit i = false := by simpa [Nat.add_comm m, Nat.testBit_two_pow_add_eq] using h
    rw [if_pos rfl, Nat.add_sub_cancel, testBit_add_two_pow clear]
    split
    · next e => rw [e, clear]
    · rfl

/-- Bits of a number cut to a width. -/
theorem tb_mod_two_pow {n i w : Nat} (l : i < w) : tb (n % 2 ^ w) i = tb n i := by simp [tb, Nat.testBit_mod_two_pow, l]

/-! ## The reports of a fault -/

/-- The fields of the fault collector but for its pending bits. -/
def fltKey (k : Nat) : Prop := 4194304 ≤ k ∧ k < 4718592 ∧ ¬(4196352 ≤ k ∧ k < 4197376)

/-- A report leaves the jobs, the Keeper's phase, and every register field but the collector's; pending bits stay. -/
structure Ctl.reports (c d : Ctl) : Prop where
  job : d.job = c.job
  phase : d.kpr.phase = c.kpr.phase
  kept : ∀ x : Fld, ¬fltKey x.key → d.get x = c.get x

theorem Ctl.reports.refl (c : Ctl) : c.reports c := ⟨rfl, rfl, fun _ _ => rfl⟩

theorem Ctl.reports.trans {c d e : Ctl} (a : c.reports d) (b : d.reports e) : c.reports e :=
  ⟨b.job.trans a.job, b.phase.trans a.phase, fun x n => (b.kept x n).trans (a.kept x n)⟩

/-- A report that is made or not. -/
theorem Ctl.reports.orSame {c d : Ctl} {p : Prop} [Decidable p] (k : c.reports d) : c.reports (if p then d else c) := by
  split
  · exact k
  · exact .refl c

theorem Ctl.reports_set (c : Ctl) {x : Fld} (k : fltKey x.key) (v : Nat) : c.reports (c.set x v) :=
  ⟨rfl, rfl, fun _ n => c.get_set_ne _ _ _ fun e => n (e ▸ k)⟩

/-- A change that leaves jobs, registers and the Keeper is a report. -/
theorem Ctl.reports_of {c d : Ctl} (job : d.job = c.job) (kpr : d.kpr.phase = c.kpr.phase) (regs : d.regs = c.regs) : c.reports d :=
  ⟨job, kpr, fun x _ => get_congr _ _ regs x⟩

theorem Ctl.reports_modHd (c : Ctl) (h : Head) (g : HeadSt → HeadSt) : c.reports (c.modHd h g) :=
  reports_of (by simp) (by simp) (by simp)
theorem Ctl.reports_msix (c : Ctl) (h : Head) (v : Nat) : c.reports (c.msix h v) := reports_of (by simp) (by simp) (by simp)
theorem Ctl.reports_emit (c : Ctl) (o : Out) : c.reports (c.emit o) := reports_of rfl rfl rfl

theorem Ctl.reports_forHeads (c : Ctl) {f : Head → Ctl → Ctl} (k : ∀ h d, Ctl.reports d (f h d)) : c.reports (c.forHeads f) :=
  (k .a c).trans (k .b _)

theorem Ctl.reports_event (c : Ctl) (h : Head) (log kind code headNo info flags : Nat) :
    c.reports (c.event h log kind code headNo info flags) := by
  unfold event
  split
  · split
    · exact .refl c
    · dsimp only
      split
      · exact (c.reports_modHd h _).trans (reports_msix _ h _)
      · exact c.reports_modHd h _
  · exact .refl c

theorem Ctl.reports_aerError (c : Ctl) (h : Head) (u : Bool) (n : Nat) (header : Bool) : c.reports (c.aerError h u n header) := by
  cases u with
  | false => rw [aerError, if_neg Bool.false_ne_true]; exact c.reports_modHd h _
  | true =>
    rw [aerError, if_pos rfl]
    cases header with
    | false => exact c.reports_modHd h _
    | true => exact (reports_of (c := c) (d := c.fresh.2) rfl rfl rfl).trans (reports_modHd _ h _)

theorem Ctl.reports_aerReport (c : Ctl) (h : Head) (n : Nat) : c.reports (c.aerReport h n) :=
  (c.reports_aerError h true n true).trans (reports_emit _ _)

theorem Ctl.reports_aerOf (c : Ctl) (h : Head) (e : LinkErr) : c.reports (c.aerOf h e) := by
  cases e with
  | timeout => exact c.reports_aerReport h 14
  | ep => exact c.reports_aerReport h 12
  | ur => exact .refl c
  | ca => exact .refl c

theorem Ctl.reports_aerInternal (c : Ctl) (h : Head) (u : Bool) : c.reports (c.aerInternal h u) :=
  (c.reports_aerError h u _ false).trans (reports_emit _ _)

theorem Ctl.reports_faultReport (c : Ctl) (src info : Nat) (p : FaultPlan) (w : FaultTo) (h : Head) :
    c.reports (c.faultReport src info p w h) :=
  ((c.reports_event h _ _ _ _ _ _).orSame.trans (reports_aerInternal _ h _).orSame).orSame

theorem Ctl.reports_faultMsix (c : Ctl) (h : Head) : c.reports (c.faultMsix h) := by
  cases h with
  | a => exact (c.reports_msix _ _).orSame
  | b => exact (c.reports_msix _ _).orSame

theorem Ctl.reports_raiseNmi (c : Ctl) : c.reports c.raiseNmi := by
  unfold raiseNmi
  split
  · exact c.reports_emit _
  · exact reports_of rfl rfl rfl

theorem Ctl.reports_assertErrN (c : Ctl) (src : Nat) : c.reports (c.assertErrN src) := by
  have marked (f : FltSt) : c.reports { c with flt := f } := reports_of rfl rfl rfl
  have raised (d : Ctl) : d.reports (if d.flag R.FLT_STATUS_ERRN = true then d else (d.set R.FLT_STATUS_ERRN 1).emit (.errN true)) := by
    split
    · exact .refl d
    · exact (d.reports_set (x := R.FLT_STATUS_ERRN) (by unfold fltKey; decide) 1).trans (reports_emit _ _)
  exact (marked _).trans (raised _)

theorem Ctl.reports_faultReact (c : Ctl) (src : Nat) (p : FaultPlan) (w : FaultTo) : c.reports (c.faultReact src p w) :=
  ((c.reports_forHeads fun h d => (d.reports_faultMsix h).orSame).orSame.trans (reports_raiseNmi _).orSame).trans
    (reports_assertErrN _ src).orSame

theorem Ctl.reports_askWarm (c : Ctl) (origin at_ : Nat) : c.reports (c.askWarm origin at_) := by
  unfold askWarm
  split
  · exact .refl c
  · split <;> exact reports_of rfl rfl rfl

theorem Ctl.reports_collectorReset (c : Ctl) : c.reports c.collectorReset := by
  unfold collectorReset
  split
  · exact .refl c
  · have asked := (reports_of (c := c) (d := { c with
      flt.devResets := (c.clock :: c.flt.devResets).filter fun t => decide (c.clock < t + 10000000000) }) rfl rfl rfl).trans
      (reports_askWarm _ 2 c.clock)
    dsimp only
    split
    · exact asked.trans (reports_set _ (by unfold fltKey; decide) _)
    · exact asked

theorem Ctl.reports_logFault (c : Ctl) (src info carried : Nat) (p : FaultPlan) : c.reports (c.logFault src info carried p) :=
  have marked (f : FltSt) : c.reports { c with flt := f } := reports_of rfl rfl rfl
  (marked _).trans (reports_set _ (x := R.FLT_LOG_SEQ_NEXT) (by unfold fltKey; decide) _)

/-- A plan of a source without a block reset has none (R375). -/
theorem Ctl.faultPlan_noReset (c : Ctl) {src : Nat} (h : hasBlockReset src = false) : tb (c.faultPlan src).react 2 = false := by
  have cut (r : Nat) : tb (r &&& 27) 2 = false := by
    rw [tb, Nat.testBit_and, show Nat.testBit 27 2 = false by decide, Bool.and_false]
  have pick {q : Prop} [Decidable q] {a b : FaultPlan} (ha : tb a.react 2 = false) (hb : tb b.react 2 = false) :
      tb (if q then a else b).react 2 = false := by
    split
    · exact ha
    · exact hb
  simp only [faultPlan, h, Bool.false_eq_true, if_false]
  exact pick (cut _) (cut _)

/-- One occurrence: reports, the pending bit set, and reports. -/
theorem Ctl.faultOnce_cases (c : Ctl) {src : Nat} (info : Nat) (w : FaultTo) (row : (faultRow src).isSome = true) (l : src < 1024)
    (h : hasBlockReset src = false) : ∃ d, c.reports d ∧ Ctl.reports (d.set (R.FLT_PEND_PEND (src / 32))
      (setBit (d.get (R.FLT_PEND_PEND (src / 32))) (src % 32))) (c.faultOnce src info w) := by
  refine ⟨c.faultReact src (c.faultPlan src) w, c.reports_faultReact _ _ _, ?_⟩
  have notNone : ¬(faultRow src).isNone = true := by simp [Option.isSome_iff_ne_none.1 row]
  simp only [faultOnce, if_neg notNone, c.faultPlan_noReset h, Bool.false_eq_true, if_false]
  have counted (d : Ctl) : d.reports (d.bump (R.FLT_SRC_CNT_COUNT src)) :=
    d.reports_set (by simp only [fltKey, R.FLT_SRC_CNT_COUNT]; omega) _
  have escalated (d : Ctl) : d.reports (d.bump R.FLT_ESC_CNT_ESCALATED) := d.reports_set (by unfold fltKey; decide) _
  have routed (d : Ctl) (r : List (Nat × Nat)) : d.reports { d with flt.routed := r } := reports_of rfl rfl rfl
  have told (d : Ctl) := d.reports_forHeads fun h e => e.reports_faultReport src info (c.faultPlan src) w h
  exact (((((counted _).trans (escalated _).orSame).trans (reports_logFault _ src info _ _)).trans (routed _ _)).trans (told _)).trans
    (reports_collectorReset _).orSame

/-- A fault of a block without a reset of its own: reports, and its source pending (R375, R376). -/
theorem Ctl.fault_eq (c : Ctl) {src : Nat} (info : Nat) (w : FaultTo) (row : (faultRow src).isSome = true) (l : src < 1024)
    (h : hasBlockReset src = false) : c.fault src info w = c.faultOnce src info w := by
  obtain ⟨d, before, after⟩ := c.faultOnce_cases info w row l h
  have phase : (c.faultOnce src info w).kpr.phase = c.kpr.phase := after.phase.trans before.phase
  unfold fault
  dsimp only
  rw [if_neg (by rw [phase]; simp)]

theorem Ctl.fault_srcPending (c : Ctl) {src : Nat} (info : Nat) (w : FaultTo) (row : (faultRow src).isSome = true) (l : src < 1024)
    (h : hasBlockReset src = false) : (c.fault src info w).srcPending src = true := by
  obtain ⟨d, -, after⟩ := c.faultOnce_cases info w row l h
  rw [fault_eq _ _ _ row l h, srcPending, after.kept _ (by simp only [fltKey, R.FLT_PEND_PEND]; omega), get_set_same,
    tb_mod_two_pow (show src % 32 < (R.FLT_PEND_PEND (src / 32)).width from Nat.mod_lt src (by decide)), tb_setBit, if_pos rfl]

theorem Ctl.fault_job (c : Ctl) {src : Nat} (info : Nat) (w : FaultTo) (row : (faultRow src).isSome = true) (l : src < 1024)
    (h : hasBlockReset src = false) : (c.fault src info w).job = c.job := by
  obtain ⟨d, before, after⟩ := c.faultOnce_cases info w row l h
  rw [fault_eq _ _ _ row l h]
  exact after.job.trans before.job

/-- A fault changes no register outside the collector. -/
theorem Ctl.fault_get (c : Ctl) {src : Nat} (info : Nat) (w : FaultTo) (row : (faultRow src).isSome = true) (l : src < 1024)
    (h : hasBlockReset src = false) {x : Fld} (n : x.key < 4194304 ∨ 4718592 ≤ x.key) : (c.fault src info w).get x = c.get x := by
  obtain ⟨d, before, after⟩ := c.faultOnce_cases info w row l h
  rw [fault_eq _ _ _ row l h, after.kept _ (by unfold fltKey; omega), get_set_ne _ _ _ _ (by simp only [R.FLT_PEND_PEND]; omega),
    before.kept _ (by unfold fltKey; omega)]

end Sys2Proof.Machine
end

section
/-! Completions and the ring commands (R88 to R94, R113, R119, R122; log entries 32, 52 and 128). -/

namespace Sys2Proof.Machine

/-! ## The completion written -/

/-- A message already sent stays sent. -/
theorem Ctl.mem_msix {c : Ctl} {o : Out} (m : o ∈ c.outbox) (h : Head) (v : Nat) : o ∈ (c.msix h v).outbox := by
  have kept (x : HeadSt) : o ∈ (c.setHd h x).outbox := by cases h <;> exact m
  unfold msix
  dsimp only
  split
  · exact m
  split
  · split
    · exact m
    · exact kept _
  split
  · exact List.mem_cons_of_mem _ m
  split
  · exact kept _
  · exact m

/-- The signal of a CQ changes its counts and what is sent. -/
theorem Ctl.cqIrq_kept (c : Ctl) (q : Nat) : (c.cqIrq q).regs = c.regs ∧ (c.cqIrq q).job.jobs = c.job.jobs ∧
    (c.cqIrq q).clock = c.clock ∧ ∀ o ∈ c.outbox, o ∈ (c.cqIrq q).outbox := by
  unfold cqIrq
  split
  · exact ⟨msix_regs .., (congrArg JobSt.jobs (msix_job ..)).trans rfl, msix_clock .., fun o m => mem_msix (c := c.setRing q _) m _ _⟩
  · exact ⟨rfl, rfl, rfl, fun _ m => m⟩

theorem Ctl.cqSignal_kept (c : Ctl) (q : Nat) (now : Bool) : (c.cqSignal q now).regs = c.regs ∧
    (c.cqSignal q now).job.jobs = c.job.jobs ∧ ∀ o ∈ c.outbox, o ∈ (c.cqSignal q now).outbox := by
  unfold cqSignal
  dsimp only
  split
  · obtain ⟨regs, jobs, -, sent⟩ := cqIrq_kept (c.setRing q { c.ring q with
      unsignalled := (c.ring q).unsignalled + 1
      firstUnsig := if (c.ring q).unsignalled = 0 then c.clock else (c.ring q).firstUnsig }) q
    exact ⟨regs, jobs, sent⟩
  · exact ⟨rfl, rfl, fun _ m => m⟩

/-- A signalled CQ has no unsignalled completion (R94). -/
theorem Ctl.cqIrq_unsignalled {c : Ctl} {q : Nat} (ien : c.get (R.JRG_CQ_CFG_IEN q) ≠ 0) : ((c.cqIrq q).ring q).unsignalled = 0 := by
  have e : (c.cqIrq q).ring q = { c.ring q with unsignalled := 0 } := by
    simp only [cqIrq, flag, ien, decide_true, ne_eq, not_false_eq_true, if_true, ring, msix_job]
    exact ring_setRing c q _
  rw [e]

/-- The completion of a job at the tail of its CQ: written, the tail moved, PHASE inverted at the wrap, the slot free (R90, R91). -/
theorem Ctl.writeCqe_spec (c : Ctl) (q : Nat) (j : Job) (l : max 1 (c.get (R.JRG_CQ_CFG_SIZE q)) ≤ 65536) :
    (c.writeCqe q j).jobAt j.slot = none ∧
    .cqWrite (c.cqOwner q) (c.get (R.JRG_CQ_BASE_BASE q) * 4096 + 32 * c.get (R.JRG_CQ_STATUS_TAIL q))
      (j.completion (c.lateNow j || j.late) (c.flag (R.JRG_CQ_STATUS_PHASE q))) ∈ (c.writeCqe q j).outbox ∧
    (c.writeCqe q j).get (R.JRG_CQ_STATUS_TAIL q) =
      (c.get (R.JRG_CQ_STATUS_TAIL q) + 1) % max 1 (c.get (R.JRG_CQ_CFG_SIZE q)) ∧
    (c.writeCqe q j).get (R.JRG_CQ_STATUS_PHASE q) =
      if c.get (R.JRG_CQ_STATUS_TAIL q) + 1 = max 1 (c.get (R.JRG_CQ_CFG_SIZE q)) then 1 - c.get (R.JRG_CQ_STATUS_PHASE q)
      else c.get (R.JRG_CQ_STATUS_PHASE q) := by
  unfold writeCqe
  generalize hsize : max 1 (c.get (R.JRG_CQ_CFG_SIZE q)) = size at l ⊢
  have pos : 0 < size := by omega
  generalize htail : c.get (R.JRG_CQ_STATUS_TAIL q) = tail
  dsimp only
  generalize hwritten : (c.countLate j).emit (.cqWrite (c.cqOwner q) (c.get (R.JRG_CQ_BASE_BASE q) * 4096 + 32 * tail)
    (j.completion (c.lateNow j || j.late) (c.flag (R.JRG_CQ_STATUS_PHASE q)))) = w
  have phase : w.get (R.JRG_CQ_STATUS_PHASE q) = c.get (R.JRG_CQ_STATUS_PHASE q) := by
    rw [← hwritten, get_emit]
    exact countLate_get _ _ (by
      simp only [R.JRG_CQ_STATUS_PHASE, R.QOS_LATE_JOB_CNT_JOBS, Job.cls]; omega)
  generalize hmoved : (if tail + 1 = size then (w.set (R.JRG_CQ_STATUS_TAIL q) ((tail + 1) % size)).set (R.JRG_CQ_STATUS_PHASE q)
      (1 - (w.set (R.JRG_CQ_STATUS_TAIL q) ((tail + 1) % size)).get (R.JRG_CQ_STATUS_PHASE q))
    else w.set (R.JRG_CQ_STATUS_TAIL q) ((tail + 1) % size)) = m
  have outbox : m.outbox = w.outbox := by rw [← hmoved]; split <;> rfl
  obtain ⟨regs, jobs, sent⟩ := (m.dropJob j.slot).cqSignal_kept q j.fIrq
  have value {x : Fld} (n : x.key ≠ R.CMB_DMC_FLUSH_FLUSH_BUSY.key) : ((m.dropJob j.slot).cqSignal q j.fIrq).get x = m.get x :=
    (get_congr _ _ regs x).trans (dropJob_get _ _ n)
  have key : (R.JRG_CQ_STATUS_PHASE q).key ≠ (R.JRG_CQ_STATUS_TAIL q).key := by
    simp only [R.JRG_CQ_STATUS_PHASE, R.JRG_CQ_STATUS_TAIL]; omega
  refine ⟨(jobAt_congr jobs _).trans (jobAt_dropJob ..), sent _ ?_, ?_, ?_⟩
  · rw [dropJob_outbox, outbox, ← hwritten]
    exact List.mem_cons_self
  · rw [value (by simp only [R.JRG_CQ_STATUS_TAIL, R.CMB_DMC_FLUSH_FLUSH_BUSY]; omega), ← hmoved]
    have low : (tail + 1) % size % 2 ^ 16 = (tail + 1) % size := Nat.mod_eq_of_lt ((Nat.mod_lt _ pos).trans_le l)
    split
    · rw [get_set_ne _ _ _ _ key.symm, get_set_same]; exact low
    · rw [get_set_same]; exact low
  · rw [value (by simp only [R.JRG_CQ_STATUS_PHASE, R.CMB_DMC_FLUSH_FLUSH_BUSY]; omega), ← hmoved]
    split
    · rw [get_set_same, get_set_ne _ _ _ _ key, phase]
      exact Nat.mod_eq_of_lt (show 1 - c.get (R.JRG_CQ_STATUS_PHASE q) < 2 by omega)
    · rw [get_set_ne _ _ _ _ key, phase]

/-! ## COMPLETION_POST -/

section Post
variable {c : Ctl} {k : Nat} {j : Job} (at_ : c.jobAt k = some j) (ended : j.phase = .ended) (ring : j.ocs = false)
include at_

theorem completionPost_fenced (f : c.fenced j.owner = true) : completionPost k c = c := by
  simp [completionPost, at_, f]

include ended ring

theorem completionPost_stopped (f : c.fenced j.owner = false) (we : c.get (R.JRG_CQ_STATUS_WRITE_ERR (c.jobCq j)) ≠ 0) :
    completionPost k c = c.dropJob k := by
  simp [completionPost, at_, ended, ring, f, Ctl.flag, we]

theorem completionPost_full (f : c.fenced j.owner = false) (we : c.get (R.JRG_CQ_STATUS_WRITE_ERR (c.jobCq j)) = 0)
    (on : c.get (R.JRG_CQ_CFG_ENABLE (c.jobCq j)) ≠ 0) (full : c.cqFull (c.jobCq j) = true) (first : j.waitCounted = false) :
    completionPost k c = (c.putJob { j with waitCounted := true }).bump R.JRG_CQ_FULL_CNT_WAITS := by
  simp [completionPost, at_, ended, ring, f, Ctl.flag, we, on, full, first]

theorem completionPost_written (f : c.fenced j.owner = false) (we : c.get (R.JRG_CQ_STATUS_WRITE_ERR (c.jobCq j)) = 0)
    (on : c.get (R.JRG_CQ_CFG_ENABLE (c.jobCq j)) ≠ 0) (room : c.cqFull (c.jobCq j) = false)
    (link : c.linkReady (c.cqOwner (c.jobCq j)) = true) : completionPost k c = c.writeCqe (c.jobCq j) j := by
  simp [completionPost, at_, ended, ring, f, Ctl.flag, we, on, room, link]

end Post

/-! ## COMPLETION_WRITE_FAIL -/

theorem Ctl.foldl_dropJob_jobs (l : List Nat) (c : Ctl) :
    (l.foldl (fun c n => c.dropJob n) c).job.jobs = c.job.jobs.filter fun j => decide (j.slot ∉ l) := by
  induction l generalizing c with
  | nil => simp
  | cons n t ih =>
    rw [List.foldl_cons, ih, dropJob_jobs, List.filter_filter]
    exact List.filter_congr fun j _ => by simp [Bool.and_comm]

theorem Ctl.foldl_dropJob_get (l : List Nat) (c : Ctl) {x : Fld} (n : x.key ≠ R.CMB_DMC_FLUSH_FLUSH_BUSY.key) :
    (l.foldl (fun c n => c.dropJob n) c).get x = c.get x :=
  foldl_keeps (fun d : Ctl => d.get x) (fun d k => d.dropJob_get k n) l c

theorem faultRow_cq : ∀ q : Fin 64, (faultRow (484 + q)).isSome = true ∧ hasBlockReset (484 + q) = false := by decide +kernel

/-- A CQ whose write failed has stopped, its fault is pending, and its ended jobs are gone (R93). -/
theorem completionWriteFail_spec (q : Fin 64) (n : Nat) (c : Ctl) :
    let t := completionWriteFail q n c
    t.get (R.JRG_CQ_STATUS_WRITE_ERR q) = 1 ∧ t.srcPending (484 + q) = true ∧
      ∀ j ∈ t.job.jobs, j.ocs = false → j.phase = .ended → t.jobCq j ≠ q := by
  obtain ⟨row, noReset⟩ := faultRow_cq q
  have l : 484 + q.val < 1024 := by omega
  unfold completionWriteFail
  generalize hgone : (c.job.jobs.filter fun j => !j.ocs && decide (j.phase = .ended) && decide (c.jobCq j = q)).map
    (fun j => j.slot) = gone
  dsimp only
  have value {x : Fld} (k : 8912896 ≤ x.key) (ne : x.key ≠ (R.JRG_CQ_STATUS_WRITE_ERR q).key) :
      (Ctl.fault (gone.foldl (fun c n => c.dropJob n) (c.set (R.JRG_CQ_STATUS_WRITE_ERR q) 1)) (484 + q) (n % 256)).get x =
        c.get x := by
    rw [Ctl.fault_get _ _ _ row l noReset (.inr (by omega)), Ctl.foldl_dropJob_get _ _ (by
      simp only [R.CMB_DMC_FLUSH_FLUSH_BUSY]; omega), Ctl.get_set_ne _ _ _ _ ne]
  refine ⟨?_, Ctl.fault_srcPending _ _ _ row l noReset, fun j m ho hp => ?_⟩
  · rw [Ctl.fault_get _ _ _ row l noReset (.inr (by simp only [R.JRG_CQ_STATUS_WRITE_ERR]; omega)), Ctl.foldl_dropJob_get _ _ (by
      simp only [R.JRG_CQ_STATUS_WRITE_ERR, R.CMB_DMC_FLUSH_FLUSH_BUSY]; omega), Ctl.get_set_same]
    rfl
  · rw [Ctl.fault_job _ _ _ row l noReset, Ctl.foldl_dropJob_jobs] at m
    obtain ⟨hj, stays⟩ := List.mem_filter.1 m
    rw [Ctl.jobCq, value (by simp only [R.JRG_SQ_CFG_CQ]; omega) (by
      simp only [R.JRG_SQ_CFG_CQ, R.JRG_CQ_STATUS_WRITE_ERR]; omega)]
    intro e
    rw [decide_eq_true_eq, ← hgone] at stays
    exact stays (List.mem_map_of_mem (List.mem_filter.2 ⟨hj, by simp [ho, hp, Ctl.jobCq, e]⟩))

end Sys2Proof.Machine
end

section
/-! The ring commands and the statement of completions and rings (R88, R89, R122; log entries 52 and 128). -/

namespace Sys2Proof.Machine

theorem leNat_lt (b : Bytes) : leNat b < 256 ^ b.length := by
  induction b with
  | nil => exact Nat.one_pos
  | cons x t ih =>
    have hx := x.isLt
    rw [leNat, List.length_cons, Nat.pow_succ]
    omega

theorem le_lt (p : Bytes) (off n : Nat) : le p off n < 256 ^ n :=
  (leNat_lt _).trans_le (Nat.pow_le_pow_right (by decide) (List.length_take_le _ _))

/-! ## Rules -/

theorem Ctl.passTo_get (c : Ctl) (t : Nat) {x : Fld} (n : x.key ≠ R.TIM_NOW_VALUE.key) : (c.passTo t).get x = c.get x :=
  get_set_ne _ _ _ _ n

/-- The claim of the ring block discards no shadow value. -/
theorem Ctl.takeClaims_jrg (c : Ctl) (h : Head) : c.takeClaims h [blkJrg] = { c with claims := (blkJrg, h) :: c.claims } := by
  simp [takeClaims, claim, dropShadows, blkJrg]

theorem State.any_unclaimed {s : State} {h : Head} {bs : List Nat} (u : s.unclaimed h bs) :
    (bs.any fun b => s.ctl.claimedByOther h b) = false := by
  rw [Bool.eq_false_iff]
  intro e
  obtain ⟨b, m, hb⟩ := List.any_eq_true.1 e
  exact absurd hb (by simp [u b m])

theorem Ctl.claiming_jrg {s : State} {h : Head} (u : s.unclaimed h [blkJrg]) (op : Nat) (p : Bytes) (run : Ctl → Ctl) :
    s.ctl.claiming h op p [blkJrg] run = run { s.ctl with claims := (blkJrg, h) :: s.ctl.claims } := by
  rw [claiming_run _ _ _ _ _ _ (State.any_unclaimed u), takeClaims_jrg]

theorem HeadSt.onlyReplies_mbox {x y : HeadSt} (r : x.onlyReplies y) (m : Mailbox) : x.onlyReplies { y with mbox := m } := by
  rw [onlyReplies] at *
  rw [r]

/-- A background command that ends: its codes stand in the status, none is in progress, and nothing else changes (R294). -/
theorem Ctl.finishBg_spec {c : Ctl} {h : Head} {g : BgCmd} (o : Ocs) (bg : (c.hd h).mbox.bg = some g)
    (tracked : (c.hd h).mbox.bgTracked = true) : ((c.finishBg h o).hd h).mbox.bg = none ∧
      ((c.finishBg h o).hd h).mbox.bgLast = some ⟨g.op, o.rc, o.num, []⟩ ∧ c.onlyReplies (c.finishBg h o) := by
  have put := c.onlyReplies_mbox h (fun x => { x with bg := none, bgLast := some ⟨g.op, o.rc, o.num, []⟩ })
    (c.claims.filter fun e => decide (e.2 ≠ h) || decide (e.1 < 256)) (.background h ⟨g.op, o.rc, o.num, []⟩ :: c.outbox)
  simp only [finishBg, bg, tracked, if_true]
  split
  · refine ⟨?_, ?_, Ctl.onlyReplies.trans ?_ (onlyReplies_msix _ _ _)⟩
    · rw [msix_mbox]; cases h <;> rfl
    · rw [msix_mbox]; cases h <;> rfl
    · convert put using 1
      cases h <;> rfl
  · refine ⟨by cases h <;> rfl, by cases h <;> rfl, ?_⟩
    convert put using 1
    cases h <;> rfl

theorem Ctl.startBg_tracked (c : Ctl) (h : Head) (op : Nat) (p : Bytes) (aux : Nat) :
    ((c.startBg h op p aux).hd h).mbox.bgTracked = true := by
  obtain ⟨x, cl, ob, e, m⟩ := c.startBg_eq h op p aux
  have k : (({ c.setHd h x with claims := cl, outbox := ob } : Ctl).hd h).mbox = x.mbox := by cases h <;> rfl
  rw [e, k, m]

theorem Ctl.onlyReplies.get {c d : Ctl} (k : c.onlyReplies d) (x : Fld) : d.get x = c.get x := by rw [k.1]; rfl

/-- A ring that a command may name. -/
theorem Ctl.ringBad_eq_false {c : Ctl} {h : Head} {p : Bytes} : c.ringBad h p = false ↔
    le p 0 1 ≤ 1 ∧ le p 1 1 ≤ 63 ∧ c.ringOwner (le p 0 1) (le p 1 1) = h := by
  simp [ringBad, and_assoc]

theorem Ctl.ringBad_eq_true {c : Ctl} {h : Head} {p : Bytes} : c.ringBad h p = true ↔
    ¬(le p 0 1 ≤ 1 ∧ le p 1 1 ≤ 63 ∧ c.ringOwner (le p 0 1) (le p 1 1) = h) := by
  rw [← ringBad_eq_false, Bool.not_eq_false]

theorem Ctl.ringOn_iff {c : Ctl} {kind q : Nat} :
    c.ringOn kind q = true ↔ c.get (if kind = 0 then R.JRG_SQ_CFG_ENABLE q else R.JRG_CQ_CFG_ENABLE q) ≠ 0 := by
  unfold ringOn flag
  split <;> simp

theorem sizeOk_le {n : Nat} (h : sizeOk n = true) : n ≤ 65536 := by
  simp only [sizeOk, Bool.and_eq_true, decide_eq_true_eq] at h
  exact h.1.2

/-! ## RING_CREATE -/

theorem Ctl.ringFields_sq {c : Ctl} {p : Bytes} (kind : le p 0 1 = 0) (size : le p 4 4 ≤ 65536) :
    let d := c.ringFields p
    d.get (R.JRG_SQ_CFG_SIZE (le p 1 1)) = le p 4 4 ∧ d.get (R.JRG_SQ_CFG_CQ (le p 1 1)) = le p 16 1 % 64 ∧
    d.get (R.JRG_SQ_BASE_BASE (le p 1 1)) = le p 8 8 / 4096 ∧
    ∀ x : Fld, x.key ≠ (R.JRG_SQ_CFG_SIZE (le p 1 1)).key → x.key ≠ (R.JRG_SQ_CFG_CQ (le p 1 1)).key →
      x.key ≠ (R.JRG_SQ_BASE_BASE (le p 1 1)).key → d.get x = c.get x := by
  have base : le p 8 8 / 4096 < 4503599627370496 := by have := le_lt p 8 8; omega
  have small : le p 4 4 < 131072 := by omega
  simp only [ringFields, if_pos kind]
  refine ⟨?_, ?_, ?_, fun x n1 n2 n3 => ?_⟩
  · simp [get_set, R.JRG_SQ_CFG_SIZE, R.JRG_SQ_CFG_CQ, Nat.mod_eq_of_lt small]
  · simp [R.JRG_SQ_CFG_CQ]
  · simp [get_set, R.JRG_SQ_CFG_SIZE, R.JRG_SQ_CFG_CQ, R.JRG_SQ_BASE_BASE, Nat.mod_eq_of_lt base]
  · simp [get_set, n1, n2, n3]

theorem Ctl.ringFields_cq {c : Ctl} {p : Bytes} (kind : le p 0 1 = 1) (size : le p 4 4 ≤ 65536) :
    let d := c.ringFields p
    d.get (R.JRG_CQ_CFG_SIZE (le p 1 1)) = le p 4 4 ∧ d.get (R.JRG_CQ_CFG_VECTOR (le p 1 1)) = le p 16 1 % 64 ∧
    d.get (R.JRG_CQ_BASE_BASE (le p 1 1)) = le p 8 8 / 4096 ∧
    d.get (R.JRG_CQ_CFG_ENABLE (le p 1 1)) = c.get (R.JRG_CQ_CFG_ENABLE (le p 1 1)) := by
  have base : le p 8 8 / 4096 < 4503599627370496 := by have := le_lt p 8 8; omega
  have small : le p 4 4 < 131072 := by omega
  simp only [ringFields, kind, Nat.one_ne_zero, if_false]
  refine ⟨?_, ?_, ?_, ?_⟩ <;>
    simp [get_set, R.JRG_CQ_CFG_SIZE, R.JRG_CQ_CFG_VECTOR, R.JRG_CQ_BASE_BASE, R.JRG_CQ_CFG_IEN, R.JRG_CQ_IRQ_COAL_CNT,
      R.JRG_CQ_IRQ_COAL_US, R.JRG_CQ_CFG_ENABLE, Nat.mod_eq_of_lt small, Nat.mod_eq_of_lt base]

/-- The configuration that RING_CREATE gives is one that R88 accepts. -/
def Ctl.createOkay (c : Ctl) (h : Head) (p : Bytes) : Prop :=
  le p 4 4 = 0 ∨ (le p 8 8 % 4096 = 0 ∧ sizeOk (le p 4 4) = true ∧
    (le p 0 1 = 0 → le p 16 1 ≤ 63 ∧ c.get (R.JRG_CQ_CFG_ENABLE (le p 16 1)) ≠ 0 ∧ c.cqOwner (le p 16 1) = h))

/-- The SQ that RING_CREATE describes may be enabled when its CQ is enabled and of the same owner. -/
theorem Ctl.sqOk_ringFields {c : Ctl} {h : Head} {p : Bytes} (own : c.ringOwner (le p 0 1) (le p 1 1) = h) (kind : le p 0 1 = 0)
    (size : sizeOk (le p 4 4) = true) (low : le p 16 1 ≤ 63) : (c.ringFields p).sqOk (le p 1 1) = true ↔
      c.get (R.JRG_CQ_CFG_ENABLE (le p 16 1)) ≠ 0 ∧ c.cqOwner (le p 16 1) = h := by
  obtain ⟨hsize, hcq, -, kept⟩ := Ctl.ringFields_sq (c := c) kind (sizeOk_le size)
  have cq : le p 16 1 % 64 = le p 16 1 := Nat.mod_eq_of_lt (by omega)
  have lq := le_lt p 1 1
  have on := kept (R.JRG_CQ_CFG_ENABLE (le p 16 1)) (by simp only [R.JRG_CQ_CFG_ENABLE, R.JRG_SQ_CFG_SIZE]; omega)
    (by simp only [R.JRG_CQ_CFG_ENABLE, R.JRG_SQ_CFG_CQ]; omega) (by simp only [R.JRG_CQ_CFG_ENABLE, R.JRG_SQ_BASE_BASE]; omega)
  have ownCq := cqOwner_congr (kept R.JRG_OWNER_CQ_OWNER (by simp only [R.JRG_OWNER_CQ_OWNER, R.JRG_SQ_CFG_SIZE]; omega)
    (by simp only [R.JRG_OWNER_CQ_OWNER, R.JRG_SQ_CFG_CQ]; omega)
    (by simp only [R.JRG_OWNER_CQ_OWNER, R.JRG_SQ_BASE_BASE]; omega)) (le p 16 1)
  have ownSq := sqOwner_congr (kept R.JRG_OWNER_SQ_OWNER (by simp only [R.JRG_OWNER_SQ_OWNER, R.JRG_SQ_CFG_SIZE]; omega)
    (by simp only [R.JRG_OWNER_SQ_OWNER, R.JRG_SQ_CFG_CQ]; omega)
    (by simp only [R.JRG_OWNER_SQ_OWNER, R.JRG_SQ_BASE_BASE]; omega)) (le p 1 1)
  have own : c.sqOwner (le p 1 1) = h := by simpa [ringOwner, kind] using own
  simp only [sqOk, hsize, hcq, cq, flag, on, ownCq, ownSq, own, size]
  simp

theorem Ctl.createBad_iff {c : Ctl} {h : Head} {p : Bytes} (own : c.ringOwner (le p 0 1) (le p 1 1) = h) :
    c.createBad p = true ↔ ¬c.createOkay h p := by
  unfold createBad createOkay
  by_cases zero : le p 4 4 = 0
  · simp [zero]
  by_cases base : le p 8 8 % 4096 = 0
  swap
  · simp [zero, base]
  cases size : sizeOk (le p 4 4) with
  | false => simp [zero, size]
  | true =>
    by_cases kind : le p 0 1 = 0
    swap
    · simp [zero, base, kind, size]
    by_cases low : le p 16 1 ≤ 63
    swap
    · simp [zero, base, kind, low, Nat.not_le.1 low]
    have iff := Ctl.sqOk_ringFields own kind size low
    cases ok : (c.ringFields p).sqOk (le p 1 1) with
    | true => simp [zero, base, kind, low, size, ok, iff.1 ok]
    | false =>
      have no := mt iff.2 (by simp [ok])
      simpa [zero, base, kind, low, size, ok] using no

/-- RING_CREATE past the gate. -/
theorem ringCreate_run {h : Head} {p : Bytes} {s : State} (g : s.takes h { min := 24 } p) (u : s.unclaimed h [blkJrg]) :
    exec (.ringCreate h p) s = .next { s with ctl := (
      if s.ctl.ringBad h p then s.ctl.finish h 0xC110 .invalidParameter []
      else if s.ctl.ringOn (le p 0 1) (le p 1 1) then s.ctl.finish h 0xC110 .busy []
      else if s.ctl.createBad p then s.ctl.finish h 0xC110 .invalidParameter []
      else
        let c1 := Ctl.ringFields { s.ctl with claims := (blkJrg, h) :: s.ctl.claims } p
        (if le p 4 4 = 0 then c1 else if le p 0 1 = 0 then c1.sqEnable (le p 1 1) else c1.cqEnable (le p 1 1)).finish h 0xC110 .ok
          []) } := by
  obtain ⟨hfree, hgate⟩ := g
  change Host.Outcome.next { s with ctl := ringCreate h p s.ctl } = _
  rw [ringCreate, Ctl.ocs_run _ _ _ _ _ _ hfree hgate, ringCreateRun, Ctl.claiming_jrg u]

/-- A ring created: configured as named, and enabled unless its SIZE is 0. -/
theorem ringCreate_done {h : Head} {p : Bytes} {s : State} (g : s.takes h { min := 24 } p) (u : s.unclaimed h [blkJrg])
    (mine : s.ctl.ringBad h p = false) (off : s.ctl.ringOn (le p 0 1) (le p 1 1) = false) (okay : s.ctl.createOkay h p) :
    let q := le p 1 1
    ∃ t, exec (.ringCreate h p) s = .next t ∧ t.replied h 0xC110 .ok [] ∧ s.sameStack t ∧
      (le p 0 1 = 0 → t.ctl.get (R.JRG_SQ_CFG_SIZE q) = le p 4 4 ∧ t.ctl.get (R.JRG_SQ_CFG_CQ q) = le p 16 1 % 64 ∧
        t.ctl.get (R.JRG_SQ_BASE_BASE q) = le p 8 8 / 4096 ∧ t.ctl.get (R.JRG_SQ_CFG_ENABLE q) = (if le p 4 4 = 0 then 0 else 1) ∧
        (le p 4 4 ≠ 0 → t.ctl.get (R.JRG_SQ_STATUS_HEAD q) = 0 ∧ (t.ctl.ring q).sqTail = 0)) ∧
      (le p 0 1 = 1 → t.ctl.get (R.JRG_CQ_CFG_SIZE q) = le p 4 4 ∧ t.ctl.get (R.JRG_CQ_CFG_VECTOR q) = le p 16 1 % 64 ∧
        t.ctl.get (R.JRG_CQ_BASE_BASE q) = le p 8 8 / 4096 ∧ t.ctl.get (R.JRG_CQ_CFG_ENABLE q) = (if le p 4 4 = 0 then 0 else 1) ∧
        (le p 4 4 ≠ 0 → t.ctl.get (R.JRG_CQ_STATUS_TAIL q) = 0 ∧ t.ctl.get (R.JRG_CQ_STATUS_PHASE q) = 1)) := by
  obtain ⟨-, -, own⟩ := Ctl.ringBad_eq_false.1 mine
  have good : s.ctl.createBad p = false := Bool.eq_false_iff.2 fun e => (Ctl.createBad_iff own).1 e okay
  have small : le p 4 4 ≤ 65536 := by
    rcases okay with z | ⟨-, size, -⟩
    · omega
    · exact sizeOk_le size
  have run := ringCreate_run g u
  simp only [mine, off, good, Bool.false_eq_true, if_false] at run
  dsimp only
  refine ⟨_, run, State.replied_finish .., ⟨rfl, rfl, rfl⟩, fun kind => ?_, fun kind => ?_⟩
  · have idle : s.ctl.get (R.JRG_SQ_CFG_ENABLE (le p 1 1)) = 0 := by simpa [Ctl.ringOn, kind, Ctl.flag] using off
    obtain ⟨hsize, hcq, hbase, kept⟩ :=
      Ctl.ringFields_sq (c := { s.ctl with claims := (blkJrg, h) :: s.ctl.claims }) kind small
    have henable := kept (R.JRG_SQ_CFG_ENABLE (le p 1 1)) (by simp only [R.JRG_SQ_CFG_ENABLE, R.JRG_SQ_CFG_SIZE]; omega)
      (by simp only [R.JRG_SQ_CFG_ENABLE, R.JRG_SQ_CFG_CQ]; omega)
      (by simp only [R.JRG_SQ_CFG_ENABLE, R.JRG_SQ_BASE_BASE]; omega)
    simp only [Ctl.finish_get, Ctl.ring, Ctl.finish_job, if_pos kind]
    split
    · exact ⟨hsize, hcq, hbase, henable.trans idle, fun n => absurd ‹_› n⟩
    · simp only [Ctl.sqEnable, Ctl.setRing_get]
      refine ⟨?_, ?_, ?_, ?_, fun _ => ⟨?_, ?_⟩⟩
      · rwa [Ctl.get_set_ne, Ctl.get_set_ne, Ctl.get_set_ne] <;>
          simp [R.JRG_SQ_STATUS_FETCH_ERR, R.JRG_SQ_STATUS_HEAD, R.JRG_SQ_CFG_ENABLE, R.JRG_SQ_CFG_SIZE]
      · rwa [Ctl.get_set_ne, Ctl.get_set_ne, Ctl.get_set_ne] <;>
          simp [R.JRG_SQ_STATUS_FETCH_ERR, R.JRG_SQ_STATUS_HEAD, R.JRG_SQ_CFG_ENABLE, R.JRG_SQ_CFG_CQ]
      · rwa [Ctl.get_set_ne, Ctl.get_set_ne, Ctl.get_set_ne] <;>
          simp [R.JRG_SQ_STATUS_FETCH_ERR, R.JRG_SQ_STATUS_HEAD, R.JRG_SQ_CFG_ENABLE, R.JRG_SQ_BASE_BASE]
      · simp [Ctl.get_set, R.JRG_SQ_STATUS_FETCH_ERR, R.JRG_SQ_STATUS_HEAD, R.JRG_SQ_CFG_ENABLE]
      · simp [Ctl.get_set, R.JRG_SQ_STATUS_FETCH_ERR, R.JRG_SQ_STATUS_HEAD]
      · exact congrArg RingSt.sqTail (Ctl.ring_setRing ..)
  · have idle : s.ctl.get (R.JRG_CQ_CFG_ENABLE (le p 1 1)) = 0 := by simpa [Ctl.ringOn, kind, Ctl.flag] using off
    obtain ⟨hsize, hvec, hbase, henable⟩ :=
      Ctl.ringFields_cq (c := { s.ctl with claims := (blkJrg, h) :: s.ctl.claims }) kind small
    simp only [Ctl.finish_get, kind, Nat.one_ne_zero, if_false]
    split
    · exact ⟨hsize, hvec, hbase, henable.trans idle, fun n => absurd ‹_› n⟩
    · simp only [Ctl.cqEnable, Ctl.setRing_get]
      refine ⟨?_, ?_, ?_, ?_, fun _ => ⟨?_, ?_⟩⟩
      · rwa [Ctl.get_set_ne, Ctl.get_set_ne, Ctl.get_set_ne, Ctl.get_set_ne] <;>
          simp [R.JRG_CQ_STATUS_TAIL, R.JRG_CQ_STATUS_PHASE, R.JRG_CQ_STATUS_WRITE_ERR, R.JRG_CQ_CFG_ENABLE, R.JRG_CQ_CFG_SIZE]
      · rwa [Ctl.get_set_ne, Ctl.get_set_ne, Ctl.get_set_ne, Ctl.get_set_ne] <;>
          simp [R.JRG_CQ_STATUS_TAIL, R.JRG_CQ_STATUS_PHASE, R.JRG_CQ_STATUS_WRITE_ERR, R.JRG_CQ_CFG_ENABLE, R.JRG_CQ_CFG_VECTOR]
      · rwa [Ctl.get_set_ne, Ctl.get_set_ne, Ctl.get_set_ne, Ctl.get_set_ne] <;>
          simp [R.JRG_CQ_STATUS_TAIL, R.JRG_CQ_STATUS_PHASE, R.JRG_CQ_STATUS_WRITE_ERR, R.JRG_CQ_CFG_ENABLE, R.JRG_CQ_BASE_BASE]
      all_goals simp [Ctl.get_set, R.JRG_CQ_STATUS_TAIL, R.JRG_CQ_STATUS_PHASE, R.JRG_CQ_STATUS_WRITE_ERR, R.JRG_CQ_CFG_ENABLE]

/-! ## RING_DELETE -/

/-- RING_DELETE past the gate. -/
theorem ringDelete_run {h : Head} {p : Bytes} {s : State} (g : s.takes h { min := 2, background := true } p)
    (u : s.unclaimed h [blkJrg]) : exec (.ringDelete h p) s = .next { s with ctl := (
      if s.ctl.ringBad h p then s.ctl.finish h 0xC111 .invalidParameter []
      else if le p 0 1 = 1 ∧ s.ctl.cqFreed (le p 1 1) = false then
        (s.ctl.set (R.JRG_CQ_CFG_ERR (le p 1 1)) 1).finish h 0xC111 .invalidParameter []
      else
        let c1 : Ctl := { s.ctl with claims := (blkJrg, h) :: s.ctl.claims }
        if le p 0 1 = 0 then (c1.sqDisable (le p 1 1)).startBg h 0xC111 p (le p 1 1)
        else ((c1.set (R.JRG_CQ_CFG_ENABLE (le p 1 1)) 0).startBg h 0xC111 p (le p 1 1)).finishBg h .ok) } := by
  obtain ⟨hfree, hgate⟩ := g
  change Host.Outcome.next { s with ctl := ringDelete h p s.ctl } = _
  rw [ringDelete, Ctl.ocs_run _ _ _ _ _ _ hfree hgate, ringDeleteRun, Ctl.claiming_jrg u]

/-- One field set and replies made: the field's value, and every other field as it was. -/
theorem Ctl.keeps_of_set {c d : Ctl} {x : Fld} {v : Nat} (k : ∀ y, d.get y = (c.set x v).get y) :
    d.get x = v % 2 ^ x.width ∧ c.keeps d [x] :=
  ⟨(k x).trans (get_set_same ..), fun y n => (k y).trans (get_set_ne _ _ _ _ fun e => n x List.mem_cons_self e.symm)⟩

/-! ## RING_ASSIGN -/

/-- RING_ASSIGN past the gate. -/
theorem ringAssign_run {h : Head} {p : Bytes} {s : State} (g : s.takes h { min := 3 } p)
    (u : s.unclaimed h [blkJrg]) : exec (.ringAssign h p) s = .next { s with ctl := (
      if s.ctl.ringBad h p || decide (1 < le p 2 1) || s.ctl.ringOn (le p 0 1) (le p 1 1) ||
          (decide (le p 2 1 = 1) && !s.ctl.twoHeads) then s.ctl.finish h 0xC112 .invalidParameter []
      else
        let c1 : Ctl := { s.ctl with claims := (blkJrg, h) :: s.ctl.claims }
        let f := if le p 0 1 = 0 then R.JRG_OWNER_SQ_OWNER else R.JRG_OWNER_CQ_OWNER
        (c1.set f (if le p 2 1 = 1 then setBit (c1.get f) (le p 1 1) else clrBit (c1.get f) (le p 1 1))).finish h 0xC112 .ok
          []) } := by
  obtain ⟨hfree, hgate⟩ := g
  change Host.Outcome.next { s with ctl := ringAssign h p s.ctl } = _
  rw [ringAssign, Ctl.ocs_run _ _ _ _ _ _ hfree hgate, ringAssignRun, Ctl.claiming_jrg u]

theorem Ctl.assignBad_of {c : Ctl} {h : Head} {p : Bytes}
    (bad : ¬(le p 0 1 ≤ 1 ∧ le p 1 1 ≤ 63 ∧ c.ringOwner (le p 0 1) (le p 1 1) = h) ∨ 1 < le p 2 1 ∨
      c.get (if le p 0 1 = 0 then R.JRG_SQ_CFG_ENABLE (le p 1 1) else R.JRG_CQ_CFG_ENABLE (le p 1 1)) ≠ 0 ∨
      (le p 2 1 = 1 ∧ c.twoHeads = false)) :
    (c.ringBad h p || decide (1 < le p 2 1) || c.ringOn (le p 0 1) (le p 1 1) || (decide (le p 2 1 = 1) && !c.twoHeads)) = true := by
  rw [← ringBad_eq_true, ← ringOn_iff] at bad
  simpa [or_assoc] using bad

/-- The owner of a ring, from the owner bits of its kind. -/
theorem Ctl.ringOwner_eq (c : Ctl) (kind q : Nat) : c.ringOwner kind q =
    Head.ofNum (bit (tb (c.get (if kind = 0 then R.JRG_OWNER_SQ_OWNER else R.JRG_OWNER_CQ_OWNER)) q)) := by
  unfold ringOwner
  split <;> rfl

/-- The owner bits with one of them given to a head. -/
theorem tb_assigned {v q n o : Nat} (l : n < 64) :
    tb ((if o = 1 then setBit v q else clrBit v q) % 2 ^ 64) n = if n = q then decide (o = 1) else tb v n := by
  rw [tb_mod_two_pow l]
  split
  · next e => rw [tb_setBit, e]; simp
  · next e => rw [tb_clrBit]; simp [e]

theorem ringAssign_done {h : Head} {p : Bytes} {s : State} (g : s.takes h { min := 3 } p) (u : s.unclaimed h [blkJrg])
    (mine : s.ctl.ringBad h p = false) (off : s.ctl.ringOn (le p 0 1) (le p 1 1) = false) (own : le p 2 1 ≤ 1)
    (heads : le p 2 1 = 1 → s.ctl.twoHeads = true) :
    ∃ t, exec (.ringAssign h p) s = .next t ∧ t.replied h 0xC112 .ok [] ∧
      t.ctl.ringOwner (le p 0 1) (le p 1 1) = Head.ofNum (le p 2 1) ∧ s.sameStack t ∧
      s.ctl.keeps t.ctl [if le p 0 1 = 0 then R.JRG_OWNER_SQ_OWNER else R.JRG_OWNER_CQ_OWNER] ∧
      ∀ n, n < 64 → n ≠ le p 1 1 → t.ctl.ringOwner (le p 0 1) n = s.ctl.ringOwner (le p 0 1) n := by
  obtain ⟨-, hq, -⟩ := Ctl.ringBad_eq_false.1 mine
  have fine : (s.ctl.ringBad h p || decide (1 < le p 2 1) || s.ctl.ringOn (le p 0 1) (le p 1 1) ||
      (decide (le p 2 1 = 1) && !s.ctl.twoHeads)) = false := by
    simpa [mine, off, Nat.not_lt.2 own] using heads
  have run := ringAssign_run g u
  rw [fine] at run
  simp only [Bool.false_eq_true, if_false] at run
  refine ⟨_, run, State.replied_finish .., ?_, ⟨rfl, rfl, rfl⟩, ?_, fun n l ne => ?_⟩
  all_goals
    generalize hf : (if le p 0 1 = 0 then R.JRG_OWNER_SQ_OWNER else R.JRG_OWNER_CQ_OWNER) = f
    have width : f.width = 64 := by rw [← hf]; split <;> rfl
  · rw [Ctl.ringOwner_eq, Ctl.finish_get, hf, Ctl.get_set_same, width, tb_assigned (by omega), if_pos rfl]
    interval_cases le p 2 1 <;> rfl
  · exact (Ctl.keeps_of_set fun y => Ctl.finish_get ..).2
  · rw [Ctl.ringOwner_eq, Ctl.ringOwner_eq, Ctl.finish_get, hf, Ctl.get_set_same, width, tb_assigned l, if_neg ne]
    rfl

/-! ## The statement -/

/-- Settles O22: COMPLETION_POST by the branch that its ring takes, and each ring command past the gate by the branch it takes. -/
theorem completionsArePostedAndRingsKept : Obligations.CompletionsArePostedAndRingsKept := by
  intro s
  refine ⟨fun k j at_ ended ring => ?_, fun q us un => ?_, fun q n => ?_, fun h p u => ?_, fun h g bg op tracked => ?_⟩
  · obtain rfl := Ctl.jobAt_slot at_
    have post {d : Ctl} (e : completionPost j.slot s.ctl = d) : exec (.completionPost j.slot) s = .next { s with ctl := d } :=
      congrArg Host.Outcome.next (State.mapCtl_eq e)
    refine ⟨fun f => post (completionPost_fenced at_ f), fun f we => ?_, fun f we on => ⟨fun full first => ?_, fun room link l => ?_⟩⟩
    · exact ⟨_, post (completionPost_stopped at_ ended ring f we), Ctl.jobAt_dropJob .., Ctl.dropJob_outbox ..,
        fun x n => Ctl.dropJob_get _ _ fun e => n _ List.mem_cons_self e.symm, rfl, rfl, rfl⟩
    · obtain ⟨value, kept⟩ := Ctl.keeps_of_set (c := s.ctl) (d := (s.ctl.putJob { j with waitCounted := true }).bump
        R.JRG_CQ_FULL_CNT_WAITS) (x := R.JRG_CQ_FULL_CNT_WAITS) (fun y => rfl)
      refine ⟨_, post (completionPost_full at_ ended ring f we on full first), ?_, ⟨rfl, rfl, rfl⟩, value.trans ?_, kept⟩
      · have put := Ctl.jobAt_putJob (c := s.ctl) (j := { j with waitCounted := true })
          (show (s.ctl.jobAt j.slot).isSome by rw [at_]; rfl)
        exact Option.isSome_iff_exists.2 ⟨_, put⟩
      · exact Nat.mod_eq_of_lt (Nat.lt_of_le_of_lt (Nat.min_le_right _ _) (by decide))
    · obtain ⟨none', sent, tail, phase⟩ := s.ctl.writeCqe_spec (s.ctl.jobCq j) j l
      exact ⟨_, post (completionPost_written at_ ended ring f we on room link), none', ⟨rfl, rfl, rfl⟩, sent, tail, phase⟩
  · have run : exec (.cqCoalesceTimeout q) s = .next { s with
        ctl := ((s.ctl.passTo ((s.ctl.ring q).firstUnsig + 1000 * s.ctl.get (R.JRG_CQ_IRQ_COAL_US q))).cqIrq q) } :=
      congrArg Host.Outcome.next (State.mapCtl_eq (if_neg (not_or.2 ⟨us, un⟩)))
    obtain ⟨-, -, clock, -⟩ := Ctl.cqIrq_kept (s.ctl.passTo ((s.ctl.ring q).firstUnsig + 1000 * s.ctl.get (R.JRG_CQ_IRQ_COAL_US q))) q
    refine ⟨_, run, ⟨rfl, rfl, rfl⟩, clock.trans (Ctl.passTo_clock ..), fun ien => Ctl.cqIrq_unsignalled ?_⟩
    rwa [Ctl.passTo_get]
    simp only [R.JRG_CQ_CFG_IEN, R.TIM_NOW_VALUE]; omega
  · obtain ⟨err, pending, gone⟩ := completionWriteFail_spec q n s.ctl
    exact ⟨_, rfl, err, pending, ⟨rfl, rfl, rfl⟩, gone⟩
  · refine ⟨fun g => ⟨fun no => ?_, fun mine on => ?_, fun mine off bad => ?_, fun mine off okay => ?_⟩,
      fun g => ⟨fun no => ?_, fun mine kind busy => ?_, fun mine kind freed => ?_, fun mine kind => ?_⟩,
      fun g => ⟨fun bad => ?_, fun mine own off heads => ?_⟩⟩
    · exact State.answers ((ringCreate_run g u).trans (by rw [if_pos (Ctl.ringBad_eq_true.2 no)]))
    · exact State.answers ((ringCreate_run g u).trans (by
        rw [Ctl.ringBad_eq_false.2 mine, if_neg Bool.false_ne_true, if_pos (Ctl.ringOn_iff.2 on)]))
    · have ⟨_, _, own⟩ := mine
      exact State.answers ((ringCreate_run g u).trans (by
        rw [Ctl.ringBad_eq_false.2 mine, if_neg Bool.false_ne_true, if_neg (mt Ctl.ringOn_iff.1 off),
          if_pos ((Ctl.createBad_iff own).2 bad)]))
    · exact ringCreate_done g u (Ctl.ringBad_eq_false.2 mine) (Bool.eq_false_iff.2 (mt Ctl.ringOn_iff.1 off)) okay
    · exact State.answers ((ringDelete_run g u).trans (by rw [if_pos (Ctl.ringBad_eq_true.2 no)]))
    · have run := (ringDelete_run g u).trans (by
        rw [Ctl.ringBad_eq_false.2 mine, if_neg Bool.false_ne_true, if_pos ⟨kind, busy⟩])
      obtain ⟨value, kept⟩ := Ctl.keeps_of_set (fun y => Ctl.finish_get (s.ctl.set (R.JRG_CQ_CFG_ERR (le p 1 1)) 1) h 0xC111
        .invalidParameter [] y)
      exact ⟨_, run, State.replied_finish .., value, kept, rfl, rfl, rfl⟩
    · have run := (ringDelete_run g u).trans (by
        simp only [Ctl.ringBad_eq_false.2 mine, kind, freed]; rfl)
      obtain ⟨none', last, replies⟩ := Ctl.finishBg_spec .ok (Ctl.startBg_mbox (Ctl.set
        { s.ctl with claims := (blkJrg, h) :: s.ctl.claims } (R.JRG_CQ_CFG_ENABLE (le p 1 1)) 0) h 0xC111 p (le p 1 1)).1
        (Ctl.startBg_tracked ..)
      obtain ⟨value, kept⟩ := Ctl.keeps_of_set (c := { s.ctl with claims := (blkJrg, h) :: s.ctl.claims })
        (fun y => (replies.get y).trans (Ctl.startBg_get ..))
      exact ⟨_, run, none', last, value, kept, rfl, rfl, rfl⟩
    · have run := (ringDelete_run g u).trans (by
        simp only [Ctl.ringBad_eq_false.2 mine, kind]; rfl)
      obtain ⟨value, kept⟩ := Ctl.keeps_of_set (c := { s.ctl with claims := (blkJrg, h) :: s.ctl.claims })
        (fun y => Ctl.startBg_get (Ctl.sqDisable { s.ctl with claims := (blkJrg, h) :: s.ctl.claims } (le p 1 1)) h 0xC111 p
          (le p 1 1) y)
      exact ⟨_, _, run, (Ctl.startBg_mbox ..).1, rfl, value, kept, rfl, rfl, rfl⟩
    · exact State.answers ((ringAssign_run g u).trans (by rw [if_pos (Ctl.assignBad_of bad)]))
    · exact ringAssign_done g u (Ctl.ringBad_eq_false.2 mine) (Bool.eq_false_iff.2 (mt Ctl.ringOn_iff.1 off)) own heads
  · refine ⟨fun empty => ?_, fun held => ?_⟩
    · obtain ⟨none', last, replies⟩ := Ctl.finishBg_spec .ok bg tracked
      have run : ringDeleteDrained h s.ctl = s.ctl.finishBg h .ok := by simp [ringDeleteDrained, bg, op, empty]
      exact ⟨_, congrArg Host.Outcome.next (State.mapCtl_eq run), none', op ▸ last, replies, rfl, rfl, rfl⟩
    · have run : ringDeleteDrained h s.ctl = s.ctl := by simp [ringDeleteDrained, bg, held]
      exact congrArg Host.Outcome.next (State.mapCtl_eq run)

end Sys2Proof.Machine
end

section
/-! SUPPORT. Link reads issued (R110), lines that enter the ingest buffer (R159), and jobs replaced in their slot. -/

namespace Sys2Proof.Machine

/-! ## Jobs replaced in their slot -/

theorem Ctl.putJob_slots (c : Ctl) (j : Job) : (c.putJob j).job.jobs.map (·.slot) = c.job.jobs.map (·.slot) := by
  change (c.job.jobs.map fun x => if x.slot = j.slot then j else x).map (·.slot) = _
  rw [List.map_map]
  refine List.map_congr_left fun x _ => ?_
  dsimp only [Function.comp]
  split
  · next e => exact e.symm
  · rfl

/-- What is in the jobs after one is replaced. -/
theorem Ctl.mem_putJob {c : Ctl} {j x : Job} (m : x ∈ (c.putJob j).job.jobs) : x = j ∨ (x ∈ c.job.jobs ∧ x.slot ≠ j.slot) := by
  obtain ⟨y, hy, rfl⟩ := List.mem_map.1 (show x ∈ c.job.jobs.map fun x => if x.slot = j.slot then j else x from m)
  split
  · exact .inl rfl
  · next n => exact .inr ⟨hy, n⟩

theorem Ctl.jobAt_isSome_iff_slots {c : Ctl} {k : Nat} : (c.jobAt k).isSome ↔ k ∈ c.job.jobs.map (·.slot) := by
  rw [jobAt_isSome, List.mem_map]

/-- Every job of a slot is as described. -/
def Ctl.allAt (c : Ctl) (k : Nat) (P : Job → Prop) : Prop := ∀ x ∈ c.job.jobs, x.slot = k → P x

theorem Ctl.allAt_putJob (c : Ctl) (j : Job) {P : Job → Prop} (h : P j) : (c.putJob j).allAt j.slot P := by
  intro x m e
  rcases mem_putJob m with rfl | ⟨-, n⟩
  · exact h
  · exact absurd e n

/-! ## Reads issued -/

/-- What the issue of reads leaves as it was. -/
structure Ctl.issues (c d : Ctl) : Prop where
  regs : d.regs = c.regs
  slots : d.job.jobs.map (·.slot) = c.job.jobs.map (·.slot)
  outbox : ∀ o ∈ c.outbox, o ∈ d.outbox

/-- A description of a job that the issue of its next read does not change. -/
def issueStable (P : Job → Prop) : Prop := ∀ (j : Job) r t, j.toRead = r :: t → P j → P { j with toRead := t }

theorem Ctl.issueReads_issues (n : Nat) (c : Ctl) : c.issues (issueReads n c) ∧
    ∀ k P, issueStable P → c.allAt k P → (issueReads n c).allAt k P := by
  induction n generalizing c with
  | zero => exact ⟨⟨rfl, rfl, fun _ m => m⟩, fun _ _ _ h => h⟩
  | succ n ih =>
    have same : c.issues c ∧ ∀ k P, issueStable P → c.allAt k P → c.allAt k P := ⟨⟨rfl, rfl, fun _ m => m⟩, fun _ _ _ h => h⟩
    rw [issueReads]
    split
    · exact same
    split
    · exact same
    next j hj =>
    split
    · exact same
    next r t e =>
    dsimp only
    generalize hd : Ctl.emit { c.putJob { j with toRead := t } with job := { (c.putJob { j with toRead := t }).job with
      tag := c.job.tag + 1,
      dma := (c.putJob { j with toRead := t }).job.dma ++
        [DmaReq.mk c.job.tag j.owner j.slot r.addr r.len false r.use r.frag r.offset] } }
      (.dmaRead j.owner c.job.tag r.addr r.len) = d
    obtain ⟨rest, all⟩ := ih d
    have jobs : d.job.jobs = (c.putJob { j with toRead := t }).job.jobs := by rw [← hd]; rfl
    refine ⟨⟨rest.regs.trans (by rw [← hd]; rfl), rest.slots.trans ?_, fun o m => rest.outbox o ?_⟩, fun k P stable h => all k P stable ?_⟩
    · rw [jobs, putJob_slots]
    · rw [← hd]; exact List.mem_cons_of_mem _ m
    · intro x m slot
      rw [jobs] at m
      rcases mem_putJob m with rfl | ⟨m, -⟩
      · exact stable j r t e (h j (List.mem_of_mem_filter (minBy_spec hj).1) slot)
      · exact h x m slot

theorem Ctl.pump_regs (c : Ctl) : c.pump.regs = c.regs := (c.issueReads_issues 4096).1.regs

@[simp] theorem Ctl.pump_get (c : Ctl) (x : Fld) : c.pump.get x = c.get x := get_congr _ _ c.pump_regs x

/-- A job of a held slot stays there as described. -/
theorem Ctl.pump_at {c : Ctl} {k : Nat} {P : Job → Prop} (stable : issueStable P) (held : (c.jobAt k).isSome) (all : c.allAt k P) :
    ∃ x, c.pump.jobAt k = some x ∧ P x := by
  obtain ⟨issues, kept⟩ := c.issueReads_issues 4096
  rw [jobAt_isSome_iff_slots, ← issues.slots, ← jobAt_isSome_iff_slots] at held
  obtain ⟨x, hx⟩ := Option.isSome_iff_exists.1 held
  exact ⟨x, hx, kept k P stable all x (jobAt_mem hx) (jobAt_slot hx)⟩

/-- A job with nothing to read is left as it is. -/
theorem Ctl.pump_put {c d : Ctl} {j : Job} {k : Nat} (slot : j.slot = k) (idle : j.toRead = []) (held : (c.jobAt k).isSome)
    (jobs : d.job.jobs = (c.putJob j).job.jobs) : d.pump.jobAt k = some j := by
  subst slot
  obtain ⟨x, hx, rfl⟩ := Ctl.pump_at (c := d) (P := (· = j)) (fun i r t e h => by rw [h, idle] at e; cases e)
    (by rw [jobAt_congr jobs, jobAt_putJob held]; rfl) (fun x m => c.allAt_putJob j (P := (· = j)) rfl x (jobs ▸ m))
  exact hx

/-- With nothing to read nothing is issued. -/
theorem Ctl.pump_idle {c : Ctl} (idle : ∀ x ∈ c.job.jobs, x.toRead = []) : c.pump = c := by
  have none' : c.job.jobs.filter c.mayRead = [] :=
    List.filter_eq_nil_iff.2 fun x m => by simp [mayRead, idle x m]
  rw [pump, issueReads, none']
  split
  · rfl
  · rfl

/-! ## The ingest buffer -/

@[simp] theorem Ctl.judgePanic_job (c : Ctl) : c.judgePanic.job = c.job := by
  unfold judgePanic
  dsimp only
  split
  · split <;> rfl
  · split <;> rfl
@[simp] theorem Ctl.judgePanic_stk (c : Ctl) : c.judgePanic.stk = c.stk := by
  unfold judgePanic
  dsimp only
  split
  · split <;> rfl
  · split <;> rfl

/-- A line enters a buffer that it does not fill. -/
theorem Ctl.fillIngest_spec {c : Ctl} (ln cls : Nat) (room : c.stk.ingest.length + 1 < 4096) :
    (c.fillIngest ln cls).job = c.job ∧ (c.fillIngest ln cls).stk.ingest = c.stk.ingest ++ [(ln, cls)] := by
  have low : ({ c with stk.ingest := c.stk.ingest ++ [(ln, cls)] } : Ctl).ingestFull = false := by
    simp only [ingestFull, List.length_append, List.length_singleton, decide_eq_false_iff_not]; omega
  simp [fillIngest, low]

theorem Ctl.fillIngest_foldl {c : Ctl} (cls : Nat) (l : List Nat) (room : c.stk.ingest.length + l.length < 4096) :
    (l.foldl (fun c ln => c.fillIngest ln cls) c).job = c.job ∧
      (l.foldl (fun c ln => c.fillIngest ln cls) c).stk.ingest = c.stk.ingest ++ l.map fun ln => (ln, cls) := by
  induction l generalizing c with
  | nil => simp
  | cons ln t ih =>
    rw [List.length_cons] at room
    obtain ⟨job, ingest⟩ := c.fillIngest_spec ln cls (by omega)
    obtain ⟨job', ingest'⟩ := ih (c := c.fillIngest ln cls) (by rw [ingest, List.length_append, List.length_singleton]; omega)
    exact ⟨job'.trans job, by rw [List.foldl_cons, ingest', ingest]; simp⟩

end Sys2Proof.Machine
end

section
/-! Ring fetch and the descriptors it reads (R85, R92, R118; log entry 47). -/

namespace Sys2Proof.Machine

/-! ## RING_FETCH_TURN -/

/-- The first SQ in turn that may be served is the next one. -/
theorem Ctl.nextSq_eq {c : Ctl} {k : Nat} (l : k < 64) (feeds : c.feeds ((c.job.turn + k) % 64) = true)
    (first : ∀ i, i < k → c.feeds ((c.job.turn + i) % 64) = false) : c.nextSq = some ((c.job.turn + k) % 64) := by
  have found : (List.range 64).find? (c.feeds ∘ fun i => (c.job.turn + i) % 64) = some k :=
    List.find?_range_eq_some.2 ⟨feeds, List.mem_range.2 l, fun i hi => by simp [first i hi]⟩
  rw [nextSq, List.find?_map, found]
  rfl

/-- What the reads of some descriptors change. -/
theorem Ctl.fetchOne_foldl (q : Nat) (l : List Nat) (c : Ctl) :
    (l.foldl (fun c _ => c.fetchOne q) c).job.fetches.length = c.job.fetches.length + l.length ∧
    (l.foldl (fun c _ => c.fetchOne q) c).regs = c.regs ∧ ∀ o ∈ c.outbox, o ∈ (l.foldl (fun c _ => c.fetchOne q) c).outbox := by
  induction l generalizing c with
  | nil => exact ⟨rfl, rfl, fun _ m => m⟩
  | cons a t ih =>
    obtain ⟨len, regs, sent⟩ := ih (c.fetchOne q)
    have one : (c.fetchOne q).job.fetches.length = c.job.fetches.length + 1 := List.length_append
    exact ⟨by rw [List.foldl_cons, len, one, List.length_cons]; omega, regs, fun o m => sent o (List.mem_cons_of_mem _ m)⟩

/-- The first of some descriptor reads is that of the next entry. -/
theorem Ctl.fetchOne_foldl_sent (q : Nat) {l : List Nat} (c : Ctl) (pos : 0 < l.length) :
    .dmaRead (c.sqOwner q) c.job.tag (c.get (R.JRG_SQ_BASE_BASE q) * 4096 + 128 * c.nextFetch q) 128 ∈
      (l.foldl (fun c _ => c.fetchOne q) c).outbox := by
  obtain ⟨a, t, rfl⟩ := List.exists_cons_of_length_pos pos
  exact (fetchOne_foldl q t (c.fetchOne q)).2.2 _ List.mem_cons_self

theorem Ctl.burst_pos (c : Ctl) : 0 < c.burst := by unfold burst; omega

theorem Ctl.unfetched_pos {c : Ctl} {q : Nat} (h : c.feeds q = true) : 0 < c.unfetched q := by
  simp only [feeds, Bool.and_eq_true, decide_eq_true_eq] at h
  exact h.2

/-- A turn reads up to BURST descriptors of its SQ (R92). -/
theorem ringFetchTurn_eq {c : Ctl} {q : Nat} (admits : c.admits = true) (next : c.nextSq = some q)
    (room : 0 < min c.fetchRoom (4096 - c.npOutstanding)) : ringFetchTurn c =
      { (List.range (min c.burst (min (c.unfetched q) (min c.fetchRoom (4096 - c.npOutstanding))))).foldl
          (fun c _ => c.fetchOne q) c with job.turn := (q + 1) % 64 } := by
  simp only [ringFetchTurn, admits, next, Bool.not_true, Bool.false_eq_true, if_false, if_neg room.ne']

/-! ## DESCRIPTOR_FETCHED -/

theorem faultRow_sq : ∀ q : Fin 64, (faultRow (420 + q)).isSome = true ∧ hasBlockReset (420 + q) = false := by decide +kernel

/-- A failed descriptor read (R85). -/
theorem descriptorFetched_err {c : Ctl} {q : Nat} {e : Nat × Nat} (x : LinkErr)
    (found : c.job.fetches.find? (fun e => decide (e.1 = q)) = some e) : descriptorFetched q (.err x) c =
      Ctl.aerOf (Ctl.fault (Ctl.set { c with job.fetches := c.job.fetches.filter fun y => decide (y.1 ≠ q) }
        (R.JRG_SQ_STATUS_FETCH_ERR q) 1) (420 + q) (fetchInfo x)) (c.sqOwner q) x := by
  simp only [descriptorFetched, found]

theorem descriptorFetched_err_spec {c : Ctl} (q : Fin 64) {e : Nat × Nat} (x : LinkErr)
    (found : c.job.fetches.find? (fun e => decide (e.1 = q.val)) = some e) :
    let t := descriptorFetched q (.err x) c
    t.get (R.JRG_SQ_STATUS_FETCH_ERR q) = 1 ∧ t.get (R.JRG_SQ_STATUS_HEAD q) = c.get (R.JRG_SQ_STATUS_HEAD q) ∧
      t.srcPending (420 + q) = true ∧ t.job.jobs = c.job.jobs := by
  obtain ⟨row, noReset⟩ := faultRow_sq q
  have l : 420 + q.val < 1024 := by omega
  dsimp only
  rw [descriptorFetched_err x found]
  generalize hset : Ctl.set { c with job.fetches := c.job.fetches.filter fun y => decide (y.1 ≠ q.val) }
    (R.JRG_SQ_STATUS_FETCH_ERR q) 1 = d
  obtain ⟨job, -, kept⟩ := (d.fault (420 + q) (fetchInfo x)).reports_aerOf (c.sqOwner q) x
  have value {f : Fld} (n : 4718592 ≤ f.key) : ((d.fault (420 + q) (fetchInfo x)).aerOf (c.sqOwner q) x).get f = d.get f :=
    (kept f (by unfold fltKey; omega)).trans (d.fault_get _ _ row l noReset (.inr n))
  refine ⟨?_, ?_, ?_, ?_⟩
  · rw [value (by simp only [R.JRG_SQ_STATUS_FETCH_ERR]; omega), ← hset, Ctl.get_set_same]; rfl
  · rw [value (by simp only [R.JRG_SQ_STATUS_HEAD]; omega), ← hset,
      Ctl.get_set_ne _ _ _ _ (by simp only [R.JRG_SQ_STATUS_HEAD, R.JRG_SQ_STATUS_FETCH_ERR]; omega)]
    rfl
  · rw [Ctl.srcPending, kept _ (by simp only [fltKey, R.FLT_PEND_PEND]; omega)]
    exact d.fault_srcPending _ _ row l noReset
  · rw [job, d.fault_job _ _ row l noReset, ← hset]
    rfl

/-- A job that waits for its fragment list, with the reads of the list to issue. -/
def Ctl.awaitList (c : Ctl) (j : Job) : Job :=
  { j with
    phase := .listWait
    toRead := if j.srcSpace = 1 then readPieces .list (c.readSize j.owner) 0xFFFE j.src 0 (16 * j.listCount) else [] }

/-- A new job that needs its list waits for it, and its reads are issued. -/
theorem Ctl.judgeNew_list {c : Ctl} {j : Job} (h : c.descBad j = false) (l : j.hasList = true) :
    c.judgeNew j = ((c.holdSlot j).putReads (c.awaitList j)).pump := by
  change (if (c.holdSlot j).descBad j = true then _ else if j.hasList = true then _ else _) = _
  rw [if_neg (by rw [descBad_holdSlot, h]; decide), if_pos l]
  rfl

/-- A job whose reads join the order of arrival is in its slot when some of them have been issued. -/
theorem Ctl.pump_putReads {c : Ctl} {j : Job} {P : Job → Prop} (stable : issueStable P) (held : (c.jobAt j.slot).isSome)
    (h : P { j with readSeq := c.job.readSeq }) : ∃ x, (c.putReads j).pump.jobAt j.slot = some x ∧ P x := by
  have put := jobAt_putJob (c := { c with job.readSeq := c.job.readSeq + 1 }) (j := { j with readSeq := c.job.readSeq }) held
  exact Ctl.pump_at stable (Option.isSome_iff_exists.2 ⟨_, put⟩)
    (Ctl.allAt_putJob { c with job.readSeq := c.job.readSeq + 1 } { j with readSeq := c.job.readSeq } h)

/-- A job as its descriptor says, whatever its phase. -/
def Job.sameOrder (x y : Job) : Prop := y.owner = x.owner ∧ y.desc = x.desc ∧ y.sq = x.sq ∧ y.ocs = x.ocs

/-- A new job of a ring in a free slot: it stands there as its descriptor says, ended when it breaks R117 and ready when it needs no
list. -/
theorem Ctl.judgeNew_ring {c : Ctl} {j : Job} (free : c.jobAt j.slot = none) (ring : j.ocs = false) (first : j.aborter = none)
    (ready : j.phase = .ready) : ∃ x, (c.judgeNew j).jobAt j.slot = some x ∧ j.sameOrder x ∧
      (c.descBad j = true → x.phase = .ended ∧ x.status = stInvalid) ∧
      (c.descBad j = false → j.hasList = false → x.phase = .ready) ∧
      ∀ f : Fld, f.key ≠ R.CMB_JOB_SAT_CNT_PAUSES.key → f.key ≠ R.STX_FREE_CNT_FREE.key → (c.judgeNew j).get f = c.get f := by
  have at_ := jobAt_holdSlot free
  have held : ((c.holdSlot j).jobAt j.slot).isSome := by rw [at_]; rfl
  cases bad : c.descBad j with
  | true =>
    rw [judgeNew_bad bad]
    refine ⟨_, jobAt_endJob_ring ring first held, ⟨endedJob_owner .., endedJob_desc .., endedJob_sq .., endedJob_ocs ..⟩,
      fun _ => ⟨rfl, rfl⟩, by simp, fun f n1 n2 => ?_⟩
    rw [endJob_ring ring first, putJob_get, giveUp_get _ _ n2, holdSlot_get _ _ n1]
  | false =>
    cases list : j.hasList with
    | false =>
      rw [judgeNew_ready bad list]
      exact ⟨j, at_, ⟨rfl, rfl, rfl, rfl⟩, by simp, fun _ _ => ready, fun f n1 _ => holdSlot_get _ _ n1⟩
    | true =>
      rw [judgeNew_list bad list]
      obtain ⟨x, hx, same⟩ := Ctl.pump_putReads (c := c.holdSlot j) (j := c.awaitList j) (P := j.sameOrder) (fun _ _ _ _ h => h) held
        ⟨rfl, rfl, rfl, rfl⟩
      exact ⟨x, hx, same, by simp, by simp, fun f n1 _ => (pump_get _ f).trans (holdSlot_get c j n1)⟩

/-- The state in which the descriptor of an entry is judged: its read is done, and the head of the SQ has passed it. -/
def Ctl.passEntry (c : Ctl) (q : Nat) (e : Nat × Nat) : Ctl :=
  Ctl.set { c with job.fetches := c.job.fetches.erase e } (R.JRG_SQ_STATUS_HEAD q) ((e.2 + 1) % max 1 (c.get (R.JRG_SQ_CFG_SIZE q)))

theorem descriptorFetched_ok {c : Ctl} {q k : Nat} {e : Nat × Nat} (p : Bytes)
    (found : c.job.fetches.find? (fun e => decide (e.1 = q)) = some e) (slot : c.freeSlot = some k) :
    descriptorFetched q (.ok p) c = (c.passEntry q e).judgeNew
      { (c.passEntry q e).makeJob k ((c.passEntry q e).sqOwner q) p with
        sq := q, sqHead := (e.2 + 1) % max 1 (c.get (R.JRG_SQ_CFG_SIZE q)) } := by
  simp only [descriptorFetched, found, slot]
  rfl

theorem descriptorFetched_ok_spec {c : Ctl} (q : Fin 64) {k : Nat} {e : Nat × Nat} (p : Bytes)
    (found : c.job.fetches.find? (fun e => decide (e.1 = q.val)) = some e) (l : k < 4096) (free : c.jobAt k = none)
    (held : ∀ i, i < k → (c.jobAt i).isSome = true) (size : c.get (R.JRG_SQ_CFG_SIZE q) ≤ 65536) :
    let t := descriptorFetched q (.ok p) c
    let j := c.makeJob k (c.sqOwner q) p
    ∃ x, t.get (R.JRG_SQ_STATUS_HEAD q) = (e.2 + 1) % max 1 (c.get (R.JRG_SQ_CFG_SIZE q)) ∧ t.jobAt k = some x ∧
      x.owner = c.sqOwner q ∧ x.desc = padTo 128 p ∧ x.sq = q ∧ x.ocs = false ∧
      (c.descBad j = true → x.phase = .ended ∧ x.status = stInvalid) ∧
      (c.descBad j = false → j.hasList = false → x.phase = .ready) := by
  dsimp only
  rw [descriptorFetched_ok p found (Ctl.freeSlot_eq l free held)]
  generalize hj : ({ (c.passEntry q e).makeJob k ((c.passEntry q e).sqOwner q) p with
    sq := q.val, sqHead := (e.2 + 1) % max 1 (c.get (R.JRG_SQ_CFG_SIZE q)) } : Job) = j
  have slot : j.slot = k := by rw [← hj]; rfl
  have owner : j.owner = c.sqOwner q := by
    rw [← hj]
    exact Ctl.sqOwner_congr (Ctl.get_set_ne _ _ _ _ (by simp only [R.JRG_OWNER_SQ_OWNER, R.JRG_SQ_STATUS_HEAD]; omega)) q
  have desc : j.desc = padTo 128 p := by rw [← hj]; rfl
  obtain ⟨x, at_, ⟨hown, hdesc, hsq, hocs⟩, bad, good, kept⟩ := Ctl.judgeNew_ring (c := c.passEntry q e) (j := j)
    (slot ▸ free) (by rw [← hj]; rfl) (by rw [← hj]; rfl) (by rw [← hj]; rfl)
  have judged : (c.passEntry q e).descBad j = c.descBad (c.makeJob k (c.sqOwner q) p) :=
    (Ctl.descBad_congr (c := c) (d := c.passEntry q e) rfl (fun f n => Ctl.get_set_ne _ _ _ _ (by simp only [R.JRG_SQ_STATUS_HEAD]; omega)) j).trans
      (c.descBad_of_desc (i := j) (j := c.makeJob k (c.sqOwner q) p) desc)
  have list : j.hasList = (c.makeJob k (c.sqOwner q) p).hasList := Job.hasList_of_desc (i := j) (j := c.makeJob k (c.sqOwner q) p) desc
  rw [judged] at bad good
  rw [list] at good
  have pos : 0 < max 1 (c.get (R.JRG_SQ_CFG_SIZE q)) := by omega
  have low := Nat.mod_lt (e.2 + 1) pos
  refine ⟨x, ?_, slot ▸ at_, hown.trans owner, hdesc.trans desc, hsq.trans (by rw [← hj]), hocs.trans (by rw [← hj]; rfl), bad, good⟩
  rw [kept _ (by simp only [R.JRG_SQ_STATUS_HEAD, R.CMB_JOB_SAT_CNT_PAUSES]; omega)
    (by simp only [R.JRG_SQ_STATUS_HEAD, R.STX_FREE_CNT_FREE]; omega), Ctl.passEntry, Ctl.get_set_same]
  exact Nat.mod_eq_of_lt (low.trans_le (show max 1 (c.get (R.JRG_SQ_CFG_SIZE q)) ≤ 65536 by omega))

end Sys2Proof.Machine
end

section
/-! Fragment lists and the ends of link requests (R97, R110, R111, R118, R253, R401; log entries 34, 40, 47 and 120). -/

namespace Sys2Proof.Machine

/-! ## FRAGMENT_LIST_FETCHED -/

/-- A list that is read over the link does not wait for its class. -/
theorem Ctl.classAdmits_link {c : Ctl} {j : Job} (wait : j.phase = .listWait) (link : j.srcSpace = 1) : c.classAdmits j = true := by
  simp [classAdmits, wait, link]

/-- A list that has arrived over the link is judged. -/
theorem fragmentListFetched_link {s : State} {k : Nat} {j : Job} {l : List (Bool × BitVec 8)} (at_ : s.ctl.jobAt k = some j)
    (wait : j.phase = .listWait) (link : j.srcSpace = 1)
    (come : gather j.ingested (j.ingested.length + 1) j.src (16 * j.listCount) = some l) : exec (.fragmentListFetched k) s =
      .next { s with ctl := s.ctl.listRead j (l.map Prod.snd) } := by
  change execFragmentListFetched k s = _
  simp only [execFragmentListFetched, at_, wait, Ctl.classAdmits_link wait link, link, come]
  rfl

/-- A list of the stack that step 4 refuses is not read (log entry 120). -/
theorem fragmentListFetched_refused {s : State} {k : Nat} {j : Job} {st sa : Nat} {r : Range} (at_ : s.ctl.jobAt k = some j)
    (wait : j.phase = .listWait) (stack : j.srcSpace = 0) (admits : s.ctl.classAdmits j = true)
    (free : (spanLines j.src (16 * j.listCount)).any (s.ctl.lineHeld false) = false)
    (refused : s.ctl.judgeSpans j (Job.bufRange j.srcSpace j.src (16 * j.listCount)) = some (st, r, sa)) :
    exec (.fragmentListFetched k) s = .next { s with
      ctl := (s.ctl.refusalFault j.owner st sa).endJob (j.at r.errFrag (s.ctl.rangeOffset r sa)) st } := by
  rw [stack] at refused
  change execFragmentListFetched k s = _
  simp only [execFragmentListFetched, at_, wait, admits, stack, free, refused]
  rfl

theorem Ctl.listRead_bad {c : Ctl} {j : Job} {p : Bytes}
    (bad : c.listBad { j with frags := parseList p j.listCount, phase := .ready, ingested := [] } = true) :
    c.listRead j p = c.endJob { j with frags := parseList p j.listCount, phase := .ready, ingested := [] } stInvalid := if_pos bad

theorem Ctl.listRead_good {c : Ctl} {j : Job} {p : Bytes}
    (good : c.listBad { j with frags := parseList p j.listCount, phase := .ready, ingested := [] } = false) :
    c.listRead j p = if j.adopted = true ∧ ∃ f ∈ parseList p j.listCount, f.space = 1 then
        c.endJob { j with frags := parseList p j.listCount, phase := .ready, ingested := [] } stFenced
      else c.putJob { j with frags := parseList p j.listCount, phase := .ready, ingested := [] } := by
  unfold listRead
  dsimp only
  rw [good, if_neg Bool.false_ne_true]
  congr 1
  simp

/-! ## Refusals at step 4 -/

theorem faultRow_refusal : (∀ h : Head, (faultRow (576 + h.num)).isSome = true ∧ hasBlockReset (576 + h.num) = false) ∧
    (faultRow 551).isSome = true ∧ hasBlockReset 551 = false := by
  refine ⟨fun h => ?_, by decide +kernel, by decide +kernel⟩
  cases h <;> decide +kernel

theorem head_num_le (h : Head) : h.num ≤ 1 := by cases h <;> decide

theorem Ctl.refusalFault_job (c : Ctl) (h : Head) (st sa : Nat) : (c.refusalFault h st sa).job = c.job := by
  obtain ⟨heads, row, noReset⟩ := faultRow_refusal
  have l := head_num_le h
  unfold refusalFault
  split
  · exact c.fault_job _ _ (heads h).1 (by omega) (heads h).2
  · exact c.fault_job _ _ row (by decide) noReset

/-- What step 4 refuses it refuses for its partition or its seal. -/
theorem Ctl.judgeSpans_status {c : Ctl} {j : Job} {l : List Range} {st sa : Nat} {r : Range}
    (h : c.judgeSpans j l = some (st, r, sa)) : st = stPartition ∨ st = stSealDenied := by
  unfold judgeSpans at h
  split at h
  · exact .inl (Prod.mk.inj (Option.some.inj h)).1.symm
  · obtain ⟨x, -, e⟩ := Option.map_eq_some_iff.1 h
    exact .inr (Prod.mk.inj e).1.symm

/-- A status that keeps the position found keeps it in the ended job. -/
theorem Ctl.endedJob_errFrag (c : Ctl) {j : Job} {st : Nat}
    (h : st ∈ [stMismatch, stOutputPoisoned, stInputPoisoned, stPartition, stSealDenied, stDmaError]) :
    (c.endedJob j st).errFrag = j.errFrag := by
  rw [endedJob, Job.settleErr_kept h]

/-! ## Failed requests -/

theorem Ctl.dmaStop_eq {c : Ctl} {k : Nat} {w : Bool} {j : Job} (at_ : c.jobAt k = some j) (run : j.stop = none)
    (live : j.phase ≠ .ended) : ∃ x d, c.dmaStop k w =
        (if j.phase = .running then Ctl.putJob { c with job.dma := d } x else Ctl.endJob { c with job.dma := d } x stDmaError) ∧
      x.slot = k ∧ x.ocs = j.ocs ∧ x.aborter = j.aborter ∧ x.stop = some stDmaError ∧ x.result0 = j.acked ∧ x.toRead = [] := by
  have slot := jobAt_slot at_
  cases first : minBy (fun d : DmaReq => d.tag) (c.jobDma k w) with
  | none =>
    simp only [dmaStop, at_, first, run, live, Option.isSome_none, Bool.false_eq_true, false_or, if_false]
    exact ⟨_, _, rfl, slot, rfl, rfl, rfl, rfl, rfl⟩
  | some d =>
    simp only [dmaStop, at_, first, run, live, Option.isSome_none, Bool.false_eq_true, false_or, if_false]
    exact ⟨_, _, rfl, slot, rfl, rfl, rfl, rfl, rfl⟩

/-- A running job whose request failed is stopped with DMA_ERROR. -/
theorem Ctl.dmaStop_running {c : Ctl} {k : Nat} {w : Bool} {j : Job} (at_ : c.jobAt k = some j) (run : j.stop = none)
    (phase : j.phase = .running) : ∃ x d, c.dmaStop k w = Ctl.putJob { c with job.dma := d } x ∧
      x.slot = k ∧ x.stop = some stDmaError ∧ x.result0 = j.acked ∧ x.toRead = [] := by
  obtain ⟨x, d, e, slot, -, -, stop, acked, idle⟩ := dmaStop_eq (w := w) at_ run (by rw [phase]; decide)
  exact ⟨x, d, e.trans (if_pos phase), slot, stop, acked, idle⟩

/-- A ring job that waits for its list ends with DMA_ERROR when a read of the list fails. -/
theorem Ctl.dmaStop_list {c : Ctl} {k : Nat} {w : Bool} {j : Job} (at_ : c.jobAt k = some j) (run : j.stop = none)
    (phase : j.phase = .listWait) (ring : j.ocs = false) (first : j.aborter = none) : ∃ x d, ∃ e : Ctl, c.dmaStop k w = e ∧
      e.job.jobs = (Ctl.putJob { c with job.dma := d } x).job.jobs ∧ x.slot = k ∧ x.phase = .ended ∧ x.status = stDmaError ∧
      x.toRead = [] := by
  obtain ⟨x, d, e, slot, hocs, hab, -⟩ := dmaStop_eq (w := w) at_ run (by rw [phase]; decide)
  rw [if_neg (by rw [phase]; decide), endJob_ring (hocs.trans ring) (hab.trans first)] at e
  refine ⟨Ctl.endedJob { c with job.dma := d } x stDmaError, d, _, e, ?_, (endedJob_slot ..).trans slot, rfl, rfl, rfl⟩
  change List.map _ (Ctl.giveUp _ x.slot).job.jobs = List.map _ _
  rw [giveUp_job]

theorem faultRow_link : ∀ h : Head, ∀ src ∈ [588, 590, 592], (faultRow (src + h.num)).isSome = true ∧
    hasBlockReset (src + h.num) = false := by
  intro h
  cases h <;> decide +kernel

theorem Ctl.srcPending_congr {c d : Ctl} (e : c.regs = d.regs) (n : Nat) : c.srcPending n = d.srcPending n := by
  rw [srcPending, srcPending, get_congr c d e]

/-- A report leaves a pending source pending. -/
theorem Ctl.reports.srcPending {c d : Ctl} (r : c.reports d) {n : Nat} (l : n < 1024) : d.srcPending n = c.srcPending n := by
  rw [Ctl.srcPending, Ctl.srcPending, r.kept _ (by simp only [fltKey, R.FLT_PEND_PEND]; omega)]

/-- The read of a tag. -/
def Ctl.readOf (c : Ctl) (tag : Nat) : Option DmaReq := c.job.dma.find? fun d => decide (d.tag = tag) && !d.write

/-- A failed read: the job is stopped, and the fault of its head is pending. -/
theorem readFails_spec {c : Ctl} {tag src : Nat} {d : DmaReq} {j : Job} (found : c.readOf tag = some d)
    (at_ : c.jobAt d.slot = some j) (m : src ∈ [588, 590, 592]) (phase : j.phase = .running) (run : j.stop = none) :
    (readFails tag src c).srcPending (src + d.head.num) = true ∧
      ∃ x, (readFails tag src c).jobAt d.slot = some x ∧ x.stop = some stDmaError ∧ x.result0 = j.acked := by
  obtain ⟨row, noReset⟩ := faultRow_link d.head src m
  have l : src + d.head.num < 1024 := by
    have := head_num_le d.head
    simp only [List.mem_cons, List.not_mem_nil, or_false] at m
    omega
  obtain ⟨x, q, e, slot, stop, acked, idle⟩ := Ctl.dmaStop_running (w := false) at_ run phase
  simp only [readFails, show c.job.dma.find? (fun d => decide (d.tag = tag) && !d.write) = some d from found, e]
  refine ⟨?_, x, ?_, stop, acked⟩
  · rw [Ctl.srcPending_congr (Ctl.pump_regs _)]
    exact Ctl.fault_srcPending _ _ _ row l noReset
  · exact Ctl.pump_put (c := { c with job.dma := q }) slot idle (Option.isSome_iff_exists.2 ⟨j, at_⟩)
      (by rw [Ctl.fault_job _ _ _ row l noReset])

/-- A read that times out is one that fails, reported as an error of its head (R266). -/
theorem dmaCompletionTimeout_run {s : State} {tag : Nat} {d : DmaReq} (found : s.ctl.readOf tag = some d) :
    exec (.dmaCompletionTimeout tag) s = .next { s with ctl := (readFails tag 588 s.ctl).aerOf d.head .timeout } := by
  refine congrArg Host.Outcome.next (State.mapCtl_eq ?_)
  rw [show s.ctl.job.dma.find? (fun d => decide (d.tag = tag) && !d.write) = some d from found]

/-! ## DMA_READ_COMPLETION -/

/-- Whole data arrive: they are kept, and what is bound for the stack enters the ingest buffer (R111, R159). -/
theorem dmaReadCompletion_whole {c : Ctl} {tag : Nat} {d : DmaReq} {j : Job} (data : Bytes) (found : c.readOf tag = some d)
    (at_ : c.jobAt d.slot = some j) (idle : ∀ x ∈ c.job.jobs, x.toRead = [])
    (room : c.stk.ingest.length + (c.readLines j d.use d.frag d.offset d.len).length < 4096) :
    let t := dmaReadCompletion tag data [] c
    t.jobAt d.slot = some { j with ingested := j.ingested ++ [⟨d.addr, false, padTo d.len data⟩] } ∧
      (∀ x ∈ t.job.dma, x.tag ≠ tag) ∧ (c.readLines j d.use d.frag d.offset d.len = [] → t.regs = c.regs) ∧
      t.stk.ingest = c.stk.ingest ++ (c.readLines j d.use d.frag d.offset d.len).map fun ln => (ln, j.cls) := by
  have slot := Ctl.jobAt_slot at_
  have at1 : Ctl.jobAt { c with job.dma := c.job.dma.filter fun x => decide (x.tag ≠ tag) } d.slot = some j := at_
  generalize hx : ({ j with ingested := j.ingested ++ [⟨d.addr, false, padTo d.len data⟩] } : Job) = x
  have xslot : x.slot = d.slot := by rw [← hx]; exact slot
  have xidle : x.toRead = [] := by rw [← hx]; exact idle j (Ctl.jobAt_mem at_)
  have put := Ctl.jobAt_putJob (c := { c with job.dma := c.job.dma.filter fun x => decide (x.tag ≠ tag) }) (j := x)
    (by rw [xslot, at1]; rfl)
  obtain ⟨job, ingest⟩ := Ctl.fillIngest_foldl
    (c := Ctl.putJob { c with job.dma := c.job.dma.filter fun x => decide (x.tag ≠ tag) } x) j.cls
    (c.readLines j d.use d.frag d.offset d.len) room
  have run : dmaReadCompletion tag data [] c = Ctl.pump ((c.readLines j d.use d.frag d.offset d.len).foldl
      (fun c ln => c.fillIngest ln j.cls) (Ctl.putJob { c with job.dma := c.job.dma.filter fun x => decide (x.tag ≠ tag) } x)) := by
    simp only [dmaReadCompletion, show c.job.dma.find? (fun d => decide (d.tag = tag) && !d.write) = some d from found, at1,
      linkLines, List.isEmpty_nil, ← hx, ne_eq, not_true_eq_false, and_false, if_false, if_true]
    rfl
  dsimp only
  rw [run, Ctl.pump_idle fun y m => by
    rw [job] at m
    rcases Ctl.mem_putJob m with rfl | ⟨m, -⟩
    · exact xidle
    · exact idle y m]
  refine ⟨?_, fun y m => ?_, fun empty => by rw [empty]; rfl, ingest⟩
  · rw [Ctl.jobAt_congr (congrArg _ job), ← xslot]; exact put
  · rw [job] at m
    exact of_decide_eq_true (List.mem_filter.1 (show y ∈ c.job.dma.filter fun x => decide (x.tag ≠ tag) from m)).2

/-- A completion with EP raises the fault of its head. -/
theorem dmaReadCompletion_ep {c : Ctl} {tag : Nat} {d : DmaReq} (data : Bytes) {bad : List Nat} (found : c.readOf tag = some d)
    (ep : bad ≠ []) : ∃ e : Ctl, dmaReadCompletion tag data bad c = ((e.fault (590 + d.head.num) d.slot).aerOf d.head .ep).pump ∧
      (d.use = .list → e = c.dmaStop d.slot false) := by
  simp only [dmaReadCompletion, show c.job.dma.find? (fun d => decide (d.tag = tag) && !d.write) = some d from found, if_pos ep]
  exact ⟨_, rfl, fun list => if_pos ⟨list, ep⟩⟩

theorem dmaReadCompletion_ep_spec {c : Ctl} {tag : Nat} {d : DmaReq} {j : Job} (data : Bytes) {bad : List Nat}
    (found : c.readOf tag = some d) (at_ : c.jobAt d.slot = some j) (ep : bad ≠ []) :
    (dmaReadCompletion tag data bad c).srcPending (590 + d.head.num) = true ∧
    (d.use = .list → j.phase = .listWait → j.stop = none → j.ocs = false → j.aborter = none →
      ∃ x, (dmaReadCompletion tag data bad c).jobAt d.slot = some x ∧ x.phase = .ended ∧ x.status = stDmaError) := by
  obtain ⟨row, noReset⟩ := faultRow_link d.head 590 (by decide)
  have l : 590 + d.head.num < 1024 := by have := head_num_le d.head; omega
  obtain ⟨e, run, stopped⟩ := dmaReadCompletion_ep data found ep
  have report := (e.fault (590 + d.head.num) d.slot).reports_aerOf d.head .ep
  rw [run]
  refine ⟨?_, fun list phase going ring first => ?_⟩
  · rw [Ctl.srcPending_congr (Ctl.pump_regs _), report.srcPending l]
    exact e.fault_srcPending _ _ row l noReset
  · obtain ⟨x, q, f, hf, jobs, slot, ended, status, idle⟩ := Ctl.dmaStop_list (w := false) at_ going phase ring first
    exact ⟨x, Ctl.pump_put (c := { c with job.dma := q }) slot idle (Option.isSome_iff_exists.2 ⟨j, at_⟩)
      (by rw [report.job, e.fault_job _ _ row l noReset, stopped list, hf, jobs]), ended, status⟩

/-! ## DMA_WRITE_ACK -/

/-- The acknowledgement of one write, counted in its job. -/
def Ctl.ackOne (c : Ctl) (x : DmaReq) : Ctl := match c.jobAt x.slot with
  | some j => c.putJob { j with acked := j.acked + x.len }
  | none => c

theorem Ctl.ackOne_kept (c : Ctl) (x : DmaReq) : (c.ackOne x).job.dma = c.job.dma ∧ (c.ackOne x).regs = c.regs := by
  unfold ackOne
  split <;> exact ⟨rfl, rfl⟩

/-- What the acknowledged writes of a job add up to. -/
theorem Ctl.ackOne_foldl {k : Nat} (l : List DmaReq) {c : Ctl} {j : Job} (at_ : c.jobAt k = some j) :
    (l.foldl ackOne c).jobAt k =
      some { j with acked := j.acked + ((l.filter fun x => decide (x.slot = k)).map (·.len)).sum } := by
  induction l generalizing c j with
  | nil => exact at_
  | cons x t ih =>
    rw [List.foldl_cons]
    by_cases e : x.slot = k
    · have slot := jobAt_slot at_
      have put := jobAt_putJob (c := c) (j := { j with acked := j.acked + x.len }) (by rw [← slot] at at_; rw [at_]; rfl)
      have one : (c.ackOne x).jobAt k = some { j with acked := j.acked + x.len } := by
        rw [ackOne, e, at_, ← slot]; exact put
      rw [ih one, List.filter_cons_of_pos (by simpa using e), List.map_cons, List.sum_cons, Nat.add_assoc]
    · have one : (c.ackOne x).jobAt k = some j := by
        unfold ackOne
        split
        · next i hi => rw [jobAt_putJob_ne (by rw [jobAt_slot hi]; exact fun h => e h.symm), at_]
        · exact at_
      rw [ih one, List.filter_cons_of_neg (by simpa using e)]

/-- The writes that the acknowledgement of a tag covers: every one up to it of its head. -/
def DmaReq.covered (d : DmaReq) (tag : Nat) (x : DmaReq) : Bool := x.write && decide (x.head = d.head) && decide (x.tag ≤ tag)

theorem dmaWriteAck_eq {c : Ctl} {tag : Nat} {d : DmaReq}
    (found : c.job.dma.find? (fun d => decide (d.tag = tag) && d.write) = some d) : dmaWriteAck tag c =
      { (c.job.dma.filter (d.covered tag)).foldl Ctl.ackOne c with
        job.dma := c.job.dma.filter fun x => !d.covered tag x } := by
  have dma : ((c.job.dma.filter (d.covered tag)).foldl Ctl.ackOne c).job.dma = c.job.dma :=
    foldl_keeps (fun e : Ctl => e.job.dma) (fun e x => (e.ackOne_kept x).1) _ c
  have run : dmaWriteAck tag c = { (c.job.dma.filter (d.covered tag)).foldl Ctl.ackOne c with
      job.dma := ((c.job.dma.filter (d.covered tag)).foldl Ctl.ackOne c).job.dma.filter fun x => !d.covered tag x } := by
    simp only [dmaWriteAck, found]
    rfl
  rw [run, dma]

/-- An acknowledgement covers its write and every earlier one of its head, and counts each in its job (R401). -/
theorem dmaWriteAck_spec {c : Ctl} {tag : Nat} {d : DmaReq} {j : Job}
    (found : c.job.dma.find? (fun d => decide (d.tag = tag) && d.write) = some d) (at_ : c.jobAt d.slot = some j) :
    (dmaWriteAck tag c).job.dma = (c.job.dma.filter fun x => !d.covered tag x) ∧ (dmaWriteAck tag c).regs = c.regs ∧
      ∃ x, (dmaWriteAck tag c).jobAt d.slot = some x ∧ j.acked + d.len ≤ x.acked := by
  have self : d ∈ (c.job.dma.filter (d.covered tag)).filter fun x => decide (x.slot = d.slot) := by
    have isOne := List.find?_some found
    simp only [Bool.and_eq_true, decide_eq_true_eq] at isOne
    obtain ⟨htag, hwrite⟩ := isOne
    exact List.mem_filter.2 ⟨List.mem_filter.2 ⟨List.mem_of_find?_eq_some found, by simp [DmaReq.covered, hwrite, htag]⟩, by simp⟩
  have acked := Ctl.ackOne_foldl (c.job.dma.filter (d.covered tag)) at_
  rw [dmaWriteAck_eq found]
  refine ⟨rfl, foldl_keeps Ctl.regs (fun e x => (e.ackOne_kept x).2) _ c, _, acked, ?_⟩
  exact Nat.add_le_add_left (List.le_sum_of_mem (List.mem_map_of_mem self)) _

/-! ## The statement -/

/-- Settles O19: each command's run, by the lemma that says what it changes. -/
theorem fetchesAndLinkRequestsEnd : Obligations.FetchesAndLinkRequestsEnd := by
  intro s
  refine ⟨fun k q admits l hq feeds first => ?_, fun q e x found => ?_, fun q e p k found l free held size => ?_,
    fun k j l at_ wait link first come => ?_, fun k j st r sa at_ wait stack ring first admits free refused => ?_,
    fun tag data d j found at_ => ⟨?_, fun bad ep => ?_, fun i src which phase run => ?_⟩, fun tag d j found at_ => ?_⟩
  · subst hq
    intro room pos
    have run := ringFetchTurn_eq admits (Ctl.nextSq_eq l feeds first) pos
    have burst := s.ctl.burst_pos
    have some' := Ctl.unfetched_pos feeds
    refine ⟨_, congrArg Host.Outcome.next (State.mapCtl_eq run), ?_⟩
    generalize hn : min s.ctl.burst (min (s.ctl.unfetched ((s.ctl.job.turn + k) % 64))
      (min s.ctl.fetchRoom (4096 - s.ctl.npOutstanding))) = n
    obtain ⟨len, regs, -⟩ := Ctl.fetchOne_foldl ((s.ctl.job.turn + k) % 64) (List.range n) s.ctl
    exact ⟨by rw [List.length_range] at len; exact len, rfl, regs, ⟨rfl, rfl, rfl⟩,
      s.ctl.fetchOne_foldl_sent _ (by rw [List.length_range]; omega)⟩
  · obtain ⟨err, head, pending, jobs⟩ := descriptorFetched_err_spec q x found
    exact ⟨_, rfl, err, head, pending, congrArg List.length jobs, by
      simp only [State.mapCtl_ctl, Ctl.feeds, Ctl.flag, err]; simp, rfl, rfl, rfl⟩
  · obtain ⟨x, head, at_, owner, desc, sq, ocs, bad, good⟩ := descriptorFetched_ok_spec q p found l free held size
    exact ⟨_, x, rfl, ⟨rfl, rfl, rfl⟩, head, at_, owner, desc, sq, ocs, bad, good⟩
  · obtain rfl := Ctl.jobAt_slot at_
    have run := fragmentListFetched_link at_ wait link come
    have held : (s.ctl.jobAt j.slot).isSome := Option.isSome_iff_exists.2 ⟨j, at_⟩
    refine ⟨fun good fine => ?_, fun ring bad => ?_, fun ring good adopted link' => ?_, fun n ocs handle unfenced idle bad => ?_⟩
    · rw [Ctl.listRead_good good, if_neg (by
        rintro ⟨adopted, f, m, hf⟩
        rcases fine with no | no
        · simp [no] at adopted
        · exact no f m hf)] at run
      exact ⟨_, run, Ctl.jobAt_putJob held, rfl, rfl, rfl, rfl⟩
    · rw [Ctl.listRead_bad bad] at run
      exact ⟨_, _, run, Ctl.jobAt_endJob_ring ring first held, rfl, rfl, rfl, rfl, rfl⟩
    · rw [Ctl.listRead_good good, if_pos ⟨adopted, link'⟩] at run
      exact ⟨_, _, run, Ctl.jobAt_endJob_ring ring first held, rfl, rfl, rfl, rfl, rfl⟩
    · rw [Ctl.listRead_bad bad] at run
      obtain ⟨gone, b, done, status⟩ := Ctl.endJob_ocs (c := s.ctl)
        (j := { j with frags := parseList (l.map Prod.snd) j.listCount, phase := .ready, ingested := [] }) (st := stInvalid)
        ocs first handle unfenced idle
      exact ⟨_, b, run, gone, done, status, rfl, rfl, rfl⟩
  · obtain rfl := Ctl.jobAt_slot at_
    have held : ((s.ctl.refusalFault j.owner st sa).jobAt j.slot).isSome := by
      rw [Ctl.jobAt_congr (congrArg _ (Ctl.refusalFault_job ..)), at_]; rfl
    have status : st ∈ [stMismatch, stOutputPoisoned, stInputPoisoned, stPartition, stSealDenied, stDmaError] := by
      rcases Ctl.judgeSpans_status refused with rfl | rfl <;> decide
    exact ⟨_, _, fragmentListFetched_refused at_ wait stack admits free refused,
      Ctl.jobAt_endJob_ring (j := j.at r.errFrag (s.ctl.rangeOffset r sa)) ring first held, rfl, rfl,
      Ctl.endedJob_errFrag _ status, rfl, rfl, rfl⟩
  · intro lines idle room
    obtain ⟨kept, gone, regs, ingest⟩ := dmaReadCompletion_whole data found at_ idle room
    exact ⟨_, rfl, kept, gone, regs, ingest, rfl, rfl, rfl⟩
  · obtain ⟨pending, ended⟩ := dmaReadCompletion_ep_spec data found at_ ep
    exact ⟨_, rfl, pending, ⟨rfl, rfl, rfl⟩, ended⟩
  · rcases which with ⟨rfl, rfl⟩ | ⟨rfl, rfl⟩
    · obtain ⟨pending, x, at', stop, acked⟩ := readFails_spec (src := 592) found at_ (by decide) phase run
      exact ⟨_, x, rfl, pending, at', stop, acked, rfl, rfl, rfl⟩
    · obtain ⟨pending, x, at', stop, acked⟩ := readFails_spec (src := 588) found at_ (by decide) phase run
      have report := (readFails tag 588 s.ctl).reports_aerOf d.head .timeout
      have low : 588 + d.head.num < 1024 := by have := head_num_le d.head; omega
      exact ⟨_, x, dmaCompletionTimeout_run found, (report.srcPending low).trans pending,
        (Ctl.jobAt_congr (congrArg _ report.job) _).trans at', stop, acked, rfl, rfl, rfl⟩
  · obtain ⟨dma, regs, x, at', acked⟩ := dmaWriteAck_spec found at_
    exact ⟨_, x, rfl, dma, at', acked, regs, rfl, rfl, rfl⟩

end Sys2Proof.Machine
end

section
/-! SUPPORT. The stripe table (R127, R147): what an entry reads of the device. -/

namespace Sys2Proof.Machine

/-- Two control sides that place the rows of the stack alike: one part, one record of losses, and the same registers from the Seal
block on. -/
structure Ctl.samePlaces (c d : Ctl) : Prop where
  part : d.part = c.part
  ecc : d.ecc = c.ecc
  kept : ∀ x : Fld, 9961472 ≤ x.key → x.key < 2 ^ 40 → d.get x = c.get x

namespace Ctl.samePlaces

theorem refl (c : Ctl) : c.samePlaces c := ⟨rfl, rfl, fun _ _ _ => rfl⟩

theorem trans {c d e : Ctl} (a : c.samePlaces d) (b : d.samePlaces e) : c.samePlaces e :=
  ⟨b.part.trans a.part, b.ecc.trans a.ecc, fun x l u => (b.kept x l u).trans (a.kept x l u)⟩

section
variable {c d : Ctl} (k : c.samePlaces d)
include k

theorem viewedAs (l : List (Nat × Nat)) : (c.viewedAs l).samePlaces (d.viewedAs l) := ⟨k.part, k.ecc, fun _ _ _ => rfl⟩

theorem combOn {n : Nat} (l : n < 16) : d.combOn n = c.combOn n := by
  simp only [Ctl.combOn, flag, k.kept (R.MAP_COMB_LO_EN n) (by simp only [R.MAP_COMB_LO_EN]; omega)
    (by simp only [R.MAP_COMB_LO_EN]; omega), k.kept (R.MAP_COMB_HI_BANDS n) (by simp only [R.MAP_COMB_HI_BANDS]; omega)
    (by simp only [R.MAP_COMB_HI_BANDS]; omega)]

theorem combRange {n : Nat} (l : n < 16) : d.combRange n = c.combRange n := by
  simp only [Ctl.combRange, bandBytes, k.part, k.kept (R.MAP_COMB_LO_BASE_BAND n) (by simp only [R.MAP_COMB_LO_BASE_BAND]; omega)
    (by simp only [R.MAP_COMB_LO_BASE_BAND]; omega), k.kept (R.MAP_COMB_HI_BANDS n) (by simp only [R.MAP_COMB_HI_BANDS]; omega)
    (by simp only [R.MAP_COMB_HI_BANDS]; omega)]

theorem combRegion (sa : Nat) : d.combRegion sa = c.combRegion sa :=
  List.find?_congr fun n m => by rw [k.combOn (List.mem_range.1 m), k.combRange (List.mem_range.1 m)]

theorem linPlace (sa : Nat) : d.linPlace sa = c.linPlace sa := by
  simp (disch := decide) only [Ctl.linPlace, k.part, k.kept]

theorem viewPlace (sa : Nat) : d.viewPlace sa = c.viewPlace sa := by
  rw [Ctl.viewPlace, Ctl.viewPlace, k.combRegion]
  cases h : c.combRegion sa with
  | none => exact k.linPlace sa
  | some n =>
    have l : n < 16 := List.mem_range.1 (List.mem_of_find?_eq_some h)
    simp only [k.combRange l, combPlace, bandBytes, nch, nd, k.part]

theorem userEnd : d.userEnd = c.userEnd := by simp (disch := decide) only [Ctl.userEnd, k.kept]

theorem nd : d.nd = c.nd := by rw [Ctl.nd, Ctl.nd, k.part]

theorem resRowBase : d.resRowBase = c.resRowBase := by rw [Ctl.resRowBase, Ctl.resRowBase, k.part]

theorem rowRank (b : Option Nat) (u : Bool) (p : Place) : d.rowRank b u p = c.rowRank b u p := by
  have count (r t : Nat) : d.reserveCount r t = c.reserveCount r t := by simp only [reserveCount, k.nd, k.resRowBase]
  simp only [Ctl.rowRank, unitRows, count, k.resRowBase]

theorem unmoved (b : Option Nat) (v : Move × Nat) (p : Place) : d.unmoved b v p = c.unmoved b v p := by
  simp only [Ctl.unmoved, k.rowRank]

/-- Where a remap puts a place is a matter of the part, and of the registers that each loss recorded. -/
theorem placeBy (m : Remap) (p : Place) : d.placeBy m p = c.placeBy m p := by
  have spare (e : Placed) : d.spareRows e = c.spareRows e := by simp only [spareRows, k.userEnd, (k.viewedAs _).viewPlace]
  have remap : d.reserveRemap m p = c.reserveRemap m p := by
    simp only [reserveRemap, reservePlace, k.unmoved, k.nd, k.resRowBase]
  have one : d.placeOne m = c.placeOne m := by
    funext q e
    simp only [placeOne, k.unmoved, spare, k.rowRank]
  rw [Ctl.placeBy, Ctl.placeBy, remap, one]

theorem metaAt (sa : Nat) : d.metaAt sa = c.metaAt sa := by
  have holder (v : Nat) : ((List.range 64).find? fun g => decide (d.get (R.SEA_GRAN_STATE g) ≠ 0) &&
      decide (d.get (R.MAP_GRAN_SEAL_SLOT g) = v)) = (List.range 64).find? fun g => decide (c.get (R.SEA_GRAN_STATE g) ≠ 0) &&
      decide (c.get (R.MAP_GRAN_SEAL_SLOT g) = v) :=
    List.find?_congr fun g m => by
      have l := List.mem_range.1 m
      rw [k.kept (R.SEA_GRAN_STATE g) (by simp only [R.SEA_GRAN_STATE]; omega) (by simp only [R.SEA_GRAN_STATE]; omega),
        k.kept (R.MAP_GRAN_SEAL_SLOT g) (by simp only [R.MAP_GRAN_SEAL_SLOT]; omega) (by simp only [R.MAP_GRAN_SEAL_SLOT]; omega)]
  simp (disch := decide) only [Ctl.metaAt, holder, k.kept R.MAP_TAG_BASE_GRAN, k.kept R.MAP_CTR_BASE_GRAN,
    k.kept R.MAP_TREE_BASE_GRAN, k.kept R.MAP_STX_BASE_GRAN]

theorem rowLost (sa : Nat) : d.rowLost sa = c.rowLost sa := by
  have losses : d.lossesSince sa = c.lossesSince sa := by simp only [lossesSince, k.userEnd, k.ecc, k.metaAt]
  simp only [Ctl.rowLost, losses, k.placeBy, k.viewPlace]

theorem ctxAddr (x : Nat) : d.ctxAddr x = c.ctxAddr x := by simp (disch := decide) only [Ctl.ctxAddr, k.kept]

theorem rowLost_ctxAddr (x : Nat) : d.rowLost (d.ctxAddr x) = c.rowLost (c.ctxAddr x) := by rw [k.ctxAddr, k.rowLost]

end
end Ctl.samePlaces

end Sys2Proof.Machine
end
section
/-! SUPPORT. A fault of a block without a reset of its own leaves the stripe table, the line ECC and the part as they are. -/

namespace Sys2Proof.Machine

/-- What the stripe table and the placement of its rows rest on besides registers. -/
def Ctl.tableSide (c : Ctl) : Part × EccSt × StxSt := (c.part, c.ecc, c.stx)

@[simp] theorem Ctl.ite_tableSide (p : Prop) {d : Decidable p} (a b : Ctl) :
    (if p then a else b).tableSide = if p then a.tableSide else b.tableSide := apply_ite Ctl.tableSide p a b
@[simp] theorem Ctl.set_tableSide (c : Ctl) (x : Fld) (v : Nat) : (c.set x v).tableSide = c.tableSide := rfl
@[simp] theorem Ctl.bump_tableSide (c : Ctl) (x : Fld) (n : Nat) : (c.bump x n).tableSide = c.tableSide := rfl
@[simp] theorem Ctl.emit_tableSide (c : Ctl) (o : Out) : (c.emit o).tableSide = c.tableSide := rfl
@[simp] theorem Ctl.modHd_tableSide (c : Ctl) (h : Head) (g : HeadSt → HeadSt) : (c.modHd h g).tableSide = c.tableSide := by
  simp [tableSide]
@[simp] theorem Ctl.msix_tableSide (c : Ctl) (h : Head) (v : Nat) : (c.msix h v).tableSide = c.tableSide := by
  simp [tableSide]

theorem Ctl.setFlt_tableSide (c : Ctl) (f : FltSt) : ({ c with flt := f } : Ctl).tableSide = c.tableSide := rfl

theorem Ctl.forHeads_tableSide {f : Head → Ctl → Ctl} (k : ∀ h d, (f h d).tableSide = d.tableSide) (c : Ctl) :
    (c.forHeads f).tableSide = c.tableSide := (k .b _).trans (k .a c)

@[simp] theorem Ctl.event_tableSide (c : Ctl) (h : Head) (log kind code headNo info flags : Nat) :
    (c.event h log kind code headNo info flags).tableSide = c.tableSide := by
  unfold event
  split
  · cases (c.hd h).logs[log]? with
    | none => rfl
    | some l => simp
  · rfl

@[simp] theorem Ctl.aerInternal_tableSide (c : Ctl) (h : Head) (u : Bool) : (c.aerInternal h u).tableSide = c.tableSide := by
  cases u <;> simp [aerInternal, aerError]

@[simp] theorem Ctl.faultReport_tableSide (c : Ctl) (src info : Nat) (p : FaultPlan) (w : FaultTo) (h : Head) :
    (c.faultReport src info p w h).tableSide = c.tableSide := by simp [faultReport]

@[simp] theorem Ctl.faultMsix_tableSide (c : Ctl) (h : Head) : (c.faultMsix h).tableSide = c.tableSide := by
  cases h <;> simp [faultMsix]

@[simp] theorem Ctl.faultReact_tableSide (c : Ctl) (src : Nat) (p : FaultPlan) (w : FaultTo) :
    (c.faultReact src p w).tableSide = c.tableSide := by
  have told : (c.forHeads fun h d => if d.faultReaches w h then d.faultMsix h else d).tableSide = c.tableSide :=
    forHeads_tableSide (fun h d => by simp) c
  have nmi (d : Ctl) : d.raiseNmi.tableSide = d.tableSide := by
    unfold raiseNmi
    split <;> rfl
  have pin (d : Ctl) : (d.assertErrN src).tableSide = d.tableSide := by
    unfold assertErrN
    dsimp only
    rw [ite_tableSide, emit_tableSide, set_tableSide, ite_self]
    rfl
  simp [faultReact, told, nmi, pin]

@[simp] theorem Ctl.askWarm_tableSide (c : Ctl) (origin at_ : Nat) : (c.askWarm origin at_).tableSide = c.tableSide := by
  unfold askWarm
  split
  · rfl
  · split <;> rfl

@[simp] theorem Ctl.collectorReset_tableSide (c : Ctl) : c.collectorReset.tableSide = c.tableSide := by
  unfold collectorReset
  split
  · rfl
  · dsimp only
    rw [ite_tableSide, set_tableSide, ite_self, askWarm_tableSide]
    exact c.setFlt_tableSide _

theorem Ctl.faultOnce_tableSide (c : Ctl) {src : Nat} (info : Nat) (w : FaultTo) (h : hasBlockReset src = false) :
    (c.faultOnce src info w).tableSide = c.tableSide := by
  have told (d : Ctl) : (d.forHeads fun h e => e.faultReport src info (c.faultPlan src) w h).tableSide = d.tableSide :=
    forHeads_tableSide (fun h e => by simp) d
  have counted (d : Ctl) : (if (c.faultPlan src).escalated then d.bump R.FLT_ESC_CNT_ESCALATED else d).tableSide = d.tableSide := by
    simp
  unfold faultOnce
  split
  · rfl
  · simp only [c.faultPlan_noReset h, Bool.false_eq_true, if_false]
    rw [ite_tableSide, collectorReset_tableSide, ite_self, told]
    exact (counted _).trans (c.faultReact_tableSide src (c.faultPlan src) w)

/-- The same of a fault, whose one occurrence it is. -/
theorem Ctl.fault_tableSide (c : Ctl) {src : Nat} (info : Nat) (w : FaultTo) (row : (faultRow src).isSome = true) (l : src < 1024)
    (h : hasBlockReset src = false) : (c.fault src info w).tableSide = c.tableSide := by
  rw [fault_eq _ _ _ row l h, faultOnce_tableSide _ _ _ h]

end Sys2Proof.Machine
end
section
/-! SUPPORT. The rules of the stripe table (R127, R130, R145, R147, R148): what an entry reads as after a change, and the count of free
entries. -/

namespace Sys2Proof.Machine

/-! ## Control sides with the same table -/

/-- Two control sides with the same entries, and the same rows lost. -/
structure Ctl.sameTable (c d : Ctl) : Prop extends c.samePlaces d where
  entries : d.stx.entries = c.stx.entries
  reserved : d.stx.reserved = c.stx.reserved

namespace Ctl.sameTable

theorem refl (c : Ctl) : c.sameTable c := ⟨.refl c, rfl, rfl⟩

theorem trans {c d e : Ctl} (a : c.sameTable d) (b : d.sameTable e) : c.sameTable e :=
  ⟨a.tosamePlaces.trans b.tosamePlaces, b.entries.trans a.entries, b.reserved.trans a.reserved⟩

/-- A change of registers below the Seal block, and of those of the second head's own window. -/
theorem of_side {c d : Ctl} (side : d.tableSide = c.tableSide)
    (kept : ∀ x : Fld, 9961472 ≤ x.key → x.key < 2 ^ 40 → d.get x = c.get x) : c.sameTable d := by
  obtain ⟨part, ecc, stx⟩ : d.part = c.part ∧ d.ecc = c.ecc ∧ d.stx = c.stx := by simpa [tableSide] using side
  exact ⟨⟨part, ecc, kept⟩, congrArg _ stx, congrArg _ stx⟩

section
variable {c d : Ctl} (k : c.sameTable d)
include k

theorem ctxEntry (x : Nat) : d.ctxEntry x = c.ctxEntry x := by
  rw [Ctl.ctxEntry, Ctl.ctxEntry, k.entries, k.rowLost_ctxAddr]

theorem entryFree (x : Nat) : d.entryFree x = c.entryFree x := by
  rw [Ctl.entryFree, Ctl.entryFree, k.ctxEntry, k.reserved]

end
end Ctl.sameTable

/-- What a chain of extension entries is rests on the entries alone. -/
theorem Ctl.extChain_congr {c d : Ctl} (e : d.ctxEntry = c.ctxEntry) (n x : Nat) : d.extChain n x = c.extChain n x := by
  induction n generalizing x with
  | zero => rfl
  | succ n ih => simp only [extChain, e, ih]

theorem Ctl.ctxExts_congr {c d : Ctl} (e : d.ctxEntry = c.ctxEntry) (m : CtxMain) : d.ctxExts m = c.ctxExts m := by
  simp only [ctxExts, extChain_congr e]

theorem Ctl.ctxMain_congr {c d : Ctl} (e : d.ctxEntry = c.ctxEntry) (x : Nat) : d.ctxMain x = c.ctxMain x := by
  simp only [ctxMain, e, ctxExts_congr e]

theorem Ctl.sameTable_finish (c : Ctl) (h : Head) (op : Nat) (o : Ocs) (out : Bytes) : c.sameTable (c.finish h op o out) :=
  .of_side (by simp [tableSide]) fun y _ _ => by simp

/-! ## The count of free entries -/

/-- The fault of a table that runs low leaves the table, the count and every register outside the collector (R148). -/
theorem Ctl.freeChange_kept (c : Ctl) (x n : Nat) : (c.freeChange x n).tableSide = c.tableSide ∧
    ∀ f : Fld, f.key < 4194304 ∨ 4718592 ≤ f.key → (c.freeChange x n).get f = (c.set R.STX_FREE_CNT_FREE n).get f := by
  unfold freeChange
  dsimp only
  split
  · exact ⟨fault_tableSide _ _ _ (by decide +kernel) (by decide) (by decide),
      fun f k => fault_get _ _ _ (by decide +kernel) (by decide) (by decide) k⟩
  · exact ⟨rfl, fun _ _ => rfl⟩

theorem Ctl.freeChange_free (c : Ctl) (x n : Nat) : (c.freeChange x n).get R.STX_FREE_CNT_FREE = n % 2 ^ 23 :=
  ((c.freeChange_kept x n).2 _ (by decide)).trans (get_set_same _ _ _)

theorem Ctl.freeChange_get (c : Ctl) (x n : Nat) {f : Fld} (k : f.key < 4194304 ∨ 4718592 ≤ f.key)
    (ne : f.key ≠ R.STX_FREE_CNT_FREE.key) : (c.freeChange x n).get f = c.get f :=
  ((c.freeChange_kept x n).2 f k).trans (get_set_ne _ _ _ _ ne)

theorem Ctl.sameTable_freeChange (c : Ctl) (x n : Nat) : c.sameTable (c.freeChange x n) :=
  .of_side (c.freeChange_kept x n).1 fun f l _ =>
    c.freeChange_get x n (by omega) (by simp only [R.STX_FREE_CNT_FREE]; omega)

/-! ## One entry changed -/

/-- An entry listed, or no longer, and dirty (R145), before the count of the free ones follows. -/
def Ctl.putEntry (c : Ctl) (x : Nat) (e : CtxEntry) : Ctl :=
  Ctl.ctxDirty { c with
    stx.entries := if decide (e = .free) && !c.rowLost (c.ctxAddr x) then mapDel c.stx.entries x else mapPut c.stx.entries x e } x

theorem Ctl.setEntry_eq (c : Ctl) (x : Nat) (e : CtxEntry) : c.setEntry x e =
    if c.entryFree x && !decide (e = .free) then (c.putEntry x e).freeChange x (c.get R.STX_FREE_CNT_FREE - 1)
    else if decide (e = .free) && !c.entryFree x then (c.putEntry x e).freeChange x (c.get R.STX_FREE_CNT_FREE + 1)
    else c.putEntry x e := rfl

theorem Ctl.samePlaces_putEntry (c : Ctl) (x : Nat) (e : CtxEntry) : c.samePlaces (c.putEntry x e) := ⟨rfl, rfl, fun _ _ _ => rfl⟩

theorem Ctl.sameTable_putEntry (c : Ctl) (x : Nat) (e : CtxEntry) : (c.putEntry x e).sameTable (c.setEntry x e) := by
  rw [setEntry_eq]
  split
  · exact sameTable_freeChange _ _ _
  · split
    · exact sameTable_freeChange _ _ _
    · exact .refl _

/-- An entry reads as it was set. -/
@[simp] theorem Ctl.ctxEntry_setEntry (c : Ctl) (x : Nat) (e : CtxEntry) : (c.setEntry x e).ctxEntry x = e := by
  rw [(c.sameTable_putEntry x e).ctxEntry, ctxEntry, (c.samePlaces_putEntry x e).rowLost_ctxAddr]
  change (mapGet (if decide (e = .free) && !c.rowLost (c.ctxAddr x) then mapDel c.stx.entries x else mapPut c.stx.entries x e) x).getD _ = e
  split
  · next h =>
    obtain ⟨rfl, stands⟩ : e = .free ∧ c.rowLost (c.ctxAddr x) = false := by simpa using h
    rw [mapGet_mapDel_same, stands]
    rfl
  · rw [mapGet_mapPut_same]
    rfl

theorem Ctl.ctxEntry_setEntry_ne (c : Ctl) {x y : Nat} (e : CtxEntry) (n : y ≠ x) : (c.setEntry x e).ctxEntry y = c.ctxEntry y := by
  rw [(c.sameTable_putEntry x e).ctxEntry, ctxEntry, (c.samePlaces_putEntry x e).rowLost_ctxAddr, ctxEntry]
  change (mapGet (if _ then mapDel c.stx.entries x else mapPut c.stx.entries x e) y).getD _ = _
  split
  · rw [mapGet_mapDel_ne _ _ _ n]
  · rw [mapGet_mapPut_ne _ _ _ _ n]

theorem Ctl.entryFree_setEntry_ne (c : Ctl) {x y : Nat} (e : CtxEntry) (n : y ≠ x) : (c.setEntry x e).entryFree y = c.entryFree y := by
  rw [entryFree, ctxEntry_setEntry_ne _ _ n, (c.sameTable_putEntry x e).reserved]
  rfl

theorem Ctl.entryFree_of_ne {c : Ctl} {x : Nat} (n : c.ctxEntry x ≠ .free) : c.entryFree x = false := by simp [entryFree, n]

theorem Ctl.setEntry_get (c : Ctl) (x : Nat) (e : CtxEntry) {f : Fld} (k : f.key < 4194304 ∨ 4718592 ≤ f.key)
    (ne : f.key ≠ R.STX_FREE_CNT_FREE.key) : (c.setEntry x e).get f = c.get f := by
  rw [setEntry_eq]
  split
  · exact freeChange_get _ _ _ k ne
  · split
    · exact freeChange_get _ _ _ k ne
    · rfl

/-- A free entry taken (R148). -/
theorem Ctl.setEntry_free_taken {c : Ctl} {x : Nat} {e : CtxEntry} (was : c.entryFree x = true) (now : e ≠ .free) :
    (c.setEntry x e).get R.STX_FREE_CNT_FREE = (c.get R.STX_FREE_CNT_FREE - 1) % 2 ^ 23 := by
  rw [setEntry_eq, if_pos (by simp [was, now]), freeChange_free]

/-- An entry freed (R148). -/
theorem Ctl.setEntry_free_freed {c : Ctl} {x : Nat} (was : c.entryFree x = false) :
    (c.setEntry x .free).get R.STX_FREE_CNT_FREE = (c.get R.STX_FREE_CNT_FREE + 1) % 2 ^ 23 := by
  rw [setEntry_eq, if_neg (by simp), if_pos (by simp [was]), freeChange_free]

end Sys2Proof.Machine
end
section
/-! SUPPORT. Free entries found, chains of extension entries written and read back (R130, R148), and bits left out of a mask. -/

namespace Sys2Proof.Machine

/-! ## Bits left out -/

theorem tb_sub_and (x y i : Nat) : tb (x - (x &&& y)) i = (tb x i && !tb y i) := by
  simp only [tb]
  have low : (x &&& y) % 2 = (x % 2) &&& (y % 2) := Nat.and_mod_two_pow (n := 1)
  have high : (x &&& y) / 2 = x / 2 &&& y / 2 := Nat.and_div_two_pow (n := 1)
  induction i generalizing x y with
  | zero =>
    have le := Nat.and_le_left (n := x) (m := y)
    have both : (x % 2) &&& (y % 2) = if x % 2 = 1 ∧ y % 2 = 1 then 1 else 0 := by
      rcases Nat.mod_two_eq_zero_or_one x with hx | hx <;> rcases Nat.mod_two_eq_zero_or_one y with hy | hy <;> simp [hx, hy]
    rw [both] at low
    generalize x &&& y = a at low le
    rw [Bool.eq_iff_iff]
    simp only [Nat.testBit_zero, Bool.and_eq_true, Bool.not_eq_true', decide_eq_true_eq, decide_eq_false_iff_not]
    split at low <;> omega
  | succ i ih =>
    have le := Nat.and_le_left (n := x / 2) (m := y / 2)
    have bit := Nat.and_le_left (n := x % 2) (m := y % 2)
    have half : (x - (x &&& y)) / 2 = x / 2 - (x / 2 &&& y / 2) := by
      generalize x &&& y = a at low high
      generalize x / 2 &&& y / 2 = b at high le
      generalize (x % 2) &&& (y % 2) = d at low bit
      omega
    rw [Nat.testBit_succ, half, ih _ _ (Nat.and_mod_two_pow (n := 1)) (Nat.and_div_two_pow (n := 1)), Nat.testBit_succ, Nat.testBit_succ]

/-! ## Free entries -/

theorem Ctl.lowestFree_eq_none {c : Ctl} {n x : Nat} (full : ∀ y, x ≤ y → y < x + n → c.entryFree y = false) :
    c.lowestFree n x = none := by
  induction n generalizing x with
  | zero => rfl
  | succ n ih =>
    rw [lowestFree, full x (Nat.le_refl x) (by omega), if_neg Bool.false_ne_true]
    exact ih fun y l u => full y (by omega) (by omega)

theorem Ctl.lowestFree_eq_some {c : Ctl} {n x k : Nat} (l : x ≤ k) (u : k < x + n) (free : c.entryFree k = true)
    (below : ∀ y, x ≤ y → y < k → c.entryFree y = false) : c.lowestFree n x = some k := by
  induction n generalizing x with
  | zero => omega
  | succ n ih =>
    rw [lowestFree]
    rcases Nat.eq_or_lt_of_le l with rfl | lt
    · rw [free, if_pos rfl]
    · rw [below x (Nat.le_refl x) lt, if_neg Bool.false_ne_true]
      exact ih (by omega) (by omega) fun y l => below y (by omega)

/-- As many as asked for, each once, from 1 up and below the bound. -/
theorem Ctl.highestFree_spec {c : Ctl} {b n : Nat} {xs : List Nat} (h : c.highestFree b n = some xs) :
    xs.length = n ∧ xs.Nodup ∧ ∀ y ∈ xs, y ≠ 0 ∧ y < b := by
  induction b generalizing n xs with
  | zero =>
    cases n with
    | zero => cases h; simp
    | succ n => cases h
  | succ x ih =>
    cases n with
    | zero => cases h; simp
    | succ n =>
      rw [highestFree] at h
      split at h
      · cases h
      next pos =>
      split at h
      · obtain ⟨t, ht, rfl⟩ := Option.map_eq_some_iff.1 h
        obtain ⟨len, once, inside⟩ := ih ht
        refine ⟨by simp [len], List.nodup_cons.2 ⟨fun m => by have := (inside x m).2; omega, once⟩, fun y m => ?_⟩
        rcases List.mem_cons.1 m with rfl | m
        · exact ⟨pos, by omega⟩
        · exact ⟨(inside y m).1, by have := (inside y m).2; omega⟩
      · obtain ⟨len, once, inside⟩ := ih h
        exact ⟨len, once, fun y m => ⟨(inside y m).1, by have := (inside y m).2; omega⟩⟩

/-- An entry taken that was none of those found leaves them the ones found. -/
theorem Ctl.highestFree_of_taken {c d : Ctl} {k b n : Nat} {xs : List Nat} (taken : d.entryFree k = false)
    (same : ∀ y, y ≠ k → d.entryFree y = c.entryFree y) (none' : k ∉ xs) (h : c.highestFree b n = some xs) :
    d.highestFree b n = some xs := by
  induction b generalizing n xs with
  | zero =>
    cases n with
    | zero => exact h
    | succ n => cases h
  | succ x ih =>
    cases n with
    | zero => exact h
    | succ n =>
      rw [highestFree] at h ⊢
      split at h
      · cases h
      next pos =>
      rw [if_neg pos]
      cases free : c.entryFree x with
      | true =>
        rw [free, if_pos rfl] at h
        obtain ⟨t, ht, rfl⟩ := Option.map_eq_some_iff.1 h
        obtain ⟨ne, rest⟩ := not_or.1 (fun m => none' (List.mem_cons.2 m))
        rw [same x fun e => ne e.symm, free, if_pos rfl, ih rest ht]
        rfl
      | false =>
        rw [free, if_neg Bool.false_ne_true] at h
        have gone : d.entryFree x = false := by
          by_cases e : x = k
          · rw [e, taken]
          · rw [same x e, free]
        rw [gone, if_neg Bool.false_ne_true]
        exact ih none' h

/-! ## Chains of extension entries -/

/-- The 15 address words of one extension entry. -/
def extSlice (words : List Nat) : List Nat := (words ++ List.replicate 15 0).take 15

/-- Entries that form a chain of a head with these words, 15 in each and zero beyond the last (R130). -/
def Ctl.chained (c : Ctl) (o : Head) : List Nat → List Nat → Prop
  | [], _ => True
  | x :: t, words => c.ctxEntry x = .ext o (t.headD 0) (extSlice words) ∧ c.chained o t (words.drop 15)

theorem Ctl.chained.congr {c d : Ctl} {o : Head} {xs words : List Nat} (same : ∀ y ∈ xs, d.ctxEntry y = c.ctxEntry y)
    (h : c.chained o xs words) : d.chained o xs words := by
  induction xs generalizing words with
  | nil => trivial
  | cons x t ih => exact ⟨(same x List.mem_cons_self).trans h.1, ih (fun y m => same y (List.mem_cons_of_mem _ m)) h.2⟩

theorem Ctl.ctxEntry_writeExts_ne {c : Ctl} {o : Head} {xs words : List Nat} {y : Nat} (n : y ∉ xs) :
    (c.writeExts o xs words).ctxEntry y = c.ctxEntry y := by
  induction xs generalizing c words with
  | nil => rfl
  | cons x t ih =>
    obtain ⟨ne, rest⟩ := not_or.1 (fun m => n (List.mem_cons.2 m))
    exact (ih rest).trans (ctxEntry_setEntry_ne _ _ ne)

theorem Ctl.chained_writeExts (c : Ctl) (o : Head) {xs : List Nat} (once : xs.Nodup) (words : List Nat) :
    (c.writeExts o xs words).chained o xs words := by
  induction xs generalizing c words with
  | nil => trivial
  | cons x t ih =>
    obtain ⟨n, once⟩ := List.nodup_cons.1 once
    exact ⟨(ctxEntry_writeExts_ne n).trans (ctxEntry_setEntry _ _ _), ih _ once _⟩

/-- A chain is found from its first entry on. -/
theorem Ctl.chained.extChain {c : Ctl} {o : Head} {xs words : List Nat} (pos : ∀ y ∈ xs, y ≠ 0) (h : c.chained o xs words) :
    c.extChain xs.length (xs.headD 0) = some xs := by
  induction xs generalizing words with
  | nil => rfl
  | cons x t ih =>
    obtain ⟨here, rest⟩ := h
    have tail := ih (fun y m => pos y (List.mem_cons_of_mem _ m)) rest
    simp only [List.length_cons, List.headD_cons, Ctl.extChain, if_neg (pos x List.mem_cons_self), here]
    cases t with
    | nil => rfl
    | cons y u => rw [if_neg (by simp), tail]; rfl

theorem getD_extSlice (words : List Nat) {i : Nat} (l : i < 15) : (extSlice words).getD i 0 = words.getD i 0 := by
  simp only [extSlice, List.getD_eq_getElem?_getD, List.getElem?_take_of_lt l, List.getElem?_append]
  split
  · rfl
  · next n =>
    rw [List.getElem?_replicate, List.getElem?_eq_none (Nat.not_lt.1 n)]
    split <;> rfl

/-- A chain holds its words in order. -/
theorem Ctl.chained.getD_extWords {c : Ctl} {o : Head} {xs words : List Nat} (h : c.chained o xs words) {i : Nat}
    (l : i < 15 * xs.length) : (c.extWords xs).getD i 0 = words.getD i 0 := by
  induction xs generalizing words i with
  | nil => simp at l
  | cons x t ih =>
    obtain ⟨here, rest⟩ := h
    have len : (extSlice words).length = 15 := by simp [extSlice]
    have split : c.extWords (x :: t) = extSlice words ++ c.extWords t := by simp [extWords, here]
    rw [split]
    by_cases first : i < 15
    · rw [List.getD_append _ _ _ _ (by omega), getD_extSlice words first]
    · rw [List.getD_append_right _ _ _ _ (by omega), len, ih rest (by rw [List.length_cons] at l; omega),
        List.getD_eq_getElem?_getD, List.getElem?_drop, List.getD_eq_getElem?_getD]
      congr 2
      omega

end Sys2Proof.Machine
end
section
/-! SUPPORT. How each context command judges (R141, R148 to R151; log entries 116, 117, 128 and 143). -/

namespace Sys2Proof.Machine

/-! ## Main entries -/

theorem Ctl.ctxMain_eq_some {c : Ctl} {x : Nat} {m : CtxMain} (h : c.ctxMain x = some m) : c.ctxEntry x = .main m := by
  unfold ctxMain at h
  split at h
  · next o e =>
    split at h
    · rw [e, Option.some.inj h]
    · cases h
  · cases h

theorem Ctl.ctxMain_of_main {c : Ctl} {x : Nat} {m : CtxMain} (e : c.ctxEntry x = .main m) :
    c.ctxMain x = none ∨ c.ctxMain x = some m := by
  cases h : c.ctxMain x with
  | none => exact .inl rfl
  | some o => exact .inr (congrArg some (CtxEntry.main.inj ((ctxMain_eq_some h).symm.trans e)))

/-- A context that is LOST itself, or by one of its extension entries (R147). -/
def Ctl.ctxLost (c : Ctl) (x : Nat) : Prop := c.ctxEntry x = .lost ∨ ∃ m, c.ctxEntry x = .main m ∧ c.ctxMain x = none

/-- A context that stands and is the head's (R141). -/
def Ctl.ctxOwned (c : Ctl) (h : Head) (x : Nat) (m : CtxMain) : Prop := c.ctxMain x = some m ∧ c.ownsCtx h m.owner = true

theorem imageAt_owner {p : Bytes} {off : Nat} {h : Head} {m : CtxMain} (e : imageAt p off h = some m) : m.owner = h := by
  unfold imageAt at e
  split at e
  · rw [← Option.some.inj e]
    rfl
  · cases e

theorem Ctl.placeImage_plain (c : Ctl) (h : Head) {m : CtxMain} (words : List Nat) (x : Nat) (kind : m.kind ≠ 2) :
    c.placeImage h m words x = some (c.setEntry x (.main m)) := if_neg kind

/-! ## CTX_WRITE -/

/-- An entry that CTX_WRITE of a head replaces (R151; log entries 116 and 117). -/
def Ctl.ctxTaken (c : Ctl) (h : Head) (x : Nat) : Bool := match c.ctxEntry x with
  | .main o => c.ownsCtx h o.owner || (c.ctxMain x).isNone
  | .ext _ _ _ => false
  | .free => c.entryFree x
  | .lost => true

theorem Ctl.ctxTaken_iff {c : Ctl} {h : Head} {x : Nat} :
    c.ctxTaken h x = true ↔ c.entryFree x = true ∨ c.ctxLost x ∨ ∃ m, c.ctxOwned h x m := by
  unfold ctxTaken ctxLost ctxOwned
  cases e : c.ctxEntry x with
  | free =>
    have none' : c.ctxMain x = none := by simp [ctxMain, e]
    simp [none']
  | lost => simp
  | ext o n w =>
    have none' : c.ctxMain x = none := by simp [ctxMain, e]
    simp [entryFree, e, none']
  | main m =>
    rcases ctxMain_of_main e with h | h <;> simp [entryFree, e, h]

theorem judgeCtxWrite_plain {h : Head} {p : Bytes} {c : Ctl} {m : CtxMain} (image : imageAt p 4 h = some m)
    (inside : le p 0 4 < ctxCount) (good : c.imageBad m = false) (kind : m.kind ≠ 2) (mine : c.ctxTaken h (le p 0 4) = true) :
    judgeCtxWrite h p c = .inr ((c.freeExts (c.ctxEntry (le p 0 4))).setEntry (le p 0 4) (.main m)) := by
  have pass : ¬(ctxCount ≤ le p 0 4 ∨ c.imageBad m = true ∨ (m.kind = 2 ∧ p.length < 244)) := by simp [good, kind, inside]
  unfold judgeCtxWrite
  simp only [image, if_neg pass, Ctl.placeImage_plain _ _ _ _ kind]
  exact if_pos mine

theorem judgeCtxWrite_badImage {h : Head} {p : Bytes} {c : Ctl} (bad : ∀ m, imageAt p 4 h = some m → c.imageBad m = true) :
    judgeCtxWrite h p c = .inl .invalidParameter := by
  unfold judgeCtxWrite
  cases image : imageAt p 4 h with
  | none => rfl
  | some m => exact if_pos (.inr (.inl (bad m image)))

theorem judgeCtxWrite_foreign {h : Head} {p : Bytes} {c : Ctl} (mine : c.ctxTaken h (le p 0 4) = false) :
    judgeCtxWrite h p c = .inl .invalidParameter := by
  unfold judgeCtxWrite
  cases imageAt p 4 h with
  | none => rfl
  | some m =>
    dsimp only
    split
    · rfl
    · exact if_neg (Bool.eq_false_iff.1 mine)

/-! ## CTX_MARK -/

/-- A main entry with fragments marked unavailable, and then others available (R131, R151). -/
def CtxMain.marked (m : CtxMain) (put clr : Nat) : CtxMain :=
  CtxMain.settle { m with
    unavail := (m.unavail ||| put / 2 ^ 20) - ((m.unavail ||| put / 2 ^ 20) &&& clr / 2 ^ 20)
    chkValid := m.chkValid && decide (m.unavail &&& clr / 2 ^ 20 = 0) }

@[simp] theorem CtxMain.settle_unavail (m : CtxMain) : m.settle.unavail = m.unavail := by unfold settle; split <;> rfl
@[simp] theorem CtxMain.settle_chkValid (m : CtxMain) : m.settle.chkValid = m.chkValid := by unfold settle; split <;> rfl
theorem CtxMain.settle_state {m : CtxMain} (h : m.state = 2 ∨ m.state = 3) : m.settle.state = if m.unavail = 0 then 2 else 3 := by
  rw [settle, if_pos h]

theorem tb_div_two_pow (n k i : Nat) : tb (n / 2 ^ k) i = tb n (k + i) := by
  simp only [tb, Nat.testBit_div_two_pow, Nat.add_comm]

theorem CtxMain.tb_marked (m : CtxMain) (put clr i : Nat) :
    tb (m.marked put clr).unavail i = ((tb m.unavail i || tb put (20 + i)) && !tb clr (20 + i)) := by
  have join : tb (m.unavail ||| put / 2 ^ 20) i = (tb m.unavail i || tb (put / 2 ^ 20) i) := Nat.testBit_or ..
  rw [marked, settle_unavail, tb_sub_and, join, tb_div_two_pow, tb_div_two_pow]

theorem and_eq_zero_iff_tb {x y : Nat} : x &&& y = 0 ↔ ∀ i, tb x i = true → tb y i = false := by
  constructor
  · intro h i hx
    have both : (x &&& y).testBit i = false := by rw [h, Nat.zero_testBit]
    rw [Nat.testBit_and] at both
    exact show y.testBit i = false by simpa [show x.testBit i = true from hx] using both
  · intro h
    refine Nat.eq_of_testBit_eq fun i => ?_
    rw [Nat.testBit_and, Nat.zero_testBit]
    cases hx : x.testBit i with
    | false => rfl
    | true => exact h i hx

theorem CtxMain.marked_chkValid (m : CtxMain) (put clr : Nat) :
    (m.marked put clr).chkValid = true ↔ m.chkValid = true ∧ ∀ i, tb m.unavail i = true → tb clr (20 + i) = false := by
  rw [marked, settle_chkValid, Bool.and_eq_true, decide_eq_true_eq, and_eq_zero_iff_tb]
  simp only [tb_div_two_pow]

/-- What CTX_MARK does not accept of the masks and the context (R151). -/
def markBad (m : CtxMain) (put clr : Nat) : Prop :=
  m.state = 4 ∨ maskWithin put 20 (20 + spN m.spec) = false ∨ maskWithin clr 20 (20 + spN m.spec) = false ∨ put &&& clr ≠ 0

theorem judgeCtxMark_owned {h : Head} {p : Bytes} {c : Ctl} {m : CtxMain} (own : c.ctxOwned h (le p 0 4) m)
    (inside : le p 0 4 < ctxCount) (good : ¬markBad m (le p 4 8) (le p 12 8)) :
    judgeCtxMark h p c = .inr (c.setEntry (le p 0 4) (.main (m.marked (le p 4 8) (le p 12 8)))) := by
  obtain ⟨main, owner⟩ := own
  obtain ⟨state, put, clr, apart⟩ : m.state ≠ 4 ∧ maskWithin (le p 4 8) 20 (20 + spN m.spec) = true ∧
      maskWithin (le p 12 8) 20 (20 + spN m.spec) = true ∧ le p 4 8 &&& le p 12 8 = 0 := by simpa [markBad] using good
  simp only [judgeCtxMark, main]
  exact if_neg (by simp [owner, state, put, clr, apart, Nat.not_le.2 inside])

theorem judgeCtxMark_refused {h : Head} {p : Bytes} {c : Ctl}
    (bad : ∀ m, c.ctxOwned h (le p 0 4) m → markBad m (le p 4 8) (le p 12 8)) :
    judgeCtxMark h p c = .inl .invalidParameter := by
  unfold judgeCtxMark
  dsimp only
  cases main : c.ctxMain (le p 0 4) with
  | none => rfl
  | some m =>
    refine if_pos ?_
    cases owner : c.ownsCtx h m.owner with
    | false => rfl
    | true => rcases bad m ⟨main, owner⟩ with h | h | h | h <;> simp [h]

/-! ## CTX_RETIRE, CTX_FREE and CTX_ASSIGN -/

theorem judgeCtxRetire_owned {h : Head} {p : Bytes} {c : Ctl} {m : CtxMain} (own : c.ctxOwned h (le p 0 4) m)
    (inside : le p 0 4 < ctxCount) : ∃ d, judgeCtxRetire h p c = .inr d ∧ d.ctxEntry (le p 0 4) = .main { m with state := 4 } := by
  obtain ⟨main, owner⟩ := own
  have pass : ¬(!c.ownsCtx h m.owner || decide (ctxCount ≤ le p 0 4)) = true := by simp [owner, inside]
  simp only [judgeCtxRetire, main, if_neg pass]
  by_cases retired : m.state = 4
  · exact ⟨c, if_pos retired, (Ctl.ctxMain_eq_some main).trans (by rw [← retired])⟩
  · exact ⟨_, if_neg retired, Ctl.ctxEntry_setEntry _ _ _⟩

theorem judgeCtxRetire_foreign {h : Head} {p : Bytes} {c : Ctl} (none' : ∀ m, ¬c.ctxOwned h (le p 0 4) m) :
    judgeCtxRetire h p c = .inl .invalidParameter := by
  unfold judgeCtxRetire
  dsimp only
  cases main : c.ctxMain (le p 0 4) with
  | none => rfl
  | some m =>
    have owner : c.ownsCtx h m.owner = false := Bool.eq_false_iff.2 fun o => none' m ⟨main, o⟩
    exact if_pos (by simp [owner])

theorem judgeCtxFree_main {h : Head} {p : Bytes} {c : Ctl} {m : CtxMain} (entry : c.ctxEntry (le p 0 4) = .main m)
    (inside : le p 0 4 < ctxCount) : judgeCtxFree h p c =
      if c.ownsCtx h m.owner || (c.ctxMain (le p 0 4)).isNone then .inr ((c.freeExts (.main m)).setEntry (le p 0 4) .free)
      else .inl .invalidParameter := by
  simp only [judgeCtxFree, entry, if_neg (Nat.not_le.2 inside)]

theorem judgeCtxFree_lost {h : Head} {p : Bytes} {c : Ctl} (lost : c.ctxLost (le p 0 4)) (inside : le p 0 4 < ctxCount) :
    ∃ d, judgeCtxFree h p c = .inr d ∧ d.ctxEntry (le p 0 4) = .free := by
  rcases lost with e | ⟨m, e, gone⟩
  · exact ⟨c.setEntry (le p 0 4) .free, by simp only [judgeCtxFree, e, if_neg (Nat.not_le.2 inside)], Ctl.ctxEntry_setEntry _ _ _⟩
  · rw [judgeCtxFree_main e inside, if_pos (by simp [gone])]
    exact ⟨_, rfl, Ctl.ctxEntry_setEntry _ _ _⟩

theorem judgeCtxFree_foreign {h : Head} {p : Bytes} {c : Ctl} (none' : ∀ m, ¬c.ctxOwned h (le p 0 4) m)
    (stands : ¬c.ctxLost (le p 0 4)) : judgeCtxFree h p c = .inl .invalidParameter := by
  by_cases inside : le p 0 4 < ctxCount
  · cases entry : c.ctxEntry (le p 0 4) with
    | main m =>
      rcases Ctl.ctxMain_of_main entry with gone | main
      · exact absurd (.inr ⟨m, entry, gone⟩) stands
      · rw [judgeCtxFree_main entry inside, if_neg]
        have owner : c.ownsCtx h m.owner = false := Bool.eq_false_iff.2 fun o => none' m ⟨main, o⟩
        simp [owner, main]
    | lost => exact absurd (.inl entry) stands
    | free => simp only [judgeCtxFree, entry, ite_self]
    | ext o n w => simp only [judgeCtxFree, entry, ite_self]
  · exact if_pos (Nat.not_lt.1 inside)

theorem judgeCtxAssign_owned {h : Head} {p : Bytes} {c : Ctl} {m : CtxMain} (own : c.ctxOwned h (le p 0 4) m)
    (inside : le p 0 4 < ctxCount) (head : le p 4 1 < 2) :
    ∃ d, judgeCtxAssign h p c = .inr d ∧ d.ctxEntry (le p 0 4) = .main { m with owner := Head.ofNum (le p 4 1) } := by
  obtain ⟨main, owner⟩ := own
  have pass : ¬(!c.ownsCtx h m.owner || decide (ctxCount ≤ le p 0 4) || decide (1 < le p 4 1)) = true := by
    simp [owner, inside]
    omega
  simp only [judgeCtxAssign, main, if_neg pass]
  exact ⟨_, rfl, Ctl.ctxEntry_setEntry _ _ _⟩

theorem judgeCtxAssign_refused {h : Head} {p : Bytes} {c : Ctl} (bad : (∀ m, ¬c.ctxOwned h (le p 0 4) m) ∨ 2 ≤ le p 4 1) :
    judgeCtxAssign h p c = .inl .invalidParameter := by
  unfold judgeCtxAssign
  dsimp only
  cases main : c.ctxMain (le p 0 4) with
  | none => rfl
  | some m =>
    refine if_pos ?_
    rcases bad with none' | head
    · have owner : c.ownsCtx h m.owner = false := Bool.eq_false_iff.2 fun o => none' m ⟨main, o⟩
      simp [owner]
    · simp [show 1 < le p 4 1 from head]

end Sys2Proof.Machine
end
section
/-! The context commands (R127 to R151; log entries 116, 117, 128 and 143). -/

namespace Sys2Proof.Machine

/-! ## Entries as bytes -/

@[simp] theorem length_toLE (n v : Nat) : (toLE n v).length = n := by
  induction n generalizing v with
  | zero => rfl
  | succ n ih => simp [toLE, ih]

@[simp] theorem length_padTo (n : Nat) (p : Bytes) : (padTo n p).length = n := by simp [padTo]

theorem length_flatMap_toLE (n : Nat) (l : List Nat) (f : Nat → Nat) : (l.flatMap fun i => toLE n (f i)).length = l.length * n := by
  simp [List.length_flatMap]

@[simp] theorem CtxEntry.length_encode (e : CtxEntry) : e.encode.length = 64 := by
  cases e with
  | free => rfl
  | lost => exact length_toLE 64 7
  | main m => simp only [encode, List.length_append, length_toLE, length_flatMap_toLE, List.length_range]
  | ext o next w => simp only [encode, List.length_append, length_toLE, length_flatMap_toLE, List.length_range]

/-! ## CTX_ALLOC and CTX_READ -/

section
variable {h : Head} {p : Bytes} {s : State}

/-- A command that runs and leaves the control side `d`. -/
theorem State.exec_ctl {i : Instr} {f : Ctl → Ctl} {d : Ctl} (run : exec i s = .next (s.mapCtl f)) (e : f s.ctl = d) :
    exec i s = .next { s with ctl := d } := run.trans (congrArg _ (State.mapCtl_eq e))

theorem ctxAlloc_badImage {m : CtxMain} (g : s.takes h { min := 64, stack := true } p) (image : imageAt p 0 h = some m)
    (bad : s.ctl.imageBad m = true) : exec (.ctxAlloc h p) s = .next { s with ctl := s.ctl.finish h 0xC120 .invalidParameter [] } :=
  State.exec_ctl rfl (by
    rw [ctxAlloc, Ctl.ocs_run _ _ _ _ _ _ g.1 g.2]
    simp [image, bad])

theorem ctxAlloc_full {m : CtxMain} (g : s.takes h { min := 64, stack := true } p) (image : imageAt p 0 h = some m)
    (good : s.ctl.imageBad m = false) (kind : m.kind ≠ 2) (full : s.ctl.lowestFree ctxCount 0 = none) :
    exec (.ctxAlloc h p) s = .next { s with ctl := s.ctl.finish h 0xC120 .resourceExhausted [] } :=
  State.exec_ctl rfl (by
    rw [ctxAlloc, Ctl.ocs_run _ _ _ _ _ _ g.1 g.2]
    simp [image, good, kind, full])

theorem ctxAlloc_placed {m : CtxMain} {k : Nat} {d : Ctl} (g : s.takes h { min := 64, stack := true } p)
    (image : imageAt p 0 h = some m) (good : s.ctl.imageBad m = false) (list : m.kind = 2 → 240 ≤ p.length)
    (lowest : s.ctl.lowestFree ctxCount 0 = some k) (placed : s.ctl.placeImage h m (parseWords p 64) k = some d) :
    exec (.ctxAlloc h p) s = .next { s with ctl := d.finish h 0xC120 .ok (toLE 4 k) } :=
  State.exec_ctl rfl (by
    rw [ctxAlloc, Ctl.ocs_run _ _ _ _ _ _ g.1 g.2]
    have long : ¬(s.ctl.imageBad m || (decide (m.kind = 2) && decide (p.length < 240))) = true := by
      simpa [good] using list
    simp only [image, lowest, placed, if_neg long])

theorem ctxRead_outside (g : s.takes h { min := 4 } p) (out : ctxCount ≤ le p 0 4) :
    exec (.ctxRead h p) s = .next { s with ctl := s.ctl.finish h 0xC121 .invalidParameter [] } :=
  State.exec_ctl rfl (by
    rw [ctxRead, Ctl.ocs_run _ _ _ _ _ _ g.1 g.2]
    exact if_pos out)

theorem ctxRead_inside (g : s.takes h { min := 4 } p) (inside : le p 0 4 < ctxCount) : ∃ list : Bytes,
    exec (.ctxRead h p) s = .next { s with
      ctl := s.ctl.finish h 0xC121 .ok ((s.ctl.ctxEntry (le p 0 4)).encode ++ padTo 176 list) } :=
  ⟨_, State.exec_ctl rfl (by
    rw [ctxRead, Ctl.ocs_run _ _ _ _ _ _ g.1 g.2]
    exact if_neg (Nat.not_le.2 inside))⟩

/-! ## Commands on a context -/

section
variable {i : Instr} {op n : Nat}

theorem ctxCommand_refused {e : Ocs} (run : exec i s = .next (s.mapCtl (ctxCommand h op n p)))
    (g : s.takes h { min := n, stack := true } p) (judged : ctxJudge op h p s.ctl = .inl e) :
    exec i s = .next { s with ctl := s.ctl.finish h op e [] } :=
  State.exec_ctl run (by
    rw [ctxCommand, Ctl.ocs_run _ _ _ _ _ _ g.1 g.2]
    simp only [judged])

theorem ctxCommand_done {d : Ctl} (run : exec i s = .next (s.mapCtl (ctxCommand h op n p)))
    (g : s.takes h { min := n, stack := true } p) (idle : s.ctl.ctxInUse (le p 0 4) = false)
    (judged : ctxJudge op h p s.ctl = .inr d) : exec i s = .next { s with ctl := d.finish h op .ok [] } :=
  State.exec_ctl run (by
    rw [ctxCommand, Ctl.ocs_run _ _ _ _ _ _ g.1 g.2]
    simp only [judged, idle, Bool.false_eq_true, if_false])

theorem ctxCommand_held {d : Ctl} (run : exec i s = .next (s.mapCtl (ctxCommand h op n p)))
    (g : s.takes h { min := n, stack := true } p) (busy : s.ctl.ctxInUse (le p 0 4) = true)
    (judged : ctxJudge op h p s.ctl = .inr d) : exec i s = .next { s with
      ctl := Ctl.await { s.ctl with stx.heldCtx := (le p 0 4, h) :: s.ctl.stx.heldCtx } h op p .hold s.ctl.clock } :=
  State.exec_ctl run (by
    rw [ctxCommand, Ctl.ocs_run _ _ _ _ _ _ g.1 g.2]
    simp only [judged, busy, if_true])

/-- A command carried out has answered, and the entry it set stands. -/
theorem ctxCommand_stores {d : Ctl} {e : CtxEntry} (run : exec i s = .next (s.mapCtl (ctxCommand h op n p)))
    (g : s.takes h { min := n, stack := true } p) (idle : s.ctl.ctxInUse (le p 0 4) = false)
    (judged : ctxJudge op h p s.ctl = .inr d) (entry : d.ctxEntry (le p 0 4) = e) :
    ∃ t, exec i s = .next t ∧ t.replied h op .ok [] ∧ t.ctl.ctxEntry (le p 0 4) = e ∧ s.sameStack t :=
  ⟨_, ctxCommand_done run g idle judged, s.replied_finish d h op .ok [],
    ((d.sameTable_finish h op .ok []).ctxEntry _).trans entry, rfl, rfl, rfl⟩

end
end

theorem CtxMain.marked_state {m : CtxMain} {put clr : Nat} (h : m.state = 2 ∨ m.state = 3) :
    (m.marked put clr).state = if (m.marked put clr).unavail = 0 then 2 else 3 := by
  rw [marked, settle_unavail]
  exact settle_state h

/-! ## LIST images -/

/-- A context that is no LIST has no extension entries to free. -/
theorem Ctl.freeExts_plain {c : Ctl} {m : CtxMain} (kind : m.kind ≠ 2) : c.freeExts (.main m) = c := by
  rw [freeExts, if_neg kind, List.foldl_nil]

/-- Where fragments lie rests on the entries and the part. -/
theorem Ctl.sameTable.ctxPlaces {c d : Ctl} (k : c.sameTable d) (m : CtxMain) : d.ctxPlaces m = c.ctxPlaces m := by
  have e : d.ctxEntry = c.ctxEntry := funext k.ctxEntry
  have words (xs : List Nat) : d.extWords xs = c.extWords xs := by simp only [extWords, e]
  have nch : d.nch = c.nch := by rw [Ctl.nch, Ctl.nch, k.nd]
  have spread (i : Nat) : d.spread i = c.spread i := by unfold Ctl.spread; rw [nch]
  unfold Ctl.ctxPlaces
  simp only [ctxExts_congr e, words, spread, nch]

/-- A valid code has at least one fragment and at most 44 (R68). -/
theorem spN_of_specValid {w : Nat} (h : specValid w = true) : 1 ≤ spN w ∧ spN w ≤ 44 := by
  simp only [specValid, Bool.and_eq_true, decide_eq_true_eq] at h
  obtain ⟨⟨low, high⟩, kind⟩ := h
  unfold spN
  split at kind
  · simp only [Bool.and_eq_true, decide_eq_true_eq] at kind
    omega
  · simp only [Bool.and_eq_true, decide_eq_true_eq] at kind
    omega
  · simp only [Bool.and_eq_true, decide_eq_true_eq] at kind
    omega
  · cases kind

theorem Ctl.spN_of_imageBad {c : Ctl} {m : CtxMain} (good : c.imageBad m = false) : 1 ≤ spN m.spec ∧ spN m.spec ≤ 44 :=
  spN_of_specValid (by
    simp only [imageBad, Bool.or_eq_false_iff, Bool.not_eq_false'] at good
    exact good.1.1.1.1.1)

/-- The words of a payload that stand for fragments. -/
theorem getD_parseWords (p : Bytes) (off : Nat) {n i : Nat} (l : i < n) (u : n ≤ 44) :
    ((parseWords p off).take n).getD i 0 = le p (off + 4 * i) 4 := by
  rw [List.getD_eq_getElem?_getD, List.getElem?_take_of_lt l, parseWords, List.getElem?_map, List.getElem?_range (by omega)]
  rfl

/-- A main entry whose chain stands places its fragments at the words of the chain (R129, R130). -/
theorem Ctl.ctxPlaces_list {c : Ctl} {o : Head} {m : CtxMain} {xs words : List Nat} (kind : m.kind = 2)
    (len : xs.length = extCount (spN m.spec)) (base : m.base = xs.headD 0) (inside : ∀ y ∈ xs, y ≠ 0 ∧ y < ctxCount)
    (chain : c.chained o xs words) {i : Nat} (l : i < spN m.spec) : (c.ctxPlaces m)[i]? = some ⟨64 * words.getD i 0, 0⟩ := by
  have low : xs.headD 0 < 2 ^ 22 := by
    cases xs with
    | nil => decide
    | cons x t => exact (inside x List.mem_cons_self).2
  have exts : c.ctxExts m = some xs := by
    rw [ctxExts, if_pos kind, base, Nat.mod_eq_of_lt low, ← len]
    exact chain.extChain fun y my => (inside y my).1
  have word : (c.extWords xs).getD i 0 = words.getD i 0 := chain.getD_extWords (by rw [len, extCount]; omega)
  simp only [ctxPlaces, List.getElem?_map, List.getElem?_range l, exts, kind, Option.map_some, Option.getD_some]
  rw [if_neg (by decide), if_neg (by decide), word]

/-- A LIST image placed at a free entry takes the highest free entries for its list (R130, R148). -/
theorem Ctl.placeImage_list {c : Ctl} (h : Head) {m : CtxMain} {k : Nat} {xs words : List Nat} (kind : m.kind = 2)
    (found : c.highestFree ctxCount (extCount (spN m.spec)) = some xs) (apart : k ∉ xs) :
    ∃ d, c.placeImage h m words k = some d ∧ d.ctxEntry k = .main { m with base := xs.headD 0 } ∧
      ∀ i, i < spN m.spec → (d.ctxPlaces { m with base := xs.headD 0 })[i]? =
        some ⟨64 * (words.take (spN m.spec)).getD i 0, 0⟩ := by
  obtain ⟨len, once, inside⟩ := highestFree_spec found
  have again : (c.setEntry k (.main m)).highestFree ctxCount (extCount (spN m.spec)) = some xs :=
    highestFree_of_taken (entryFree_of_ne (by simp)) (fun y n => entryFree_setEntry_ne _ _ n) apart found
  have placed : c.placeImage h m words k = some
      (((c.setEntry k (.main m)).writeExts h xs (words.take (spN m.spec))).setEntry k (.main { m with base := xs.headD 0 })) := by
    rw [placeImage, if_pos kind]
    simp only [again]
  refine ⟨_, placed, ctxEntry_setEntry _ _ _, fun i l => ?_⟩
  refine ctxPlaces_list (m := { m with base := xs.headD 0 }) kind len rfl inside (o := h)
    (Ctl.chained.congr (fun y m => ctxEntry_setEntry_ne _ _ ?_) (chained_writeExts _ h once _)) l
  rintro rfl
  exact apart m

/-! ## The statement -/

/-- Settles O48: each judgement by what the entry is and whose, and the entry that it sets stands after the answer. -/
theorem contextCommandsKeepTheTable : Obligations.ContextCommandsKeepTheTable := by
  intro h p s room
  dsimp only
  refine ⟨fun g => ⟨fun m image bad => ?_, fun m image okay full => ?_, fun m k image okay lowest => ?_,
    fun m k xs image good kind long lowest found apart => ?_⟩, fun g => ⟨fun out => ?_, fun inside => ?_⟩,
    fun inside idle => ⟨fun g => ⟨fun m image okay mine => ?_, fun bad => ?_⟩,
      fun g => ⟨fun m own state put clr apart => ?_, fun bad => ?_⟩,
      fun g => ⟨fun m own => ?_, fun none' => ?_, fun m own kind => ?_, fun lost => ?_, fun none' stands => ?_⟩,
      fun g => ⟨fun m own head => ?_, fun bad => ?_⟩⟩,
    fun i op n d which g judged busy => ?_⟩
  · exact State.answers (ctxAlloc_badImage g image bad)
  · obtain ⟨good, kind⟩ := okay
    exact State.answers (ctxAlloc_full g image good kind (Ctl.lowestFree_eq_none fun y _ l => full y (by omega)))
  · obtain ⟨good, kind⟩ := okay
    obtain ⟨l, free, below⟩ := lowest
    have run := ctxAlloc_placed g image good (fun e => absurd e kind)
      (Ctl.lowestFree_eq_some (Nat.zero_le k) (by omega) free fun y _ => below y) (Ctl.placeImage_plain _ _ _ _ kind)
    have same := Ctl.sameTable_finish (s.ctl.setEntry k (.main m)) h 0xC120 .ok (toLE 4 k)
    refine ⟨_, run, s.replied_finish _ h _ _ _, (same.ctxEntry k).trans (Ctl.ctxEntry_setEntry _ _ _), imageAt_owner image, ?_,
      fun y n => (same.ctxEntry y).trans (Ctl.ctxEntry_setEntry_ne _ _ n), rfl, rfl, rfl⟩
    rw [Ctl.finish_get, Ctl.setEntry_free_taken free (by simp)]
    exact Nat.mod_eq_of_lt (by omega)
  · obtain ⟨l, free, below⟩ := lowest
    obtain ⟨d, placed, entry, places⟩ := Ctl.placeImage_list h (words := parseWords p 64) kind found apart
    have run := ctxAlloc_placed g image good (fun _ => long)
      (Ctl.lowestFree_eq_some (Nat.zero_le k) (by omega) free fun y _ => below y) placed
    have same := d.sameTable_finish h 0xC120 .ok (toLE 4 k)
    refine ⟨_, _, run, s.replied_finish _ h _ _ _, (same.ctxEntry k).trans entry,
      (show m.owner = h from imageAt_owner image), ⟨rfl, rfl, rfl⟩, fun i u => ?_⟩
    rw [← getD_parseWords p 64 u (Ctl.spN_of_imageBad good).2, ← places i u, same.ctxPlaces]
  · exact State.answers (ctxRead_outside g out)
  · obtain ⟨list, run⟩ := ctxRead_inside g inside
    exact ⟨_, State.answers run, by simp, by rw [List.take_left' (CtxEntry.length_encode _)]⟩
  · exact ctxCommand_stores rfl g idle (judgeCtxWrite_plain image inside okay.1 okay.2 (Ctl.ctxTaken_iff.2 mine))
      (Ctl.ctxEntry_setEntry _ _ _)
  · refine State.answers (ctxCommand_refused (op := 0xC122) rfl g ?_)
    rcases bad with bad | ⟨taken, stands, none'⟩
    · exact judgeCtxWrite_badImage bad
    · refine judgeCtxWrite_foreign (Bool.eq_false_iff.2 fun mine => ?_)
      rcases Ctl.ctxTaken_iff.1 mine with free | lost | ⟨m, own⟩
      · exact absurd free (by simp [taken])
      · exact stands lost
      · exact none' m own
  · refine ⟨_, ctxCommand_stores rfl g idle (judgeCtxMark_owned own inside ?_) (Ctl.ctxEntry_setEntry _ _ _), m.tb_marked _ _,
      m.marked_chkValid _ _, CtxMain.marked_state⟩
    simp [markBad, state, put, clr, apart]
  · refine State.answers (ctxCommand_refused (op := 0xC123) rfl g (judgeCtxMark_refused fun m own => ?_))
    rcases bad with none' | bad
    · exact absurd own (none' m)
    · exact bad m (Ctl.ctxMain_eq_some own.1)
  · obtain ⟨d, judged, entry⟩ := judgeCtxRetire_owned own inside
    exact ctxCommand_stores rfl g idle judged entry
  · exact State.answers (ctxCommand_refused (op := 0xC124) rfl g (judgeCtxRetire_foreign none'))
  · have entry := Ctl.ctxMain_eq_some own.1
    have judged : judgeCtxFree h p s.ctl = .inr (s.ctl.setEntry (le p 0 4) .free) := by
      rw [judgeCtxFree_main entry inside, own.2, Bool.true_or, if_pos rfl, Ctl.freeExts_plain kind]
    have same := Ctl.sameTable_finish (s.ctl.setEntry (le p 0 4) .free) h 0xC125 .ok []
    refine ⟨_, ctxCommand_done (op := 0xC125) rfl g idle judged, s.replied_finish _ h _ _ _,
      (same.ctxEntry _).trans (Ctl.ctxEntry_setEntry _ _ _), ?_,
      fun y n => (same.ctxEntry y).trans (Ctl.ctxEntry_setEntry_ne _ _ n), rfl, rfl, rfl⟩
    rw [Ctl.finish_get, Ctl.setEntry_free_freed (Ctl.entryFree_of_ne (by simp [entry]))]
    exact Nat.mod_eq_of_lt room
  · obtain ⟨d, judged, entry⟩ := judgeCtxFree_lost lost inside
    exact ctxCommand_stores rfl g idle judged entry
  · exact State.answers (ctxCommand_refused (op := 0xC125) rfl g (judgeCtxFree_foreign none' stands))
  · obtain ⟨d, judged, entry⟩ := judgeCtxAssign_owned own inside head
    exact ctxCommand_stores rfl g idle judged entry
  · exact State.answers (ctxCommand_refused (op := 0xC126) rfl g (judgeCtxAssign_refused bad))
  · have run : exec i s = .next (s.mapCtl (ctxCommand h op n p)) := by
      simp only [List.mem_cons, Prod.mk.injEq, List.not_mem_nil, or_false] at which
      rcases which with ⟨rfl, rfl, rfl⟩ | ⟨rfl, rfl, rfl⟩ | ⟨rfl, rfl, rfl⟩ | ⟨rfl, rfl, rfl⟩ | ⟨rfl, rfl, rfl⟩ <;> rfl
    refine ⟨_, ctxCommand_held run g busy judged, ⟨_, Ctl.await_pend ..⟩, ?_, ?_, ?_, rfl, rfl, rfl⟩
    · simp
    · simp
    · simp

end Sys2Proof.Machine
end
section
/-! Holds that end (R151, R152, R221): by a second judgement, or BUSY after 100 ms. -/

namespace Sys2Proof.Machine

/-- An event that leaves the control side `d`. -/
theorem State.exec_ctl_eq {i : Instr} {f : Ctl → Ctl} {s : State} (run : exec i s = .next (s.mapCtl f)) (e : f s.ctl = s.ctl) :
    exec i s = .next s := State.exec_ctl run e

/-! ## A held context command -/

section
variable {c : Ctl} {h : Head} {q : PendCmd} (pend : (c.hd h).mbox.pend = some q) (hold : q.wait = .hold)
  (low : 0xC122 ≤ q.op) (high : q.op ≤ 0xC126)
include pend hold low high

theorem ctxHoldRelease_command : ctxHoldRelease h .command c = c.resumeCtx h q.op q.payload := by
  have notUnseal : q.op ≠ opUnseal := by simp only [opUnseal]; omega
  have parts : ¬(q.op = opPartAssign ∨ q.op = opPartGive) := by simp only [opPartAssign, opPartGive]; omega
  simp only [ctxHoldRelease, pend, hold, ne_eq, not_true_eq_false, if_false, if_neg notUnseal, if_neg parts]

theorem ctxHoldTimeout_command : ctxHoldTimeout h .command c = Ctl.finish { c.passTo (q.aux + 100000000) with
    stx.heldCtx := c.stx.heldCtx.filter fun e => decide (e ≠ (le q.payload 0 4, h)) } h q.op .busy [] := by
  have notUnseal : q.op ≠ opUnseal := by simp only [opUnseal]; omega
  have parts : ¬(q.op = opPartAssign ∨ q.op = opPartGive) := by simp only [opPartAssign, opPartGive]; omega
  simp only [ctxHoldTimeout, pend, hold, ne_eq, not_true_eq_false, if_false, if_neg notUnseal, if_neg parts]
  rfl

end

theorem Ctl.resumeCtx_held {c : Ctl} (h : Head) (op : Nat) {p : Bytes} (busy : c.ctxInUse (le p 0 4) = true) :
    c.resumeCtx h op p = c := if_pos busy

theorem Ctl.resumeCtx_judged {c : Ctl} (h : Head) (op : Nat) {p : Bytes} (idle : c.ctxInUse (le p 0 4) = false) :
    c.resumeCtx h op p =
      match ctxJudge op h p { c with stx.heldCtx := c.stx.heldCtx.filter fun e => decide (e ≠ (le p 0 4, h)) } with
      | .inl _ => Ctl.finish { c with stx.heldCtx := c.stx.heldCtx.filter fun e => decide (e ≠ (le p 0 4, h)) } h op .invalidParameter []
      | .inr d => d.finish h op .ok [] := if_neg (by simp [idle])

/-! ## A held window write -/

/-- An entry that a window write of a head replaces (R152; log entry 116). -/
def Ctl.winTaken (c : Ctl) (h : Head) (x : Nat) : Bool := match c.ctxEntry x with
  | .main o => c.ownsCtx h o.owner || (c.ctxMain x).isNone
  | .ext o _ _ => c.ownsCtx h o
  | .free => c.entryFree x
  | .lost => true

/-- The entry that the 64 bytes of a head's window set, if they pass (R152). -/
def Ctl.winImage (c : Ctl) (h : Head) (x : Nat) (p : Bytes) : Option CtxEntry := match decodeEntry p with
  | .ext _ next w => if x = 0 then none else some (.ext h next w)
  | .main m => if c.imageBad { m with owner := h }.tidy || (c.ctxExts { m with owner := h }.tidy).isNone then none
    else some (.main { m with owner := h }.tidy)
  | _ => none

/-- A window write is judged by the entry and by the image (R152). -/
theorem judgeWinWrite_eq (h : Head) (x : Nat) (p : Bytes) (c : Ctl) : judgeWinWrite h x p c =
    if c.winTaken h x then (match c.winImage h x p with
      | none => .inl .invalidParameter
      | some e => .inr (c.setEntry x e))
    else .inl .invalidParameter := by
  change (if (!c.winTaken h x) = true then _ else _) = _
  cases c.winTaken h x with
  | false => rfl
  | true =>
    rw [if_neg (by decide), if_pos rfl, Ctl.winImage]
    cases decodeEntry p with
    | free => rfl
    | lost => rfl
    | ext o n w => dsimp only; split <;> rfl
    | main m => dsimp only; split <;> rfl

theorem judgeWinWrite_inr {h : Head} {x : Nat} {p : Bytes} {c d : Ctl} (judged : judgeWinWrite h x p c = .inr d) :
    ∃ e, d = c.setEntry x e := by
  rw [judgeWinWrite_eq] at judged
  split at judged
  · cases image : c.winImage h x p with
    | none => rw [image] at judged; cases judged
    | some e => rw [image] at judged; exact ⟨e, (Sum.inr.inj judged).symm⟩
  · cases judged

theorem Ctl.setEntry_winBusy (c : Ctl) (x : Nat) (e : CtxEntry) (h : Head) :
    (c.setEntry x e).get (R.STX_WIN_CTL_BUSY h.num) = c.get (R.STX_WIN_CTL_BUSY h.num) :=
  c.setEntry_get x e (by cases h <;> decide) (by cases h <;> decide)

theorem Ctl.endWinHold_busy (c : Ctl) (h : Head) (x : Nat) : (c.endWinHold h x).get (R.STX_WIN_CTL_BUSY h.num) = 0 :=
  (get_set_same _ _ _).trans (Nat.zero_mod _)

/-- A window write refused: ERR stands, and BUSY as it was (R152). -/
theorem Ctl.winErr_get (c : Ctl) (h : Head) : (c.set (R.STX_WIN_CTL_ERR h.num) 1).get (R.STX_WIN_CTL_ERR h.num) = 1 ∧
    (c.set (R.STX_WIN_CTL_ERR h.num) 1).get (R.STX_WIN_CTL_BUSY h.num) = c.get (R.STX_WIN_CTL_BUSY h.num) :=
  ⟨get_set_same _ _ _, get_set_ne _ _ _ _ (by cases h <;> decide)⟩

section
variable {c : Ctl} {h : Head} {b x : Nat} {w : Bytes} (held : c.stx.winHold.find? (fun e => decide (e.1 = h)) = some (h, b, x, w))
include held

theorem Ctl.resumeWin_held (busy : c.ctxInUse x = true) : c.resumeWin h = c := by
  simp only [resumeWin, held, busy, if_true]

theorem Ctl.resumeWin_judged (idle : c.ctxInUse x = false) : c.resumeWin h =
    match judgeWinWrite h x w (c.endWinHold h x) with
    | .inl _ => (c.endWinHold h x).set (R.STX_WIN_CTL_ERR h.num) 1
    | .inr d => d := by
  rw [resumeWin, held]
  exact if_neg (by simp [idle])

theorem Ctl.dropWin_eq : c.dropWin h = ((c.passTo (b + 100000000)).endWinHold h x).set (R.STX_WIN_CTL_ERR h.num) 1 := by
  simp only [dropWin, held]

end

/-! ## A held seal -/

/-- The end of a background command leaves the registers, the clock and the seals as they are (R294). -/
theorem Ctl.finishBg_kept (c : Ctl) (h : Head) (o : Ocs) : (c.finishBg h o).regs = c.regs ∧ (c.finishBg h o).clock = c.clock ∧
    (c.finishBg h o).sea = c.sea := by
  unfold finishBg
  split
  · exact ⟨rfl, rfl, rfl⟩
  · dsimp only
    split
    · split
      · simp
      · simp
    · simp

theorem Ctl.finishBg_none (c : Ctl) (h : Head) (o : Ocs) : ((c.finishBg h o).hd h).mbox.bg = none := by
  unfold finishBg
  split
  · next e => exact e
  · dsimp only
    split
    · split
      · rw [msix_mbox]; cases h <;> rfl
      · cases h <;> rfl
    · cases h <;> rfl

/-- The control side with a held seal and its hold gone. -/
def Ctl.unheldSeal (c : Ctl) (h : Head) (j : SealJob) : Ctl := { c with
  sea.sealing := c.sea.sealing.filter fun x => decide (x ≠ j)
  sea.holdGran := c.sea.holdGran.filter fun e => decide (e ≠ (j.gran, h)) }

section
variable {c : Ctl} {h : Head} {j : SealJob} {g : BgCmd}
  (found : c.sea.sealing.find? (fun j => decide (j.step = 3) && decide (j.bg = some h)) = some j) (bg : (c.hd h).mbox.bg = some g)
include found

theorem Ctl.resumeSeal_held (busy : c.granInUse j.gran = true) : c.resumeSeal h = c := by
  simp only [resumeSeal, found, busy, if_true]

include bg

theorem Ctl.resumeSeal_judged (idle : c.granInUse j.gran = false) : c.resumeSeal h =
    match (c.unheldSeal h j).judgeSeal h g.op g.payload with
    | .inl _ => (c.unheldSeal h j).finishBg h .invalidParameter
    | .inr (n, k) => { c.unheldSeal h j with sea.sealing := (c.unheldSeal h j).sea.sealing ++
        [⟨n, k, 0, some h, (c.unheldSeal h j).get (R.SEA_KEY_STAT_GEN k)⟩] } := by
  have bg' : ((c.unheldSeal h j).hd h).mbox.bg = some g := by rw [← bg]; cases h <;> rfl
  rw [resumeSeal, found]
  refine (if_neg (by simp [idle])).trans ?_
  change ((match ((c.unheldSeal h j).hd h).mbox.bg with
    | none => c.unheldSeal h j
    | some b => match (c.unheldSeal h j).judgeSeal h b.op b.payload with
      | .inl _ => (c.unheldSeal h j).finishBg h .invalidParameter
      | .inr (n, k) => { c.unheldSeal h j with sea.sealing := (c.unheldSeal h j).sea.sealing ++
        [⟨n, k, 0, some h, (c.unheldSeal h j).get (R.SEA_KEY_STAT_GEN k)⟩] }) : Ctl) = _
  rw [bg']

theorem Ctl.dropSeal_eq : c.dropSeal h = ((c.passTo (g.aux + 100000000)).unheldSeal h j).finishBg h .busy := by
  simp only [dropSeal, found, bg]
  rfl

/-- A seal begun again after its hold no longer waits, and the hold is gone (R221). -/
theorem Ctl.resumeSeal_ends (idle : c.granInUse j.gran = false) :
    j ∉ (c.resumeSeal h).sea.sealing ∧ (j.gran, h) ∉ (c.resumeSeal h).sea.holdGran ∧ (c.resumeSeal h).regs = c.regs := by
  have waits : j.step = 3 := by
    have both := List.find?_some found
    simp only [Bool.and_eq_true, decide_eq_true_eq] at both
    exact both.1
  have gone : j ∉ (c.unheldSeal h j).sea.sealing := by simp [unheldSeal]
  have unheld : (j.gran, h) ∉ (c.unheldSeal h j).sea.holdGran := by simp [unheldSeal]
  rw [resumeSeal_judged found bg idle]
  split
  · obtain ⟨regs, -, sea⟩ := (c.unheldSeal h j).finishBg_kept h .invalidParameter
    rw [sea]
    exact ⟨gone, unheld, regs⟩
  · refine ⟨fun m => ?_, unheld, rfl⟩
    rcases List.mem_append.1 m with m | m
    · exact gone m
    · rw [List.mem_singleton.1 m] at waits
      cases waits

end

end Sys2Proof.Machine
end
section
/-! SUPPORT. A write of a head's STX_WIN_CTL (R152): the fields it sets, and the command that it starts. -/

namespace Sys2Proof.Machine

/-- The register of head `n` at an offset where each head has its own: its fields, its first byte, and the word named. -/
def ownReg (off n : Nat) : Option (List FieldRow × Nat × Nat) :=
  (findReg off).bind fun a => if a.row.perHead then some (a.row.fields n a.j, a.base, a.word) else none

theorem findReg_of_ownReg {off b w : Nat} {l : List FieldRow} {h : Head} (f : ownReg off h.num = some (l, b, w)) :
    ∃ a, findReg off = some a ∧ a.fieldsOf h = l ∧ a.key0 h = (b + h.num * 2 ^ 37) * 8 ∧ a.word = w := by
  obtain ⟨a, found, own⟩ := Option.bind_eq_some_iff.mp f
  cases per : a.row.perHead with
  | false => simp [per] at own
  | true =>
    obtain ⟨fields, base, word⟩ : a.row.fields h.num a.j = l ∧ a.base = b ∧ a.word = w := by simpa [per] using own
    refine ⟨a, found, by simp [RegAt.fieldsOf, per, fields], ?_, word⟩
    simp only [RegAt.key0, per, base, if_true]
    omega

theorem Ctl.writeReg_own {c : Ctl} {h : Head} {off v b : Nat} {l : List FieldRow} (f : ownReg off h.num = some (l, b, 0))
    (n : c.hiddenReg off = false) (p : plainOffset off) : c.writeReg h off v true =
      ((c.putRows l (b + h.num * 2 ^ 37) v).strayRing c off).afterWrite c h off v := by
  obtain ⟨a, found, rfl, key, word⟩ := findReg_of_ownReg f
  have fixed (d : Ctl) : d.fixFields off = d := d.fixFields_plain p
  obtain ⟨htest, hloop, herr, -, -, -⟩ := p
  simp only [Ctl.writeReg, Ctl.writeFields, putRows, found, key, word, n, htest, hloop, herr, fixed, decide_false, Bool.false_and,
    Bool.or_self, Bool.false_eq_true, if_true, if_false]

/-- The fields of a head's STX_WIN_CTL. -/
def winRows (n : Nat) : List FieldRow :=
  [⟨R.STX_WIN_CTL_BUSY n, .ro, false⟩, ⟨R.STX_WIN_CTL_ERR n, .w1c, false⟩, ⟨R.STX_WIN_CTL_CMD n, .wo, false⟩,
    ⟨R.STX_WIN_CTL_INDEX n, .rw, false⟩]

theorem ownReg_winCtl (h : Head) : ownReg 0x120080 h.num = some (winRows h.num, 0x120080, 0) := by
  cases h <;> decide +kernel

/-- A write of another offset does not start what bit 1 of a field starts. -/
theorem startsNot {off : Nat} {f : Fld} (v : Nat) (n : off ≠ offsetOf f) :
    ¬(decide (off = offsetOf f) && decide (bitsOf f v = 1)) = true := by
  simp [n]

/-- A write of STX_WIN_CTL starts its command. -/
theorem Ctl.afterWrite_window (c old : Ctl) (h : Head) (v : Nat) :
    c.afterWrite old h 0x120080 v = c.winCommand h (bitsOf (R.STX_WIN_CTL_CMD 0) v) := by
  unfold afterWrite
  dsimp only
  rw [if_neg (by decide), if_neg (startsNot v (by decide)), if_neg (startsNot v (by decide)), if_neg (by decide),
    if_neg (startsNot v (by decide)), if_neg (by decide), if_neg (startsNot v (by decide)), if_neg (by decide), if_neg (by decide),
    if_neg (by decide), if_neg (by decide), if_pos (by decide)]

/-- Which fields of STX_WIN_CTL a write changes (R152). -/
def winFields (h : Head) : List Fld := [R.STX_WIN_CTL_ERR h.num, R.STX_WIN_CTL_INDEX h.num]

/-- A write of STX_WIN_CTL changes ERR and INDEX at most, INDEX is the one written, and the command starts. -/
theorem Ctl.writeReg_window (c : Ctl) (h : Head) (v : Nat) : ∃ d, c.setsOnly d (winFields h) ∧
    d.get (R.STX_WIN_CTL_INDEX h.num) = bitsOf (R.STX_WIN_CTL_INDEX 0) v ∧
    c.writeReg h 0x120080 v true = d.winCommand h (bitsOf (R.STX_WIN_CTL_CMD 0) v) := by
  have word : oneWord (winRows h.num) (0x120080 + h.num * 2 ^ 37) := by unfold oneWord; cases h <;> decide +kernel
  have run := Ctl.writeReg_own (c := c) (v := v) (ownReg_winCtl h) (by simp [hiddenReg]) (by unfold plainOffset; decide)
  rw [strayRing_none _ _ (by decide), afterWrite_window] at run
  refine ⟨_, ?_, ?_, run⟩
  · refine List.foldlRecOn (motive := (c.setsOnly · (winFields h))) (winRows h.num) _ (c.setsOnly_refl _) fun d only r m =>
      only.writeField _ _ _ _ ?_
    simp only [winRows, List.mem_cons, List.not_mem_nil, or_false] at m
    rcases m with rfl | rfl | rfl | rfl <;> simp [winFields]
  · refine (c.get_putRows v word (r := ⟨R.STX_WIN_CTL_INDEX h.num, .rw, false⟩) (by simp [winRows]) rfl).trans ?_
    cases h <;> rfl

section
variable {s : State} {h : Head} {w : Word} {cmd : Nat}

/-- A window command that reaches its register with BUSY 0 runs with INDEX as written. -/
theorem winCtl_reached (small : cmd < 4) (r : s.reached h (R.STX_WIN_CTL_CMD 0) cmd w)
    (idle : s.ctl.get (R.STX_WIN_CTL_BUSY h.num) = 0) : ∃ d, s.ctl.setsOnly d (winFields h) ∧
      d.get (R.STX_WIN_CTL_INDEX h.num) = bitsOf (R.STX_WIN_CTL_INDEX 0) w.toNat ∧
      writeBarField h (R.STX_WIN_CTL_CMD 0) cmd w s = .next { s with
        ctl := if cmd = 1 then winRead h d else if cmd = 2 then winWrite h d else d } := by
  obtain ⟨d, only, index, written⟩ := s.ctl.writeReg_window h (withBits (R.STX_WIN_CTL_CMD 0) cmd w.toNat)
  refine ⟨d, only, index.trans (bitsOf_withBits_below _ _ (by decide)), ?_⟩
  have still : d.flag (R.STX_WIN_CTL_BUSY h.num) = false := by
    rw [Ctl.flag, only.1 _ (by cases h <;> decide), idle]
    rfl
  rw [writeBarField_reached r (by decide) (by decide), show offsetOf (R.STX_WIN_CTL_CMD 0) = 0x120080 from rfl, written,
    bitsOf_withBits, Nat.mod_eq_of_lt (show cmd < 2 ^ (R.STX_WIN_CTL_CMD 0).width from small), Ctl.winCommand, still]
  rfl

end

/-! ## What such a write leaves -/

section
variable {c d : Ctl} {h : Head} (only : c.setsOnly d (winFields h))
include only

theorem Ctl.setsOnly.sameTable_win : c.sameTable d := by
  obtain ⟨kept, regs⟩ := only
  refine .of_side (by rw [regs]; rfl) fun x l u => kept x fun y m => ?_
  simp only [winFields, List.mem_cons, List.not_mem_nil, or_false] at m
  rcases m with rfl | rfl <;> cases h <;> simp only [R.STX_WIN_CTL_ERR, R.STX_WIN_CTL_INDEX, Head.num] <;> omega

theorem Ctl.setsOnly.winBytes : d.winBytes h = c.winBytes h := by
  refine List.flatMap_congr fun k m => ?_
  rw [only.1]
  have l := List.mem_range.1 m
  intro y e
  simp only [winFields, List.mem_cons, List.not_mem_nil, or_false] at e
  rcases e with rfl | rfl <;> simp only [R.STX_WIN_CTL_ERR, R.STX_WIN_CTL_INDEX, R.STX_WIN_DATA_DATA] <;> omega

theorem Ctl.setsOnly.ownsCtx_win (k o : Head) : d.ownsCtx k o = c.ownsCtx k o := by
  rw [Ctl.ownsCtx, Ctl.ownsCtx, ctxOwner, ctxOwner, flag, flag, only.1 _ (by cases h <;> decide), only.1 _ (by cases h <;> decide)]

theorem Ctl.setsOnly.winTaken (x : Nat) : d.winTaken h x = c.winTaken h x := by
  have same := only.sameTable_win
  simp only [Ctl.winTaken, same.ctxEntry, same.entryFree, only.ownsCtx_win, ctxMain_congr (funext same.ctxEntry)]

theorem Ctl.setsOnly.winImage (x : Nat) (p : Bytes) : d.winImage h x p = c.winImage h x p := by
  have same := only.sameTable_win
  have count : d.nch = c.nch := by rw [nch, nch, same.nd]
  have bad (m : CtxMain) : d.imageBad m = c.imageBad m := by
    unfold imageBad placementBad
    rw [count]
  simp only [Ctl.winImage, ctxExts_congr (funext same.ctxEntry), bad]

theorem Ctl.setsOnly.ctxInUse (x : Nat) : d.ctxInUse x = c.ctxInUse x := by
  rw [only.2]
  rfl

end

end Sys2Proof.Machine
end
section
/-! How a window write is judged and carried out (R152; log entries 21 and 143). -/

namespace Sys2Proof.Machine

theorem Ctl.winTaken_iff {c : Ctl} {h : Head} {x : Nat} : c.winTaken h x = true ↔ c.entryFree x = true ∨ c.ctxEntry x = .lost ∨
    (∃ m, c.ctxEntry x = .main m ∧ (c.ownsCtx h m.owner = true ∨ c.ctxMain x = none)) ∨
    ∃ o n l, c.ctxEntry x = .ext o n l ∧ c.ownsCtx h o = true := by
  unfold winTaken
  cases e : c.ctxEntry x with
  | free => simp
  | lost => simp
  | ext o n w => simp [entryFree, e]
  | main m => simp [entryFree, e]

theorem Ctl.winImage_ext {c : Ctl} (h : Head) {x : Nat} {p : Bytes} {o : Head} {n : Nat} {l : List Nat} (e : decodeEntry p = .ext o n l)
    (pos : x ≠ 0) : c.winImage h x p = some (.ext h n l) := by
  simp only [winImage, e, if_neg pos]

theorem Ctl.winImage_ext_zero {c : Ctl} (h : Head) {p : Bytes} {o : Head} {n : Nat} {l : List Nat} (e : decodeEntry p = .ext o n l) :
    c.winImage h 0 p = none := by
  simp only [winImage, e, if_true]

theorem Ctl.winImage_main {c : Ctl} (h : Head) {x : Nat} {p : Bytes} {m : CtxMain} (e : decodeEntry p = .main m)
    (exts : (c.ctxExts { m with owner := h }.tidy).isSome = true) (good : c.imageBad { m with owner := h }.tidy = false) :
    c.winImage h x p = some (.main { m with owner := h }.tidy) := by
  have pass : (c.imageBad { m with owner := h }.tidy || (c.ctxExts { m with owner := h }.tidy).isNone) = false := by
    rw [good, Option.isNone_eq_false_iff.2 exts, Bool.or_false]
  simp only [winImage, e, pass, Bool.false_eq_true, if_false]

/-- A window write held while running jobs hold its entry: BUSY stands, with the index and the data (R151, R152). -/
def Ctl.holdWin (c : Ctl) (h : Head) (x : Nat) : Ctl := Ctl.set { c with
  stx.winHold := (h, c.clock, x, c.winBytes h) :: c.stx.winHold
  stx.heldCtx := (x, h) :: c.stx.heldCtx } (R.STX_WIN_CTL_BUSY h.num) 1

section
variable {s : State} {h : Head} {w : Word} {x : Nat} (r : s.reached h (R.STX_WIN_CTL_CMD 0) 2 w)
  (quiet : s.ctl.get (R.STX_WIN_CTL_BUSY h.num) = 0) (names : bitsOf (R.STX_WIN_CTL_INDEX 0) w.toNat = x)
include r quiet names

/-- The window write that an entry or an image does not pass: ERR stands and the table is as it was. -/
theorem stxWinWrite_refused (bad : s.ctl.winTaken h x = false ∨ s.ctl.winImage h x (s.ctl.winBytes h) = none) :
    ∃ t, exec (.stxWinWrite h w) s = .next t ∧ t.ctl.get (R.STX_WIN_CTL_ERR h.num) = 1 ∧ t.ctl.stx = s.ctl.stx ∧ s.sameStack t := by
  obtain ⟨d, only, index, run⟩ := winCtl_reached (by decide) r quiet
  rw [if_neg (by decide), if_pos rfl] at run
  rw [names] at index
  rw [← only.winTaken, ← only.winImage, ← only.winBytes] at bad
  have refused : judgeWinWrite h x (d.winBytes h) d = .inl .invalidParameter := by
    rw [judgeWinWrite_eq]
    rcases bad with foreign | image
    · rw [foreign]; rfl
    · rw [image]; exact ite_self _
  have put : winWrite h d = d.set (R.STX_WIN_CTL_ERR h.num) 1 := by simp only [winWrite, index, refused]
  have stx : d.stx = s.ctl.stx := by rw [only.2]
  rw [put] at run
  exact ⟨_, run, (d.winErr_get h).1, stx, rfl, rfl, rfl⟩

variable {e : CtxEntry} (taken : s.ctl.winTaken h x = true) (image : s.ctl.winImage h x (s.ctl.winBytes h) = some e)
include taken image

theorem stxWinWrite_judged : ∃ d, s.ctl.setsOnly d (winFields h) ∧ exec (.stxWinWrite h w) s = .next { s with
    ctl := if s.ctl.ctxInUse x then d.holdWin h x else d.setEntry x e } := by
  obtain ⟨d, only, index, run⟩ := winCtl_reached (by decide) r quiet
  rw [if_neg (by decide), if_pos rfl] at run
  rw [names] at index
  refine ⟨d, only, run.trans ?_⟩
  rw [← only.winTaken] at taken
  rw [← only.winImage, ← only.winBytes] at image
  have passes : judgeWinWrite h x (d.winBytes h) d = .inr (d.setEntry x e) := by
    rw [judgeWinWrite_eq, taken, if_pos rfl, image]
  simp only [winWrite, index, passes, only.ctxInUse]
  rfl

theorem stxWinWrite_stores (idle : s.ctl.ctxInUse x = false) : ∃ t, exec (.stxWinWrite h w) s = .next t ∧
    t.ctl.ctxEntry x = e ∧ (∀ y, y ≠ x → t.ctl.ctxEntry y = s.ctl.ctxEntry y) ∧ s.sameStack t := by
  obtain ⟨d, only, run⟩ := stxWinWrite_judged r quiet names taken image
  rw [idle, if_neg Bool.false_ne_true] at run
  exact ⟨_, run, Ctl.ctxEntry_setEntry _ _ _, fun y n => (Ctl.ctxEntry_setEntry_ne _ _ n).trans (only.sameTable_win.ctxEntry y),
    rfl, rfl, rfl⟩

theorem stxWinWrite_held (busy : s.ctl.ctxInUse x = true) : ∃ t, exec (.stxWinWrite h w) s = .next t ∧
    t.ctl.get (R.STX_WIN_CTL_BUSY h.num) = 1 ∧ t.ctl.stx.entries = s.ctl.stx.entries ∧ (x, h) ∈ t.ctl.stx.heldCtx ∧
    s.sameStack t := by
  obtain ⟨d, only, run⟩ := stxWinWrite_judged r quiet names taken image
  rw [busy, if_pos rfl] at run
  exact ⟨_, run, Ctl.get_set_same _ _ _, only.sameTable_win.entries, List.mem_cons_self, rfl, rfl, rfl⟩

end

end Sys2Proof.Machine
end
section
/-! A context that arrives admits its job, and a way is taken once one is free (R118, R119, R132, R141, R143, R144). -/

namespace Sys2Proof.Machine

/-! ## The start of a job -/

@[simp] theorem Ctl.dmcLookup_job (c : Ctl) (slot : Nat) (key : List Nat) : (c.dmcLookup slot key).job = c.job := by
  unfold dmcLookup
  dsimp only
  split
  · split <;> rfl
  · split <;> rfl

/-- A job that steps 4 and 5 of R118 pass runs. -/
theorem Ctl.startJob_running {c : Ctl} {j : Job} (held : (c.jobAt j.slot).isSome) (ranges : c.judgeRanges j = none)
    (recovers : j.op = opReconstruct ∨ j.op = opTranscode → recoverable j.code j.emask = true) :
    ∃ x, (c.startJob j).jobAt j.slot = some x ∧ x.phase = .running ∧ x.code = j.code ∧ x.flen = j.flen := by
  have pass : ¬((j.op = opReconstruct ∨ j.op = opTranscode) ∧ recoverable j.code j.emask = false) := fun ⟨op, bad⟩ => by
    rw [recovers op] at bad
    cases bad
  simp only [startJob, ranges, if_neg pass]
  generalize hrun : ({ j with phase := .running, mode := c.chooseMode j, toRead := c.readPlan j } : Job) = i
  have slot : j.slot = i.slot := by rw [← hrun]
  have all : (c.putReads i).allAt i.slot fun x => x.phase = .running ∧ x.code = j.code ∧ x.flen = j.flen :=
    Ctl.allAt_putJob { c with job.readSeq := c.job.readSeq + 1 } { i with readSeq := c.job.readSeq }
      (by rw [← hrun]; exact ⟨rfl, rfl, rfl⟩)
  have put : ((c.putReads i).jobAt i.slot).isSome := by
    rw [slot] at held
    exact Option.isSome_iff_exists.2 ⟨_, jobAt_putJob (c := { c with job.readSeq := c.job.readSeq + 1 })
      (j := { i with readSeq := c.job.readSeq }) held⟩
  have pumped (d : Ctl) (jobs : d.job = (c.putReads i).job) : ∃ x, d.pump.jobAt j.slot = some x ∧
      x.phase = .running ∧ x.code = j.code ∧ x.flen = j.flen := by
    rw [slot]
    exact Ctl.pump_at (fun _ _ _ _ h => h) (by rw [Ctl.jobAt, jobs]; exact put) (by rw [Ctl.allAt, jobs]; exact all)
  split
  · exact pumped _ rfl
  · split
    · exact pumped _ (dmcLookup_job _ _ _)
    · exact pumped _ rfl

/-! ## Step 3 of R118 -/

section
variable {c : Ctl} {j : Job}

theorem Ctl.admitCtx_none (h : c.ctxMain j.ctxIndex = none) : c.admitCtx j = .inl stCtxState := by
  simp only [admitCtx, h]

section
variable {m : CtxMain} (main : c.ctxMain j.ctxIndex = some m)
include main

theorem Ctl.admitCtx_foreign (owner : c.ctxOwner m.owner ≠ j.owner) : c.admitCtx j = .inl stCtxOwner := by
  simp only [admitCtx, main, if_pos owner]

variable (owner : c.ctxOwner m.owner = j.owner)
include owner

theorem Ctl.admitCtx_state (state : ctxAdmitsAll j m = false) : c.admitCtx j = .inl stCtxState := by
  simp [admitCtx, main, owner, state]

variable (state : ctxAdmitsAll j m = true) (op : j.op ≠ opTranscode)
include state op

theorem Ctl.admitCtx_checks : c.admitCtx j = if c.ctxChecksBad j m then .inl stInvalid else .inr (c.withCtx j m, c) := by
  simp [admitCtx, main, owner, state, op]

end
end

/-! ## CTX_LINE_FETCHED -/

section
variable {s : State} {k : Nat} {j : Job} (at_ : s.ctl.jobAt k = some j) (phase : j.phase = .ctxWait) (waits : k ∉ s.ctl.stx.waiters)
  (open_ : s.ctl.get (R.QOS_CLASS_CFG_LIMIT j.cls) ≠ 0)
include at_

theorem ctxLineFetched_stopped (stopped : s.ctl.job.stopped = true) : exec (.ctxLineFetched k) s = .next s :=
  State.exec_ctl_eq rfl (by simp only [ctxLineFetched, at_, stopped, or_true, true_or, if_true])

include phase waits open_

theorem ctxLineFetched_met (runs : s.ctl.job.stopped = false) : ctxLineFetched k s.ctl =
    if s.ctl.fenced j.owner then
      { s.ctl.putJob { j with phase := .ready } with stx.pins := s.ctl.stx.pins.filter fun p => decide (p.1 ≠ k) }
    else s.ctl.admitStart j := by
  have go : ¬(j.phase ≠ .ctxWait ∨ s.ctl.stx.waiters.contains k = true ∨ s.ctl.job.stopped = true ∨
      s.ctl.get (R.QOS_CLASS_CFG_LIMIT j.cls) = 0) := by
    simp [phase, waits, runs, open_]
  simp only [ctxLineFetched, at_]
  exact if_neg go

/-- The job of a head fenced meanwhile is unstarted again, and pins nothing (R119). -/
theorem ctxLineFetched_fenced (runs : s.ctl.job.stopped = false) (fenced : s.ctl.fenced j.owner = true) :
    ∃ t x, exec (.ctxLineFetched k) s = .next t ∧ t.ctl.jobAt k = some x ∧ x.phase = .ready ∧ (∀ q ∈ t.ctl.stx.pins, q.1 ≠ k) ∧
      s.sameStack t := by
  have met := ctxLineFetched_met at_ phase waits open_ runs
  rw [fenced, if_pos rfl] at met
  obtain rfl := Ctl.jobAt_slot at_
  have put := Ctl.jobAt_putJob (c := s.ctl) (j := { j with phase := .ready }) (by rw [at_]; rfl)
  refine ⟨_, _, State.exec_ctl rfl met, put, rfl, fun q m => ?_, rfl, rfl, rfl⟩
  simpa using (List.mem_filter.1 m).2

variable (ring : j.ocs = false) (first : j.aborter = none)
include ring first

/-- The job that step 3 of R118 refuses ends with its status. -/
theorem ctxLineFetched_ends {st : Nat} (runs : s.ctl.job.stopped = false) (free : s.ctl.fenced j.owner = false)
    (judged : s.ctl.admitCtx j = .inl st) : ∃ t x, exec (.ctxLineFetched k) s = .next t ∧ t.ctl.jobAt k = some x ∧
      x.phase = .ended ∧ x.status = st ∧ s.sameStack t := by
  have met := ctxLineFetched_met at_ phase waits open_ runs
  rw [free, if_neg Bool.false_ne_true, Ctl.admitStart, judged] at met
  have slot := Ctl.jobAt_slot at_
  have ended := Ctl.jobAt_endJob_ring (st := st) ring first (c := s.ctl) (by rw [slot, at_]; rfl)
  exact ⟨_, _, State.exec_ctl rfl met, slot ▸ ended, rfl, rfl, rfl, rfl, rfl⟩

omit ring first in
/-- The job that it admits starts. -/
theorem ctxLineFetched_runs {m : CtxMain} (runs : s.ctl.job.stopped = false) (free : s.ctl.fenced j.owner = false)
    (judged : s.ctl.admitCtx j = .inr (s.ctl.withCtx j m, s.ctl)) (op : j.op ≠ opTranscode)
    (ranges : s.ctl.judgeRanges (s.ctl.withCtx j m) = none)
    (recovers : j.op = opReconstruct → recoverable m.spec (s.ctl.withCtx j m).emask = true) :
    ∃ t x, exec (.ctxLineFetched k) s = .next t ∧ t.ctl.jobAt k = some x ∧ x.phase = .running ∧ x.code = m.spec ∧
      x.flen = m.fragLen ∧ s.sameStack t := by
  have met := ctxLineFetched_met at_ phase waits open_ runs
  rw [free, if_neg Bool.false_ne_true, Ctl.admitStart, judged] at met
  have slot : (s.ctl.withCtx j m).slot = k := show j.slot = k from Ctl.jobAt_slot at_
  obtain ⟨x, hx, running, code, flen⟩ := Ctl.startJob_running (c := s.ctl) (j := s.ctl.withCtx j m) (by rw [slot, at_]; rfl) ranges
    fun e => recovers (e.resolve_right op)
  exact ⟨_, x, State.exec_ctl rfl met, slot ▸ hx, running, code, flen, rfl, rfl, rfl⟩

end

/-! ## CTX_WAY_WAIT_END -/

theorem Ctl.fillWay_regs (c : Ctl) (x : Nat) : (c.fillWay x).regs = c.regs := by
  unfold fillWay
  dsimp only
  split
  · rfl
  · split <;> rfl

theorem Ctl.mem_fillWay (c : Ctl) (x : Nat) : x ∈ (c.fillWay x).stx.cache := by
  unfold fillWay
  exact List.mem_cons_self

theorem ctxWayWaitEnd_eq {c : Ctl} {k : Nat} {j : Job} (at_ : c.jobAt k = some j) (waits : k ∈ c.stx.waiters)
    (needs : c.ctxNeeds j = [j.ctxIndex]) (miss : j.ctxIndex ∉ c.stx.cache) : ctxWayWaitEnd k c =
      if c.wayFree j.ctxIndex then { (c.fillWay j.ctxIndex).pinCtx k j.ctxIndex with
        stx.waiters := ((c.fillWay j.ctxIndex).pinCtx k j.ctxIndex).stx.waiters.filter fun x => decide (x ≠ k) }
      else c := by
  have ways : Ctl.takeWays k [j.ctxIndex] c =
      if c.wayFree j.ctxIndex then some ((c.fillWay j.ctxIndex).pinCtx k j.ctxIndex) else none := by
    simp only [Ctl.takeWays, List.contains_iff_mem, miss, if_false]
  simp only [ctxWayWaitEnd, at_, List.contains_iff_mem, waits, if_true, needs, ways]
  cases c.wayFree j.ctxIndex <;> rfl

end Sys2Proof.Machine
end
section
/-! Holds that end, the window's writes, and contexts that arrive (R132, R143, R144, R151, R152, R221). -/

namespace Sys2Proof.Machine

/-- Settles O49: each hold is judged again or ends with BUSY, a window write is judged by its entry and image, and a context that
arrives admits its job or ends it. -/
theorem heldContextsAndTheCache : Obligations.HeldContextsAndTheCache := by
  intro h s
  refine ⟨fun q pend hold low high => ?_, fun b x w held => ?_, fun j g found bg => ?_, fun w r quiet => ?_,
    fun k j at_ phase waits ring first open_ => ?_, fun k j at_ waits needs miss => ?_⟩
  · have release := ctxHoldRelease_command pend hold low high
    refine ⟨fun busy => State.exec_ctl_eq rfl (release.trans (Ctl.resumeCtx_held h q.op busy)), fun idle => ?_,
      _, State.exec_ctl rfl (ctxHoldTimeout_command pend hold low high), State.replied_finish .., Ctl.finish_stx .., by simp, rfl, rfl, rfl⟩
    have judge := release.trans (Ctl.resumeCtx_judged h q.op idle)
    refine ⟨fun e judged => ?_, fun c judged => ?_⟩
    · rw [judged] at judge
      exact ⟨_, State.exec_ctl rfl judge, State.replied_finish .., by simp, by simp, rfl, rfl, rfl⟩
    · rw [judged] at judge
      exact ⟨_, State.exec_ctl rfl judge, State.replied_finish .., by simp, by simp, rfl, rfl, rfl⟩
  · have ended (d : Ctl) := (d.endWinHold h x).winErr_get h
    refine ⟨fun busy => State.exec_ctl_eq rfl (Ctl.resumeWin_held held busy), fun e idle judged => ?_, fun c idle judged => ?_,
      _, State.exec_ctl rfl (Ctl.dropWin_eq held), (ended _).2.trans (Ctl.endWinHold_busy _ h x), (ended _).1, rfl,
      Ctl.passTo_clock _ _, rfl, rfl, rfl⟩
    · have resumed := Ctl.resumeWin_judged held idle
      rw [judged] at resumed
      exact ⟨_, State.exec_ctl rfl resumed, (ended _).2.trans (Ctl.endWinHold_busy _ h x), (ended _).1, rfl, rfl, rfl, rfl⟩
    · have resumed := Ctl.resumeWin_judged held idle
      rw [judged] at resumed
      obtain ⟨e, rfl⟩ := judgeWinWrite_inr judged
      exact ⟨_, State.exec_ctl rfl resumed, (Ctl.setEntry_winBusy _ x e h).trans (Ctl.endWinHold_busy _ h x), rfl, rfl, rfl, rfl⟩
  · refine ⟨fun busy => State.exec_ctl_eq rfl (Ctl.resumeSeal_held found busy), fun idle => ?_,
      _, State.exec_ctl rfl (Ctl.dropSeal_eq found bg), Ctl.finishBg_none _ h _, ?_, fun tracked => ?_, ?_, rfl, rfl, rfl⟩
    · obtain ⟨gone, unheld, regs⟩ := Ctl.resumeSeal_ends found bg idle
      exact ⟨_, rfl, gone, unheld, regs, rfl, rfl, rfl⟩
    · obtain ⟨-, -, sea⟩ := ((s.ctl.passTo (g.aux + 100000000)).unheldSeal h j).finishBg_kept h .busy
      rw [sea]
      simp [Ctl.unheldSeal]
    · exact (Ctl.finishBg_spec (c := (s.ctl.passTo (g.aux + 100000000)).unheldSeal h j) .busy
        (bg.symm ▸ by cases h <;> rfl) (by rw [← tracked]; cases h <;> rfl)).2.1
    · obtain ⟨-, clock, -⟩ := ((s.ctl.passTo (g.aux + 100000000)).unheldSeal h j).finishBg_kept h .busy
      exact clock.trans (Ctl.passTo_clock _ _)
  · refine ⟨fun m mine image exts good idle => ?_, fun o n l mine pos image idle => ?_, fun o n l zero image => ?_, fun foreign => ?_,
      fun o n l mine pos image busy => ?_⟩
    · exact stxWinWrite_stores r quiet rfl (Ctl.winTaken_iff.2 mine) (Ctl.winImage_main h image exts good) idle
    · exact stxWinWrite_stores r quiet rfl (Ctl.winTaken_iff.2 mine) (Ctl.winImage_ext h image pos) idle
    · exact stxWinWrite_refused r quiet zero (.inr (Ctl.winImage_ext_zero h image))
    · exact stxWinWrite_refused r quiet rfl (.inl (Bool.eq_false_iff.2 fun mine => foreign (Ctl.winTaken_iff.1 mine)))
    · exact stxWinWrite_held r quiet rfl (Ctl.winTaken_iff.2 mine) (Ctl.winImage_ext h image pos) busy
  · refine ⟨fun stopped => ctxLineFetched_stopped at_ stopped, fun runs => ⟨fun fenced => ?_, fun free none' => ?_,
      fun m free main foreign => ?_, fun m free main owner => ⟨fun state => ?_, fun state _ op bad => ?_,
        fun state _ op good ranges recovers => ?_⟩⟩⟩
    · exact ctxLineFetched_fenced at_ phase waits open_ runs fenced
    · exact ctxLineFetched_ends at_ phase waits open_ ring first runs free (Ctl.admitCtx_none none')
    · exact ctxLineFetched_ends at_ phase waits open_ ring first runs free (Ctl.admitCtx_foreign main foreign)
    · exact ctxLineFetched_ends at_ phase waits open_ ring first runs free (Ctl.admitCtx_state main owner state)
    · refine ctxLineFetched_ends at_ phase waits open_ ring first runs free ?_
      rw [Ctl.admitCtx_checks main owner state op, if_pos bad]
    · refine ctxLineFetched_runs at_ phase waits open_ runs free ?_ op ranges recovers
      rw [Ctl.admitCtx_checks main owner state op, good, if_neg Bool.false_ne_true]
  · have way := ctxWayWaitEnd_eq at_ waits needs miss
    refine ⟨fun free => ?_, fun full => ?_⟩
    · have cached := s.ctl.mem_fillWay j.ctxIndex
      have regs := s.ctl.fillWay_regs j.ctxIndex
      rw [free, if_pos rfl] at way
      generalize s.ctl.fillWay j.ctxIndex = d at way cached regs
      exact ⟨_, State.exec_ctl rfl way, cached, List.mem_cons_self, by simp, regs, rfl, rfl, rfl⟩
    · rw [full, if_neg Bool.false_ne_true] at way
      exact State.exec_ctl_eq rfl way

end Sys2Proof.Machine
end
section
/-! The writes that start something at once (R82, R152, R258, R337, R368). -/

namespace Sys2Proof.Machine

/-! ## STX_WIN_READ -/

section
variable {l : List Nat} {f : Nat → Fld} {v : Nat → Nat}

theorem Ctl.foldl_set_stx (c : Ctl) : (l.foldl (fun c k => c.set (f k) (v k)) c).stx = c.stx :=
  List.foldlRecOn (motive := fun d : Ctl => d.stx = c.stx) l _ rfl fun _ e _ _ => e

theorem Ctl.get_foldl_set_ne (c : Ctl) {x : Fld} (n : ∀ k ∈ l, x.key ≠ (f k).key) :
    (l.foldl (fun c k => c.set (f k) (v k)) c).get x = c.get x :=
  List.foldlRecOn (motive := fun d : Ctl => d.get x = c.get x) l _ rfl fun d e k m => (d.get_set_ne _ _ _ (n k m)).trans e

/-- Fields at different places, each set once. -/
theorem Ctl.get_foldl_set (c : Ctl) (once : l.Nodup) (apart : ∀ i j, i ≠ j → (f i).key ≠ (f j).key) {k : Nat} (m : k ∈ l) :
    (l.foldl (fun c k => c.set (f k) (v k)) c).get (f k) = v k % 2 ^ (f k).width := by
  induction l generalizing c with
  | nil => cases m
  | cons x t ih =>
    obtain ⟨hx, once⟩ := List.nodup_cons.1 once
    rcases List.mem_cons.1 m with rfl | m
    · exact (get_foldl_set_ne (c.set (f k) (v k)) fun i mi => apart _ _ (by rintro rfl; exact hx mi)).trans (get_set_same _ _ _)
    · exact ih _ once m

end

theorem Ctl.fillWay_entries (c : Ctl) (x : Nat) : (c.fillWay x).stx.entries = c.stx.entries := by
  unfold fillWay
  dsimp only
  split
  · rfl
  · split <;> rfl

theorem Ctl.fillWay_head (c : Ctl) (x : Nat) : (c.fillWay x).stx.cache.head? = some x := by
  unfold fillWay
  rfl

theorem Ctl.fillWay_get (c : Ctl) (x : Nat) (f : Fld) : (c.fillWay x).get f = c.get f := by
  rw [get, get, fillWay_regs]

/-- A field counted once, saturating. -/
def Ctl.counted (c d : Ctl) (f : Fld) : Prop := d.get f = min (c.get f + 1) (2 ^ f.width - 1)

theorem Ctl.counted_bump (c : Ctl) (f : Fld) : c.counted (c.bump f) f := by
  refine (get_set_same _ _ _).trans (Nat.mod_eq_of_lt ?_)
  have pos := Nat.two_pow_pos f.width
  omega

/-- A lookup that hits (R143). -/
theorem Ctl.ctxLookup_hit {c : Ctl} {x : Nat} (hit : c.stx.cache.contains x = true) : c.counted (c.ctxLookup x) R.STX_HIT_CNT_COUNT ∧
    (c.ctxLookup x).stx.cache = x :: c.stx.cache.filter fun y => decide (y ≠ x) := by
  rw [ctxLookup, if_pos hit]
  exact ⟨(c.ctxTouch x).counted_bump _, rfl⟩

/-- A lookup that misses: a way is filled where there is one (R143; log entry 118). -/
theorem Ctl.ctxLookup_miss {c : Ctl} {x : Nat} (miss : c.stx.cache.contains x = false) :
    c.counted (c.ctxLookup x) R.STX_MISS_CNT_COUNT ∧ (c.wayFree x = true → (c.ctxLookup x).stx.cache.head? = some x) ∧
      (c.wayFree x = false → (c.ctxLookup x).stx.cache = c.stx.cache) := by
  have same : (c.bump R.STX_MISS_CNT_COUNT).wayFree x = c.wayFree x := rfl
  simp only [ctxLookup, miss, Bool.false_eq_true, if_false, same]
  cases c.wayFree x with
  | true => exact ⟨(fillWay_get _ _ _).trans (c.counted_bump _), fun _ => fillWay_head _ _, nofun⟩
  | false => exact ⟨c.counted_bump _, nofun, fun _ => rfl⟩

/-- A lookup changes no entry, and no register but the two counters. -/
theorem Ctl.ctxLookup_kept (c : Ctl) (x : Nat) : (c.ctxLookup x).stx.entries = c.stx.entries ∧
    c.keeps (c.ctxLookup x) [R.STX_HIT_CNT_COUNT, R.STX_MISS_CNT_COUNT] := by
  have hits (d : Ctl) : d.keeps (d.bump R.STX_HIT_CNT_COUNT) [R.STX_HIT_CNT_COUNT, R.STX_MISS_CNT_COUNT] :=
    keeps_set (d.keeps_refl _) (by simp) _
  have misses : c.keeps (c.bump R.STX_MISS_CNT_COUNT) [R.STX_HIT_CNT_COUNT, R.STX_MISS_CNT_COUNT] :=
    keeps_set (c.keeps_refl _) (by simp) _
  unfold ctxLookup
  dsimp only
  split
  · exact ⟨rfl, hits (c.ctxTouch x)⟩
  · split
    · exact ⟨fillWay_entries _ _, fun y n => (fillWay_get _ _ _).trans (misses y n)⟩
    · exact ⟨rfl, misses⟩

theorem Ctl.winData_apart (n : Nat) {i j : Nat} (ne : i ≠ j) : (R.STX_WIN_DATA_DATA n i).key ≠ (R.STX_WIN_DATA_DATA n j).key := by
  simp only [R.STX_WIN_DATA_DATA]
  omega

/-- What STX_WIN_READ shows of entry INDEX (R152). -/
theorem winRead_spec {c : Ctl} {h : Head} {x : Nat} (index : c.get (R.STX_WIN_CTL_INDEX h.num) = x) :
    (∀ k, k < 16 → (winRead h c).get (R.STX_WIN_DATA_DATA h.num k) = le (c.ctxEntry x).encode (4 * k) 4) ∧
      (winRead h c).stx = (c.ctxLookup x).stx ∧
      ∀ f : Fld, (∀ k, f.key ≠ (R.STX_WIN_DATA_DATA h.num k).key) → (winRead h c).get f = (c.ctxLookup x).get f := by
  rw [winRead, index]
  refine ⟨fun k l => ?_, Ctl.foldl_set_stx _, fun f n => Ctl.get_foldl_set_ne _ fun k _ => n k⟩
  refine (Ctl.get_foldl_set _ List.nodup_range (fun i j => Ctl.winData_apart h.num) (List.mem_range.2 l)).trans
    (Nat.mod_eq_of_lt ?_)
  exact le_lt _ _ 4

theorem Ctl.ctxEntry_of_mapGet {c : Ctl} {x : Nat} {e : CtxEntry} (listed : mapGet c.stx.entries x = some e) : c.ctxEntry x = e := by
  rw [ctxEntry, listed]
  rfl

/-- A window read that reaches its register shows its entry, and looks it up (R143, R152). -/
theorem stxWinRead_shows {s : State} {h : Head} {w : Word} {x : Nat} {e : CtxEntry} (r : s.reached h (R.STX_WIN_CTL_CMD 0) 1 w)
    (quiet : s.ctl.get (R.STX_WIN_CTL_BUSY h.num) = 0) (names : bitsOf (R.STX_WIN_CTL_INDEX 0) w.toNat = x)
    (listed : mapGet s.ctl.stx.entries x = some e) : ∃ d, s.ctl.setsOnly d (winFields h) ∧
      exec (.stxWinRead h w) s = .next { s with ctl := winRead h d } ∧
      (∀ k, k < 16 → (winRead h d).get (R.STX_WIN_DATA_DATA h.num k) = le e.encode (4 * k) 4) ∧
      (winRead h d).get (R.STX_WIN_CTL_INDEX h.num) = x ∧ (winRead h d).stx = (d.ctxLookup x).stx ∧
      ∀ f ∈ [R.STX_HIT_CNT_COUNT, R.STX_MISS_CNT_COUNT], s.ctl.counted (d.ctxLookup x) f → s.ctl.counted (winRead h d) f := by
  obtain ⟨d, only, index, run⟩ := winCtl_reached (by decide) r quiet
  rw [if_pos rfl] at run
  rw [names] at index
  obtain ⟨data, stx, kept⟩ := winRead_spec index
  refine ⟨d, only, run, fun k l => ?_, ?_, stx, fun f m counted => (kept f ?_).trans counted⟩
  · have entry : d.ctxEntry x = e := Ctl.ctxEntry_of_mapGet (by rw [only.sameTable_win.entries, listed])
    rw [data k l, entry]
  · rw [kept, (d.ctxLookup_kept x).2, index]
    · cases h <;> decide
    · intro k
      simp only [R.STX_WIN_CTL_INDEX, R.STX_WIN_DATA_DATA]
      omega
  · intro k
    simp only [List.mem_cons, List.not_mem_nil, or_false] at m
    rcases m with rfl | rfl <;> simp only [R.STX_HIT_CNT_COUNT, R.STX_MISS_CNT_COUNT, R.STX_WIN_DATA_DATA] <;> omega

/-! ## Registers whose writes only start something -/

/-- A write of a register of read-only and write-only fields starts what it starts. -/
theorem Ctl.writeReg_starts {off b : Nat} {rows : List FieldRow} (fields : sharedReg off = some (rows, b, 0))
    (fixed : ∀ r ∈ rows, r.acc = .ro ∨ r.acc = .wo) (plain : plainOffset off) (ring : ¬(0x111000 ≤ off ∧ off < 0x113000)) {c : Ctl}
    (built : c.hiddenReg off = false) (h : Head) (v : Nat) : c.writeReg h off v true = c.afterWrite c h off v := by
  have same : rows.foldl (fun c r => c.writeField r (r.fld.key - b * 8) 0 v true) c = c :=
    List.foldlRecOn (motive := fun d => d = c) rows _ rfl fun d e r m => by
      rcases fixed r m with ro | wo
      · rw [writeField_ro _ _ _ _ _ ro, e]
      · rw [writeField_wo _ _ _ _ _ wo, e]
  rw [writeReg_plain fields built plain, same, strayRing_none _ _ ring]

/-! ## TIM_SWITCH -/

theorem Ctl.afterWrite_timSwitch (c old : Ctl) (h : Head) {v : Nat} (bit : bitsOf R.TIM_CMD_SWITCH v = 1) :
    c.afterWrite old h 0x90004 v = c.timSwitch := by
  unfold afterWrite
  dsimp only
  rw [if_neg (by decide), if_neg (startsNot v (by decide)), if_neg (startsNot v (by decide)), if_neg (by decide),
    if_pos (by rw [bit]; decide)]

theorem Ctl.writeReg_timSwitch (c : Ctl) (h : Head) {v : Nat} (bit : bitsOf R.TIM_CMD_SWITCH v = 1) :
    c.writeReg h 0x90004 v true = c.timSwitch := by
  have fields : sharedReg 0x90004 = some ([⟨R.TIM_CMD_SWITCH, .wo, false⟩], 0x90004, 0) := by decide +kernel
  rw [writeReg_starts fields (by decide) (by unfold plainOffset; decide) (by decide) (by simp [hiddenReg]), afterWrite_timSwitch _ _ _ bit]

theorem Ctl.takeTime_get (c : Ctl) (h : Head) : (c.takeTime h).get R.TIM_STATUS_SOURCE = h.num ∧
    (c.takeTime h).get R.TIM_STATUS_HOLDOVER = 0 ∧ (c.takeTime h).get R.TIM_STATUS_OFFSET_VALID = 0 := by
  have told (d : Ctl) {x : Fld} (n : ¬fltKey x.key) : (d.eventAll logInfo 0x0202 h.num 0).get x = d.get x :=
    (reports_forHeads d fun k e => e.reports_event k _ _ _ _ _ _).kept x n
  have small : h.num % 2 ^ R.TIM_STATUS_SOURCE.width = h.num := by cases h <;> rfl
  unfold takeTime
  dsimp only
  refine ⟨(told _ (by unfold fltKey; decide)).trans ?_, (told _ (by unfold fltKey; decide)).trans ?_,
    (told _ (by unfold fltKey; decide)).trans (get_set_same _ _ _)⟩
  · rw [get_set_ne _ _ _ _ (by decide), get_set_ne _ _ _ _ (by decide), get_set_ne _ _ _ _ (by decide), get_set_same, small]
  · rw [get_set_ne _ _ _ _ (by decide), get_set_ne _ _ _ _ (by decide), get_set_same]
    rfl

/-! ## RST_CTL -/

theorem Ctl.afterWrite_rstCtl (c old : Ctl) (h : Head) (v : Nat) : c.afterWrite old h 0x20000 v = c.rstCtl (BitVec.ofNat 32 v) := by
  unfold afterWrite
  dsimp only
  rw [if_neg (by decide), if_neg (startsNot v (by decide)), if_neg (startsNot v (by decide)), if_neg (by decide),
    if_neg (startsNot v (by decide)), if_neg (by decide), if_neg (startsNot v (by decide)), if_pos (by decide)]

theorem Ctl.writeReg_rstCtl (c : Ctl) (h : Head) (v : Nat) : c.writeReg h 0x20000 v true = c.rstCtl (BitVec.ofNat 32 v) := by
  have fields : sharedReg 0x20000 = some ([⟨R.RST_CTL_KEY, .wo, false⟩, ⟨R.RST_CTL_WARM, .wo, false⟩], 0x20000, 0) := by decide +kernel
  rw [writeReg_starts fields (by decide) (by unfold plainOffset; decide) (by decide) (by simp [hiddenReg]), afterWrite_rstCtl]

/-- WARM with the key on a started device without a reset due (R337). -/
theorem Ctl.rstCtl_asks {c : Ctl} {w : Word} (key : bitsOf R.RST_CTL_KEY w.toNat = 0xA5) (started : c.rst.awaiting = 8)
    (calm : c.rst.quiesce = 0) (none' : c.rst.warmReq = none) :
    c.rstCtl (BitVec.ofNat 32 (withBits R.RST_CTL_WARM 1 w.toNat)) = { c with rst.warmReq := some 5, rst.warmAt := c.clock } := by
  have l := w.isLt
  have keyed : w.toNat / 2 ^ 24 % 2 ^ 8 = 0xA5 := key
  have written : withBits R.RST_CTL_WARM 1 w.toNat = w.toNat - w.toNat % 2 + 1 := by simp [withBits, bitsOf, R.RST_CTL_WARM]
  have takes : c.takesWarm c.clock = true := by simp [takesWarm, calm, started, none']
  rw [rstCtl, BitVec.toNat_ofNat, written, if_pos (by omega), askWarm, takes, if_neg (by decide), if_pos started]

/-! ## BST_CTL -/

theorem Ctl.afterWrite_bstCtl (c old : Ctl) (h : Head) (v : Nat) : c.afterWrite old h 0x50000 v = c.bstCtl (BitVec.ofNat 32 v) := by
  unfold afterWrite
  dsimp only
  rw [if_neg (by decide), if_neg (startsNot v (by decide)), if_neg (startsNot v (by decide)), if_neg (by decide),
    if_neg (startsNot v (by decide)), if_neg (by decide), if_neg (startsNot v (by decide)), if_neg (by decide), if_pos (by decide)]

/-- In test mode a write of BST_CTL sets TARGET and starts what it starts (R367). -/
theorem Ctl.writeReg_bstCtl {c : Ctl} (h : Head) (v : Nat) (test : c.cal.testMode = true) : c.writeReg h 0x50000 v true =
    (c.set R.BST_CTL_TARGET (bitsOf R.BST_CTL_TARGET v)).bstCtl (BitVec.ofNat 32 v) := by
  have fields : sharedReg 0x50000 = some ([⟨R.BST_CTL_START, .wo, false⟩, ⟨R.BST_CTL_TARGET, .rw, false⟩], 0x50000, 0) := by
    decide +kernel
  obtain ⟨a, found, rows, key, word⟩ := findReg_of_sharedReg fields h
  have written : c.writeFields a h v true = c.set R.BST_CTL_TARGET (bitsOf R.BST_CTL_TARGET v) := by
    rw [writeFields, rows, key, word]
    simp only [List.foldl_cons, List.foldl_nil, writeField_wo]
    exact writeField_rw c v rfl (by decide) (by decide)
  have fixed (d : Ctl) : d.fixFields 0x50000 = d := rfl
  simp only [writeReg, found, test, hiddenReg, written, strayRing_none _ _ (off := 0x50000) (by decide), fixed]
  simp [afterWrite_bstCtl]

/-- START with a valid TARGET in test mode, while no test runs (R368). -/
theorem Ctl.bstCtl_starts {c : Ctl} {w : Word} {n : Nat} (l : n < 256) (test : c.cal.testMode = true) (idle : c.cal.test = none)
    (target : c.bistTarget n = true) : (c.set R.BST_CTL_TARGET n).bstCtl (BitVec.ofNat 32 (withBits R.BST_CTL_START 1 w.toNat)) =
      (c.set R.BST_CTL_TARGET n).bistStart n none := by
  have small := w.isLt
  have written : withBits R.BST_CTL_START 1 w.toNat = w.toNat - w.toNat / 2 ^ 31 % 2 * 2 ^ 31 + 2 ^ 31 := by
    simp [withBits, bitsOf, R.BST_CTL_START]
  have holds : (c.set R.BST_CTL_TARGET n).get R.BST_CTL_TARGET = n := (get_set_same _ _ _).trans (Nat.mod_eq_of_lt l)
  rw [bstCtl, holds, BitVec.toNat_ofNat, written]
  exact if_pos ⟨by omega, test, target, idle⟩

theorem Ctl.bistStart_get (c : Ctl) (t : Nat) (by_ : Option Head) : (c.bistStart t by_).get R.BST_STATUS_BUSY = 1 ∧
    (c.bistStart t by_).get R.BST_STATUS_PASS = 0 ∧ (c.bistStart t by_).get R.BST_STATUS_FAIL = 0 := by
  unfold bistStart
  refine ⟨?_, ?_, get_set_same _ _ _⟩
  · rw [get_set_ne _ _ _ _ (by decide), get_set_ne _ _ _ _ (by decide), get_set_same]
    rfl
  · rw [get_set_ne _ _ _ _ (by decide), get_set_same]
    rfl

/-! ## CMB_DMC_FLUSH -/

theorem Ctl.afterWrite_dmcFlush (c old : Ctl) (h : Head) {v : Nat} (bit : bitsOf R.CMB_DMC_FLUSH_FLUSH v = 1) :
    c.afterWrite old h 0x10061c v = c.dmcFlush := by
  unfold afterWrite
  dsimp only
  rw [if_neg (by decide), if_neg (startsNot v (by decide)), if_pos (by rw [bit]; decide)]

theorem Ctl.writeReg_dmcFlush (c : Ctl) (h : Head) {v : Nat} (bit : bitsOf R.CMB_DMC_FLUSH_FLUSH v = 1) :
    c.writeReg h 0x10061c v true = c.dmcFlush := by
  have fields : sharedReg 0x10061c = some ([⟨R.CMB_DMC_FLUSH_FLUSH_BUSY, .ro, false⟩, ⟨R.CMB_DMC_FLUSH_FLUSH, .wo, false⟩],
      0x10061c, 0) := by decide +kernel
  rw [writeReg_starts fields (by decide) (by unfold plainOffset; decide) (by decide) (by simp [hiddenReg]), afterWrite_dmcFlush _ _ _ bit]

/-- What a flush leaves: the pinned entries, doomed (R82). -/
theorem Ctl.dmcFlush_spec (c : Ctl) : (∀ e ∈ c.dmcFlush.dec.entries, e.doomed = true ∧ c.dmcWanted e.key = true) ∧
    (∀ e ∈ c.dec.entries, c.dmcWanted e.key = true → ∃ x ∈ c.dmcFlush.dec.entries, x.key = e.key) ∧
    (∀ k ∈ c.dmcFlush.dec.queue, c.dmcWanted k = true) ∧
    (c.dmcFlush.get R.CMB_DMC_FLUSH_FLUSH_BUSY = 1 ↔ c.dmcFlush.dec.entries ≠ []) ∧ c.dmcFlush.dec.wants = c.dec.wants ∧
    c.keeps c.dmcFlush [R.CMB_DMC_FLUSH_FLUSH_BUSY] := by
  have left : c.dmcFlush.dec.entries =
      (c.dec.entries.filter fun e => c.dmcWanted e.key).map fun (e : DmcEntry) => { e with doomed := true } := rfl
  have busy : c.dmcFlush.get R.CMB_DMC_FLUSH_FLUSH_BUSY = bit (!c.dmcFlush.dec.entries.isEmpty) % 2 := get_set_same _ _ _
  refine ⟨fun e m => ?_, fun e m wanted => ?_, fun k m => (List.mem_filter.1 m).2, ?_, rfl,
    fun x n => get_set_ne _ _ _ _ (n _ List.mem_cons_self).symm⟩
  · rw [left] at m
    obtain ⟨y, my, rfl⟩ := List.mem_map.1 m
    exact ⟨rfl, (List.mem_filter.1 my).2⟩
  · rw [left]
    exact ⟨_, List.mem_map_of_mem (List.mem_filter.2 ⟨m, wanted⟩), rfl⟩
  · rw [busy]
    cases c.dmcFlush.dec.entries <;> simp [bit]

/-! ## The statement -/

/-- Settles O15: each write reaches its register, changes at most the fields that its register lets it, and starts one thing. -/
theorem windowAndTimeWritesAct : Obligations.WindowAndTimeWritesAct := by
  intro h w s
  refine ⟨fun e r quiet listed => ?_, fun r source locked => ?_, fun r key started calm none' => ?_, fun r test idle target => ?_,
    fun r => ?_⟩
  · obtain ⟨d, only, run, data, index, stx, counts⟩ := stxWinRead_shows r quiet rfl listed
    obtain ⟨entries, -⟩ := d.ctxLookup_kept (bitsOf (R.STX_WIN_CTL_INDEX 0) w.toNat)
    have table : d.stx = s.ctl.stx := by rw [only.2]
    have ways (x : Nat) : d.wayFree x = s.ctl.wayFree x := by rw [only.2]; rfl
    have before (f : Fld) (e : Ctl) (n : ∀ y ∈ winFields h, y.key ≠ f.key) (k : d.counted e f) : s.ctl.counted e f := by
      rwa [Ctl.counted, ← only.1 f n]
    refine ⟨_, run, data, index, ⟨fun hit => ?_, fun miss => ?_⟩, by rw [stx, entries, table], rfl, rfl, rfl⟩
    · rw [← table] at hit
      obtain ⟨counted, cache⟩ := Ctl.ctxLookup_hit hit
      exact ⟨counts _ (by simp) (before _ _ (by cases h <;> decide) counted), by rw [stx, cache, table]⟩
    · rw [← table] at miss
      obtain ⟨counted, fills, stays⟩ := Ctl.ctxLookup_miss miss
      rw [ways] at fills stays
      exact ⟨counts _ (by simp) (before _ _ (by cases h <;> decide) counted), fun free => by rw [stx, fills free],
        fun full => by rw [stx, stays full, table]⟩
  · have run := writeBarField_reached r (by decide) (by decide)
    rw [show offsetOf R.TIM_CMD_SWITCH = 0x90004 from rfl, Ctl.writeReg_timSwitch _ _ (bitsOf_withBits _ _ _), Ctl.timSwitch,
      if_pos ⟨source, locked⟩] at run
    obtain ⟨head, holdover, valid⟩ := s.ctl.takeTime_get (Head.ofNum (s.ctl.get R.TIM_STATUS_SOURCE)).other
    exact ⟨_, run, head, holdover, valid, rfl, rfl, rfl⟩
  · have run := writeBarField_reached r (by decide) (by decide)
    rw [show offsetOf R.RST_CTL_WARM = 0x20000 from rfl, Ctl.writeReg_rstCtl, Ctl.rstCtl_asks key started calm none'] at run
    exact ⟨_, run, rfl, rfl, rfl, rfl, rfl, rfl⟩
  · have run := writeBarField_reached r (by decide) (by decide)
    have named := bitsOf_withBits_below (f := R.BST_CTL_START) (g := R.BST_CTL_TARGET) 1 w.toNat (by decide)
    have small : bitsOf R.BST_CTL_TARGET w.toNat < 256 := Nat.mod_lt _ (by decide)
    rw [show offsetOf R.BST_CTL_START = 0x50000 from rfl, Ctl.writeReg_bstCtl h _ test, named,
      Ctl.bstCtl_starts small test idle target] at run
    obtain ⟨busy, pass, fail⟩ := Ctl.bistStart_get (s.ctl.set R.BST_CTL_TARGET (bitsOf R.BST_CTL_TARGET w.toNat))
      (bitsOf R.BST_CTL_TARGET w.toNat) none
    exact ⟨_, run, rfl, busy, pass, fail, rfl, rfl, rfl⟩
  · have run := writeBarField_reached r (by decide) (by decide)
    rw [show offsetOf R.CMB_DMC_FLUSH_FLUSH = 0x10061c from rfl, Ctl.writeReg_dmcFlush _ _ (bitsOf_withBits _ _ _)] at run
    obtain ⟨left, pinned, queued, busy, wants, kept⟩ := s.ctl.dmcFlush_spec
    exact ⟨_, run, left, pinned, queued, busy, wants, kept, rfl, rfl, rfl⟩

end Sys2Proof.Machine
end
section
/-! SUPPORT. What time that passes and a die's corrections (R364) leave of the channels, the lanes and the fields, and what the admissions
of Laws/Stack.lean leave of what they do not admit. -/

namespace Sys2Proof.Machine

/-! ## Time -/

@[simp] theorem Ctl.pass_clock (c : Ctl) (dt : Nat) : (c.pass dt).clock = c.clock + dt := rfl
@[simp] theorem Ctl.pass_stk (c : Ctl) (dt : Nat) : (c.pass dt).stk = c.stk := rfl
@[simp] theorem Ctl.passTo_chan (c : Ctl) (t n : Nat) : (c.passTo t).chan n = c.chan n := rfl
@[simp] theorem Ctl.passTo_lane (c : Ctl) (t n : Nat) : (c.passTo t).lane n = c.lane n := rfl

theorem Ctl.pass_get (c : Ctl) (dt : Nat) {x : Fld} (n : x.key ≠ R.TIM_NOW_VALUE.key) : (c.pass dt).get x = c.get x :=
  get_set_ne _ _ _ _ n

theorem Ctl.keeps_passTo (c : Ctl) (t : Nat) (l : List Fld) : c.keeps (c.passTo t) (R.TIM_NOW_VALUE :: l) :=
  fun _ n => c.passTo_get t (n _ List.mem_cons_self).symm

theorem Ctl.pass_laneUp (c : Ctl) (dt l : Nat) : (c.pass dt).laneUp l = c.laneUp l := by
  have lane (n : Nat) : (c.pass dt).laneState n = c.laneState n := by
    unfold laneState
    rw [pass_get _ _ (by split <;> decide), pass_get _ _ (by decide)]
  rw [laneUp, lane, laneUp]

theorem Ctl.pass_domainOpen (c : Ctl) (dt d : Nat) : (c.pass dt).domainOpen d = c.domainOpen d := by
  rw [domainOpen, pass_get _ _ (by decide), pass_get _ _ (by decide)]
  rfl

/-- A counter raised by one. -/
theorem Ctl.get_bump_same (c : Ctl) (x : Fld) : (c.bump x).get x = min (c.get x + 1) (2 ^ x.width - 1) := c.counted_bump x

/-! ## Corrections -/

/-- Nothing differs but what the device keeps for calibration and for the sideband port. -/
def Ctl.onlyCal (c d : Ctl) : Prop := d = { c with cal := d.cal, sbp := d.sbp }

section
variable {c d e : Ctl}

theorem Ctl.onlyCal_refl (c : Ctl) : c.onlyCal c := rfl

theorem Ctl.onlyCal.trans (h : c.onlyCal d) (k : d.onlyCal e) : c.onlyCal e := by
  unfold onlyCal at *
  rw [k, h]

theorem Ctl.onlyCal.stk (h : c.onlyCal d) : d.stk = c.stk := (congrArg Ctl.stk (h : d = _) :)
theorem Ctl.onlyCal.clock (h : c.onlyCal d) : d.clock = c.clock := (congrArg Ctl.clock (h : d = _) :)
theorem Ctl.onlyCal.get (h : c.onlyCal d) (x : Fld) : d.get x = c.get x := get_congr _ _ (congrArg Ctl.regs (h : d = _)) x
theorem Ctl.onlyCal.keeps (h : c.onlyCal d) (l : List Fld) : c.keeps d l := fun x _ => h.get x
theorem Ctl.onlyCal.chan (h : c.onlyCal d) (n : Nat) : d.chan n = c.chan n := by rw [Ctl.chan, h.stk, Ctl.chan]
theorem Ctl.onlyCal.lane (h : c.onlyCal d) (n : Nat) : d.lane n = c.lane n := by rw [Ctl.lane, h.stk, Ctl.lane]
end

/-- Column taps and sampling legs bring no phase into use: that is what corrections of class 2 do. -/
theorem Ctl.usePhases_eq (c : Ctl) (d : Nat) {l : List CalItem} (h : ∀ x ∈ l, x.cls ≠ 2) : c.usePhases d l = c := by
  rw [usePhases, List.filter_eq_nil_iff.2 fun x m => by simp [h x m]]
  rfl

theorem Ctl.applyCal_onlyCal (c : Ctl) (d : Nat) {p : CalItem → Bool} (h : ∀ x, p x = true → x.cls ≠ 2) :
    c.onlyCal (c.applyCal d p) := by
  have phases (l : List CalItem) : c.usePhases d (l.filter p) = c := c.usePhases_eq d fun x m => h x (List.mem_filter.1 m).2
  unfold applyCal
  split
  · exact c.onlyCal_refl
  · dsimp only
    rw [phases]
    split
    all_goals split <;> rfl

theorem Ctl.laneLegs_onlyCal (c : Ctl) (l : Nat) (x : Option Xfer) : c.onlyCal (c.laneLegs l x) := by
  refine List.foldlRecOn (motive := c.onlyCal) _ _ c.onlyCal_refl fun d k i _ => ?_
  dsimp only
  split
  · exact k
  · exact k.trans (d.applyCal_onlyCal _ fun y legs => by
      rw [of_decide_eq_true legs]; decide)

/-! ## Admissions -/

section
variable (c : Ctl)

@[simp] theorem Ctl.admitWaiting_clock (ch : Nat) : (c.admitWaiting ch).clock = c.clock := by
  rcases c.admitWaiting_cases ch with e | ⟨r, -, -, e⟩ <;> rw [e]; rfl

theorem Ctl.admitWaiting_get (ch : Nat) (x : Fld) : (c.admitWaiting ch).get x = c.get x := get_congr _ _ (c.admitWaiting_regs ch) x

theorem Ctl.admitWaiting_chan_ne {ch n : Nat} (h : n ≠ ch) : (c.admitWaiting ch).chan n = c.chan n := by
  rcases c.admitWaiting_cases ch with e | ⟨r, -, -, e⟩ <;> rw [e]
  exact c.setChan_chan_ne ch n _ h

/-- The controller after an admission: as it was, or with one waiting request in its queue. -/
theorem Ctl.admitWaiting_chan (ch : Nat) : (c.admitWaiting ch).chan ch = c.chan ch ∨ ∃ r, (c.admitWaiting ch).chan ch =
    { c.chan ch with queue := (c.chan ch).queue ++ [{ r with seq := c.stk.order, entry := (c.entryFor ch r).getD .general }]
                     waiting := (c.chan ch).waiting.erase r } := by
  rcases c.admitWaiting_cases ch with e | ⟨r, -, -, e⟩ <;> rw [e]
  · exact .inl rfl
  · exact .inr ⟨r, c.setChan_chan ch _⟩

@[simp] theorem Ctl.admitWaiting_bank (ch b : Nat) : ((c.admitWaiting ch).chan ch).bank b = (c.chan ch).bank b := by
  rcases c.admitWaiting_chan ch with e | ⟨r, e⟩ <;> rw [e]
  rfl

@[simp] theorem Ctl.admitLane_clock (l : Nat) : (c.admitLane l).clock = c.clock := by
  rcases c.admitLane_cases l with e | ⟨x, -, -, e⟩ <;> rw [e]; rfl

/-- The lane after an admission: as it was, or with one waiting transfer among the pending ones. -/
theorem Ctl.admitLane_lane (l : Nat) : (c.admitLane l).lane l = c.lane l ∨ ∃ x, (c.admitLane l).lane l =
    { c.lane l with pending := (c.lane l).pending ++ [{ x with seq := c.stk.order }]
                    waiting := (c.lane l).waiting.erase x } := by
  rcases c.admitLane_cases l with e | ⟨x, -, -, e⟩ <;> rw [e]
  · exact .inl rfl
  · exact .inr ⟨x, c.setLane_lane l _⟩

theorem Ctl.admitLane_lane_ne {l n : Nat} (h : n ≠ l) : (c.admitLane l).lane n = c.lane n := by
  rcases c.admitLane_cases l with e | ⟨x, -, -, e⟩ <;> rw [e]
  exact c.setLane_lane_ne l n _ h

/-- A request stays at its controller: in its place, or with an entry and the next place in the order. -/
theorem Ctl.admitWaiting_holds {ch : Nat} {q : Req} (m : q ∈ (c.chan ch).queue ++ (c.chan ch).waiting) :
    ∃ r ∈ ((c.admitWaiting ch).chan ch).queue ++ ((c.admitWaiting ch).chan ch).waiting,
      r = { q with seq := r.seq, entry := r.entry } := by
  rcases c.admitWaiting_chan ch with e | ⟨r, e⟩ <;> rw [e]
  · exact ⟨q, m, rfl⟩
  by_cases same : q = r
  · exact ⟨{ r with seq := c.stk.order, entry := (c.entryFor ch r).getD .general }, by simp, by rw [same]⟩
  · refine ⟨q, ?_, rfl⟩
    simp only [List.mem_append, List.mem_erase_of_ne same] at m ⊢
    tauto

/-- A transfer stays at its lane: in its place, or with the next place in the order. -/
theorem Ctl.admitLane_holds {l : Nat} {z : Xfer} (m : z ∈ (c.lane l).pending ++ (c.lane l).waiting) :
    ∃ x ∈ ((c.admitLane l).lane l).pending ++ ((c.admitLane l).lane l).waiting, x = { z with seq := x.seq } := by
  rcases c.admitLane_lane l with e | ⟨x, e⟩ <;> rw [e]
  · exact ⟨z, m, rfl⟩
  by_cases same : z = x
  · exact ⟨{ x with seq := c.stk.order }, by simp, by rw [same]⟩
  · refine ⟨z, ?_, rfl⟩
    simp only [List.mem_append, List.mem_erase_of_ne same] at m ⊢
    tauto
end

end Sys2Proof.Machine
end

section
/-! The arrival of a request (R154, R155, R160, R224 to R226). -/

namespace Sys2Proof.Machine

@[simp] theorem Ctl.dropPassed_chan (c : Ctl) (src : ReqSrc) (ln n : Nat) : (c.dropPassed src ln).chan n = c.chan n := by
  cases src <;> rfl
@[simp] theorem Ctl.dropPassed_regs (c : Ctl) (src : ReqSrc) (ln : Nat) : (c.dropPassed src ln).regs = c.regs := by
  cases src <;> rfl

/-- R155: the job's deadline where it is the earlier one. -/
theorem Ctl.effDeadline_eq (c : Ctl) (kind : ReqKind) (dl : Option Nat) :
    let own := c.now + match kind with
      | .port q => 8 * c.get (R.QOS_PORT_LAT_TARGET q)
      | _ => 0
    c.effDeadline kind dl = match dl with
      | none => own
      | some d => min own d := by
  cases dl with
  | none => exact Nat.min_self _
  | some d => rfl

/-- The request for a line that arrives now from a source of a kind, a class and a job deadline. -/
def Ctl.lineReq (c : Ctl) (kind : ReqKind) (cls : Nat) (dl : Option Nat) (sa : Nat) (write : Bool) : Req :=
  { kind := kind, cls := cls, arrival := c.now, deadline := c.effDeadline kind dl, write := write, bank := (c.place sa).bank,
    row := (c.place sa).row, line := (c.place sa).line, sa := sa }

/-- The transfer of a row that arrives now from a port, of a class, a job deadline and a row step of a job. -/
def Ctl.rowReq (c : Ctl) (port cls : Nat) (dl : Option Nat) (sa : Nat) (write : Bool) (job : Option (Nat × Nat)) : Xfer :=
  { chan := (c.place sa).chan, bank := (c.place sa).bank, row := (c.place sa).row, write := write, cls := cls, port := port,
    arrival := c.now, deadline := c.effDeadline (.port port) dl, job := job }

/-- A request that waits at its controller's port. -/
def Ctl.waitAt (c : Ctl) (ch : Nat) (r : Req) : Ctl := c.setChan ch { c.chan ch with waiting := (c.chan ch).waiting ++ [r] }

/-- A transfer that waits at its lane's port. -/
def Ctl.waitLane (c : Ctl) (l : Nat) (x : Xfer) : Ctl := c.setLane l { c.lane l with waiting := (c.lane l).waiting ++ [x] }

theorem Ctl.mem_waitAt {c : Ctl} {ch : Nat} {r q : Req} :
    q ∈ ((c.waitAt ch r).chan ch).queue ++ ((c.waitAt ch r).chan ch).waiting ↔
      q ∈ (c.chan ch).queue ++ (c.chan ch).waiting ∨ q = r := by
  simp [waitAt, or_assoc]

theorem Ctl.mem_waitLane {c : Ctl} {l : Nat} {x z : Xfer} :
    z ∈ ((c.waitLane l x).lane l).pending ++ ((c.waitLane l x).lane l).waiting ↔
      z ∈ (c.lane l).pending ++ (c.lane l).waiting ∨ z = x := by
  simp [waitLane, or_assoc]

section
variable {c : Ctl} {src : ReqSrc} {sa cls : Nat} {write : Bool} {kind : ReqKind} {dl : Option Nat}

theorem requestEnqueue_absent {step : Option Nat} (h : c.reqFrom src sa = none) : requestEnqueue src sa write step c = c := by
  simp only [requestEnqueue, h]

section
variable (built : (c.place sa).chan < c.nch) (fed : (c.place sa).chan / 4 ∉ c.stk.feedsOpen)
include built fed

theorem requestEnqueue_line (h : c.reqFrom src sa = some (kind, cls, dl)) : requestEnqueue src sa write none c =
    ((c.waitAt (c.place sa).chan (c.lineReq kind cls dl sa write)).admitWaiting (c.place sa).chan).dropPassed src (sa / 64) := by
  simp only [requestEnqueue, h]
  rw [if_neg (by simp [fed, built])]
  rfl

theorem requestEnqueue_row {n q : Nat} {job : Option Nat} (h : c.reqFrom src sa = some (.port q, cls, dl))
    (j : c.laneJob src = some job) : requestEnqueue src sa write (some n) c =
    if c.laneUp ((c.place sa).chan / 4 % 4) then
      (c.waitLane ((c.place sa).chan / 4 % 4) (c.rowReq q cls dl sa write (job.map fun slot => (slot, n)))).admitLane
        ((c.place sa).chan / 4 % 4)
    else c := by
  simp only [requestEnqueue, h, j]
  rw [if_neg (by simp [fed, built])]
  rfl
end
end

/-- Settles O59: the request waits at its controller or its lane, and the admission that follows moves it at most into the queue. -/
theorem effectiveDeadlineIsArrivalPlusTarget : Obligations.EffectiveDeadlineIsArrivalPlusTarget := by
  intro src sa write step s
  refine ⟨fun slot j found => by rw [Ctl.reqFrom, found]; rfl, rfl, rfl,
    fun h => State.exec_ctl_eq rfl (requestEnqueue_absent h), fun kind cls dl h built fed => ⟨?_, ?_⟩⟩
  · rintro rfl
    let d := s.ctl.waitAt (s.ctl.place sa).chan (s.ctl.lineReq kind cls dl sa write)
    have held {q : Req} := d.admitWaiting_holds (ch := (s.ctl.place sa).chan) (q := q)
    obtain ⟨r, mem, same⟩ := held (Ctl.mem_waitAt.2 (.inr rfl))
    refine ⟨_, r, State.exec_ctl rfl (requestEnqueue_line built fed h), ?_⟩
    simp only [Ctl.dropPassed_chan, Ctl.dropPassed_regs, Ctl.admitWaiting_regs]
    refine ⟨mem, ?_, ?_, ?_, ?_, ?_, ?_, ?_, ?_, ?_, fun q m => held (Ctl.mem_waitAt.2 (.inl m)),
      fun y n => (d.admitWaiting_chan_ne n).trans (s.ctl.setChan_chan_ne _ _ _ n), rfl, rfl, rfl, rfl⟩
    case refine_9 => rw [same]; exact s.ctl.effDeadline_eq kind dl
    all_goals rw [same]; rfl
  · rintro n q job rfl rfl j
    have run := requestEnqueue_row (write := write) (n := n) built fed h j
    refine ⟨fun off => State.exec_ctl_eq rfl (run.trans (if_neg (by rw [off]; decide))), fun up => ?_⟩
    let d := s.ctl.waitLane ((s.ctl.place sa).chan / 4 % 4) (s.ctl.rowReq q cls dl sa write (job.map fun slot => (slot, n)))
    have held {z : Xfer} := d.admitLane_holds (l := (s.ctl.place sa).chan / 4 % 4) (z := z)
    obtain ⟨x, mem, same⟩ := held (Ctl.mem_waitLane.2 (.inr rfl))
    refine ⟨_, x, State.exec_ctl rfl (run.trans (if_pos up)), mem, ?_, ?_, ?_, ?_, ?_, ?_, ?_, ?_, ?_,
      fun z m => held (Ctl.mem_waitLane.2 (.inl m)),
      fun y n => (d.admitLane_lane_ne n).trans (s.ctl.setLane_lane_ne _ _ _ n), d.admitLane_regs _, rfl, rfl, rfl⟩
    case refine_9 => rw [same]; exact s.ctl.effDeadline_eq (.port q) dl
    all_goals rw [same]; rfl

end Sys2Proof.Machine
end

section
/-! Refresh windows and the refresh of a bank (R162, R163, R165). -/

namespace Sys2Proof.Machine

@[simp] theorem ChanSt.noteActs_bank (x : ChanSt) (now : Nat) (ts : List Nat) (a b : Nat) :
    (x.noteActs now ts a).bank b = x.bank b := rfl

/-! ## Windows -/

theorem Ctl.windowStarts_one (c : Ctl) (ch : Nat) : c.windowStarts ch 1 = [c.lastBeat + 360 * (ch % 4) + 90 * (ch / 4 % 4)] := by
  simp [windowStarts, windowOffset, Nat.add_assoc]

theorem Ctl.windowStarts_two (c : Ctl) (ch : Nat) :
    c.windowStarts ch 2 = (c.windowStarts ch 1).flatMap fun w => [w, w + 1950] := by
  simp [windowStarts, List.range_succ]

section
variable {c : Ctl} {ch : Nat}

/-- No window is due, one is open, or the dies are in self-refresh. -/
theorem refreshWindow_idle (h : (c.chan ch).starts = [] ∨ (c.chan ch).window ≠ none ∨ 2 ≤ c.stk.selfRef) :
    refreshWindow ch c = c := by
  unfold refreshWindow
  dsimp only
  split
  · rfl
  · next due =>
    rw [due] at h
    exact if_neg fun ⟨_, shut, awake⟩ => h.elim nofun fun k => k.elim (· shut) (Nat.not_le.2 awake)

theorem refreshWindow_opens {w : Nat} {rest : List Nat} (built : ch < c.nch) (due : (c.chan ch).starts = w :: rest)
    (none' : (c.chan ch).window = none) (awake : c.stk.selfRef < 2) : refreshWindow ch c =
      ((c.passTo w).applyCal (ch / 4) fun y => decide (y.cls = 0) && decide (y.item / 38 = ch % 4)).setChan ch
        { c.chan ch with window := some w, nextBank := 0, starts := rest } := by
  simp only [refreshWindow, due]
  rw [if_pos ⟨built, none', awake⟩]

/-- New column taps change nothing but what the device keeps of the calibration. -/
theorem Ctl.columnTaps_onlyCal (c : Ctl) (ch : Nat) :
    c.onlyCal (c.applyCal (ch / 4) fun y => decide (y.cls = 0) && decide (y.item / 38 = ch % 4)) :=
  c.applyCal_onlyCal _ fun x taps => by
    rw [of_decide_eq_true (Bool.and_eq_true_iff.1 taps).1]; decide

/-! ## A bank -/

theorem perBankRefresh_idle (h : (c.chan ch).window = none) : perBankRefresh ch c = c := by
  simp only [perBankRefresh, h]

/-- The instants at which the refresh of a bank that starts now activates it, its pending neighbour refresh included. -/
def refreshTimes (now : Nat) (k : BankSt) : List Nat := nrefTimes (now + 110000) k.nref ++ [now]

/-- A bank after its refresh, with the neighbour refresh that was pending on it (R162, R165). -/
def BankSt.refreshed (k : BankSt) (now : Nat) : BankSt :=
  { k with openRow := none, preAt := none, hits := 0, nref := 0, busyUntil := now + 110000 + 30000 * k.nref }

/-- A channel after the refresh of its next bank, in the window that opened at `w`. -/
def ChanSt.refreshed (x : ChanSt) (w now : Nat) : ChanSt :=
  { (x.setBank x.nextBank ((x.bank x.nextBank).refreshed now)).noteActs now (refreshTimes now (x.bank x.nextBank)) x.nextBank with
    nextBank := x.nextBank + 1, window := if x.nextBank = 15 then none else some w }

/-- The state after the refresh of the next bank, but for the canary's turn and the pointer. -/
def Ctl.bankRefreshed (c : Ctl) (ch w : Nat) : Ctl :=
  (c.setChan ch ((c.chan ch).refreshed w c.ps)).noteActs (ch / 4)
    (refreshTimes c.ps ((c.chan ch).bank (c.chan ch).nextBank)) false

/-- The pointer of a channel after bank 15 (R162). -/
def Ctl.advance (c : Ctl) (ch : Nat) : Ctl :=
  c.set (R.DMC_REF_STAT_POINTER ch) ((c.get (R.DMC_REF_STAT_POINTER ch) + 1) % 8192)

/-- The canary's turn, where the bank is the canary row's (R163). -/
def Ctl.canaryTurned (c : Ctl) (ch b : Nat) : Ctl := if c.canaryHere ch b then c.turnCanary ch else c

theorem Ctl.canaryTurned_regs (c : Ctl) (ch b : Nat) : (c.canaryTurned ch b).regs = c.regs := by
  unfold canaryTurned; split <;> rfl
theorem Ctl.canaryTurned_clock (c : Ctl) (ch b : Nat) : (c.canaryTurned ch b).clock = c.clock := by
  unfold canaryTurned; split <;> rfl
theorem Ctl.canaryTurned_chan (c : Ctl) (ch b n : Nat) : (c.canaryTurned ch b).chan n = c.chan n := by
  unfold canaryTurned; split <;> rfl
theorem Ctl.canaryTurned_dieActs (c : Ctl) (ch b d : Nat) : (c.canaryTurned ch b).dieActs d = c.dieActs d := by
  unfold canaryTurned; split <;> rfl

theorem perBankRefresh_eq {w : Nat} (opened : (c.chan ch).window = some w) :
    let b := (c.chan ch).nextBank
    let e := ((c.passTo (w + 20 * b)).bankRefreshed ch w).canaryTurned ch b
    perBankRefresh ch c = if b = 15 then e.advance ch else e := by
  simp only [perBankRefresh, opened]
  rfl

theorem Ctl.advance_pointer (c : Ctl) (ch : Nat) :
    (c.advance ch).get (R.DMC_REF_STAT_POINTER ch) = (c.get (R.DMC_REF_STAT_POINTER ch) + 1) % 8192 :=
  (get_set_same ..).trans (Nat.mod_mod ..)

theorem timNow_ne_pointer (ch : Nat) : (R.DMC_REF_STAT_POINTER ch).key ≠ R.TIM_NOW_VALUE.key := by
  simp only [R.DMC_REF_STAT_POINTER, R.TIM_NOW_VALUE]; omega

/-- What the refresh of a bank leaves of the fields: the pointer advances after bank 15. -/
theorem perBankRefresh_fields {w : Nat} (opened : (c.chan ch).window = some w) :
    (perBankRefresh ch c).get (R.DMC_REF_STAT_POINTER ch) =
      (if (c.chan ch).nextBank = 15 then (c.get (R.DMC_REF_STAT_POINTER ch) + 1) % 8192 else c.get (R.DMC_REF_STAT_POINTER ch)) ∧
    c.keeps (perBankRefresh ch c) [R.TIM_NOW_VALUE, R.DMC_REF_STAT_POINTER ch] := by
  generalize e : ((c.passTo (w + 20 * (c.chan ch).nextBank)).bankRefreshed ch w).canaryTurned ch (c.chan ch).nextBank = d
  have same (x : Fld) : d.get x = (c.passTo (w + 20 * (c.chan ch).nextBank)).get x := by
    rw [← e]; exact Ctl.get_congr _ _ (Ctl.canaryTurned_regs ..) x
  have before := (same _).trans (c.passTo_get _ (timNow_ne_pointer ch))
  have kept : c.keeps d [R.TIM_NOW_VALUE, R.DMC_REF_STAT_POINTER ch] := fun x n => (same x).trans (c.keeps_passTo _ _ x n)
  rw [perBankRefresh_eq opened, e]
  split
  · exact ⟨(Ctl.advance_pointer _ ch).trans (congrArg (fun n => (n + 1) % 8192) before), Ctl.keeps_set kept (by simp) _⟩
  · exact ⟨before, kept⟩

/-- What the refresh of a bank leaves of the channel, the clock and the activates of the die. -/
theorem perBankRefresh_stack {w : Nat} (opened : (c.chan ch).window = some w) :
    let d := c.passTo (w + 20 * (c.chan ch).nextBank)
    (perBankRefresh ch c).clock = d.clock ∧ (perBankRefresh ch c).chan ch = (c.chan ch).refreshed w d.ps ∧
      (d.ps, false) ∈ (perBankRefresh ch c).dieActs (ch / 4) := by
  intro d
  have chan : ((d.bankRefreshed ch w).canaryTurned ch (c.chan ch).nextBank).chan ch = (c.chan ch).refreshed w d.ps :=
    (Ctl.canaryTurned_chan ..).trans (d.setChan_chan ..)
  have noted : (d.ps, false) ∈ ((d.bankRefreshed ch w).canaryTurned ch (c.chan ch).nextBank).dieActs (ch / 4) := by
    rw [Ctl.canaryTurned_dieActs]
    exact Ctl.mem_noteActs _ _ _ _ _ (List.mem_append_right _ List.mem_cons_self)
  rw [perBankRefresh_eq opened]
  split
  · exact ⟨Ctl.canaryTurned_clock .., chan, noted⟩
  · exact ⟨Ctl.canaryTurned_clock .., chan, noted⟩
end

theorem ChanSt.refreshed_bank (x : ChanSt) (w now : Nat) :
    (x.refreshed w now).bank x.nextBank = (x.bank x.nextBank).refreshed now := x.setBank_bank ..

theorem ChanSt.refreshed_bank_ne (x : ChanSt) (w now : Nat) {b : Nat} (h : b ≠ x.nextBank) :
    (x.refreshed w now).bank b = x.bank b := x.setBank_bank_ne _ _ _ h

end Sys2Proof.Machine
end

section
/-! The bounds of a legal command (R28, R32, R158, R162, R165, R364); the intervals of R28 double while the device coasts (log entry 29). -/

namespace Sys2Proof.Machine

/-! ## Instants -/

/-- Where `earliest` starts no sooner than now and finds an instant that has come, the start has come, and passes the test. -/
theorem earliest_now {now start u : Nat} {points : List Nat} {ok : Nat → Bool} (e : earliest start points ok = u)
    (r : now ≤ start) (l : u ≤ now) : start ≤ u ∧ ok u = true := by
  subst e
  obtain ⟨same, passes⟩ := earliest_of_le _ _ _ (l.trans r)
  rw [same]
  exact ⟨Nat.le_refl _, passes⟩

theorem foldl_max_le {l : List Nat} {a u : Nat} : l.foldl max a ≤ u ↔ a ≤ u ∧ ∀ b ∈ l, b ≤ u := by
  induction l generalizing a with
  | nil => simp
  | cons b t ih => rw [List.foldl_cons, ih, List.forall_mem_cons, Nat.max_le, and_assoc]

theorem getD_map_le {o : Option Nat} {f : Nat → Nat} {u : Nat} : (o.map f).getD 0 ≤ u ↔ ∀ a, o = some a → f a ≤ u := by
  cases o <;> simp

theorem bankReady_le {k : BankSt} {m u : Nat} : bankReady k m ≤ u ↔
    k.busyUntil ≤ u ∧ (∀ a, k.preAt = some a → a + 14000 * m ≤ u) ∧ ∀ a, k.actAt = some a → a + 42000 * m ≤ u := by
  rw [bankReady, Nat.max_le, Nat.max_le, getD_map_le, getD_map_le]

/-! ## Windows of activates -/

/-- The window that ends with the new activate holds fewer than the most. -/
theorem windowFits_self {l : List Nat} {w most t : Nat} (h : windowFits l w most t = true) : inWindow l w t < most :=
  of_decide_eq_true (List.all_eq_true.1 h t List.mem_cons_self)

theorem inWindow_map_eq {α : Type} (l : List α) (f : α → Nat) (w e : Nat) :
    inWindow (l.map f) w e = (l.filter fun a => decide (f a ≤ e) && decide (e < f a + w)).length := by
  rw [inWindow, List.filter_map, List.length_map]
  rfl

theorem inWindow_le_append (l m : List Nat) (w e : Nat) : inWindow l w e ≤ inWindow (l ++ m) w e := by
  simp [inWindow]

/-- tRRD against the activates that a channel has made, and its tFAW. -/
theorem chanFits_acts {acts rest : List (Nat × Nat)} {b m t : Nat} (h : chanFits (acts ++ rest) b m t = true) :
    (∀ e ∈ acts, e.1 + rrd m e.2 b ≤ t ∨ t + rrd m e.2 b ≤ e.1) ∧
      (acts.filter fun e => decide (e.1 ≤ t) && decide (t < e.1 + 12000 * m)).length < 4 := by
  rw [chanFits, Bool.and_eq_true] at h
  obtain ⟨fits, apart⟩ := h
  refine ⟨fun e mem => by simpa using List.all_eq_true.1 apart e (List.mem_append_left _ mem), ?_⟩
  rw [List.map_append] at fits
  rw [← inWindow_map_eq]
  exact (inWindow_le_append ..).trans_lt (windowFits_self fits)

/-- The window of the die, and the share of the lanes in it (R32). -/
theorem Ctl.dieFits_acts {c : Ctl} {d t : Nat} {lane : Bool} (h : c.dieFits d lane t = true) :
    ((c.dieActs d).filter fun e => decide (e.1 ≤ t) && decide (t < e.1 + 64000)).length < c.effectiveMax ∧
      (lane = true → ((c.dieActs d).filter fun e => e.2 && decide (e.1 ≤ t) && decide (t < e.1 + 64000)).length <
        c.get R.STK_ACT_CFG_ROW_SHARE) := by
  rw [dieFits, Bool.and_eq_true] at h
  obtain ⟨fits, share⟩ := h
  constructor
  · rw [← inWindow_map_eq]
    exact (inWindow_le_append ..).trans_lt (windowFits_self fits)
  · rintro rfl
    rw [Bool.not_true, Bool.false_or, decide_eq_true_iff, inWindow_map_eq, List.filter_filter] at share
    simpa only [Bool.and_comm, Bool.and_left_comm, Bool.and_assoc] using share

/-! ## The next command of a work item -/

section
variable {k : BankSt} {w : Cand}

/-- When each command is the next one: an activate or the pending neighbour refresh for a closed bank, a column for the open row, a precharge
for another one. -/
theorem nextCmd_spec {cmd : DramCmd} (h : nextCmd k w = some cmd) : match cmd with
    | .activate => k.openRow = none ∧ k.nref = 0
    | .neighbour => k.openRow = none ∧ k.nref ≠ 0
    | .column => k.openRow = some w.req.row ∧ w.lane = false
    | .precharge => k.openRow ≠ none ∧ k.openRow ≠ some w.req.row := by
  unfold nextCmd at h
  split at h
  next shut =>
    split at h
    · next clean => cases h; exact ⟨shut, clean⟩
    · next pending => cases h; exact ⟨shut, pending⟩
  next r opened =>
    split at h
    · next hit =>
      split at h
      · cases h
      · next request => cases h; exact ⟨opened.trans (congrArg some hit), Bool.eq_false_iff.2 request⟩
    · next other => cases h; exact ⟨by simp [opened], by simp [opened, other]⟩
end

/-! ## Legal commands -/

section
variable {c : Ctl} {ch u : Nat} {w : Cand} {cmd : DramCmd}

/-- A legal command is the next one of its work item. -/
theorem Ctl.nextCmd_of_legalAt (h : c.legalAt ch w = some (cmd, u)) : nextCmd ((c.chan ch).bank w.req.bank) w = some cmd := by
  unfold legalAt at h
  dsimp only at h
  split at h
  case h_4 => split at h <;> simp_all
  all_goals simp_all

/-- The lead of a column over a refresh of its bank: tRP, and for a write its burst and tWR as well (log entry 107). -/
theorem colLead_eq (write : Bool) (m : Nat) : colLead write m = if write then 31667 * m else 14000 * m := by
  rw [colLead, Nat.mul_comm, ite_mul]

theorem Ctl.tapClear_starts (h : c.tapClear ch u = true) (due : c.tapsDue ch = true) :
    ∀ r ∈ (c.chan ch).starts, u + 30000 ≤ r * 1000 ∨ r * 1000 ≤ u := fun r mem => by
  simp only [tapClear, due, Bool.not_true, Bool.false_or] at h
  simpa using List.all_eq_true.1 h r (List.mem_append_left _ mem)

variable (now : u ≤ c.ps)
include now

theorem Ctl.legalAt_activate (h : c.legalAt ch w = some (.activate, u)) :
    bankReady ((c.chan ch).bank w.req.bank) c.slowdown ≤ u ∧ chanFits (c.chanBusy ch) w.req.bank c.slowdown u = true ∧
      clearOf (c.slots ch w.req.bank) (48000 * c.slowdown) u = true ∧ c.dieFits (ch / 4) w.lane u = true := by
  have next := nextCmd_of_legalAt h
  simp only [legalAt, next, Option.some.injEq, Prod.mk.injEq, true_and] at h
  obtain ⟨ready, ok⟩ := earliest_now h (Nat.le_max_left ..) now
  rw [Bool.and_eq_true, Bool.and_eq_true, and_assoc] at ok
  exact ⟨(Nat.le_max_right ..).trans ready, ok⟩

theorem Ctl.legalAt_neighbour (h : c.legalAt ch w = some (.neighbour, u)) :
    bankReady ((c.chan ch).bank w.req.bank) c.slowdown ≤ u ∧
      clearOf (c.slots ch w.req.bank) (30000 * ((c.chan ch).bank w.req.bank).nref) u = true := by
  have next := nextCmd_of_legalAt h
  simp only [legalAt, next, Option.some.injEq, Prod.mk.injEq, true_and] at h
  obtain ⟨ready, ok⟩ := earliest_now h (Nat.le_max_left ..) now
  exact ⟨(Nat.le_max_right ..).trans ready, (Bool.and_eq_true_iff.1 ok).2⟩

theorem Ctl.legalAt_precharge (h : c.legalAt ch w = some (.precharge, u)) :
    (∀ a, ((c.chan ch).bank w.req.bank).actAt = some a → a + 28000 * c.slowdown ≤ u) ∧
      (∀ a, ((c.chan ch).bank w.req.bank).wrEnd = some a → a + 15000 * c.slowdown ≤ u) ∧
      clearOf (c.slots ch w.req.bank) (14000 * c.slowdown) u = true ∧ c.hitHolds ch w = false := by
  have next := nextCmd_of_legalAt h
  simp only [legalAt, next] at h
  split at h
  · cases h
  next free =>
    simp only [Option.some.injEq, Prod.mk.injEq, true_and] at h
    obtain ⟨ready, ok⟩ := earliest_now h (Nat.le_max_left ..) now
    rw [Nat.max_le, Nat.max_le, getD_map_le, getD_map_le] at ready
    obtain ⟨-, act, write⟩ := ready
    exact ⟨act, write, (Bool.and_eq_true_iff.1 ok).1, Bool.eq_false_iff.2 free⟩

theorem Ctl.legalAt_column (h : c.legalAt ch w = some (.column, u)) :
    ((c.chan ch).bank w.req.bank).busyUntil ≤ u ∧
      (∀ a, ((c.chan ch).bank w.req.bank).actAt = some a → a + 14000 * c.slowdown ≤ u) ∧
      (∀ e ∈ (c.chan ch).cols, e.1 + c.slowdown * (if e.2 / 4 = w.req.bank / 4 then 5333 else 2667) ≤ u) ∧
      clearOf (c.slots ch w.req.bank) (colLead w.req.write c.slowdown) u = true ∧ c.tapClear ch u = true := by
  have next := nextCmd_of_legalAt h
  simp only [legalAt, next, Option.some.injEq, Prod.mk.injEq, true_and] at h
  obtain ⟨ready, ok⟩ := earliest_now h ((foldl_max_le.1 (Nat.le_refl _)).2 _ List.mem_cons_self) now
  simp only [foldl_max_le, List.forall_mem_cons, List.forall_mem_map, getD_map_le] at ready
  obtain ⟨-, -, act, busy, gaps⟩ := ready
  exact ⟨busy, act, gaps, Bool.and_eq_true_iff.1 ok⟩
end

end Sys2Proof.Machine
end

section
/-! A command cycle of a controller (R32, R156, R158, R161): what it counts, which command it issues, and what that leaves of the bank. -/

namespace Sys2Proof.Machine

/-! ## Before the command -/

@[simp] theorem Ctl.bump_chan (c : Ctl) (x : Fld) (k n : Nat) : (c.bump x k).chan n = c.chan n := rfl

section
variable (c : Ctl) (ch : Nat)

theorem Ctl.serve_clock (k : ReqKind) (cls : Nat) (write : Bool) (bytes : Nat) : (c.serve k cls write bytes).clock = c.clock := by
  cases k <;> rfl

/-- The counters of R237 stand below every register of a channel; a class that is one of the eight has its own. -/
theorem Ctl.serve_get {k : ReqKind} {cls : Nat} {write : Bool} {bytes : Nat} {x : Fld} (above : R.QOS_BW_FRG_BYTES.key < x.key)
    (class' : cls < 8) : (c.serve k cls write bytes).get x = c.get x := by
  simp only [R.QOS_BW_FRG_BYTES] at above
  cases k with
  | port p =>
    refine c.get_bump_ne _ x bytes ?_
    split
    · simp only [R.QOS_BW_WR_BYTES]; omega
    · simp only [R.QOS_BW_RD_BYTES]; omega
  | forager => exact c.get_bump_ne _ x bytes (Nat.ne_of_gt above)
  | _ => exact c.get_bump_ne _ x bytes (by simp only [R.QOS_BW_META_BYTES]; omega)

theorem Ctl.settle_clock : (c.settle ch).clock = c.clock := by
  unfold settle
  dsimp only
  split
  · rfl
  · exact foldl_keeps Ctl.clock (fun a f => a.serve_clock ..) _ _

theorem Ctl.settle_get {x : Fld} (above : R.QOS_BW_FRG_BYTES.key < x.key) (classes : ∀ f ∈ (c.chan ch).flight, f.req.cls < 8) :
    (c.settle ch).get x = c.get x := by
  unfold settle
  dsimp only
  split
  · rfl
  · refine List.foldlRecOn (motive := fun d : Ctl => d.get x = c.get x) _ _ rfl fun d same f mem => ?_
    exact (d.serve_get above (classes f (List.mem_filter.1 mem).1)).trans same

theorem Ctl.countPromotions_clock : (c.countPromotions ch).clock = c.clock := rfl

theorem Ctl.countPromotions_get {x : Fld} (n : x.key ≠ (R.DMC_PROMOTE_CNT_COUNT ch).key) :
    (c.countPromotions ch).get x = c.get x := Ctl.get_bump_ne _ _ x _ n

/-- The controller at the moment it looks for a command: what has ended is settled, one request is admitted, promotions are counted. -/
def Ctl.readied : Ctl := ((c.settle ch).admitWaiting ch).countPromotions ch

theorem Ctl.readied_clock : (c.readied ch).clock = c.clock := by
  rw [readied, countPromotions_clock, admitWaiting_clock, settle_clock]

theorem Ctl.readied_actCount (classes : ∀ f ∈ (c.chan ch).flight, f.req.cls < 8) :
    (c.readied ch).get (R.DMC_ACT_CNT_COUNT ch) = c.get (R.DMC_ACT_CNT_COUNT ch) := by
  rw [readied, countPromotions_get _ _ (by simp only [R.DMC_ACT_CNT_COUNT, R.DMC_PROMOTE_CNT_COUNT]; omega),
    get_congr _ _ (admitWaiting_regs ..), settle_get _ _ _ classes]
  simp only [R.DMC_ACT_CNT_COUNT, R.QOS_BW_FRG_BYTES]; omega

/-! ## Activates that the die's window stalls -/

/-- A stall is counted in its die's counter and marked at its request: banks, clock and the channel's counters stay. -/
theorem Ctl.countStall_kept (w : Cand) : (Ctl.countStall ch c w).clock = c.clock ∧
    (∀ b, ((Ctl.countStall ch c w).chan ch).bank b = (c.chan ch).bank b) ∧
    ∀ x : Fld, x.key ≠ (R.STK_ACT_STALL_STALLS (ch / 4)).key → (Ctl.countStall ch c w).get x = c.get x := by
  have counted (x : Fld) (n : x.key ≠ (R.STK_ACT_STALL_STALLS (ch / 4)).key) := c.get_bump_ne _ x 1 n
  unfold countStall
  dsimp only
  split
  · split
    · exact ⟨rfl, fun b => rfl, counted⟩
    · exact ⟨rfl, fun b => by rw [setChan_chan]; rfl, counted⟩
  · exact ⟨rfl, fun b => rfl, fun x _ => rfl⟩

/-- The stalls of all work items counted. -/
def Ctl.stalled : Ctl := ((c.ranked ch).map Prod.snd).foldl (Ctl.countStall ch) c

theorem Ctl.stalled_clock : (c.stalled ch).clock = c.clock :=
  foldl_keeps Ctl.clock (fun a w => (a.countStall_kept ch w).1) _ _

theorem Ctl.stalled_bank (b : Nat) : ((c.stalled ch).chan ch).bank b = (c.chan ch).bank b :=
  foldl_keeps (fun a : Ctl => (a.chan ch).bank b) (fun a w => (a.countStall_kept ch w).2.1 b) _ _

theorem timNow_ne_actCount : (R.DMC_ACT_CNT_COUNT ch).key ≠ R.TIM_NOW_VALUE.key := by
  simp only [R.DMC_ACT_CNT_COUNT, R.TIM_NOW_VALUE]; omega

theorem Ctl.nch_le : c.nch ≤ 48 := by
  unfold nch nd
  split <;> decide

theorem actCount_ne_stalls : ch < 48 → (R.DMC_ACT_CNT_COUNT ch).key ≠ (R.STK_ACT_STALL_STALLS (ch / 4)).key := by
  simp only [R.DMC_ACT_CNT_COUNT, R.STK_ACT_STALL_STALLS]; omega

theorem Ctl.stalled_actCount (h : ch < 48) : (c.stalled ch).get (R.DMC_ACT_CNT_COUNT ch) = c.get (R.DMC_ACT_CNT_COUNT ch) :=
  foldl_keeps (fun a : Ctl => a.get (R.DMC_ACT_CNT_COUNT ch))
    (fun a w => (a.countStall_kept ch w).2.2 _ (actCount_ne_stalls ch h)) _ _
end

/-! ## The choice -/

section
variable {c : Ctl} {ch : Nat} {items : List (Nat × Cand)} {w : Cand} {cmd : DramCmd} {b : Nat}

/-- A chosen command is legal by now. -/
theorem Ctl.chooseCmd_legal (h : c.chooseCmd ch items = some (w, cmd)) : ∃ u, c.legalAt ch w = some (cmd, u) ∧ u ≤ c.ps := by
  unfold chooseCmd at h
  split at h
  · cases h
  obtain ⟨e, -, found⟩ := List.exists_of_findSome?_eq_some h
  dsimp only at found
  split at found
  case h_2 => cases found
  next d u legal =>
    split at found
    · cases found
    next due =>
      split at found
      · cases found
        exact ⟨u, legal, Nat.le_of_not_lt due⟩
      · cases found

/-- An idle open row that is precharged: every request for it that stands at the controller or its lane is less urgent than the one that the
row last served. -/
theorem Ctl.idleOpen_spec (h : c.idleOpen ch = some b) : ((c.chan ch).bank b).openRow ≠ none ∧
    ∀ r ∈ (c.chan ch).held ++ (c.chanXfers ch).map Xfer.asReq, r.bank = b → some r.row = ((c.chan ch).bank b).openRow →
      ((c.chan ch).bank b).band < c.band r := by
  have idle := List.find?_some h
  simp only [Bool.and_eq_true, Bool.not_eq_true', List.any_eq_false, decide_eq_true_eq] at idle
  obtain ⟨⟨⟨⟨⟨⟨opened, unwanted⟩, -⟩, -⟩, -⟩, -⟩, -⟩ := idle
  exact ⟨Option.isSome_iff_ne_none.1 opened, fun r mem at_ hits => Nat.lt_of_not_le fun l => unwanted r mem ⟨⟨at_, hits⟩, l⟩⟩

/-- A neighbour refresh that is due is legal now. -/
theorem Ctl.neighbourDue_legal (h : c.neighbourDue ch = some w) : c.legalAt ch w = some (.neighbour, c.ps) := by
  have due := List.find?_some h
  exact of_decide_eq_true due

theorem Ctl.issueOne_issues (h : c.chooseCmd ch items = some (w, cmd))
    (first : c.idleOpen ch = none ∨ items.head?.map Prod.snd = some w) : c.issueOne ch items = c.issue ch w cmd := by
  unfold issueOne
  rw [h]
  cases idle : c.idleOpen ch with
  | none => rfl
  | some b => exact if_pos (first.resolve_left (by simp [idle]))

theorem Ctl.issueOne_closes (h : c.idleOpen ch = some b)
    (first : ∀ w cmd, c.chooseCmd ch items = some (w, cmd) → items.head?.map Prod.snd ≠ some w) :
    c.issueOne ch items = c.closeBank ch b := by
  unfold issueOne
  rw [h]
  cases chosen : c.chooseCmd ch items with
  | none => rfl
  | some e => exact if_neg (first e.1 e.2 chosen)

theorem Ctl.issueOne_rests (h : c.chooseCmd ch items = none) (idle : c.idleOpen ch = none) : c.issueOne ch items = c := by
  unfold issueOne
  rw [h, idle]

/-! ## The command -/

theorem Ctl.issueOne_cases (c : Ctl) (ch : Nat) (items : List (Nat × Cand)) : (∃ w cmd, c.issueOne ch items = c.issue ch w cmd) ∨
    (∃ b, c.issueOne ch items = c.closeBank ch b) ∨ c.issueOne ch items = c := by
  unfold issueOne
  split
  · split
    · split
      · exact .inl ⟨_, _, rfl⟩
      · exact .inr (.inl ⟨_, rfl⟩)
    · exact .inl ⟨_, _, rfl⟩
  · exact .inr (.inl ⟨_, rfl⟩)
  · exact .inr (.inr rfl)

theorem Ctl.judgePanic_clock (c : Ctl) : c.judgePanic.clock = c.clock := by
  unfold judgePanic
  dsimp only
  split
  all_goals split <;> rfl

theorem Ctl.drainIngest_kept (c : Ctl) (r : Req) (n : Nat) :
    (c.drainIngest r).clock = c.clock ∧ (c.drainIngest r).chan n = c.chan n := by
  unfold drainIngest
  split
  · split
    · exact ⟨judgePanic_clock _, by rw [chan, judgePanic_stk]; rfl⟩
    · exact ⟨rfl, rfl⟩
  · exact ⟨rfl, rfl⟩

theorem Ctl.issue_clock (c : Ctl) (ch : Nat) (w : Cand) (cmd : DramCmd) : (c.issue ch w cmd).clock = c.clock := by
  cases cmd with
  | activate => simp only [issue]; split <;> rfl
  | column => exact ((drainIngest_kept _ _ ch).1).trans (by split <;> rfl)
  | _ => rfl

theorem Ctl.closeBank_bank (c : Ctl) (ch b : Nat) : ((c.closeBank ch b).chan ch).bank b =
    { (c.chan ch).bank b with openRow := none, preAt := some c.ps, hits := 0 } := by
  rw [closeBank, setChan_chan, ChanSt.setBank_bank]

theorem Ctl.issue_neighbour (c : Ctl) (ch : Nat) (w : Cand) : ((c.issue ch w .neighbour).chan ch).bank w.req.bank =
    { (c.chan ch).bank w.req.bank with busyUntil := c.ps + 30000 * ((c.chan ch).bank w.req.bank).nref, nref := 0 } := by
  simp only [issue, noteActs_chan, setChan_chan, ChanSt.noteActs_bank, ChanSt.setBank_bank]

theorem Ctl.issue_precharge (c : Ctl) (ch : Nat) (w : Cand) : c.issue ch w .precharge = c.closeBank ch w.req.bank := rfl

/-- An activate opens the row, with a neighbour refresh pending on it where one is drawn. -/
theorem Ctl.issue_activate (c : Ctl) (ch : Nat) (w : Cand) : ((c.issue ch w .activate).chan ch).bank w.req.bank =
    { (c.chan ch).bank w.req.bank with
      openRow := some w.req.row, actAt := some c.ps, preAt := none, wrEnd := none, hits := 0, band := c.candBand ch w
      nref := if c.fresh.1 % 2 ^ c.nrefP = 0 then c.neighbours w.req.row else 0 } := by
  simp only [issue, decide_eq_true_eq]
  split
  all_goals simp only [bump_chan, noteActs_chan, setChan_chan, ChanSt.noteActs_bank, ChanSt.setBank_bank]

theorem Ctl.issue_activate_count (c : Ctl) (ch : Nat) (w : Cand) : (c.issue ch w .activate).get (R.DMC_ACT_CNT_COUNT ch) =
    min (c.get (R.DMC_ACT_CNT_COUNT ch) + 1) (2 ^ 64 - 1) := by
  simp only [issue]
  split
  · rw [get_bump_ne _ _ _ _ (by simp only [R.DMC_ACT_CNT_COUNT, R.DMC_NREF_CNT_COUNT]; omega)]
    exact get_bump_same ..
  · exact get_bump_same ..

theorem Ctl.fly_bank (c : Ctl) (ch d : Nat) (r : Req) (bytes b : Nat) :
    ((c.fly ch d r bytes).chan ch).bank b = (c.chan ch).bank b := by
  rw [fly, setChan_chan]
  rfl

/-- A column command counts as a hit on the open row. -/
theorem Ctl.issue_column (c : Ctl) (ch : Nat) (w : Cand) : ((c.issue ch w .column).chan ch).bank w.req.bank =
    { (c.chan ch).bank w.req.bank with
      hits := ((c.chan ch).bank w.req.bank).hits + 1, band := c.candBand ch w
      wrEnd := if w.req.write then some (c.ps + 2667 * c.slowdown) else ((c.chan ch).bank w.req.bank).wrEnd } := by
  simp only [issue]
  rw [(drainIngest_kept _ _ ch).2]
  split
  · rw [bump_chan, fly_bank, setChan_chan]
    exact ChanSt.setBank_bank ..
  · rw [fly_bank, setChan_chan]
    exact ChanSt.setBank_bank ..

/-! ## The cycle -/

theorem Ctl.commandCycle_neighbour (h : c.neighbourDue ch = some w) : c.commandCycle ch = c.issue ch w .neighbour := by
  rw [commandCycle, h]

theorem Ctl.commandCycle_issues (h : c.neighbourDue ch = none) :
    c.commandCycle ch = (c.stalled ch).issueOne ch ((c.stalled ch).ranked ch) := by
  rw [commandCycle, h]
  rfl

/-- The chosen command is issued, but where an idle row goes before one that is not the first-ranked. -/
theorem Ctl.commandCycle_chosen (h : c.neighbourDue ch = none)
    (chosen : (c.stalled ch).chooseCmd ch ((c.stalled ch).ranked ch) = some (w, cmd))
    (first : (c.stalled ch).idleOpen ch = none ∨ ((c.stalled ch).ranked ch).head?.map Prod.snd = some w) :
    c.commandCycle ch = (c.stalled ch).issue ch w cmd := (commandCycle_issues h).trans (issueOne_issues chosen first)

theorem Ctl.commandCycle_clock (c : Ctl) (ch : Nat) : (c.commandCycle ch).clock = c.clock := by
  cases h : c.neighbourDue ch with
  | some w => rw [commandCycle_neighbour h, issue_clock]
  | none =>
    rw [commandCycle_issues h, ← c.stalled_clock ch]
    rcases (c.stalled ch).issueOne_cases ch ((c.stalled ch).ranked ch) with ⟨w, cmd, e⟩ | ⟨b, e⟩ | e
    · rw [e, issue_clock]
    · rw [e]; rfl
    · rw [e]

/-- A channel that is closed, absent, in self-refresh or without power issues nothing. -/
theorem channelCommandIssue_none {dt : Nat}
    (h : c.nch ≤ ch ∨ (c.chan ch).closed = true ∨ c.stk.selfRef ≠ 0 ∨ ch / 4 ∈ c.stk.feedsOpen) :
    channelCommandIssue ch dt c = c.pass dt := by
  rw [← List.contains_iff_mem] at h
  exact if_pos h

theorem channelCommandIssue_runs {dt : Nat} (built : ch < c.nch) (opened : (c.chan ch).closed = false) (awake : c.stk.selfRef = 0)
    (fed : ch / 4 ∉ c.stk.feedsOpen) :
    channelCommandIssue ch dt c = (((c.pass dt).readied ch).commandCycle ch).admitWaiting ch := by
  rw [← List.contains_iff_mem] at fed
  refine if_neg fun k => ?_
  rcases k with k | k | k | k
  · exact absurd k (Nat.not_le.2 built)
  · exact absurd (opened.symm.trans k) (by decide)
  · exact k awake
  · exact fed k
end

end Sys2Proof.Machine
end

section
/-! A cycle of a row lane (R30, R160, R325, R364), and a row that lands (R30). -/

namespace Sys2Proof.Machine

theorem laneCycle_none {l dt : Nat} {c : Ctl}
    (h : 4 ≤ l ∨ c.laneUp l = false ∨ c.domainOpen (13 + l) = false ∨ c.stk.selfRef ≠ 0) : laneCycle l dt c = c.pass dt := by
  rw [← c.pass_laneUp dt, ← c.pass_domainOpen dt] at h
  exact if_pos h

section
variable (c : Ctl) (l : Nat)

/-! ## A transfer that takes the cycle -/

/-- The transfers of the run's direction that can take the cycle, those of jobs within their duty limit (R160, R325). -/
def Ctl.movable : List Xfer := (c.lane l).pending.filter fun q => decide (q.write = (c.lane l).write) && c.xferReady l q &&
  (decide (q.port ≠ 2) || decide ((c.lane l).jobRows < c.dutyLimit))

theorem Ctl.carry_moves {x : Xfer} (h : c.firstXfer (c.movable l) = some x) :
    c.carry l = (c.moveRow l x).laneLegs l (some x) := by
  rw [movable] at h
  rw [carry, h]

theorem Ctl.carry_idles (h : c.firstXfer (c.movable l) = none) : c.carry l = c.laneLegs l none := by
  rw [movable] at h
  rw [carry, h]

theorem Ctl.firstXfer_movable {x : Xfer} (h : c.firstXfer (c.movable l) = some x) :
    x ∈ (c.lane l).pending ∧ x.write = (c.lane l).write := by
  obtain ⟨mem, may⟩ := List.mem_filter.1 (c.firstXfer_mem _ _ h)
  simp only [Bool.and_eq_true, decide_eq_true_eq] at may
  obtain ⟨⟨same, -⟩, -⟩ := may
  exact ⟨mem, same⟩

theorem Ctl.moveRow_clock (x : Xfer) : (c.moveRow l x).clock = c.clock := by
  unfold moveRow
  dsimp only
  split <;> rfl

theorem Ctl.moveRow_get (x : Xfer) (f : Fld) : (c.moveRow l x).get f = (c.bump (R.ROWL_XFER_CNT_ROWS l)).get f := by
  unfold moveRow
  dsimp only
  split <;> rfl

theorem Ctl.moveRow_lane (x : Xfer) : (c.moveRow l x).lane l = { c.lane l with
    pending := (c.lane l).pending.erase x, run := (c.lane l).run + 1, jobRows := (c.lane l).jobRows + bit (x.port = 2)
    landing := if x.write then (c.lane l).landing else (c.lane l).landing ++ [(c.ps + 8000 * c.slowdown, x)] } := by
  unfold moveRow
  dsimp only
  split <;> exact c.setLane_lane l _

/-- A read takes its cell when its row lands; a write gives its cell back now. -/
theorem Ctl.moveRow_cells (x : Xfer) : (x.write = false → (c.moveRow l x).stk.cells = c.stk.cells) ∧
    (x.write = true → (mapGet (c.moveRow l x).stk.cells x.slot).getD 0 = (mapGet c.stk.cells x.slot).getD 0 - 1) := by
  unfold moveRow
  constructor
  · intro read
    rw [read]
    rfl
  · intro write
    rw [write]
    exact freeCells_get _ _ 1

/-- A lane keeps its direction and its run through a cycle, which moves at most one row. -/
theorem Ctl.carry_kept : ((c.carry l).lane l).write = (c.lane l).write ∧ ((c.carry l).lane l).chosen = (c.lane l).chosen ∧
    ((c.carry l).lane l).run ≤ (c.lane l).run + 1 := by
  cases first : c.firstXfer (c.movable l) with
  | none =>
    rw [c.carry_idles l first, (c.laneLegs_onlyCal l none).lane]
    exact ⟨rfl, rfl, Nat.le_succ _⟩
  | some x =>
    rw [c.carry_moves l first, ((c.moveRow l x).laneLegs_onlyCal l (some x)).lane, moveRow_lane]
    exact ⟨rfl, rfl, Nat.le_refl _⟩

theorem Ctl.carry_clock : (c.carry l).clock = c.clock := by
  cases first : c.firstXfer (c.movable l) with
  | none => rw [c.carry_idles l first, (c.laneLegs_onlyCal l none).clock]
  | some x => rw [c.carry_moves l first, ((c.moveRow l x).laneLegs_onlyCal l (some x)).clock, moveRow_clock]

/-! ## Runs -/

/-- The run under way goes on: it has moved fewer than 32 rows, and a transfer of its direction is pending. -/
def LaneSt.goesOn (y : LaneSt) : Prop := y.chosen = true ∧ y.run < 32 ∧ ∃ q ∈ y.pending, q.write = y.write

theorem LaneSt.goesOn_iff (y : LaneSt) :
    (y.chosen && decide (y.run < 32) && y.pending.any fun x => decide (x.write = y.write)) = true ↔ y.goesOn := by
  simp [goesOn, and_assoc]

/-- A lane's cycle once it is counted and a waiting transfer is admitted. -/
def Ctl.laneWork : Ctl :=
  let y := c.lane l
  if y.chosen && decide (y.run < 32) && y.pending.any (fun x => decide (x.write = y.write)) then c.carry l
  else match c.firstXfer y.pending with
    | none => (c.setLane l { y with run := 0, chosen := false }).laneLegs l none
    | some f =>
      let c1 := c.setLane l { y with run := 0, write := f.write, chosen := true }
      if f.write = y.write then c1.carry l else c1.laneLegs l none

theorem Ctl.laneWork_goesOn (h : (c.lane l).goesOn) : c.laneWork l = c.carry l :=
  if_pos ((LaneSt.goesOn_iff _).2 h)

theorem Ctl.laneWork_ends (h : ¬(c.lane l).goesOn) : c.laneWork l = match c.firstXfer (c.lane l).pending with
    | none => (c.setLane l { c.lane l with run := 0, chosen := false }).laneLegs l none
    | some f =>
      let d := c.setLane l { c.lane l with run := 0, write := f.write, chosen := true }
      if f.write = (c.lane l).write then d.carry l else d.laneLegs l none :=
  if_neg (mt (LaneSt.goesOn_iff _).1 h)

/-- A cycle of a run that no transfer can use stays idle. -/
theorem Ctl.laneWork_idles (on : (c.lane l).goesOn) (none' : c.firstXfer (c.movable l) = none) :
    (c.laneWork l).lane l = c.lane l ∧ (c.laneWork l).stk = c.stk ∧ ∀ x, (c.laneWork l).get x = c.get x := by
  have legs := c.laneLegs_onlyCal l none
  rw [c.laneWork_goesOn l on, c.carry_idles l none']
  exact ⟨legs.lane l, legs.stk, legs.get⟩

/-- With nothing pending no run is under way, and the lane only takes new sampling legs. -/
theorem Ctl.laneWork_rests (none' : (c.lane l).pending = []) :
    (c.laneWork l).lane l = { c.lane l with run := 0, chosen := false } ∧ ∀ x, (c.laneWork l).get x = c.get x := by
  have off : ¬(c.lane l).goesOn := fun ⟨_, _, q, mem, _⟩ => absurd (none' ▸ mem) List.not_mem_nil
  have empty : c.firstXfer (c.lane l).pending = none := by rw [none']; rfl
  have legs := (c.setLane l { c.lane l with run := 0, chosen := false }).laneLegs_onlyCal l none
  rw [c.laneWork_ends l off, empty]
  exact ⟨(legs.lane l).trans (c.setLane_lane l _), legs.get⟩

/-- A change of direction costs the cycle. -/
theorem Ctl.laneWork_turns {f : Xfer} (off : ¬(c.lane l).goesOn) (first : c.firstXfer (c.lane l).pending = some f)
    (turn : f.write ≠ (c.lane l).write) : (c.laneWork l).lane l = { c.lane l with run := 0, write := f.write, chosen := true } ∧
      ∀ x, (c.laneWork l).get x = c.get x := by
  have legs := (c.setLane l { c.lane l with run := 0, write := f.write, chosen := true }).laneLegs_onlyCal l none
  rw [c.laneWork_ends l off, first]
  dsimp only
  rw [if_neg turn]
  exact ⟨(legs.lane l).trans (c.setLane_lane l _), legs.get⟩

/-- A run in the direction of the last one starts in the cycle. -/
theorem Ctl.laneWork_starts {f : Xfer} (off : ¬(c.lane l).goesOn) (first : c.firstXfer (c.lane l).pending = some f)
    (same : f.write = (c.lane l).write) : ((c.laneWork l).lane l).write = (c.lane l).write ∧
      ((c.laneWork l).lane l).chosen = true ∧ ((c.laneWork l).lane l).run ≤ 1 := by
  obtain ⟨write, chosen, moved⟩ := (c.setLane l { c.lane l with run := 0, write := f.write, chosen := true }).carry_kept l
  rw [setLane_lane] at write chosen moved
  rw [c.laneWork_ends l off, first]
  dsimp only
  rw [if_pos same]
  exact ⟨write.trans same, chosen, moved⟩

/-- The lane as a cycle finds it. -/
def Ctl.laneReadied : Ctl := (c.countCycle l).admitLane l

theorem Ctl.laneReadied_clock : (c.laneReadied l).clock = c.clock := (c.countCycle l).admitLane_clock l

theorem Ctl.laneReadied_get (x : Fld) : (c.laneReadied l).get x = c.get x :=
  get_congr _ _ ((c.countCycle l).admitLane_regs l) x

theorem timNow_ne_rows : (R.ROWL_XFER_CNT_ROWS l).key ≠ R.TIM_NOW_VALUE.key := by
  simp only [R.ROWL_XFER_CNT_ROWS, R.TIM_NOW_VALUE]; omega

theorem Ctl.laneWork_clock : (c.laneWork l).clock = c.clock := by
  by_cases h : (c.lane l).goesOn
  · rw [c.laneWork_goesOn l h, carry_clock]
  · rw [c.laneWork_ends l h]
    split
    · exact (laneLegs_onlyCal ..).clock
    · dsimp only
      split
      · exact carry_clock ..
      · exact (laneLegs_onlyCal ..).clock
end

theorem laneCycle_runs {l dt : Nat} {c : Ctl} (built : l < 4) (up : c.laneUp l = true) (opened : c.domainOpen (13 + l) = true)
    (awake : c.stk.selfRef = 0) : laneCycle l dt c = ((c.pass dt).laneReadied l).laneWork l := by
  rw [← c.pass_laneUp dt] at up
  rw [← c.pass_domainOpen dt] at opened
  refine if_neg fun k => ?_
  rcases k with k | k | k | k
  · exact absurd k (Nat.not_le.2 built)
  · exact absurd (up.symm.trans k) (by decide)
  · exact absurd (opened.symm.trans k) (by decide)
  · exact k awake

/-! ## A row that lands -/

theorem laneRowLanded_none {l : Nat} {c : Ctl} (h : (c.lane l).landing = []) : laneRowLanded l c = c := by
  rw [laneRowLanded, h]

theorem laneRowLanded_lands {l at_ : Nat} {x : Xfer} {rest : List (Nat × Xfer)} {c : Ctl}
    (h : (c.lane l).landing = (at_, x) :: rest) : laneRowLanded l c =
      ((c.setLane l { c.lane l with landing := rest }).passTo ((at_ + 999) / 1000)).takeCells x.slot 1 := by
  rw [laneRowLanded, h]

end Sys2Proof.Machine
end

section
/-! Refresh windows, the commands of the controllers and the transfers of the lanes (R28, R30, R158, R160, R162). -/

namespace Sys2Proof.Machine

/-- Settles O58: the windows and refreshes of a channel, what a controller issues, the bounds of what is legal, and what a lane's cycle moves,
each by the lemma on its operation. -/
theorem refreshCommandsAndLaneTransfers : Obligations.RefreshCommandsAndLaneTransfers := by
  intro s
  refine ⟨fun ch built => ?_, fun ch dt none' => ?_, fun ch dt built opened awake fed classes => ?_, fun ch w u now => ?_,
    fun l dt none' => ?_, fun l dt built up opened awake => ?_, fun l => ?_⟩
  · refine ⟨s.ctl.windowStarts_one ch, s.ctl.windowStarts_two ch, fun idle => State.exec_ctl_eq rfl (refreshWindow_idle idle),
      fun w rest due none' awake => ?_, fun none' => State.exec_ctl_eq rfl (perBankRefresh_idle none'), fun w opened => ?_⟩
    · have taps := (s.ctl.passTo w).columnTaps_onlyCal ch
      refine ⟨_, State.exec_ctl rfl (refreshWindow_opens built due none' awake), Ctl.setChan_chan .., ?_, fun y n => ?_, ?_,
        rfl, rfl, rfl⟩
      · exact taps.clock.trans (s.ctl.passTo_clock w)
      · exact (Ctl.setChan_chan_ne _ _ _ _ n).trans (taps.chan y)
      · exact fun x n => (taps.get x).trans (s.ctl.keeps_passTo w [] x n)
    · obtain ⟨pointer, kept⟩ := perBankRefresh_fields opened
      obtain ⟨clock, chan, noted⟩ := perBankRefresh_stack opened
      refine ⟨_, rfl, clock.trans (s.ctl.passTo_clock _), ?_⟩
      simp only [State.mapCtl_ctl, chan, clock, ChanSt.refreshed_bank]
      exact ⟨rfl, rfl, rfl, rfl, rfl, fun k n => ChanSt.refreshed_bank_ne _ _ _ n, rfl, rfl, noted, pointer, kept, rfl, rfl, rfl⟩
  · exact congrArg Host.Outcome.next (State.mapCtl_eq (channelCommandIssue_none none'))
  · intro c c1 x
    have run : channelCommandIssue ch dt s.ctl = (c.commandCycle ch).admitWaiting ch :=
      channelCommandIssue_runs built opened awake fed
    have ticks : c.clock = s.ctl.clock + dt := (s.ctl.pass dt).readied_clock ch
    have clock := (Ctl.admitWaiting_clock _ ch).trans (c.commandCycle_clock ch)
    have calm : c1.ps = c.ps := congrArg (· * 1000) (c.stalled_clock ch)
    have banks (b : Nat) : (c1.chan ch).bank b = x.bank b := c.stalled_bank ch b
    have count : c1.get (R.DMC_ACT_CNT_COUNT ch) = s.ctl.get (R.DMC_ACT_CNT_COUNT ch) :=
      (c.stalled_actCount ch (built.trans_le s.ctl.nch_le)).trans (((s.ctl.pass dt).readied_actCount ch classes).trans
        (s.ctl.pass_get dt (timNow_ne_actCount ch)))
    refine ⟨_, State.exec_ctl rfl run, ⟨rfl, rfl, rfl⟩, clock.trans ticks, ?_⟩
    simp only [Ctl.admitWaiting_bank, Ctl.admitWaiting_get, clock]
    refine ⟨fun w due => ?_, fun none' w cmd chosen first => ?_, fun none' b idle first => ?_, fun none' rests idle b => ?_⟩
    · obtain ⟨-, pending⟩ := nextCmd_spec (Ctl.nextCmd_of_legalAt (Ctl.neighbourDue_legal due))
      rw [Ctl.commandCycle_neighbour due, Ctl.issue_neighbour]
      exact ⟨pending, rfl, rfl⟩
    · have issues : c.commandCycle ch = c1.issue ch w cmd := Ctl.commandCycle_chosen none' chosen first
      rw [issues]
      refine ⟨?_, ?_, ?_, ?_⟩
      · obtain ⟨u, legal, due⟩ := Ctl.chooseCmd_legal chosen
        exact ⟨u, legal, due.trans_eq calm⟩
      · rintro rfl
        rw [Ctl.issue_activate, Ctl.issue_activate_count, calm, count]
        exact ⟨rfl, rfl, rfl, rfl⟩
      · rintro rfl
        rw [Ctl.issue_precharge, Ctl.closeBank_bank, calm]
        exact ⟨rfl, rfl⟩
      · rintro rfl
        rw [Ctl.issue_column, banks]
        exact ⟨rfl, rfl⟩
    · have closes : c.commandCycle ch = c1.closeBank ch b := (Ctl.commandCycle_issues none').trans (Ctl.issueOne_closes idle first)
      obtain ⟨opened, less⟩ := Ctl.idleOpen_spec idle
      rw [banks] at opened less
      rw [closes, Ctl.closeBank_bank, calm]
      exact ⟨opened, rfl, rfl, less⟩
    · have still : c.commandCycle ch = c1 := (Ctl.commandCycle_issues none').trans (Ctl.issueOne_rests rests idle)
      rw [still, banks]
  · refine ⟨fun legal => ?_, fun legal => ?_, fun legal => ?_, fun legal => ?_⟩
    · obtain ⟨ready, fits, clear, die⟩ := Ctl.legalAt_activate now legal
      obtain ⟨busy, pre, act⟩ := bankReady_le.1 ready
      rw [Ctl.chanBusy, Ctl.chanActs, List.append_assoc] at fits
      obtain ⟨apart, four⟩ := chanFits_acts fits
      obtain ⟨most, share⟩ := Ctl.dieFits_acts die
      obtain ⟨shut, none'⟩ := nextCmd_spec (Ctl.nextCmd_of_legalAt legal)
      exact ⟨shut, none', busy, pre, act, apart, four, most, share, (clearOf_iff ..).1 clear⟩
    · obtain ⟨ready, clear⟩ := Ctl.legalAt_neighbour now legal
      obtain ⟨shut, pending⟩ := nextCmd_spec (Ctl.nextCmd_of_legalAt legal)
      exact ⟨shut, pending, (bankReady_le.1 ready).1, (clearOf_iff ..).1 clear⟩
    · obtain ⟨busy, act, gaps, clear, taps⟩ := Ctl.legalAt_column now legal
      obtain ⟨hit, request⟩ := nextCmd_spec (Ctl.nextCmd_of_legalAt legal)
      refine ⟨hit, request, busy, act, gaps, ?_, Ctl.tapClear_starts taps⟩
      rw [← colLead_eq]
      exact (clearOf_iff ..).1 clear
    · obtain ⟨act, write, clear, free⟩ := Ctl.legalAt_precharge now legal
      obtain ⟨opened, other⟩ := nextCmd_spec (Ctl.nextCmd_of_legalAt legal)
      exact ⟨opened, other, act, write, (clearOf_iff ..).1 clear, free⟩
  · exact congrArg Host.Outcome.next (State.mapCtl_eq (laneCycle_none none'))
  · intro c y goesOn ready
    have run : laneCycle l dt s.ctl = c.laneWork l := laneCycle_runs built up opened awake
    have clock := (c.laneWork_clock l).trans ((s.ctl.pass dt).laneReadied_clock l)
    have count : c.get (R.ROWL_XFER_CNT_ROWS l) = s.ctl.get (R.ROWL_XFER_CNT_ROWS l) :=
      ((s.ctl.pass dt).laneReadied_get l _).trans (s.ctl.pass_get dt (timNow_ne_rows l))
    refine ⟨_, State.exec_ctl rfl run, ⟨rfl, rfl, rfl⟩, clock, fun x on first => ?_, fun on first => ?_, fun f off first turn => ?_,
      fun f off first same => ?_, fun none' => ?_⟩
    · obtain ⟨mem, same⟩ := c.firstXfer_movable l first
      have legs := (c.moveRow l x).laneLegs_onlyCal l (some x)
      obtain ⟨read, write⟩ := c.moveRow_cells l x
      have moves : c.laneWork l = (c.moveRow l x).laneLegs l (some x) := (c.laneWork_goesOn l on).trans (c.carry_moves l first)
      simp only [moves, legs.lane, legs.get, legs.stk, Ctl.moveRow_lane, Ctl.moveRow_get, Ctl.get_bump_same, count]
      refine ⟨mem, same, rfl, rfl, rfl, by simp [bit, y], rfl, fun r => ⟨?_, read r⟩, fun r => ⟨?_, write r⟩⟩
      · rw [r]; rfl
      · rw [r]; rfl
    · obtain ⟨lane, stk, fields⟩ := c.laneWork_idles l on first
      exact ⟨lane, stk, fun x _ => fields x⟩
    · obtain ⟨lane, fields⟩ := c.laneWork_turns l off first turn
      exact ⟨lane, fun x _ => fields x⟩
    · exact c.laneWork_starts l off first same
    · obtain ⟨lane, fields⟩ := c.laneWork_rests l none'
      exact ⟨lane, fun x _ => fields x⟩
  · refine ⟨fun none' => State.exec_ctl_eq rfl (laneRowLanded_none none'), fun at_ x rest lands => ?_⟩
    let d := s.ctl.setLane l { s.ctl.lane l with landing := rest }
    refine ⟨_, State.exec_ctl rfl (laneRowLanded_lands lands), s.ctl.setLane_lane l _, ?_, Ctl.takeCells_get ..,
      fun k n => s.ctl.setLane_lane_ne l k _ n, d.keeps_passTo _ [], rfl, rfl, rfl⟩
    have reached := d.passTo_clock ((at_ + 999) / 1000)
    change at_ ≤ (d.passTo ((at_ + 999) / 1000)).clock * 1000
    omega

end Sys2Proof.Machine
end

section
/-! Commands that do not reach the stack (R9, R176, R339). -/

namespace Sys2Proof.Machine

theorem State.sameStack_refl (s : State) : s.sameStack s := ⟨rfl, rfl, rfl⟩

theorem State.sameStack_mapCtl (s : State) (f : Ctl → Ctl) : s.sameStack (s.mapCtl f) := ⟨rfl, rfl, rfl⟩

theorem readBar_sameStack (h : Head) (off : Nat) (wide : Bool) (s : State) : nextIn s.sameStack (readBar h off wide s) :=
  holds_ite (nextIn_next s.sameStack_refl) (nextIn_next (s.sameStack_mapCtl _))

theorem writeBar_sameStack (h : Head) (off : Nat) (wide : Bool) (v : Nat) (s : State) :
    nextIn s.sameStack (writeBar h off wide v s) :=
  nextIn_next (holds_ite (s.sameStack_mapCtl _) s.sameStack_refl)

/-- The poison list is read off the lines' status (R243). -/
theorem getPoisonList_sameStack (h : Head) (p : Bytes) (s : State) : s.sameStack (getPoisonList h p s) := by
  have answered (f : Ctl → Ctl) : s.sameStack (s.mapCtl f) := s.sameStack_mapCtl f
  exact holds_ite (holds_ite (answered _) (holds_ite (answered _) (holds_ite (answered _) (holds_ite (answered _) (answered _)))))
    s.sameStack_refl

/-- Every command outside the list is an access to BAR0, a read of the poison list, or a change of the control side alone. -/
theorem exec_sameStack (i : Instr) (s : State) (away : Obligations.reachesStack i = false) : nextIn s.sameStack (exec i s) := by
  cases i with
  | rcFieldRead | snapshotRead | scanDataRead => exact readBar_sameStack _ _ _ s
  | registerWrite | stkCommit | mapCommit | qosSchedCommit | qosClassCommit | qosBwSnapTake | cmbDmcFlush | sqEnable
    | sqDisable | cqEnable | cqDisable | jrgAbort | stxWinRead | stxWinWrite | timSwitch | eyeScanStart | nearEndLoopStart
    | nearEndLoopStop | rstCtlWarm | bistStart | fltPendAck | errnRelease => exact writeBar_sameStack _ _ _ _ s
  | getPoisonList => exact nextIn_next (getPoisonList_sameStack _ _ s)
  | sbBusClear => exact nextIn_next s.sameStack_refl
  | beatBoundary | thermalSample | lineReadCheck | partialWriteMerge | foragerPassEnd | migrationRowLanded | abruptFillRow
    | feedOvercurrent | fragmentListFetched | jobDispatch | macPass | jobEnd | selfRefreshEntered | selfRefreshExited | cxlMemRead
    | cxlMemWrite | cxlMemPartialWrite | sealMetadataArrival | pageReencryption | lockStepMismatch | watchdogExpiry
    | imageReadyTimeout | sensorConversion | shutdownStopDecision | thermalResume | warmReset | railBrownOut | vauxLoss
    | railOutOfTolerance | fuseSensingDone | flashAnswerTimeout | imageAccepted | tsvTrainingDone | stackBringupDone | bistDone
    | pllLockTimeout | fuseWordReadTimeout | neitherImagePasses => cases away
  | _ => exact nextIn_next (s.sameStack_mapCtl _)

/-- Settles O7: a command outside the list changes the control side at most. -/
theorem otherCommandsKeepTheStack : Obligations.OtherCommandsKeepTheStack := by
  intro i s t away run
  obtain ⟨u, run', kept⟩ := exec_sameStack i s away
  cases run'.symm.trans run
  exact kept

end Sys2Proof.Machine
end

section
/-! SUPPORT. What a fault of a block without a reset of its own, and the event it reports, may touch at all (R264, R373 to R381): register
fields, the heads, the collector, the Keeper, the reset block and what is sent out. -/

namespace Sys2Proof.Machine

/-- Nothing differs but register fields, the heads, the collector, the Keeper, the reset block, free values used and what was sent out. -/
def Ctl.onlyTold (c d : Ctl) : Prop :=
  d = { c with regs := d.regs, hdA := d.hdA, hdB := d.hdB, flt := d.flt, kpr := d.kpr, rst := d.rst, outbox := d.outbox, free := d.free }

section
variable {c d e : Ctl}

theorem Ctl.onlyTold_refl (c : Ctl) : c.onlyTold c := rfl

theorem Ctl.onlyTold.trans (h : c.onlyTold d) (k : d.onlyTold e) : c.onlyTold e := by
  unfold onlyTold at *
  rw [k, h]

theorem Ctl.onlyTold.orSame {p : Prop} [Decidable p] (k : c.onlyTold d) : c.onlyTold (if p then d else c) := holds_ite k c.onlyTold_refl

theorem Ctl.onlyTold.stk (h : c.onlyTold d) : d.stk = c.stk := (congrArg Ctl.stk (h : d = _) :)
theorem Ctl.onlyTold.frg (h : c.onlyTold d) : d.frg = c.frg := (congrArg Ctl.frg (h : d = _) :)
theorem Ctl.onlyTold.ecc (h : c.onlyTold d) : d.ecc = c.ecc := (congrArg Ctl.ecc (h : d = _) :)
theorem Ctl.onlyTold.part (h : c.onlyTold d) : d.part = c.part := (congrArg Ctl.part (h : d = _) :)
theorem Ctl.onlyTold.chan (h : c.onlyTold d) (n : Nat) : d.chan n = c.chan n := by rw [Ctl.chan, h.stk, Ctl.chan]
end

theorem Ctl.onlyTold_modHd (c : Ctl) (h : Head) (g : HeadSt → HeadSt) : c.onlyTold (c.modHd h g) := by cases h <;> rfl

theorem Ctl.onlyTold_msix (c : Ctl) (h : Head) (v : Nat) : c.onlyTold (c.msix h v) := by
  obtain ⟨x, ob, e, -⟩ := c.msix_eq h v
  rw [e]
  cases h <;> rfl

theorem Ctl.onlyTold_set (c : Ctl) (x : Fld) (v : Nat) : c.onlyTold (c.set x v) := rfl
theorem Ctl.onlyTold_emit (c : Ctl) (o : Out) : c.onlyTold (c.emit o) := rfl

theorem Ctl.onlyTold_forHeads (c : Ctl) {f : Head → Ctl → Ctl} (k : ∀ h d, Ctl.onlyTold d (f h d)) : c.onlyTold (c.forHeads f) :=
  (k .a c).trans (k .b _)

theorem Ctl.onlyTold_event (c : Ctl) (h : Head) (log kind code headNo info flags : Nat) :
    c.onlyTold (c.event h log kind code headNo info flags) := by
  unfold event
  split
  · split
    · rfl
    · exact (c.onlyTold_modHd h _).trans (onlyTold_msix _ h _).orSame
  · rfl

theorem Ctl.onlyTold_aerInternal (c : Ctl) (h : Head) (u : Bool) : c.onlyTold (c.aerInternal h u) := by
  cases u <;> cases h <;> rfl

theorem Ctl.onlyTold_faultReport (c : Ctl) (src info : Nat) (p : FaultPlan) (w : FaultTo) (h : Head) :
    c.onlyTold (c.faultReport src info p w h) :=
  ((c.onlyTold_event h _ _ _ _ _ _).orSame.trans (onlyTold_aerInternal _ h _).orSame).orSame

theorem Ctl.onlyTold_faultReact (c : Ctl) (src : Nat) (p : FaultPlan) (w : FaultTo) : c.onlyTold (c.faultReact src p w) := by
  have message (h : Head) (d : Ctl) : d.onlyTold (if d.faultReaches w h then d.faultMsix h else d) := by
    cases h <;> exact (onlyTold_msix d _ _).orSame.orSame
  have nmi (d : Ctl) : d.onlyTold d.raiseNmi := holds_ite (d.onlyTold_emit _) rfl
  have pin (d : Ctl) : d.onlyTold (d.assertErrN src) := Ctl.onlyTold.trans (d := { d with flt := _ }) rfl (holds_ite rfl rfl)
  exact ((c.onlyTold_forHeads message).orSame.trans (nmi _).orSame).trans (pin _).orSame

theorem Ctl.onlyTold_askWarm (c : Ctl) (origin at_ : Nat) : c.onlyTold (c.askWarm origin at_) :=
  holds_ite rfl (holds_ite rfl rfl)

theorem Ctl.onlyTold_collectorReset (c : Ctl) : c.onlyTold c.collectorReset := by
  have asked (f : FltSt) : c.onlyTold (({ c with flt := f } : Ctl).askWarm 2 c.clock) :=
    Ctl.onlyTold.trans (d := { c with flt := f }) rfl (onlyTold_askWarm _ _ _)
  exact holds_ite rfl (holds_ite ((asked _).trans (onlyTold_set _ _ _)) (asked _))

theorem Ctl.onlyTold_faultOnce (c : Ctl) {src : Nat} (info : Nat) (w : FaultTo) (h : hasBlockReset src = false) :
    c.onlyTold (c.faultOnce src info w) := by
  unfold faultOnce
  refine holds_ite rfl ?_
  simp only [c.faultPlan_noReset h, Bool.false_eq_true, if_false]
  have told (d : Ctl) := d.onlyTold_forHeads fun h e => e.onlyTold_faultReport src info (c.faultPlan src) w h
  have counted (d : Ctl) (x : Fld) : d.onlyTold (d.bump x) := rfl
  have logged (d : Ctl) (n : Nat) (r : List (Nat × Nat)) (p : FaultPlan) :
      d.onlyTold { d.logFault src info n p with flt.routed := r } := rfl
  exact ((((c.onlyTold_faultReact src _ w).trans ((onlyTold_set _ _ _).trans (counted _ _))).trans
    ((counted _ _).orSame.trans (logged _ _ _ _))).trans (told _)).trans (onlyTold_collectorReset _).orSame

section
variable (c : Ctl) {src : Nat} (info : Nat) (w : FaultTo) (row : (faultRow src).isSome = true ∧ hasBlockReset src = false)
include row

theorem faultRow_lt : src < 1024 := by
  obtain ⟨r, find⟩ := Option.isSome_iff_exists.1 row.1
  have bound : ∀ r ∈ faultRows, r.hi < 1024 := by decide
  have mem := bound r (List.mem_of_find?_eq_some find)
  have within := List.find?_some find
  simp only [Bool.and_eq_true, decide_eq_true_eq] at within
  omega

theorem Ctl.onlyTold_fault : c.onlyTold (c.fault src info w) := by
  rw [fault_eq _ _ _ row.1 (faultRow_lt row) row.2]
  exact c.onlyTold_faultOnce info w row.2

/-- A pending source stays pending over a fault of any other. -/
theorem Ctl.srcPending_fault {n : Nat} (l : n < 1024) (p : c.srcPending n = true) : (c.fault src info w).srcPending n = true := by
  obtain ⟨d, before, after⟩ := c.faultOnce_cases info w row.1 (faultRow_lt row) row.2
  have still : d.srcPending n = true := (before.srcPending l).trans p
  rw [fault_eq _ _ _ row.1 (faultRow_lt row) row.2, after.srcPending l, srcPending, get_set]
  split
  case isTrue e =>
    have word : n / 32 = src / 32 := by simp only [R.FLT_PEND_PEND] at e; omega
    rw [tb_mod_two_pow (show n % 32 < (R.FLT_PEND_PEND (src / 32)).width from Nat.mod_lt n (by decide)), tb_setBit, ← word]
    exact ite_eq_left_iff.2 fun _ => still
  case isFalse => exact still
end

/-- Sources 0 to 247 are reports of lines, channels, lane groups and dies (R372). -/
theorem faultRow_below : ∀ n : Fin 248, (faultRow n).isSome = true ∧ hasBlockReset n = false := by decide +kernel

theorem faultRow_of_lt {n : Nat} (l : n < 248) : (faultRow n).isSome = true ∧ hasBlockReset n = false := faultRow_below ⟨n, l⟩

end Sys2Proof.Machine
end

section
/-! SUPPORT. Where lines are served (R52 to R59, R189): always by a built channel, and wherever the view registers and the moves say. -/

namespace Sys2Proof.Machine

/-! ## Channels -/

theorem par_lt_two (x : Nat) : par x < 2 := Nat.mod_lt _ (by decide)

/-- Two address bits, each with a parity added (R53). -/
theorem xor_parities_lt_four {a p q : Nat} (ha : a < 4) (hp : p < 2) (hq : q < 2) : a ^^^ (2 * p) ^^^ q < 4 :=
  Nat.xor_lt_two_pow (n := 2) (Nat.xor_lt_two_pow ha (by omega)) (by omega)

theorem Ctl.nch_pos (c : Ctl) : 0 < c.nch := by
  unfold nch nd
  split <;> decide

theorem Ctl.linPlace_chan_lt (c : Ctl) (sa : Nat) : (c.linPlace sa).chan < c.nch := by
  have two {b n : Nat} (l : n < 4 * b) {x p q : Nat} (hp : p < 2) (hq : q < 2) : 4 * n + (x % 4 ^^^ (2 * p) ^^^ q) < 4 * (4 * b) := by
    have := xor_parities_lt_four (Nat.mod_lt x (by decide : 0 < 4)) hp hq
    omega
  have one {b n : Nat} (l : n < b) {x p q : Nat} (hp : p < 2) (hq : q < 2) : 4 * n + (x % 4 ^^^ (2 * p) ^^^ q) < 4 * b := by
    have := xor_parities_lt_four (Nat.mod_lt x (by decide : 0 < 4)) hp hq
    omega
  cases hp : c.part with
  | rc4812 =>
    simp only [linPlace, nch, nd, hp]
    exact two (b := 3) (one (Nat.mod_lt _ (by decide)) (par_lt_two _) (par_lt_two _)) (par_lt_two _) (par_lt_two _)
  | rc3208 =>
    simp only [linPlace, nch, nd, hp]
    exact two (b := 2) (one (Nat.xor_lt_two_pow (n := 1) (Nat.mod_lt _ (by decide)) (par_lt_two _)) (par_lt_two _) (par_lt_two _))
      (par_lt_two _) (par_lt_two _)

theorem Ctl.viewPlace_chan_lt (c : Ctl) (sa : Nat) : (c.viewPlace sa).chan < c.nch := by
  unfold viewPlace
  split
  · exact Nat.mod_lt _ c.nch_pos
  · exact c.linPlace_chan_lt sa

theorem Ctl.reservePlace_chan_lt (c : Ctl) (dr : Nat) (p : Place) : (c.reservePlace dr p).chan < c.nch := by
  have two : 2 ≤ c.nd := by
    unfold nd
    split <;> decide
  have die : rowIndex p % (c.nd - 1) < c.nd - 1 := Nat.mod_lt _ (by omega)
  simp only [reservePlace, nch]
  split <;> omega

theorem Ctl.placeBy_chan_lt (c : Ctl) (m : Remap) {p : Place} (h : p.chan < c.nch) : (c.placeBy m p).chan < c.nch := by
  refine List.foldlRecOn (motive := fun q : Place => q.chan < c.nch) m.placed _ ?_ fun q hq e _ => ?_
  · unfold reserveRemap
    split
    · exact holds_ite (P := fun q : Place => q.chan < c.nch) (c.reservePlace_chan_lt _ _) h
    · exact h
  · refine holds_ite (P := fun q : Place => q.chan < c.nch) hq (holds_ite (P := fun q : Place => q.chan < c.nch) hq ?_)
    split
    · next r found =>
      obtain ⟨mem, -⟩ := List.mem_filter.1 (List.mem_of_getElem? found)
      obtain ⟨g, -, row⟩ := List.mem_flatMap.1 mem
      obtain ⟨i, -, rfl⟩ := List.mem_map.1 row
      exact (c.viewedAs e.view).viewPlace_chan_lt _
    · exact hq

/-- Every line is served by a built channel (R52 to R59). -/
theorem Ctl.place_chan_lt (c : Ctl) (sa : Nat) : (c.place sa).chan < 48 :=
  (c.placeBy_chan_lt _ (c.viewPlace_chan_lt sa)).trans_le c.nch_le

/-! ## Control sides with the same view registers -/

/-- Two control sides of one part with the same registers of sealed granules and of the address views (blocks 0x13 and 0x16). -/
structure Ctl.sameViews (c d : Ctl) : Prop where
  part : d.part = c.part
  sealed : ∀ x : Fld, 9961472 ≤ x.key → x.key < 10485760 → d.get x = c.get x
  viewed : ∀ x : Fld, 11534336 ≤ x.key → x.key < 12058624 → d.get x = c.get x

namespace Ctl.sameViews

theorem refl (c : Ctl) : c.sameViews c := ⟨rfl, fun _ _ _ => rfl, fun _ _ _ => rfl⟩

theorem trans {c d e : Ctl} (a : c.sameViews d) (b : d.sameViews e) : c.sameViews e :=
  ⟨b.part.trans a.part, fun x l u => (b.sealed x l u).trans (a.sealed x l u), fun x l u => (b.viewed x l u).trans (a.viewed x l u)⟩

/-- A change of no register. -/
theorem of_regs {c d : Ctl} (part : d.part = c.part) (regs : d.regs = c.regs) : c.sameViews d :=
  ⟨part, fun x _ _ => get_congr _ _ regs x, fun x _ _ => get_congr _ _ regs x⟩

/-- A field of another block set. -/
theorem set {c d : Ctl} (k : c.sameViews d) {x : Fld} (v : Nat) (n : x.key < 9961472 ∨ 10485760 ≤ x.key ∧ x.key < 11534336) :
    c.sameViews (d.set x v) :=
  k.trans ⟨rfl, fun y _ _ => d.get_set_ne _ _ _ (by omega), fun y _ _ => d.get_set_ne _ _ _ (by omega)⟩

/-- A counter of another block counts. -/
theorem bump {c d : Ctl} (k : c.sameViews d) {x : Fld} (i : Nat) (n : x.key < 9961472 ∨ 10485760 ≤ x.key ∧ x.key < 11534336) :
    c.sameViews (d.bump x i) := k.set _ n

section
variable {c d : Ctl} (k : c.sameViews d)
include k

theorem combRange {n : Nat} (l : n < 16) : d.combRange n = c.combRange n := by
  simp only [Ctl.combRange, bandBytes, k.part, k.viewed (R.MAP_COMB_LO_BASE_BAND n) (by simp only [R.MAP_COMB_LO_BASE_BAND]; omega)
    (by simp only [R.MAP_COMB_LO_BASE_BAND]; omega), k.viewed (R.MAP_COMB_HI_BANDS n) (by simp only [R.MAP_COMB_HI_BANDS]; omega)
    (by simp only [R.MAP_COMB_HI_BANDS]; omega)]

theorem combRegion (sa : Nat) : d.combRegion sa = c.combRegion sa :=
  List.find?_congr fun n m => by
    have l := List.mem_range.1 m
    simp only [k.combRange l, combOn, flag, k.viewed (R.MAP_COMB_LO_EN n) (by simp only [R.MAP_COMB_LO_EN]; omega)
      (by simp only [R.MAP_COMB_LO_EN]; omega), k.viewed (R.MAP_COMB_HI_BANDS n) (by simp only [R.MAP_COMB_HI_BANDS]; omega)
      (by simp only [R.MAP_COMB_HI_BANDS]; omega)]

theorem viewPlace (sa : Nat) : d.viewPlace sa = c.viewPlace sa := by
  rw [Ctl.viewPlace, Ctl.viewPlace, k.combRegion]
  cases h : c.combRegion sa with
  | none => simp (disch := decide) only [linPlace, k.part, k.viewed]
  | some n =>
    have l : n < 16 := List.mem_range.1 (List.mem_of_find?_eq_some h)
    simp only [k.combRange l, combPlace, bandBytes, nch, nd, k.part]

/-- Where a remap puts a place: `samePlaces` says it of the control sides whose registers are wholly those of `c`. -/
theorem placeBy (m : Remap) (p : Place) : d.placeBy m p = c.placeBy m p := by
  have user : d.userEnd = c.userEnd := by simp (disch := decide) only [userEnd, k.viewed]
  have alike : (c.viewedAs []).samePlaces { d.viewedAs [] with ecc := c.ecc } := ⟨k.part, rfl, fun _ _ _ => rfl⟩
  have rank (b : Option Nat) (u : Bool) (q : Place) : d.rowRank b u q = c.rowRank b u q := alike.rowRank b u q
  have unmoved (b : Option Nat) (v : Move × Nat) (q : Place) : d.unmoved b v q = c.unmoved b v q := alike.unmoved b v q
  have spare (e : Placed) : d.spareRows e = c.spareRows e := by
    have view (a : Nat) : (d.viewedAs e.view).viewPlace a = (c.viewedAs e.view).viewPlace a :=
      viewPlace (c := c.viewedAs e.view) (d := d.viewedAs e.view) ⟨k.part, fun _ _ _ => rfl, fun _ _ _ => rfl⟩ a
    simp only [spareRows, user, view]
  have one : d.placeOne m = c.placeOne m := by
    funext q e
    simp only [placeOne, unmoved, spare, rank]
  have remap : d.reserveRemap m p = c.reserveRemap m p := by
    have nd : d.nd = c.nd := alike.nd
    have base : d.resRowBase = c.resRowBase := alike.resRowBase
    simp only [reserveRemap, unmoved, reservePlace, nd, base]
  rw [Ctl.placeBy, Ctl.placeBy, remap, one]

/-- With the same moves, retirements and placements, every line has the same place. -/
theorem place (r : d.remapNow = c.remapNow) (sa : Nat) : d.place sa = c.place sa := by
  rw [Ctl.place, Ctl.place, r, k.placeBy, k.viewPlace]

theorem metaAt (sa : Nat) : d.metaAt sa = c.metaAt sa := by
  have holder (v : Nat) : ((List.range 64).find? fun g => decide (d.get (R.SEA_GRAN_STATE g) ≠ 0) &&
      decide (d.get (R.MAP_GRAN_SEAL_SLOT g) = v)) = (List.range 64).find? fun g => decide (c.get (R.SEA_GRAN_STATE g) ≠ 0) &&
      decide (c.get (R.MAP_GRAN_SEAL_SLOT g) = v) :=
    List.find?_congr fun g m => by
      have l := List.mem_range.1 m
      rw [k.sealed (R.SEA_GRAN_STATE g) (by simp only [R.SEA_GRAN_STATE]; omega) (by simp only [R.SEA_GRAN_STATE]; omega),
        k.viewed (R.MAP_GRAN_SEAL_SLOT g) (by simp only [R.MAP_GRAN_SEAL_SLOT]; omega) (by simp only [R.MAP_GRAN_SEAL_SLOT]; omega)]
  simp (disch := decide) only [Ctl.metaAt, holder, k.viewed]

end
end Ctl.sameViews

end Sys2Proof.Machine
end

section
/-! SUPPORT. What a line that becomes mired leaves behind (R175, R177, R182): its record, its fault and its count, and what the steps after
them leave of those. -/

namespace Sys2Proof.Machine

/-! ## Health and thresholds -/

@[simp] theorem Ctl.event_regs (c : Ctl) (h : Head) (log kind code headNo info flags : Nat) :
    (c.event h log kind code headNo info flags).regs = c.regs := by
  unfold event
  refine holds_ite (P := fun d : Ctl => d.regs = c.regs) ?_ rfl
  split
  · rfl
  · refine holds_ite (P := fun d : Ctl => d.regs = c.regs) ?_ ?_ <;> simp

@[simp] theorem Ctl.event_get (c : Ctl) (h : Head) (log kind code headNo info flags : Nat) (x : Fld) :
    (c.event h log kind code headNo info flags).get x = c.get x := get_congr _ _ (c.event_regs ..) x

theorem Ctl.healthEvent_regs (c : Ctl) (reason mask number : Nat) : (c.healthEvent reason mask number).regs = c.regs :=
  holds_ite (P := fun d : Ctl => d.regs = c.regs) (by simp [forHeads]) rfl

/-- A rise of ECC_HEALTH (R188): its STATE and REASON, and events. -/
theorem Ctl.raiseHealth_spec (c : Ctl) (state reason : Nat) : c.onlyTold (c.raiseHealth state reason) ∧
    c.keeps (c.raiseHealth state reason) [R.ECC_HEALTH_STATE, R.ECC_HEALTH_REASON] := by
  let c1 := (c.set R.ECC_HEALTH_STATE (max (c.get R.ECC_HEALTH_STATE) state)).set R.ECC_HEALTH_REASON reason
  have told : c.onlyTold c1 := rfl
  have kept : c.keeps c1 [R.ECC_HEALTH_STATE, R.ECC_HEALTH_REASON] := keeps_set (keeps_set (c.keeps_refl _) (by simp) _) (by simp) _
  have event : c1.onlyTold (c1.healthEvent reason 0 0) := holds_ite (c1.onlyTold_forHeads fun h d => d.onlyTold_event ..) rfl
  refine holds_ite (P := fun d => c.onlyTold d ∧ c.keeps d _) ⟨told.trans event, fun x n => ?_⟩ ⟨told, kept⟩
  exact (get_congr _ _ (healthEvent_regs c1 reason 0 0) x).trans (kept x n)

/-- A cause that waits is among the causes, and nothing but the causes differs. -/
theorem Ctl.addCause_eq (c : Ctl) (k : RetCause) : ∃ l, c.addCause k = { c with ecc.causes := l } ∧
    ∃ e ∈ l, e.kind = k.kind ∧ e.unit = k.unit := by
  unfold addCause
  split
  case isTrue known =>
    obtain ⟨e, mem, same⟩ := List.any_eq_true.1 known
    simp only [Bool.and_eq_true, decide_eq_true_eq] at same
    split
    · exact ⟨_, rfl, k, List.mem_map.2 ⟨e, mem, if_pos same⟩, rfl, rfl⟩
    · exact ⟨c.ecc.causes, rfl, e, mem, same⟩
  case isFalse => exact ⟨_, rfl, k, by simp, rfl, rfl⟩

/-- The threshold test (R182): a cause, or a rise of ECC_HEALTH with the die noted as crossed, or nothing. -/
theorem Ctl.testThreshold_spec (c : Ctl) (d : Nat) : ∃ k l,
    Ctl.onlyTold { c with ecc.causes := k, ecc.crossed := l } (c.testThreshold d) ∧
      c.keeps (c.testThreshold d) [R.ECC_HEALTH_STATE, R.ECC_HEALTH_REASON] := by
  have same := (⟨c.ecc.causes, c.ecc.crossed, rfl, c.keeps_refl _⟩ : ∃ k l,
    Ctl.onlyTold { c with ecc.causes := k, ecc.crossed := l } c ∧ c.keeps c [R.ECC_HEALTH_STATE, R.ECC_HEALTH_REASON])
  unfold testThreshold
  dsimp only
  split
  · exact same
  · split
    · obtain ⟨l, e, -⟩ := c.addCause_eq ⟨1, 0, d, false⟩
      rw [e]
      exact ⟨l, c.ecc.crossed, rfl, c.keeps_refl _⟩
    · split
      · exact same
      · exact ⟨c.ecc.causes, d :: c.ecc.crossed, raiseHealth_spec _ 2 6⟩

/-! ## What stays of a line's record -/

/-- The views, the staged records, the pending sources and the mire counts are as a line's record and fault left them. -/
structure Ctl.staysNoted (c d : Ctl) : Prop where
  views : c.sameViews d
  staging : d.ecc.staging = c.ecc.staging
  pending : ∀ n, n < 1024 → c.srcPending n = true → d.srcPending n = true
  counts : ∀ k, d.get (R.ECC_UE_CNT_COUNT k) = c.get (R.ECC_UE_CNT_COUNT k)

namespace Ctl.staysNoted

theorem refl (c : Ctl) : c.staysNoted c := ⟨.refl c, rfl, fun _ _ p => p, fun _ => rfl⟩

theorem trans {c d e : Ctl} (a : c.staysNoted d) (b : d.staysNoted e) : c.staysNoted e :=
  ⟨a.views.trans b.views, b.staging.trans a.staging, fun n l p => b.pending n l (a.pending n l p),
    fun k => (b.counts k).trans (a.counts k)⟩

/-- A change of no register and no staged record. -/
theorem of_regs {c d : Ctl} (part : d.part = c.part) (regs : d.regs = c.regs) (staging : d.ecc.staging = c.ecc.staging) :
    c.staysNoted d :=
  have same (x : Fld) : d.get x = c.get x := get_congr _ _ regs x
  ⟨⟨part, fun x _ _ => same x, fun x _ _ => same x⟩, staging, fun n _ p => (srcPending_congr regs n).trans p, fun _ => same _⟩

/-- A field set between the collector and the Seal block, or among the first of the ECC block. -/
theorem set (c : Ctl) {x : Fld} (v : Nat) (n : 4718592 ≤ x.key ∧ x.key < 9961472 ∨ 11010048 ≤ x.key ∧ x.key < 11012608) :
    c.staysNoted (c.set x v) :=
  ⟨(sameViews.refl c).set v (by omega), rfl,
    fun k l p => by rwa [srcPending, get_set_ne _ _ _ _ (by simp only [R.FLT_PEND_PEND]; omega)],
    fun k => get_set_ne _ _ _ _ (by simp only [R.ECC_UE_CNT_COUNT]; omega)⟩

theorem bump (c : Ctl) {x : Fld} (i : Nat) (n : 4718592 ≤ x.key ∧ x.key < 9961472 ∨ 11010048 ≤ x.key ∧ x.key < 11012608) :
    c.staysNoted (c.bump x i) := set c _ n

theorem fault (c : Ctl) {src : Nat} (info : Nat) (w : FaultTo) (row : (faultRow src).isSome = true ∧ hasBlockReset src = false) :
    c.staysNoted (c.fault src info w) := by
  have told := c.onlyTold_fault info w row
  have kept {x : Fld} (n : 4718592 ≤ x.key) := c.fault_get info w row.1 (faultRow_lt row) row.2 (x := x) (.inr n)
  exact ⟨⟨told.part, fun x l _ => kept (by omega), fun x l _ => kept (by omega)⟩, congrArg EccSt.staging told.ecc,
    fun n l p => c.srcPending_fault info w row l p, fun k => kept (by simp only [R.ECC_UE_CNT_COUNT]; omega)⟩

theorem testThreshold (c : Ctl) (d : Nat) : c.staysNoted (c.testThreshold d) := by
  obtain ⟨k, l, told, kept⟩ := c.testThreshold_spec d
  have same (x : Fld) (n : x.key < 11010432 ∨ 11012608 ≤ x.key) : (c.testThreshold d).get x = c.get x := kept x fun y m => by
    simp only [List.mem_cons, List.not_mem_nil, or_false] at m
    rcases m with rfl | rfl <;> simp only [R.ECC_HEALTH_STATE, R.ECC_HEALTH_REASON] <;> omega
  exact ⟨⟨told.part, fun x _ _ => same x (by omega), fun x _ _ => same x (by omega)⟩, by rw [told.ecc],
    fun n l p => by rwa [srcPending, same _ (by simp only [R.FLT_PEND_PEND]; omega)],
    fun k => same _ (by simp only [R.ECC_UE_CNT_COUNT]; omega)⟩

theorem freeChange (c : Ctl) (x new : Nat) : c.staysNoted (c.freeChange x new) := by
  have counted : c.staysNoted (c.set R.STX_FREE_CNT_FREE new) := set c new (by decide)
  exact holds_ite (counted.trans (fault _ _ _ (by decide))) counted

theorem loseCtx (c : Ctl) (x : Nat) : c.staysNoted (c.loseCtx x) := by
  have freed : c.staysNoted (if c.entryFree x then c.freeChange x (c.get R.STX_FREE_CNT_FREE - 1) else c) :=
    holds_ite (freeChange c _ _) (refl c)
  have lost (d : Ctl) (s : StxSt) : d.staysNoted (({ d with stx := s } : Ctl).bump R.STX_LOST_CNT_LOST) :=
    have table : d.staysNoted { d with stx := s } := of_regs rfl rfl rfl
    table.trans (bump _ 1 (by decide))
  exact holds_ite (refl c) (freed.trans (lost _ _))

end Ctl.staysNoted

/-! ## The record of a mired line -/

/-- The record of a line (R177): staged while there is room; the views, the pending sources and the counts stay. -/
theorem Ctl.mireRecord_spec (c : Ctl) (ln cause source : Nat) : c.sameViews (c.mireRecord ln cause source) ∧
    (c.ecc.staging.length < 512 → (c.mireRecord ln cause source).ecc.staging =
      c.ecc.staging ++ [⟨c.get R.ECC_MIRE_SEQ_NEXT, ln, cause, source, c.now⟩]) ∧
    ∀ k, (c.mireRecord ln cause source).get (R.ECC_UE_CNT_COUNT k) = c.get (R.ECC_UE_CNT_COUNT k) := by
  unfold mireRecord
  split
  · have views : c.sameViews { c with ecc.staging := c.ecc.staging ++ [⟨c.get R.ECC_MIRE_SEQ_NEXT, ln, cause, source, c.now⟩] } :=
      .of_regs rfl rfl
    exact ⟨views.set _ (by decide), fun _ => rfl,
      fun k => get_set_ne _ _ _ _ (by simp only [R.ECC_UE_CNT_COUNT, R.ECC_MIRE_SEQ_NEXT]; omega)⟩
  next full => exact ⟨(sameViews.refl c).bump _ (by decide), fun room => absurd room full,
    fun k => get_bump_ne _ _ _ _ (by simp only [R.ECC_UE_CNT_COUNT, R.ECC_MIRE_STAT_DROPS]; omega)⟩

/-- What a mired line leaves behind (R175, R177, R182). -/
theorem Ctl.mireNote_spec (c : Ctl) (sa cause source : Nat) : c.sameViews (c.mireNote sa cause source) ∧
    (c.ecc.staging.length < 512 → (c.mireNote sa cause source).ecc.staging =
      c.ecc.staging ++ [⟨c.get R.ECC_MIRE_SEQ_NEXT, sa / 64, cause, source, c.now⟩]) ∧
    (cause = 1 → (c.mireNote sa cause source).srcPending (48 + (c.place sa).chan) = true ∧
      (c.mireNote sa cause source).get (R.ECC_UE_CNT_COUNT (c.dieOf sa)) =
        min (c.get (R.ECC_UE_CNT_COUNT (c.dieOf sa)) + 1) (2 ^ (R.ECC_UE_CNT_COUNT (c.dieOf sa)).width - 1)) := by
  obtain ⟨views, staged, counts⟩ := c.mireRecord_spec (sa / 64) cause source
  have chan := c.place_chan_lt sa
  have row := faultRow_of_lt (n := 48 + (c.place sa).chan) (by omega)
  have ended (d : Ctl) : d.staysNoted (if d.inStripeTable sa then d.loseCtx ((sa - d.ctxAddr 0) / 64) else d) :=
    holds_ite (.loseCtx d _) (.refl d)
  unfold mireNote
  dsimp only
  generalize c.mireRecord (sa / 64) cause source = c1 at *
  have faulted : c1.staysNoted (c1.lineFault (48 + (c.place sa).chan) sa) := .fault c1 _ _ row
  by_cases one : cause = 1
  case pos =>
    have pending : (c1.lineFault (48 + (c.place sa).chan) sa).srcPending (48 + (c.place sa).chan) = true :=
      c1.fault_srcPending _ _ row.1 (faultRow_lt row) row.2
    rw [if_neg (show ¬(cause = 2 ∨ cause = 3) by omega), if_pos one, show (c.place sa).chan / 4 = c.dieOf sa from rfl]
    generalize c1.lineFault (48 + (c.place sa).chan) sa = c2 at *
    have after := (Ctl.staysNoted.testThreshold (c2.bump (R.ECC_UE_CNT_COUNT (c.dieOf sa))) (c.dieOf sa)).trans (ended _)
    refine ⟨((views.trans faulted.views).bump _ (by simp only [R.ECC_UE_CNT_COUNT, dieOf]; omega)).trans after.views,
      fun room => after.staging.trans (faulted.staging.trans (staged room)), fun _ => ⟨after.pending _ (by omega) ?_, ?_⟩⟩
    · rwa [srcPending, get_bump_ne _ _ _ _ (by simp only [R.FLT_PEND_PEND, R.ECC_UE_CNT_COUNT]; omega)]
    · rw [after.counts, get_bump_same, faulted.counts, counts]
  case neg =>
    rw [if_neg one]
    have after : c1.staysNoted (if cause = 2 ∨ cause = 3 then c1 else c1.lineFault (48 + (c.place sa).chan) sa) :=
      holds_ite (.refl c1) faulted
    have all := after.trans (ended _)
    exact ⟨views.trans all.views, fun room => all.staging.trans (staged room), fun e => absurd e one⟩

end Sys2Proof.Machine
end

section
/-! SUPPORT. A line that becomes mired (R175, R177): its bytes, its status and what is noted of it. -/

namespace Sys2Proof.Machine

/-- What is noted under a seal is on the control side of the Seal alone (R400). -/
theorem State.noteUnder_eq (s : State) (sa : Nat) : ∃ c x, s.noteUnder sa = { s with ctl := c } ∧ c = { s.ctl with sea := x } := by
  unfold noteUnder
  split
  · exact ⟨_, _, rfl, rfl⟩
  · exact ⟨s.ctl, s.ctl.sea, rfl, rfl⟩

theorem State.storeMired_placed (s : State) (sa cause : Nat) (h : s.ctl.rowUnplaced sa = false) : s.storeMired sa cause =
    { s with mem := memDrop s.mem (sa / 64 * 64) (sa / 64 * 64 + 64), lines := mapPut s.lines (sa / 64) (.mired cause) } :=
  if_neg (by rw [h]; decide)

/-- Bytes forgotten read as zeros. -/
theorem memRead_memDrop (m : List Host.Cell) (a n : Nat) : memRead (memDrop m a (a + n)) a n = List.replicate n 0 := by
  refine List.ext_getElem (by simp [memRead]) fun i l _ => ?_
  have : i < n := by simpa [memRead] using l
  simpa [memRead, memDefault] using memGet_memDrop_inside m a (a + n) (a + i) (by omega)

/-- A line that became mired: its bytes are zero, and every other byte and line is as it was; while there is room, a record is staged. -/
def State.becameMired (s t : State) (ln cause source : Nat) : Prop :=
  mapGet t.lines ln = some (.mired cause) ∧
    t.lineBytes (64 * ln) = List.replicate 64 0 ∧ t.pending = s.pending ∧ (∀ a, a / 64 ≠ ln → memGet t.mem a = memGet s.mem a) ∧
    (∀ m, m ≠ ln → mapGet t.lines m = mapGet s.lines m) ∧
    (s.ctl.ecc.staging.length < 512 → t.ctl.ecc.staging = s.ctl.ecc.staging ++
      [⟨s.ctl.get R.ECC_MIRE_SEQ_NEXT, ln, cause, source, s.ctl.now⟩])

/-- A line found uncorrectable: mired with cause 0x01, with its fault and its count. -/
def State.foundLost (s t : State) (ln source : Nat) : Prop :=
  s.becameMired t ln 1 source ∧ t.ctl.srcPending (48 + (s.ctl.place (64 * ln)).chan) = true ∧
    t.ctl.get (R.ECC_UE_CNT_COUNT (s.ctl.dieOf (64 * ln))) =
      min (s.ctl.get (R.ECC_UE_CNT_COUNT (s.ctl.dieOf (64 * ln))) + 1) (2 ^ (R.ECC_UE_CNT_COUNT (s.ctl.dieOf (64 * ln))).width - 1)

theorem State.mire_spec (s : State) (ln cause source : Nat) (placed : s.ctl.rowUnplaced (64 * ln) = false) :
    s.becameMired (s.mire (64 * ln) cause source) ln cause source ∧ s.ctl.sameViews (s.mire (64 * ln) cause source).ctl ∧
      (cause = 1 → s.foundLost (s.mire (64 * ln) cause source) ln source) := by
  obtain ⟨c, x, noted, only⟩ := s.noteUnder_eq (64 * ln)
  have unplaced : c.rowUnplaced (64 * ln) = false := by
    rw [only]
    exact placed
  obtain ⟨views, staged, told⟩ := c.mireNote_spec (64 * ln) cause source
  have line : 64 * ln / 64 = ln := by omega
  have first : 64 * ln / 64 * 64 = 64 * ln := by omega
  have e : s.mire (64 * ln) cause source = { s with
      mem := memDrop s.mem (64 * ln) (64 * ln + 64), lines := mapPut s.lines ln (.mired cause), ctl := c.mireNote (64 * ln) cause source } := by
    rw [mire, noted, storeMired_placed { s with ctl := c } _ _ unplaced, first, line]
    rfl
  have mired : s.becameMired (s.mire (64 * ln) cause source) ln cause source := by
    rw [e]
    refine ⟨mapGet_mapPut_same .., ?_, rfl, fun a n => memGet_memDrop_outside _ _ _ _ (by omega), fun m n => mapGet_mapPut_ne _ _ _ _ n, ?_⟩
    · rw [lineBytes, first]
      exact memRead_memDrop ..
    · rw [line, only] at staged
      exact only ▸ staged
  refine ⟨mired, ?_, fun one => ?_⟩
  · have same : s.ctl.sameViews c := .of_regs (by rw [only]) (by rw [only])
    rw [e]
    exact same.trans views
  · subst one
    rw [e]
    rw [e] at mired
    subst only
    exact ⟨mired, told rfl⟩

/-- A line that is no metadata line is mired, and no more. -/
theorem State.foundBad_spec (s : State) (ln source : Nat) (placed : s.ctl.rowUnplaced (64 * ln) = false)
    (data : s.ctl.metaAt (64 * ln) = none) : s.foundLost (s.foundBad (64 * ln) source) ln source := by
  obtain ⟨-, views, lost⟩ := s.mire_spec ln 1 source placed
  have same : s.foundBad (64 * ln) source = s.mire (64 * ln) 1 source := by
    rw [foundBad, metaLost, views.metaAt, data]
  rw [same]
  exact lost rfl

end Sys2Proof.Machine
end

section
/-! SUPPORT. A line corrected under R173: its counts, its write-back, and what the positions it implicates leave alone (R38, R182). -/

namespace Sys2Proof.Machine

/-- A counter raised by any number saturates at all ones. -/
theorem Ctl.get_bump_by (c : Ctl) (x : Fld) (n : Nat) : (c.bump x n).get x = min (c.get x + n) (2 ^ x.width - 1) := by
  have := Nat.two_pow_pos x.width
  exact (get_set_same _ _ _).trans (Nat.mod_eq_of_lt (by omega))

/-- With the same view registers and the same state of the moves, every line has the same place. -/
theorem Ctl.sameViews.place_of_moves {c d : Ctl} (k : c.sameViews d) (low : ∀ x : Fld, x.key < 4194304 → d.get x = c.get x)
    (mig : ∀ x : Fld, 11010688 ≤ x.key → x.key < 11012096 → d.get x = c.get x)
    (ecc : ∃ l m, d.ecc = { c.ecc with causes := l, crossed := m }) (sa : Nat) : d.place sa = c.place sa := by
  obtain ⟨l, m, ecc⟩ := ecc
  refine k.place ?_ sa
  simp (disch := decide) only [remapNow, moveNow, flag, ecc, k.viewed, low, mig]
  rfl

/-- The counts of a corrected line (R173, R182), and what the threshold test leaves after them. -/
theorem Ctl.noteCorrected_spec (c : Ctl) (sa n : Nat) :
    (c.noteCorrected sa n).get (R.ECC_CE_CNT_LINES (c.dieOf sa)) =
        min (c.get (R.ECC_CE_CNT_LINES (c.dieOf sa)) + 1) (2 ^ (R.ECC_CE_CNT_LINES (c.dieOf sa)).width - 1) ∧
      (c.noteCorrected sa n).get (R.ECC_CE_SCORE_COUNT (c.dieOf sa)) =
        min (c.get (R.ECC_CE_SCORE_COUNT (c.dieOf sa)) + n) (2 ^ (R.ECC_CE_SCORE_COUNT (c.dieOf sa)).width - 1) ∧
      ∀ a, (c.noteCorrected sa n).place a = c.place a := by
  have die : c.dieOf sa < 12 := by
    have := c.place_chan_lt sa
    unfold dieOf
    omega
  let lines := c.bump (R.ECC_CE_CNT_LINES (c.dieOf sa))
  let score := lines.bump (R.ECC_CE_SCORE_COUNT (c.dieOf sa)) n
  obtain ⟨k, l, told, kept⟩ := score.testThreshold_spec (c.dieOf sa)
  have same (x : Fld) (o : x.key < 11010432 ∨ 11010688 ≤ x.key) : (score.testThreshold (c.dieOf sa)).get x = score.get x :=
    kept x fun y m => by
      simp only [List.mem_cons, List.not_mem_nil, or_false] at m
      rcases m with rfl | rfl <;> simp only [R.ECC_HEALTH_STATE, R.ECC_HEALTH_REASON] <;> omega
  have other (x : Fld) (o : x.key < 11010432 ∨ 11010688 ≤ x.key ∧ x.key < 11012096 ∨ 11018240 ≤ x.key) :
      (score.testThreshold (c.dieOf sa)).get x = c.get x := by
    rw [same x (by omega), get_bump_ne _ _ _ _ (by simp only [R.ECC_CE_SCORE_COUNT]; omega),
      get_bump_ne _ _ _ _ (by simp only [R.ECC_CE_CNT_LINES]; omega)]
  refine ⟨?_, ?_, Ctl.sameViews.place_of_moves ⟨told.part, fun x l u => other x (by omega), fun x l u => other x (by omega)⟩
    (fun x l => other x (by omega)) (fun x l u => other x (by omega)) ⟨k, l, told.ecc⟩⟩
  · exact (same _ (by simp only [R.ECC_CE_CNT_LINES]; omega)).trans ((get_bump_ne _ _ _ _ (by
      simp only [R.ECC_CE_CNT_LINES, R.ECC_CE_SCORE_COUNT]; omega)).trans (get_bump_same _ _))
  · exact (same _ (by simp only [R.ECC_CE_SCORE_COUNT]; omega)).trans ((get_bump_by _ _ _).trans (by
      rw [get_bump_ne _ _ _ _ (by simp only [R.ECC_CE_CNT_LINES, R.ECC_CE_SCORE_COUNT]; omega)]))

/-! ## Implicated positions -/

/-- The channels, and the registers from the time block on, are as they were. -/
def Ctl.sameQueues (c d : Ctl) : Prop := d.stk.chans = c.stk.chans ∧ ∀ x : Fld, 4718592 ≤ x.key → d.get x = c.get x

namespace Ctl.sameQueues

theorem refl (c : Ctl) : c.sameQueues c := ⟨rfl, fun _ _ => rfl⟩

theorem trans {c d e : Ctl} (a : c.sameQueues d) (b : d.sameQueues e) : c.sameQueues e :=
  ⟨b.1.trans a.1, fun x l => (b.2 x l).trans (a.2 x l)⟩

theorem addCause {c d : Ctl} (a : c.sameQueues d) (k : RetCause) : c.sameQueues (d.addCause k) := by
  obtain ⟨l, e, -⟩ := d.addCause_eq k
  rw [e]
  exact a

theorem fault (c : Ctl) {src : Nat} (info : Nat) (l : src < 248) : c.sameQueues (c.fault src info) :=
  have row := faultRow_of_lt l
  ⟨congrArg StkSt.chans (c.onlyTold_fault info _ row).stk, fun _ o => c.fault_get info _ row.1 (faultRow_lt row) row.2 (.inr o)⟩

/-- A repair asked for is noted, or a cause waits (R39 to R41). -/
theorem askRepair (c : Ctl) (unit pos : Nat) : c.sameQueues (c.askRepair unit pos) := by
  unfold Ctl.askRepair
  refine holds_ite (refl c) ?_
  have marked (f : List (Nat × Nat)) : c.sameQueues { c with stk.failing := f } := ⟨rfl, fun _ _ => rfl⟩
  have asked (f : List (Nat × Nat)) (r : List RepairSt) : c.sameQueues { c with stk.failing := f, stk.repairs := r } := ⟨rfl, fun _ _ => rfl⟩
  dsimp only
  split
  case isTrue l => exact holds_ite (((marked _).trans (fault _ pos (by omega))).addCause _) (asked _ _)
  case isFalse => exact holds_ite ((marked _).addCause _) (asked _ _)

theorem implicate (c : Ctl) (unit : Nat) (pos : List Nat) : c.sameQueues (c.implicate unit pos) := by
  unfold Ctl.implicate
  refine holds_ite ?_ (refl c)
  refine List.foldlRecOn (motive := fun d => c.sameQueues d) pos _ (refl c) fun d kept p _ => kept.trans ?_
  have hit (l : List ((Nat × Nat) × List Nat)) : d.sameQueues { d with stk.tsvHits := l } := ⟨rfl, fun _ _ => rfl⟩
  exact (hit _).trans (holds_ite (askRepair _ _ _) (refl _))

end Ctl.sameQueues

/-- The write-back of a corrected line stands at its controller (R173). -/
theorem Ctl.queueWriteBack_spec (c : Ctl) (sa : Nat) : (c.queueWriteBack sa).regs = c.regs ∧
    ∃ q ∈ ((c.queueWriteBack sa).chan (c.place sa).chan).queue ++ ((c.queueWriteBack sa).chan (c.place sa).chan).waiting,
      q.kind = .correction ∧ q.bank = (c.place sa).bank ∧ q.row = (c.place sa).row ∧ q.line = (c.place sa).line := by
  unfold queueWriteBack
  dsimp only
  split
  case isTrue stands =>
    obtain ⟨q, mem, same⟩ := List.any_eq_true.1 stands
    simp only [Bool.and_eq_true, decide_eq_true_eq] at same
    obtain ⟨⟨⟨kind, bank⟩, row⟩, line⟩ := same
    exact ⟨rfl, q, mem, kind, bank, row, line⟩
  case isFalse => exact ⟨rfl, c.writeBackReq (c.place sa), by simp, rfl, rfl, rfl, rfl⟩

/-- A corrected line (R173): its die's counts, and its write-back. -/
theorem Ctl.correctedLine_spec (c : Ctl) (sa : Nat) (lane : Bool) (l : List (Nat × Nat)) :
    (c.correctedLine sa lane l).get (R.ECC_CE_CNT_LINES (c.dieOf sa)) =
        min (c.get (R.ECC_CE_CNT_LINES (c.dieOf sa)) + 1) (2 ^ (R.ECC_CE_CNT_LINES (c.dieOf sa)).width - 1) ∧
      (c.correctedLine sa lane l).get (R.ECC_CE_SCORE_COUNT (c.dieOf sa)) =
        min (c.get (R.ECC_CE_SCORE_COUNT (c.dieOf sa)) + l.length) (2 ^ (R.ECC_CE_SCORE_COUNT (c.dieOf sa)).width - 1) ∧
      ∃ q ∈ ((c.correctedLine sa lane l).chan (c.place sa).chan).queue ++ ((c.correctedLine sa lane l).chan (c.place sa).chan).waiting,
        q.kind = .correction ∧ q.bank = (c.place sa).bank ∧ q.row = (c.place sa).row ∧ q.line = (c.place sa).line := by
  obtain ⟨lines, score, place⟩ := c.noteCorrected_spec sa l.length
  obtain ⟨regs, back⟩ := (c.noteCorrected sa l.length).queueWriteBack_spec sa
  obtain ⟨chans, same⟩ := Ctl.sameQueues.implicate ((c.noteCorrected sa l.length).queueWriteBack sa) ((c.place sa).group lane)
    (c.carriers (c.place sa) lane l)
  have counted (x : Fld) (o : 4718592 ≤ x.key) : (c.correctedLine sa lane l).get x = (c.noteCorrected sa l.length).get x :=
    (same x o).trans (get_congr _ _ regs x)
  refine ⟨(counted _ (by simp only [R.ECC_CE_CNT_LINES]; omega)).trans lines,
    (counted _ (by simp only [R.ECC_CE_SCORE_COUNT]; omega)).trans score, ?_⟩
  rw [place] at back
  have chan (n : Nat) : (c.correctedLine sa lane l).chan n = ((c.noteCorrected sa l.length).queueWriteBack sa).chan n :=
    congrArg (fun m => (mapGet m n).getD ({} : ChanSt)) chans
  rwa [chan]

end Sys2Proof.Machine
end

section
/-! SUPPORT. LINE_READ_CHECK by a source other than the Forager (R170 to R175, R215), case by case. -/

namespace Sys2Proof.Machine

/-! ## A line written -/

theorem memRead_memWrite (m : List Host.Cell) (a : Nat) (d : Bytes) : memRead (memWrite m a d) a d.length = d := by
  refine List.ext_getElem (by simp [memRead]) fun i _ l => ?_
  simpa [memRead] using memGet_memWrite_inside m a i d l

/-- A line written whole reads as it was written. -/
theorem State.storeLine_lineBytes (s : State) (sa : Nat) (d : Bytes) (placed : s.ctl.rowUnplaced sa = false) (l : d.length = 64) :
    (s.storeLine sa d).lineBytes sa = d := by
  rw [storeLine, if_neg (by rw [placed]; decide), lineBytes, List.take_of_length_le l.le]
  exact l ▸ memRead_memWrite s.mem (sa / 64 * 64) d

theorem addPattern_length (d : Bytes) (l : List (Nat × Nat)) : (addPattern d l).length = 64 := by simp [addPattern]

/-- A row that no granule could take is mired (R190). -/
theorem State.placed_of_isMired (s : State) {sa : Nat} (h : (s.status sa).isMired = false) : s.ctl.rowUnplaced sa = false := by
  cases u : s.ctl.rowUnplaced sa with
  | false => rfl
  | true => simp [status, u, LineStatus.isMired] at h

/-! ## Without the Forager -/

theorem Ctl.passReads_other (c : Ctl) (sa : Nat) {source : Nat} (other : source ≠ 3) : c.passReads sa source = false := by
  simp [passReads, other]

/-- A line decoded beyond the bound of R172: a mire word, another codeword, or none. -/
def State.decodedLine (s : State) (sa source : Nat) (lane : Bool) (l : List (Nat × Nat)) : State :=
  if s.arriving sa l = mireSyndromes then s
  else match decodePattern (s.ctl.correctable (s.ctl.dieOf sa)) (s.arriving sa l) with
    | some r => (s.miscorrect sa (l ++ r)).mapCtl fun c => c.correctedLine sa lane r
    | none => s.foundBad sa source

/-- What a line read by any other source than the Forager comes to. -/
def State.checkedLine (s : State) (sa source : Nat) (lane : Bool) (l : List (Nat × Nat)) : State :=
  let most := s.ctl.correctable (s.ctl.dieOf sa)
  if (s.status sa).isMired then
    (if l = [] then s
     else if l.length ≤ (if most = 3 then 4 else 3) then s.foundBad sa source
     else s.decodedLine sa source lane l)
  else match s.ctl.unverifiedCause sa with
    | some cause => s.mire sa cause source
    | none =>
      if l = [] then s
      else if l.length ≤ most then s.mapCtl fun c => c.correctedLine sa lane l
      else if l.length ≤ s.ctl.surelyFound (s.ctl.dieOf sa) then s.foundBad sa source
      else s.decodedLine sa source lane l

/-- Nothing is counted for the Forager. -/
theorem State.lineReadCheck_eq (s : State) (ln : Nat) {source : Nat} (lane : Bool) (flips : List (Nat × Byte)) (other : source ≠ 3) :
    exec (.lineReadCheck (64 * ln) source lane flips) s = .next (s.checkedLine (64 * ln) source lane (errorPattern flips)) := by
  have line : 64 * ln / 64 * 64 = 64 * ln := by omega
  have whole : exec (.lineReadCheck (64 * ln) source lane flips) s = execLineReadCheck (64 * ln) source lane flips s := rfl
  rw [whole, execLineReadCheck]
  simp only [line, s.ctl.passReads_other _ other, countLine, lineGood, foragerSeal, Bool.false_and, Bool.false_eq_true, if_false]
  cases e : s.ctl.unverifiedCause (64 * ln) <;>
    cases near : decodePattern (s.ctl.correctable (s.ctl.dieOf (64 * ln))) (s.arriving (64 * ln) (errorPattern flips)) <;>
    simp only [checkedLine, decodedLine, e, near, apply_ite Host.Outcome.next]

end Sys2Proof.Machine
end

section
/-! SUPPORT. What LINE_READ_CHECK does with each arrival (R172 to R175), and the merge of a partial write (R174). -/

namespace Sys2Proof.Machine

section
variable (s : State) (ln source : Nat) (lane : Bool) {l : List (Nat × Nat)}

/-- A line that cannot be verified is mired with its cause (R215). -/
theorem State.checkedLine_unverified (l : List (Nat × Nat)) {cause : Nat} (good : (s.status (64 * ln)).isMired = false)
    (bad : s.ctl.unverifiedCause (64 * ln) = some cause) : s.becameMired (s.checkedLine (64 * ln) source lane l) ln cause source := by
  rw [checkedLine, good, bad]
  exact (s.mire_spec ln cause source (s.placed_of_isMired good)).1

section
variable (good : (s.status (64 * ln)).isMired = false) (verified : s.ctl.unverifiedCause (64 * ln) = none)
include good verified

theorem State.checkedLine_clean : s.checkedLine (64 * ln) source lane [] = s := by simp [checkedLine, good, verified]

/-- Up to the number the code corrects (R173). -/
theorem State.checkedLine_corrected (some : 1 ≤ l.length) (few : l.length ≤ s.ctl.correctable (s.ctl.dieOf (64 * ln))) :
    s.checkedLine (64 * ln) source lane l = s.mapCtl fun c => c.correctedLine (64 * ln) lane l := by
  have : l ≠ [] := List.ne_nil_of_length_pos some
  simp [checkedLine, good, verified, this, few]

/-- More than are corrected, and more than are surely found. -/
theorem State.checkedLine_beyond (many : s.ctl.correctable (s.ctl.dieOf (64 * ln)) < l.length)
    (past : s.ctl.surelyFound (s.ctl.dieOf (64 * ln)) < l.length) :
    s.checkedLine (64 * ln) source lane l = s.decodedLine (64 * ln) source lane l := by
  have : l ≠ [] := List.ne_nil_of_length_pos (by omega)
  simp [checkedLine, good, verified, this, many.not_ge, past.not_ge]

/-- More than are corrected, found as they surely are or with no codeword near (R175). -/
theorem State.checkedLine_found (many : s.ctl.correctable (s.ctl.dieOf (64 * ln)) < l.length)
    (found : l.length ≤ s.ctl.surelyFound (s.ctl.dieOf (64 * ln)) ∨ (s.arriving (64 * ln) l ≠ mireSyndromes ∧
      decodePattern (s.ctl.correctable (s.ctl.dieOf (64 * ln))) (s.arriving (64 * ln) l) = none)) :
    s.checkedLine (64 * ln) source lane l = s.foundBad (64 * ln) source := by
  by_cases past : s.ctl.surelyFound (s.ctl.dieOf (64 * ln)) < l.length
  case pos =>
    obtain ⟨other, none⟩ := found.resolve_left past.not_ge
    rw [s.checkedLine_beyond ln source lane good verified many past, decodedLine, if_neg other, none]
  case neg =>
    have : l ≠ [] := List.ne_nil_of_length_pos (by omega)
    simp [checkedLine, good, verified, this, many.not_ge, not_lt.1 past]

end

/-- The bytes of the wrong codeword (R172), in a granule that is PLAIN. -/
theorem State.decodedLine_wrong {r : List (Nat × Nat)} (good : (s.status (64 * ln)).isMired = false)
    (other : s.arriving (64 * ln) l ≠ mireSyndromes)
    (near : decodePattern (s.ctl.correctable (s.ctl.dieOf (64 * ln))) (s.arriving (64 * ln) l) = some r)
    (plain : s.ctl.sealAt (64 * ln) = 0) :
    (s.decodedLine (64 * ln) source lane l).lineBytes (64 * ln) = addPattern (s.lineBytes (64 * ln)) (l ++ r) ∧
      ∀ a, a / 64 ≠ ln → memGet (s.decodedLine (64 * ln) source lane l).mem a = memGet s.mem a := by
  have e : s.decodedLine (64 * ln) source lane l =
      (s.storeLine (64 * ln) (addPattern (s.lineBytes (64 * ln)) (l ++ r))).mapCtl fun c => c.correctedLine (64 * ln) lane r := by
    simp [decodedLine, other, near, miscorrect, plain, good]
  rw [e]
  exact ⟨s.storeLine_lineBytes _ _ (s.placed_of_isMired good) (addPattern_length _ _),
    fun a n => s.storeLine_outside _ a _ (by omega)⟩

/-- A mired line with few errors is found uncorrectable (R175). -/
theorem State.checkedLine_mired (mired : (s.status (64 * ln)).isMired = true) (some : 1 ≤ l.length)
    (few : l.length ≤ if s.ctl.correctable (s.ctl.dieOf (64 * ln)) = 3 then 4 else 3) :
    s.checkedLine (64 * ln) source lane l = s.foundBad (64 * ln) source := by
  have : l ≠ [] := List.ne_nil_of_length_pos some
  rw [checkedLine, if_pos mired, if_neg this, if_pos few]

theorem State.checkedLine_mired_clean (mired : (s.status (64 * ln)).isMired = true) : s.checkedLine (64 * ln) source lane [] = s := by
  simp [checkedLine, mired]
end

/-! ## Partial writes -/

theorem mergeBytes_length (old : Bytes) (new : List (Nat × BitVec 8)) : (mergeBytes old new).length = old.length :=
  List.foldlRecOn (motive := fun l : Bytes => l.length = old.length) new _ rfl fun l e x _ => by simp [e]

/-- The machine with other merges waiting. -/
def State.withMerges (s : State) (m : List Merge) : State := { s with ctl := { s.ctl with ecc.merges := m } }

/-- The oldest merge, held by nothing, is carried out. -/
theorem State.partialWriteMerge_eq (s : State) {sa cls : Nat} {new : List (Nat × BitVec 8)} {hd : Head} {rest : List Merge}
    (queue : s.ctl.ecc.merges = ⟨sa, new, cls, hd⟩ :: rest) (free : s.ctl.mergeStopped ⟨sa, new, cls, hd⟩ = false) :
    exec .partialWriteMerge s = .next ((s.withMerges rest).merge sa new).2 := by
  have whole : exec .partialWriteMerge s = execPartialWriteMerge s := rfl
  have next : s.ctl.mergeNext [] (⟨sa, new, cls, hd⟩ :: rest) = some (⟨sa, new, cls, hd⟩, rest) := by simp [Ctl.mergeNext, free]
  rw [whole, execPartialWriteMerge, queue, next]
  rfl

/-- A good line of a PLAIN granule takes the new bytes (R174). -/
theorem State.merge_good (s : State) (sa : Nat) (new : List (Nat × BitVec 8)) (plain : s.ctl.sealAt sa = 0)
    (good : s.status sa = .good) : (s.merge sa new).2 = s.storeLine sa (mergeBytes (s.lineBytes sa) new) := by
  simp [merge, plain, readChecked, readLine, good, writeLine]

/-- The merge with a mired line of a PLAIN granule is dropped (R174). -/
theorem State.merge_mired (s : State) (sa : Nat) (new : List (Nat × BitVec 8)) (plain : s.ctl.sealAt sa = 0)
    (mired : (s.status sa).isMired = true) : (s.merge sa new).2 = s.mapCtl fun c => c.dropPartial sa := by
  cases e : s.status sa with
  | mired cause => simp [merge, plain, readChecked, readLine, e]
  | good => simp [e, LineStatus.isMired] at mired
  | neverWritten => simp [e, LineStatus.isMired] at mired

/-- A partial write discarded: counted, and a fault of its channel. -/
theorem Ctl.dropPartial_spec (c : Ctl) (sa : Nat) : (c.dropPartial sa).ecc = c.ecc ∧
    (c.dropPartial sa).get R.ECC_PARTIAL_DROP_CNT_DROPS = min (c.get R.ECC_PARTIAL_DROP_CNT_DROPS + 1) (2 ^ 32 - 1) ∧
    (c.dropPartial sa).srcPending (96 + (c.place sa).chan) = true := by
  have chan := c.place_chan_lt sa
  have row := faultRow_of_lt (n := 96 + (c.place sa).chan) (by omega)
  have counted : (c.bump R.ECC_PARTIAL_DROP_CNT_DROPS).get R.ECC_PARTIAL_DROP_CNT_DROPS = _ := get_bump_same _ _
  have still : (c.bump R.ECC_PARTIAL_DROP_CNT_DROPS).ecc = c.ecc := rfl
  unfold dropPartial lineFault
  generalize c.bump R.ECC_PARTIAL_DROP_CNT_DROPS = d at *
  exact ⟨(d.onlyTold_fault _ _ row).ecc.trans still, (d.fault_get _ _ row.1 (faultRow_lt row) row.2 (.inr (by decide))).trans counted,
    d.fault_srcPending _ _ row.1 (faultRow_lt row) row.2⟩

end Sys2Proof.Machine
end

section
/-! SUPPORT. The threshold windows (R182), the mire log (R177, R191), and commands that claim the ECC block (R20, R293). -/

namespace Sys2Proof.Machine

/-! ## Windows -/

/-- The counts of a window cleared on some dies (R182): those read 0, and every other field is as it was. -/
theorem Ctl.get_clearCounts (l : List Nat) (c : Ctl) (x : Fld) :
    (l.foldl (fun c d => (c.set (R.ECC_CE_SCORE_COUNT d) 0).set (R.ECC_UE_CNT_COUNT d) 0) c).get x =
      if ∃ d ∈ l, x.key = (R.ECC_CE_SCORE_COUNT d).key ∨ x.key = (R.ECC_UE_CNT_COUNT d).key then 0 else c.get x := by
  induction l generalizing c with
  | nil => simp
  | cons d t ih =>
    rw [List.foldl_cons, ih, get_set, get_set, Nat.zero_mod, Nat.zero_mod]
    by_cases later : ∃ d ∈ t, x.key = (R.ECC_CE_SCORE_COUNT d).key ∨ x.key = (R.ECC_UE_CNT_COUNT d).key
    case pos => simp [later]
    case neg => by_cases u : x.key = (R.ECC_UE_CNT_COUNT d).key <;> simp [later, u]

/-- What a new window sets beside the counts (R182). -/
theorem Ctl.newWindow_get (c : Ctl) (x : Fld) : c.newWindow.get x =
    if ∃ d ∈ List.range 12, x.key = (R.ECC_CE_SCORE_COUNT d).key ∨ x.key = (R.ECC_UE_CNT_COUNT d).key then 0 else c.get x :=
  get_clearCounts _ _ x

theorem Ctl.newWindow_ecc (c : Ctl) : c.newWindow.ecc = { c.ecc with
    ceThresh := c.get R.ECC_RET_CFG_CE_THRESH, ueThresh := c.get R.ECC_RET_CFG_UE_THRESH, window := c.get R.ECC_RET_CFG_WINDOW,
    crossed := [] } := rfl

/-! ## Claims -/

/-- The claim of the ECC block discards no shadow value. -/
theorem Ctl.claiming_ecc {s : State} {h : Head} (u : s.unclaimed h [blkEcc]) (op : Nat) (p : Bytes) (run : Ctl → Ctl) :
    s.ctl.claiming h op p [blkEcc] run = run { s.ctl with claims := (blkEcc, h) :: s.ctl.claims } := by
  have taken : s.ctl.takeClaims h [blkEcc] = { s.ctl with claims := (blkEcc, h) :: s.ctl.claims } := by
    simp [takeClaims, claim, dropShadows, blkEcc]
  rw [claiming_run _ _ _ _ _ _ (State.any_unclaimed u), taken]

/-- A command that claims a block and only answers. -/
theorem State.answers_claimed {s : State} {h : Head} {op : Nat} {o : Ocs} {out : Bytes} {i : Instr} {cl : List (Nat × Head)}
    (run : exec i s = .next { s with ctl := ({ s.ctl with claims := cl } : Ctl).finish h op o out }) :
    ∃ t, exec i s = .next t ∧ t.replied h op o out ∧ s.frame Ctl.onlyReplies t :=
  have claimed : s.ctl.onlyReplies { s.ctl with claims := cl } := ⟨rfl, fun k => by cases k <;> exact HeadSt.onlyReplies_refl _⟩
  ⟨_, run, s.replied_finish _ h op o out, claimed.trans (Ctl.onlyReplies_finish _ h op o out), rfl, rfl, rfl⟩

/-! ## MIRE_LOG_READ -/

section
variable {s : State} {h : Head} {p : Bytes} (g : s.takes h { min := 6 } p) (u : s.unclaimed h [blkEcc])
include g u

/-- From a record that the log holds. -/
theorem mireLogRead_held {x r : MireRec} {old rest : List MireRec} (log : s.ctl.ecc.log = x :: (old ++ r :: rest))
    (hx : x.seq ≠ le p 0 4) (ho : ∀ y ∈ old, y.seq ≠ le p 0 4) (hr : r.seq = le p 0 4)
    (written : 2 ^ 31 ≤ (le p 0 4 + 2 ^ 32 - s.ctl.get R.ECC_MIRE_SEQ_NEXT) % 2 ^ 32) :
    let recs := (r :: rest).take (min (min 256 (le p 4 2)) 127)
    ∃ t, exec (.mireLogRead h p) s = .next t ∧ t.replied h 0xC130 .ok
      (toLE 4 (le p 0 4) ++ toLE 4 (s.ctl.get R.ECC_MIRE_SEQ_NEXT) ++ toLE 4 x.seq ++ toLE 4 recs.length ++
        recs.flatMap MireRec.encode) ∧ s.frame Ctl.onlyReplies t := by
  have held : (x :: (old ++ r :: rest)).dropWhile (fun r => decide (r.seq ≠ le p 0 4)) = r :: rest := by
    rw [List.dropWhile_cons_of_pos (by simpa using hx), List.dropWhile_append_of_pos (by simpa using ho)]
    exact List.dropWhile_cons_of_neg (by simpa using hr)
  refine State.answers_claimed (cl := (blkEcc, h) :: s.ctl.claims) (State.exec_ctl (f := mireLogRead h p) rfl ?_)
  rw [mireLogRead, Ctl.ocs_run _ _ _ _ _ _ g.1 g.2, mireLogReadRun, Ctl.claiming_ecc u]
  simp only [log, held]
  exact congrArg _ (if_neg (not_lt.2 written))

/-- Of a number not yet written, with nothing in the log: the oldest held is then NEXT (the model's choice, beside notes/assumptions/60.md). -/
theorem mireLogRead_none (unwritten : (le p 0 4 + 2 ^ 32 - s.ctl.get R.ECC_MIRE_SEQ_NEXT) % 2 ^ 32 < 2 ^ 31)
    (log : s.ctl.ecc.log = []) :
    ∃ t, exec (.mireLogRead h p) s = .next t ∧ t.replied h 0xC130 .ok (toLE 4 (s.ctl.get R.ECC_MIRE_SEQ_NEXT) ++
      toLE 4 (s.ctl.get R.ECC_MIRE_SEQ_NEXT) ++ toLE 4 (s.ctl.get R.ECC_MIRE_SEQ_NEXT) ++ toLE 4 0) ∧
      s.frame Ctl.onlyReplies t := by
  refine State.answers_claimed (cl := (blkEcc, h) :: s.ctl.claims) (State.exec_ctl (f := mireLogRead h p) rfl ?_)
  rw [mireLogRead, Ctl.ocs_run _ _ _ _ _ _ g.1 g.2, mireLogReadRun, Ctl.claiming_ecc u]
  simp only [log]
  exact congrArg _ (if_pos unwritten)

end

end Sys2Proof.Machine
end

section
/-! SUPPORT. Where a waiting merge leaves lines as they were (R174), and the statement about line errors. -/

namespace Sys2Proof.Machine

section
variable (c : Ctl) (m : List Merge) (sa : Nat)

theorem Ctl.sameViews_merges : c.sameViews { c with ecc.merges := m } := .of_regs rfl rfl

theorem Ctl.place_merges : ({ c with ecc.merges := m } : Ctl).place sa = c.place sa := (c.sameViews_merges m).place rfl sa

theorem Ctl.rowUnplaced_merges : ({ c with ecc.merges := m } : Ctl).rowUnplaced sa = c.rowUnplaced sa := by
  simp only [rowUnplaced, place_merges]

theorem Ctl.rowLost_merges : ({ c with ecc.merges := m } : Ctl).rowLost sa = c.rowLost sa := by
  have k := c.sameViews_merges m
  have user : ({ c with ecc.merges := m } : Ctl).userEnd = c.userEnd := rfl
  simp only [rowLost, lossesSince, k.placeBy, k.viewPlace, k.metaAt, user]

theorem State.status_merges (s : State) : (s.withMerges m).status sa = s.status sa := by
  have user : ({ s.ctl with ecc.merges := m } : Ctl).userEnd = s.ctl.userEnd := rfl
  have granule (a : Nat) : ({ s.ctl with ecc.merges := m } : Ctl).sealState a = s.ctl.sealState a := rfl
  simp only [withMerges, status, Ctl.defaultStatus, Ctl.rowUnplaced_merges, Ctl.rowLost_merges, user, granule]
end

section
variable {s : State} {ln cls : Nat} {new : List (Nat × BitVec 8)} {hd : Head} {rest : List Merge}
  (queue : s.ctl.ecc.merges = ⟨64 * ln, new, cls, hd⟩ :: rest) (plain : s.ctl.sealAt (64 * ln) = 0)
  (free : s.ctl.mergeStopped ⟨64 * ln, new, cls, hd⟩ = false)
include queue plain free

theorem partialWriteMerge_good (good : s.status (64 * ln) = .good) : ∃ t, exec .partialWriteMerge s = .next t ∧
    t.lineBytes (64 * ln) = mergeBytes (s.lineBytes (64 * ln)) new ∧ t.ctl.ecc.merges = rest ∧
    (∀ a, a / 64 ≠ ln → memGet t.mem a = memGet s.mem a) ∧ t.ctl.regs = s.ctl.regs := by
  have good' : (s.withMerges rest).status (64 * ln) = .good := (s.status_merges ..).trans good
  refine ⟨_, s.partialWriteMerge_eq queue free, ?_⟩
  rw [(s.withMerges rest).merge_good (64 * ln) new plain good']
  refine ⟨State.storeLine_lineBytes _ _ _ (State.placed_of_isMired _ (by rw [good']; rfl)) ?_, by rw [State.storeLine_ctl]; rfl,
    fun a n => State.storeLine_outside _ _ a _ (by omega), by rw [State.storeLine_ctl]; rfl⟩
  simp [mergeBytes_length, State.lineBytes, memRead]

theorem partialWriteMerge_mired (mired : (s.status (64 * ln)).isMired = true) : ∃ t, exec .partialWriteMerge s = .next t ∧
    t.ctl.ecc.merges = rest ∧
    t.ctl.get R.ECC_PARTIAL_DROP_CNT_DROPS = min (s.ctl.get R.ECC_PARTIAL_DROP_CNT_DROPS + 1) (2 ^ 32 - 1) ∧
    t.ctl.srcPending (96 + (s.ctl.place (64 * ln)).chan) = true ∧ s.sameStack t := by
  have mired' : ((s.withMerges rest).status (64 * ln)).isMired = true := by rwa [State.status_merges]
  refine ⟨_, s.partialWriteMerge_eq queue free, ?_⟩
  rw [(s.withMerges rest).merge_mired (64 * ln) new plain mired']
  obtain ⟨ecc, count, pending⟩ := Ctl.dropPartial_spec { s.ctl with ecc.merges := rest } (64 * ln)
  rw [Ctl.place_merges] at pending
  exact ⟨congrArg EccSt.merges ecc, count, pending, rfl, rfl, rfl⟩
end

/-- A window that ends (R182). -/
theorem thresholdWindowBoundary_spec (s : State) (on : s.ctl.ecc.window ≠ 0)
    (boundary : s.ctl.get R.TIM_BEAT_CNT_VALUE % (s.ctl.ecc.window * 65536) = 0) :
    ∃ t, exec .thresholdWindowBoundary s = .next t ∧ (∀ d, d < 12 → t.ctl.get (R.ECC_CE_SCORE_COUNT d) = 0 ∧
      t.ctl.get (R.ECC_UE_CNT_COUNT d) = 0) ∧ t.ctl.ecc.ceThresh = s.ctl.get R.ECC_RET_CFG_CE_THRESH ∧
      t.ctl.ecc.ueThresh = s.ctl.get R.ECC_RET_CFG_UE_THRESH ∧ t.ctl.ecc.window = s.ctl.get R.ECC_RET_CFG_WINDOW ∧
      (∀ x : Fld, (∀ d, d < 12 → x.key ≠ (R.ECC_CE_SCORE_COUNT d).key ∧ x.key ≠ (R.ECC_UE_CNT_COUNT d).key) →
        t.ctl.get x = s.ctl.get x) ∧ s.sameStack t := by
  have run : exec .thresholdWindowBoundary s = .next { s with ctl := s.ctl.newWindow } :=
    State.exec_ctl rfl (if_pos (by simp [Ctl.atWindowEnd, on, boundary]))
  refine ⟨_, run, fun d l => ⟨?_, ?_⟩, ?_, ?_, ?_, fun x other => ?_, rfl, rfl, rfl⟩
  · exact (s.ctl.newWindow_get _).trans (if_pos ⟨d, List.mem_range.2 l, .inl rfl⟩)
  · exact (s.ctl.newWindow_get _).trans (if_pos ⟨d, List.mem_range.2 l, .inr rfl⟩)
  · exact congrArg EccSt.ceThresh s.ctl.newWindow_ecc
  · exact congrArg EccSt.ueThresh s.ctl.newWindow_ecc
  · exact congrArg EccSt.window s.ctl.newWindow_ecc
  · refine (s.ctl.newWindow_get x).trans (if_neg fun ⟨d, mem, same⟩ => ?_)
    obtain ⟨score, count⟩ := other d (List.mem_range.1 mem)
    exact same.elim score count

/-- The Keeper moves the oldest staged record into the log (R177). -/
theorem mireLogDrain_spec (s : State) {r : MireRec} {rest : List MireRec} (staged : s.ctl.ecc.staging = r :: rest)
    (running : s.ctl.kpr.phase = 3) (room : s.ctl.ecc.log.length < 1048576) :
    ∃ t, exec .mireLogDrain s = .next t ∧ t.ctl.ecc.staging = rest ∧ t.ctl.ecc.log = s.ctl.ecc.log ++ [r] ∧
      t.ctl.regs = s.ctl.regs ∧ s.sameStack t := by
  have kept : ¬1048576 < (s.ctl.ecc.log ++ [r]).length := by
    rw [List.length_append, List.length_singleton]
    omega
  have run : exec .mireLogDrain s =
      .next { s with ctl := { s.ctl with ecc.staging := rest, ecc.log := s.ctl.ecc.log ++ [r] } } :=
    State.exec_ctl (f := mireLogDrain) rfl (by simp only [mireLogDrain, staged, running, if_true, if_neg kept])
  exact ⟨_, run, rfl, rfl, rfl, rfl, rfl, rfl⟩

/-- Settles O24: `State.checkedLine` says what LINE_READ_CHECK comes to, one lemma for each arrival. -/
theorem lineErrorsAreCorrectedOrMired : Obligations.LineErrorsAreCorrectedOrMired := by
  unfold Obligations.LineErrorsAreCorrectedOrMired
  intro s
  refine ⟨?_, ?_, thresholdWindowBoundary_spec s, fun r rest => mireLogDrain_spec s, ?_⟩
  · intro ln source lane flips other sa d l n most mired lost
    have run : exec (.lineReadCheck sa source lane flips) s = .next (s.checkedLine sa source lane l) :=
      s.lineReadCheck_eq ln lane flips other
    rw [run]
    refine ⟨fun good => ⟨fun cause bad => ⟨_, rfl, s.checkedLine_unverified ln source lane l good bad⟩,
      fun verified => ⟨?_, ?_, ?_, ?_, ?_⟩⟩, fun bad => ⟨?_, ?_⟩⟩
    · intro none
      rw [none]
      exact congrArg _ (s.checkedLine_clean ln source lane good verified)
    · intro some few
      rw [s.checkedLine_corrected ln source lane good verified some few]
      obtain ⟨lines, score, back⟩ := s.ctl.correctedLine_spec sa lane l
      exact ⟨_, rfl, lines, score, back, s.sameStack_mapCtl _⟩
    · intro past many mire
      rw [s.checkedLine_beyond ln source lane good verified many past, State.decodedLine, if_pos mire]
    · intro many found data
      rw [s.checkedLine_found ln source lane good verified many found]
      exact ⟨_, rfl, s.foundBad_spec ln source (s.placed_of_isMired good) data⟩
    · intro r past many other near plain
      rw [s.checkedLine_beyond ln source lane good verified many past]
      exact ⟨_, rfl, s.decodedLine_wrong ln source lane good other near plain⟩
    · intro none
      rw [none]
      exact congrArg _ (s.checkedLine_mired_clean ln source lane bad)
    · intro some few placed data
      rw [s.checkedLine_mired ln source lane bad some few]
      exact ⟨_, rfl, s.foundBad_spec ln source placed data⟩
  · intro ln new cls hd rest queue plain page gated held limit
    have free : s.ctl.mergeStopped ⟨64 * ln, new, cls, hd⟩ = false := by simp [Ctl.mergeStopped, page, gated, held, limit]
    exact ⟨partialWriteMerge_good queue plain free, partialWriteMerge_mired queue plain free⟩
  · intro h p g u
    exact ⟨fun x old r rest log hx ho hr written => mireLogRead_held g u log hx ho hr written, mireLogRead_none g u⟩

end Sys2Proof.Machine
end

section
/-! SUPPORT. The retirement and Forager commands of R191, each with its refusals. -/

namespace Sys2Proof.Machine

/-! ## DIE_RETIRE -/

/-- A cause that waits for another die than `d`. -/
def Ctl.causeElsewhere (c : Ctl) (d : Nat) : Prop :=
  ∃ k ∈ c.ecc.causes, (k.kind = 0 ∧ k.unit ≠ d) ∨ (k.kind = 1 ∧ k.unit / 4 ≠ d)

theorem Ctl.secondDie_of_bound {c : Ctl} {d : Nat} (bound : c.get R.MAP_LAYOUT_RES_BOUND ≠ 0) (die : c.get R.MAP_LAYOUT_RES_DIE ≠ d) :
    c.secondDie d = true := by
  simp [secondDie, reserveFor, flag, bound, die]

/-- While the reserve is free, a second loss is one whose first is a cause that waits (R183). -/
theorem Ctl.secondDie_of_free {c : Ctl} {d : Nat} (free : c.get R.MAP_LAYOUT_RES_BOUND = 0) :
    c.secondDie d = true ↔ c.causeElsewhere d := by
  simp [secondDie, reserveFor, flag, free, causeElsewhere]

section
variable {s : State} {h : Head} {p : Bytes} (g : s.takes h { min := 2, stack := true } p)
include g

theorem dieRetire_refused (bad : s.ctl.nd ≤ le p 0 1 ∨ s.ctl.dieRetired (le p 0 1) = true ∨
    (s.ctl.secondDie (le p 0 1) = true ∧ le p 1 1 ≠ 0x5A)) :
    exec (.dieRetire h p) s = .next { s with ctl := s.ctl.finish h 0xC132 .invalidParameter [] } :=
  State.exec_ctl (f := dieRetire h p) rfl (by rw [dieRetire, Ctl.ocs_run _ _ _ _ _ _ g.1 g.2, dieRetireRun]; exact if_pos bad)

section
variable (built : le p 0 1 < s.ctl.nd) (service : s.ctl.dieRetired (le p 0 1) = false)
  (first : ¬(s.ctl.secondDie (le p 0 1) = true ∧ le p 1 1 ≠ 0x5A))
include built service first

theorem dieRetire_allowed : dieRetire h p s.ctl = if s.ctl.flag R.ECC_MIG_ACTIVE then s.ctl.finish h 0xC132 .busy []
    else s.ctl.claiming h 0xC132 p [blkEcc] fun c => (c.addCause ⟨1, 0, le p 0 1, false⟩).finish h 0xC132 .ok [] := by
  rw [dieRetire, Ctl.ocs_run _ _ _ _ _ _ g.1 g.2, dieRetireRun]
  exact if_neg fun bad => bad.elim built.not_ge fun bad => bad.elim (by simp [service]) first

theorem dieRetire_busy (moving : s.ctl.get R.ECC_MIG_ACTIVE ≠ 0) :
    exec (.dieRetire h p) s = .next { s with ctl := s.ctl.finish h 0xC132 .busy [] } :=
  State.exec_ctl (f := dieRetire h p) rfl ((dieRetire_allowed g built service first).trans (if_pos (by simpa [Ctl.flag] using moving)))

theorem dieRetire_ok (still : s.ctl.get R.ECC_MIG_ACTIVE = 0) (u : s.unclaimed h [blkEcc]) :
    ∃ t, exec (.dieRetire h p) s = .next t ∧ t.replied h 0xC132 .ok [] ∧
      (∃ k ∈ t.ctl.ecc.causes, k.kind = 0 ∧ k.unit = le p 0 1) ∧ t.ctl.regs = s.ctl.regs ∧ s.sameStack t := by
  obtain ⟨l, e, k, mem, kind, unit⟩ :=
    Ctl.addCause_eq { s.ctl with claims := (blkEcc, h) :: s.ctl.claims } ⟨1, 0, le p 0 1, false⟩
  have run := State.exec_ctl (i := .dieRetire h p) (f := dieRetire h p) rfl
    ((dieRetire_allowed g built service first).trans (if_neg (by simp [Ctl.flag, still])))
  rw [Ctl.claiming_ecc u, e] at run
  refine ⟨_, run, s.replied_finish _ h _ _ _, ⟨k, ?_, kind, unit⟩, ?_, rfl, rfl, rfl⟩
  · rwa [Ctl.finish_ecc]
  · rw [Ctl.finish_regs]
end
end

/-! ## RETIRE_STATUS -/

/-- A field that a read does not mirror from elsewhere. -/
def ownField (f : Fld) : Bool :=
  (scalarViews.find? fun e => decide (e.1 = f.key)).isNone &&
    (arrayViews.find? fun e => decide (e.1 ≤ f.key) && decide ((f.key - e.1) % e.2.1 = 0) && decide ((f.key - e.1) / e.2.1 < e.2.2.1)).isNone

theorem Ctl.view_own (c : Ctl) {f : Fld} (own : ownField f = true) : c.view f = c.get f := by
  obtain ⟨scalar, array⟩ := Bool.and_eq_true_iff.1 own
  rw [view, Option.isNone_iff_eq_none.1 scalar, Option.isNone_iff_eq_none.1 array]

/-- The fields of ECC_HEALTH. -/
def healthFields : List FieldRow :=
  [⟨R.ECC_HEALTH_STATE, .ro, true⟩, ⟨R.ECC_HEALTH_REASON, .ro, true⟩, ⟨R.ECC_HEALTH_GRAN_REMOVED, .ro, true⟩,
    ⟨R.ECC_HEALTH_LOSSES, .ro, true⟩, ⟨R.ECC_HEALTH_LANES_RETIRED, .ro, true⟩]

theorem healthFields_own : ∀ r ∈ healthFields, ownField r.fld = true := by decide +kernel

theorem sharedReg_health : sharedReg 0x150030 = some (healthFields, 0x150030, 0) := by rfl

/-- ECC_HEALTH reads the same where the registers are the same. -/
theorem Ctl.wordAt_health {c d : Ctl} (regs : d.regs = c.regs) (h : Head) : d.wordAt h 0x150030 = c.wordAt h 0x150030 := by
  obtain ⟨a, found, fields, -, -⟩ := findReg_of_sharedReg sharedReg_health h
  have same : d.regValue a h = c.regValue a h := by
    unfold regValue
    refine List.foldl_ext _ _ _ fun v r m => ?_
    have own := healthFields_own r (fields ▸ m)
    rw [view_own _ own, view_own _ own, get_congr _ _ regs]
  simp only [wordAt, found, same]

theorem retireStatus_ok {s : State} {h : Head} {p : Bytes} (g : s.takes h {} p) (u : s.unclaimed h [blkEcc]) :
    ∃ t, exec (.retireStatus h p) s = .next t ∧ t.replied h 0xC133 .ok (toLE 4 (s.ctl.wordAt h 0x150030) ++ toLE 4 s.ctl.migWord ++
      toLE 4 (s.ctl.get R.ECC_MIG_FRONT_FRONT) ++ toLE 8 (maskOf 64 fun n => s.ctl.flag (R.MAP_GRAN_LOST n))) ∧
      s.frame Ctl.onlyReplies t := by
  refine State.answers_claimed (cl := (blkEcc, h) :: s.ctl.claims) (State.exec_ctl (f := retireStatus h p) rfl ?_)
  rw [retireStatus, Ctl.ocs_run _ _ _ _ _ _ g.1 g.2, retireStatusRun, Ctl.claiming_ecc u]
  rw [Ctl.wordAt_health (c := s.ctl) (d := { s.ctl with claims := (blkEcc, h) :: s.ctl.claims }) rfl]
  rfl

/-! ## FRG_META_PASS -/

theorem Ctl.metaRegion_none (c : Ctl) {n : Nat} (o : n = 0 ∨ 5 < n) : c.metaRegion n = none := by
  obtain rfl | ⟨m, rfl⟩ : n = 0 ∨ ∃ m, n = m + 6 := o.imp_right fun l => ⟨n - 6, by omega⟩
  · rfl
  · rfl

section
variable {s : State} {h : Head} {p : Bytes} (g : s.takes h { min := 16, stack := true } p)
include g

theorem frgMetaPass_refused (bad : le p 0 1 = 0 ∨ 5 < le p 0 1 ∨ le p 8 8 % 64 ≠ 0) :
    exec (.frgMetaPass h p) s = .next { s with ctl := s.ctl.finish h 0xC131 .invalidParameter [] } :=
  State.exec_ctl (f := frgMetaPass h p) rfl (by
    rw [frgMetaPass, Ctl.ocs_run _ _ _ _ _ _ g.1 g.2, frgMetaPassRun]
    cases region : s.ctl.metaRegion (le p 0 1) with
    | none => rfl
    | some v =>
      have within : ¬(le p 0 1 = 0 ∨ 5 < le p 0 1) := fun o => by simp [s.ctl.metaRegion_none o] at region
      exact if_pos ((or_assoc.2 bad).resolve_left within))

theorem frgMetaPass_ok {lo hi : Nat} (region : s.ctl.metaRegion (le p 0 1) = some (lo, hi)) (aligned : le p 8 8 % 64 = 0)
    (u : s.unclaimed h [blkEcc]) : ∃ t, exec (.frgMetaPass h p) s = .next t ∧ t.replied h 0xC131 .ok [] ∧
      t.ctl.regs = s.ctl.regs ∧ s.sameStack t ∧
      t.ctl.frg.passes = s.ctl.frg.passes ++ [{ slot := none, head := h, bus := le p 8 8, pos := lo, stop := hi }] := by
  let pass : Pass := { slot := none, head := h, bus := le p 8 8, pos := lo, stop := hi }
  have run : exec (.frgMetaPass h p) s = .next { s with ctl := ({ s.ctl with
      claims := (blkEcc, h) :: s.ctl.claims, frg.passes := s.ctl.frg.passes ++ [pass] } : Ctl).finish h 0xC131 .ok [] } :=
    State.exec_ctl (f := frgMetaPass h p) rfl (by
      rw [frgMetaPass, Ctl.ocs_run _ _ _ _ _ _ g.1 g.2, frgMetaPassRun, region]
      exact (if_neg (not_not.2 aligned)).trans (Ctl.claiming_ecc u ..))
  refine ⟨_, run, s.replied_finish _ h _ _ _, ?_, ⟨rfl, rfl, rfl⟩, ?_⟩
  · rw [Ctl.finish_regs]
  · rw [Ctl.finish_frg]
end

/-! ## The end of a metadata pass -/

theorem Ctl.mem_event {c : Ctl} {o : Out} (m : o ∈ c.outbox) (h : Head) (log kind code headNo info flags : Nat) :
    o ∈ (c.event h log kind code headNo info flags).outbox := by
  unfold event
  refine holds_ite (P := fun d : Ctl => o ∈ d.outbox) ?_ m
  split
  · exact m
  · have logged (f : HeadSt → HeadSt) : o ∈ (c.modHd h f).outbox := by cases h <;> exact m
    exact holds_ite (P := fun d : Ctl => o ∈ d.outbox) (mem_msix (logged _) _ _) (logged _)

/-- The summary of a metadata pass goes to the head's bus address (R181). -/
theorem foragerPassEnd_meta (s : State) {q : Pass} {rest : List Pass} (passes : s.ctl.frg.passes = q :: rest) (ended : q.over = true)
    (own : q.slot = none) (ready : s.ctl.linkReady q.head = true) :
    ∃ t, exec .foragerPassEnd s = .next t ∧ t.ctl.frg.passes = rest ∧ s.sameStack t ∧
      .dmaWrite q.head s.ctl.job.tag q.bus false false (s.ctl.hd q.head).relaxed q.summary ∈ t.ctl.outbox := by
  have whole : exec .foragerPassEnd s = execForagerPassEnd s := rfl
  have run : exec .foragerPassEnd s = .next (s.mapCtl fun c => c.metaPassEnd q) := by
    rw [whole, execForagerPassEnd, passes]
    simp only [ended, own, ready, Bool.not_true, Bool.false_eq_true, if_true, if_false]
  have left : s.ctl.dropPass.frg.passes = rest := by simp [Ctl.dropPass, passes]
  exact ⟨_, run, (congrArg FrgSt.passes (Ctl.onlyTold_event _ q.head ..).frg).trans left, s.sameStack_mapCtl _,
    Ctl.mem_event List.mem_cons_self ..⟩

end Sys2Proof.Machine
end

section
/-! SUPPORT. The end of a move and its record (R184, R264), and a die whose feeds are opened (R45, R185). -/

namespace Sys2Proof.Machine

/-! ## One record on every head -/

theorem Ctl.live_congr {c d : Ctl} (regs : d.regs = c.regs) (h : Head) : d.live h = c.live h := by
  unfold live fenced hstate
  rw [get_congr _ _ regs]

theorem Ctl.event_hd_ne (c : Ctl) {h k : Head} (n : k ≠ h) (log kind code headNo info flags : Nat) :
    (c.event h log kind code headNo info flags).hd k = c.hd k := by
  unfold event
  refine holds_ite (P := fun d : Ctl => d.hd k = c.hd k) ?_ rfl
  split
  · rfl
  · have logged (f : HeadSt → HeadSt) : (c.modHd h f).hd k = c.hd k := c.modHd_hd_ne h k f n
    exact holds_ite (P := fun d : Ctl => d.hd k = c.hd k) ((msix_hd_ne _ _ _ _ n).trans (logged _)) (logged _)

/-- A head that takes records, with room in the log, has one more (R264). -/
theorem Ctl.event_records {c : Ctl} {h : Head} {log : Nat} {l : EventLog} (live : c.live h = true) (own : (c.hd h).logs[log]? = some l)
    (room : l.recs.length < 128) (kind code headNo info flags : Nat) :
    ∃ m, ((c.event h log kind code headNo info flags).hd h).logs[log]? = some m ∧
      m.recs = l.recs ++ [⟨l.nextHandle, kind, code, headNo, c.now, info, flags⟩] := by
  let added : HeadSt := { c.hd h with logs := (c.hd h).logs.set log (l.add kind code headNo c.now info flags) }
  have stands : added.logs[log]? = some (l.add kind code headNo c.now info flags) := by
    obtain ⟨within, -⟩ := List.getElem?_eq_some_iff.1 own
    exact List.getElem?_set_self within
  have recs : (l.add kind code headNo c.now info flags).recs = l.recs ++ [⟨l.nextHandle, kind, code, headNo, c.now, info, flags⟩] := by
    rw [EventLog.add, if_pos room]
  have there (v : Nat) : (((c.modHd h fun _ => added).msix h v).hd h).logs = added.logs := by
    rw [msix_kept, modHd_hd]
  refine ⟨_, ?_, recs⟩
  unfold event
  simp only [live, own, if_true]
  refine holds_ite (P := fun d : Ctl => (d.hd h).logs[log]? = some _) ?_ ?_
  · exact (congrArg (fun x : List EventLog => x[log]?) (there _)).trans stands
  · rw [modHd_hd]
    exact stands

theorem Ctl.eventAll_records {c : Ctl} {k : Head} {log : Nat} {l : EventLog} (live : c.live k = true)
    (own : (c.hd k).logs[log]? = some l) (room : l.recs.length < 128) (code headNo info : Nat) :
    ∃ m, ((c.eventAll log code headNo info).hd k).logs[log]? = some m ∧
      m.recs = l.recs ++ [⟨l.nextHandle, kindVendor, code, headNo, c.now, info, 0⟩] := by
  cases k with
  | a =>
    obtain ⟨m, stands, recs⟩ := event_records live own room kindVendor code headNo info 0
    exact ⟨m, (congrArg (fun x : HeadSt => x.logs[log]?) (event_hd_ne _ (by decide) ..)).trans stands, recs⟩
  | b =>
    have regs := c.event_regs .a log kindVendor code headNo info 0
    obtain ⟨m, stands, recs⟩ := event_records ((live_congr regs .b).trans live)
      ((congrArg (fun x : HeadSt => x.logs[log]?) (event_hd_ne _ (by decide) ..)).trans own) room kindVendor code headNo info 0
    exact ⟨m, stands, recs.trans (by rw [now, get_congr _ _ regs, now])⟩

theorem Ctl.eventAll_regs (c : Ctl) (log code headNo info : Nat) : (c.eventAll log code headNo info).regs = c.regs := by
  simp [eventAll, forHeads]

theorem Ctl.onlyTold_eventAll (c : Ctl) (log code headNo info : Nat) : c.onlyTold (c.eventAll log code headNo info) :=
  c.onlyTold_forHeads fun _ d => d.onlyTold_event ..

/-! ## Feeds -/

theorem Ctl.openFeeds_get_ne (c : Ctl) (d : Nat) {x : Fld} (n : x.key ≠ (R.THM_DIE_FEEDS_OPEN d).key) : (c.openFeeds d).get x = c.get x :=
  get_set_ne _ _ _ _ n

theorem Ctl.openFeeds_hd (c : Ctl) (d : Nat) (h : Head) : (c.openFeeds d).hd h = c.hd h := by cases h <;> rfl

/-! ## The front of a move -/

/-- What FLAGS then say of the running pass is the Forager's alone. -/
theorem Ctl.notePass_eq (c : Ctl) : ∃ x, c.notePass = { c with frg := x } := by
  unfold notePass modPass
  dsimp only
  split
  · exact ⟨_, rfl⟩
  · exact ⟨c.frg, rfl⟩

/-- The last move ends (R184, R421): none is under way, and every head has a record of it. -/
theorem Ctl.endMove_spec (c : Ctl) (last : c.ecc.moves = []) : c.endMove.get R.ECC_MIG_ACTIVE = 0 ∧ c.endMove.now = c.now ∧
    c.endMove.stk.memWait = c.stk.memWait ∧
    ∀ k l, c.live k = true → (c.hd k).logs[logInfo]? = some l → l.recs.length < 128 →
      ∃ m, (c.endMove.hd k).logs[logInfo]? = some m ∧
        m.recs = l.recs ++ [⟨l.nextHandle, kindVendor, 0x0601, 0xFFFF, c.now, c.migWord, 0⟩] := by
  obtain ⟨x, noted⟩ := c.notePass_eq
  let c0 := ({ c with frg := x } : Ctl).set R.ECC_MIG_ACTIVE 0
  let c1 := c0.eventAll logInfo 0x0601 0xFFFF c.migWord
  have active : c1.get R.ECC_MIG_ACTIVE = 0 := (get_congr _ _ (c0.eventAll_regs ..) _).trans (get_set_same _ _ _)
  have time : c0.now = c.now := get_set_ne _ _ _ _ (by decide)
  have now : c1.now = c.now := (get_congr _ _ (c0.eventAll_regs ..) _).trans time
  have live (k : Head) : c0.live k = c.live k := by
    have (h : Head) : c0.hstate h = c.hstate h := get_set_ne _ _ _ _ (by cases h <;> decide)
    simp only [Ctl.live, fenced, this]
  have waits : c1.stk.memWait = c.stk.memWait := congrArg StkSt.memWait (c0.onlyTold_eventAll ..).stk
  have records (k : Head) (l : EventLog) (lk : c.live k = true) (own : (c.hd k).logs[logInfo]? = some l) (room : l.recs.length < 128) :
      ∃ m, (c1.hd k).logs[logInfo]? = some m ∧
        m.recs = l.recs ++ [⟨l.nextHandle, kindVendor, 0x0601, 0xFFFF, c.now, c.migWord, 0⟩] :=
    time ▸ eventAll_records (c := c0) ((live k).trans lk) (by cases k <;> exact own) room 0x0601 0xFFFF c.migWord
  have ended : c.endMove = c1 ∨ ∃ d, c.endMove = c1.openFeeds d := by
    have moves : c1.ecc.moves = [] := (congrArg EccSt.moves (c0.onlyTold_eventAll ..).ecc).trans last
    have opened (d : Nat) : (c1.openFeeds d).ecc.moves = [] := moves
    have last (d : Ctl) (none : d.ecc.moves = []) : (match d.ecc.moves with
        | [] => d
        | m :: t => ({ d with ecc.moves := t } : Ctl).startMove m) = d := by rw [none]
    rw [endMove, noted]
    cases c.moveNow with
    | none => exact .inl (last _ moves)
    | some v => cases chan : v.1.isChan with
      | true => exact .inl (by simp only [chan, if_true]; exact last _ moves)
      | false => exact .inr ⟨v.1.unit, by simp only [chan, Bool.false_eq_true, if_false]; exact last _ (opened _)⟩
  rcases ended with e | ⟨d, e⟩
  · rw [e]
    exact ⟨active, now, waits, records⟩
  · rw [e]
    refine ⟨(openFeeds_get_ne _ _ (by simp only [R.ECC_MIG_ACTIVE, R.THM_DIE_FEEDS_OPEN]; omega)).trans active,
      (openFeeds_get_ne _ _ (by simp only [R.TIM_NOW_VALUE, R.THM_DIE_FEEDS_OPEN]; omega)).trans now, waits, fun k l lk own room => ?_⟩
    rw [openFeeds_hd]
    exact records k l lk own room

end Sys2Proof.Machine
end

section
/-! SUPPORT. The rows of a move, the loss of a die's feeds, the repairs in service, and the statement about them (R184, R185, R39, R40,
R45). -/

namespace Sys2Proof.Machine

/-! ## Rows -/

/-- A row of the move under way lands or is filled, with no request waiting at the mapper. -/
theorem rowLanded_exec {s : State} {i : Instr} (which : (i = .migrationRowLanded [] ∧ s.ctl.get R.ECC_MIG_KIND ≠ 3) ∨
    (i = .abruptFillRow ∧ s.ctl.get R.ECC_MIG_KIND = 3)) (moving : s.ctl.get R.ECC_MIG_ACTIVE ≠ 0) (running : s.ctl.kpr.phase = 3)
    (awake : s.ctl.stackAwake = true) (waits : s.ctl.advanceFront.stk.memWait = []) :
    exec i s = .next { s with ctl := { s.ctl.advanceFront with stk.memWait := [] } } := by
  have flag : s.ctl.flag R.ECC_MIG_ACTIVE = true := by simpa [Ctl.flag] using moving
  have run : s.ctl.movesRun = true := by simp [Ctl.movesRun, running, awake]
  have landed : s.rowLanded = { s with ctl := { s.ctl.advanceFront with stk.memWait := [] } } := by
    have queue : (s.mapCtl Ctl.advanceFront).ctl.stk.memWait = [] := waits
    rw [State.rowLanded, State.serveWaits, queue]
    rfl
  rcases which with ⟨rfl, kind⟩ | ⟨rfl, kind⟩
  · have whole : exec (.migrationRowLanded []) s = execMigrationRowLanded [] s := rfl
    rw [whole, execMigrationRowLanded, ← landed]
    exact if_pos (by simp [flag, run, kind])
  · have whole : exec .abruptFillRow s = execAbruptFillRow s := rfl
    rw [whole, execAbruptFillRow, ← landed]
    exact if_pos (by simp [flag, run, kind])

section
variable {s : State} {i : Instr} (which : (i = .migrationRowLanded [] ∧ s.ctl.get R.ECC_MIG_KIND ≠ 3) ∨
    (i = .abruptFillRow ∧ s.ctl.get R.ECC_MIG_KIND = 3)) (moving : s.ctl.get R.ECC_MIG_ACTIVE ≠ 0) (running : s.ctl.kpr.phase = 3)
    (awake : s.ctl.stackAwake = true) (waits : s.ctl.stk.memWait = [])
include which moving running awake waits

/-- The front goes to the next row that was not carried before (R184). -/
theorem rowLanded_next (more : skipCarried s.ctl.ecc.moveCarried 4 (s.ctl.get R.ECC_MIG_FRONT_FRONT + 1) < s.ctl.moveRows)
    (fits : skipCarried s.ctl.ecc.moveCarried 4 (s.ctl.get R.ECC_MIG_FRONT_FRONT + 1) < 2 ^ R.ECC_MIG_FRONT_FRONT.width) :
    ∃ t, exec i s = .next t ∧
      t.ctl.get R.ECC_MIG_FRONT_FRONT = skipCarried s.ctl.ecc.moveCarried 4 (s.ctl.get R.ECC_MIG_FRONT_FRONT + 1) ∧ s.sameStack t ∧
      s.ctl.keeps t.ctl [R.ECC_MIG_FRONT_FRONT] := by
  let c1 := s.ctl.set R.ECC_MIG_FRONT_FRONT (skipCarried s.ctl.ecc.moveCarried 4 (s.ctl.get R.ECC_MIG_FRONT_FRONT + 1))
  have front : s.ctl.advanceFront = c1 := if_neg more.not_ge
  have run := rowLanded_exec which moving running awake (by rw [front]; exact waits)
  rw [front] at run
  obtain ⟨set, kept⟩ := Ctl.keeps_of_set (c := s.ctl) (d := { c1 with stk.memWait := [] }) (fun _ => rfl)
  exact ⟨_, run, set.trans (Nat.mod_eq_of_lt fits), ⟨rfl, rfl, rfl⟩, kept⟩

/-- The last row of the last move (R184, R421). -/
theorem rowLanded_last (past : s.ctl.moveRows ≤ skipCarried s.ctl.ecc.moveCarried 4 (s.ctl.get R.ECC_MIG_FRONT_FRONT + 1))
    (last : s.ctl.ecc.moves = []) : ∃ t, exec i s = .next t ∧
      t.ctl.get R.ECC_MIG_ACTIVE = 0 ∧ s.recorded t logInfo 0x0601 0xFFFF s.ctl.migWord ∧ s.sameStack t := by
  let c1 := s.ctl.set R.ECC_MIG_FRONT_FRONT (skipCarried s.ctl.ecc.moveCarried 4 (s.ctl.get R.ECC_MIG_FRONT_FRONT + 1))
  have front : s.ctl.advanceFront = c1.endMove := if_pos past
  obtain ⟨active, now, queue, records⟩ := c1.endMove_spec last
  have same {x : Fld} (n : x.key ≠ R.ECC_MIG_FRONT_FRONT.key) : c1.get x = s.ctl.get x := s.ctl.get_set_ne _ _ _ n
  have word : c1.migWord = s.ctl.migWord := by simp (disch := decide) only [Ctl.migWord, same]
  have live (k : Head) : c1.live k = s.ctl.live k := by
    unfold Ctl.live Ctl.fenced Ctl.hstate
    rw [same (by cases k <;> decide)]
  have run := rowLanded_exec which moving running awake (by rw [front, queue]; exact waits)
  rw [front] at run
  refine ⟨_, run, active, fun k l lk own room => ?_, rfl, rfl, rfl⟩
  obtain ⟨m, stands, recs⟩ := records k l ((live k).trans lk) (by cases k <;> exact own) room
  refine ⟨m, by cases k <;> exact stands, recs.trans ?_⟩
  rw [word, ← now]
  rfl
end

/-! ## FEED_OVERCURRENT -/

theorem Ctl.mireRecord_stk (c : Ctl) (wh cause source : Nat) : (c.mireRecord wh cause source).stk = c.stk :=
  holds_ite (P := fun d : Ctl => d.stk = c.stk) rfl rfl

theorem Ctl.mireRecord_get (c : Ctl) (wh cause source : Nat) {x : Fld} (n : x.key < 11010560) :
    (c.mireRecord wh cause source).get x = c.get x :=
  holds_ite (P := fun d : Ctl => d.get x = c.get x) (get_set_ne _ _ _ _ (by simp only [R.ECC_MIRE_SEQ_NEXT]; omega))
    (get_bump_ne _ _ _ _ (by simp only [R.ECC_MIRE_STAT_DROPS]; omega))

/-- A die's feeds opened with what is reported of it (R45, R185). -/
def Ctl.feedLost (c : Ctl) (d feed : Nat) : Ctl :=
  (((c.openFeeds d).mireRecord d 0x10 8).fault (224 + d) feed).addCause ⟨2, 0, d, true⟩

theorem Ctl.feedLost_spec (c : Ctl) {d : Nat} (feed : Nat) (l : d < 12) : d ∈ (c.feedLost d feed).stk.feedsOpen ∧
    (c.feedLost d feed).get (R.THM_DIE_FEEDS_OPEN d) = 1 ∧ (c.feedLost d feed).srcPending (224 + d) = true ∧
    ∃ k ∈ (c.feedLost d feed).ecc.causes, k.kind = 0 ∧ k.unit = d := by
  have row := faultRow_of_lt (n := 224 + d) (by omega)
  have opened : d ∈ (c.openFeeds d).stk.feedsOpen := by
    by_cases m : d ∈ c.stk.feedsOpen
    · simp [openFeeds, dropMeasure, set, m]
    · simp [openFeeds, dropMeasure, set, m]
  have flag : (c.openFeeds d).get (R.THM_DIE_FEEDS_OPEN d) = 1 := get_set_same _ _ _
  let c1 := (c.openFeeds d).mireRecord d 0x10 8
  obtain ⟨causes, e, waits⟩ := (c1.fault (224 + d) feed).addCause_eq ⟨2, 0, d, true⟩
  have lost : c.feedLost d feed = { c1.fault (224 + d) feed with ecc.causes := causes } := e
  rw [lost]
  refine ⟨?_, ?_, c1.fault_srcPending feed _ row.1 (faultRow_lt row) row.2, waits⟩
  · have stk : (c1.fault (224 + d) feed).stk = (c.openFeeds d).stk :=
      (c1.onlyTold_fault feed _ row).stk.trans (mireRecord_stk _ _ _ _)
    exact stk ▸ opened
  · have low : (R.THM_DIE_FEEDS_OPEN d).key < 4194304 := by simp only [R.THM_DIE_FEEDS_OPEN]; omega
    exact (c1.fault_get feed _ row.1 (faultRow_lt row) row.2 (.inl low)).trans
      ((mireRecord_get _ _ _ _ (by omega)).trans flag)

/-- The bytes of a lost die read as zeros (R185). -/
theorem State.loseDie_memGet (s : State) (d a : Nat) :
    memGet (s.loseDie d).mem a = if (s.ctl.place a).chan / 4 = d then 0 else memGet s.mem a := by
  have mem : (s.loseDie d).mem = s.mem.filter fun e => !decide ((s.ctl.place e.1).chan / 4 = d) := rfl
  rw [mem, memGet]
  split
  case isTrue on => rw [mapGet_filter_drop s.mem (fun a => !decide ((s.ctl.place a).chan / 4 = d)) a (by simp [on])]; rfl
  case isFalse off => rw [mapGet_filter_keep s.mem (fun a => !decide ((s.ctl.place a).chan / 4 = d)) a (by simp [off])]; rfl

theorem Ctl.nd_le (c : Ctl) : c.nd ≤ 12 := by
  unfold nd
  split <;> decide

theorem feedOvercurrent_closed (s : State) {d : Nat} (feed : Nat) (built : d < s.ctl.nd) (closed : d ∉ s.ctl.stk.feedsOpen) :
    ∃ t, exec (.feedOvercurrent d feed) s = .next t ∧
      d ∈ t.ctl.stk.feedsOpen ∧ t.ctl.get (R.THM_DIE_FEEDS_OPEN d) = 1 ∧ t.ctl.srcPending (224 + d) = true ∧
      (∃ k ∈ t.ctl.ecc.causes, k.kind = 0 ∧ k.unit = d) ∧ t.pending = s.pending ∧
      ∀ a, memGet t.mem a = if (s.ctl.place a).chan / 4 = d then 0 else memGet s.mem a := by
  have whole : exec (.feedOvercurrent d feed) s = execFeedOvercurrent d feed s := rfl
  have run : exec (.feedOvercurrent d feed) s = .next ((s.loseDie d).mapCtl fun c => c.feedLost d feed) :=
    whole.trans (if_pos ⟨built, by simpa using closed⟩)
  obtain ⟨opened, flag, pending, waits⟩ := (s.loseDie d).ctl.feedLost_spec feed (built.trans_le s.ctl.nd_le)
  exact ⟨_, run, opened, flag, pending, waits, rfl, s.loseDie_memGet d⟩

/-! ## Repairs in service -/

/-- A position noted in a field with its source in a second one, and one spare less in a third. -/
theorem Ctl.get_noteRepair (c : Ctl) {x y z : Fld} {pos src : Nat} (hxy : x.key ≠ y.key) (hxz : x.key ≠ z.key) (hyz : y.key ≠ z.key)
    (fits : pos < 2 ^ x.width) (spares : c.get z - 1 < 2 ^ z.width) :
    (((c.set x pos).set y src).set z (((c.set x pos).set y src).get z - 1)).get z = c.get z - 1 ∧
      (((c.set x pos).set y src).set z (((c.set x pos).set y src).get z - 1)).get x = pos := by
  have still : ((c.set x pos).set y src).get z = c.get z := by rw [get_set_ne _ _ _ _ hyz.symm, get_set_ne _ _ _ _ hxz.symm]
  constructor
  · rw [get_set_same, still, Nat.mod_eq_of_lt spares]
  · rw [get_set_ne _ _ _ _ hxz, get_set_ne _ _ _ _ hxy, get_set_same, Nat.mod_eq_of_lt fits]

/-- The repair of a channel recorded in its register (R39). -/
theorem Ctl.recordColRepair_spec (c : Ctl) (ch src : Nat) {pos : Nat} (fits : pos < 63)
    (spares : c.get (R.TSV_CH_REPAIR_SPARES_LEFT ch) ≤ 2) :
    (c.recordColRepair ch pos src).get (R.TSV_CH_REPAIR_SPARES_LEFT ch) = c.get (R.TSV_CH_REPAIR_SPARES_LEFT ch) - 1 ∧
      (if c.get (R.TSV_CH_REPAIR_SKIP0 ch) = 0x3F then (c.recordColRepair ch pos src).get (R.TSV_CH_REPAIR_SKIP0 ch) = pos
        else (c.recordColRepair ch pos src).get (R.TSV_CH_REPAIR_SKIP1 ch) = pos) ∧
      (c.recordColRepair ch pos src).stk = c.stk := by
  have few : c.get (R.TSV_CH_REPAIR_SPARES_LEFT ch) - 1 < 2 ^ 2 := by omega
  unfold recordColRepair
  by_cases free : c.get (R.TSV_CH_REPAIR_SKIP0 ch) = 0x3F
  case pos =>
    obtain ⟨left, skip⟩ := c.get_noteRepair (x := R.TSV_CH_REPAIR_SKIP0 ch) (y := R.TSV_CH_REPAIR_SRC0 ch)
      (z := R.TSV_CH_REPAIR_SPARES_LEFT ch) (pos := pos) (src := src) (by simp only [R.TSV_CH_REPAIR_SKIP0, R.TSV_CH_REPAIR_SRC0]; omega)
      (by simp only [R.TSV_CH_REPAIR_SKIP0, R.TSV_CH_REPAIR_SPARES_LEFT]; omega)
      (by simp only [R.TSV_CH_REPAIR_SRC0, R.TSV_CH_REPAIR_SPARES_LEFT]; omega) (fits.trans (by decide : 63 < 2 ^ 6)) few
    simp only [free, if_true]
    exact ⟨left, skip, rfl⟩
  case neg =>
    obtain ⟨left, skip⟩ := c.get_noteRepair (x := R.TSV_CH_REPAIR_SKIP1 ch) (y := R.TSV_CH_REPAIR_SRC1 ch)
      (z := R.TSV_CH_REPAIR_SPARES_LEFT ch) (pos := pos) (src := src) (by simp only [R.TSV_CH_REPAIR_SKIP1, R.TSV_CH_REPAIR_SRC1]; omega)
      (by simp only [R.TSV_CH_REPAIR_SKIP1, R.TSV_CH_REPAIR_SPARES_LEFT]; omega)
      (by simp only [R.TSV_CH_REPAIR_SRC1, R.TSV_CH_REPAIR_SPARES_LEFT]; omega) (fits.trans (by decide : 63 < 2 ^ 6)) few
    simp only [free, if_false]
    exact ⟨left, skip, rfl⟩

/-- The channel reopens, with nothing counted against the position steered round (R39). -/
def Ctl.reopened (c : Ctl) (ch : Nat) (r : RepairSt) : Ctl :=
  let c := c.passTo r.due
  { c.setChan ch { c.chan ch with closed := false } with
    stk.repairs := c.stk.repairs.filter fun x => decide (x ≠ r)
    stk.failing := c.stk.failing.filter fun f => decide (f ≠ (ch, r.pos))
    stk.tsvHits := mapDel c.stk.tsvHits (ch, r.pos) }

theorem Ctl.reopened_chan (c : Ctl) (ch : Nat) (r : RepairSt) : ((c.reopened ch r).chan ch).closed = false := by
  have : (c.reopened ch r).chan ch = { (c.passTo r.due).chan ch with closed := false } := setChan_chan _ _ _
  rw [this]

theorem Ctl.reopened_get (c : Ctl) (ch : Nat) (r : RepairSt) {x : Fld} (n : x.key ≠ R.TIM_NOW_VALUE.key) :
    (c.reopened ch r).get x = c.get x := c.passTo_get r.due n

/-- COLUMN_REPAIR_REOPEN (R39). -/
theorem columnRepairReopen_spec (s : State) {ch : Nat} {r : RepairSt}
    (window : (s.ctl.repairIn fun r => decide (r.unit = ch) && decide (ch < 48)) = some r) (built : ch < 48) (fits : r.pos < 63)
    (spares : s.ctl.get (R.TSV_CH_REPAIR_SPARES_LEFT ch) ≤ 2) :
    ∃ t, exec (.columnRepairReopen ch none) s = .next t ∧ t.ctl.srcPending (144 + ch) = true ∧
      t.ctl.get (R.TSV_CH_REPAIR_SPARES_LEFT ch) = s.ctl.get (R.TSV_CH_REPAIR_SPARES_LEFT ch) - 1 ∧
      (if s.ctl.get (R.TSV_CH_REPAIR_SKIP0 ch) = 0x3F then t.ctl.get (R.TSV_CH_REPAIR_SKIP0 ch) = r.pos
       else t.ctl.get (R.TSV_CH_REPAIR_SKIP1 ch) = r.pos) ∧ (t.ctl.chan ch).closed = false ∧ s.sameStack t := by
  let c1 := s.ctl.reopened ch r
  let c2 := c1.recordColRepair ch r.pos 3
  have row := faultRow_of_lt (n := 144 + ch) (by omega)
  have run : exec (.columnRepairReopen ch none) s = .next { s with ctl := c2.fault (144 + ch) r.pos } :=
    State.exec_ctl (f := columnRepairReopen ch none) rfl (by
      have own : r.pos ≠ retryPos := by unfold retryPos; omega
      rw [columnRepairReopen, window]
      simp only [own, if_false]
      rfl)
  have same (x : Fld) (n : 25692160 ≤ x.key) : c1.get x = s.ctl.get x :=
    s.ctl.reopened_get ch r (by simp only [R.TIM_NOW_VALUE]; omega)
  have kept (x : Fld) (n : 25692160 ≤ x.key) : (c2.fault (144 + ch) r.pos).get x = c2.get x :=
    c2.fault_get _ _ row.1 (faultRow_lt row) row.2 (.inr (by omega))
  have spare : 25692160 ≤ (R.TSV_CH_REPAIR_SPARES_LEFT ch).key := by simp only [R.TSV_CH_REPAIR_SPARES_LEFT]; omega
  have skip0 : 25692160 ≤ (R.TSV_CH_REPAIR_SKIP0 ch).key := by simp only [R.TSV_CH_REPAIR_SKIP0]; omega
  have skip1 : 25692160 ≤ (R.TSV_CH_REPAIR_SKIP1 ch).key := by simp only [R.TSV_CH_REPAIR_SKIP1]; omega
  obtain ⟨left, noted, stk⟩ := c1.recordColRepair_spec ch 3 fits (by rwa [same _ spare])
  rw [same _ spare] at left
  rw [same _ skip0] at noted
  refine ⟨_, run, c2.fault_srcPending _ _ row.1 (faultRow_lt row) row.2, (kept _ spare).trans left, ?_, ?_, rfl, rfl, rfl⟩
  · rwa [kept _ skip0, kept _ skip1]
  · have chan : (c2.fault (144 + ch) r.pos).chan ch = c1.chan ch := by
      rw [(c2.onlyTold_fault _ _ row).chan, Ctl.chan, stk, Ctl.chan]
    rw [chan]
    exact s.ctl.reopened_chan ch r

/-- A lane's state is in ROWL_STATUS alone. -/
theorem Ctl.setLaneState_get (c : Ctl) (l v : Nat) {x : Fld} (n : 25169920 ≤ x.key) : (c.setLaneState l v).get x = c.get x := by
  unfold setLaneState
  split
  · exact get_set_ne _ _ _ _ (by simp only [R.ROWL_STATUS_LANE0]; omega)
  · exact get_set_ne _ _ _ _ (by simp only [R.ROWL_STATUS_LANE1]; omega)
  · exact get_set_ne _ _ _ _ (by simp only [R.ROWL_STATUS_LANE2]; omega)
  · exact get_set_ne _ _ _ _ (by simp only [R.ROWL_STATUS_LANE3]; omega)

/-- The repair of a lane group recorded in its register (R40). -/
theorem Ctl.recordLaneRepair_spec (c : Ctl) (l g pos : Nat) (spares : c.get (R.ROWL_GRP_STATUS_SPARES_LEFT l g) ≤ 16) :
    (c.recordLaneRepair l g pos).get (R.ROWL_GRP_STATUS_SPARES_LEFT l g) = c.get (R.ROWL_GRP_STATUS_SPARES_LEFT l g) - 1 ∧
      (c.recordLaneRepair l g pos).get (R.ROWL_GRP_STATUS_INSVC_REP l g) =
        min (c.get (R.ROWL_GRP_STATUS_INSVC_REP l g) + 1) (2 ^ (R.ROWL_GRP_STATUS_INSVC_REP l g).width - 1) := by
  constructor
  · exact (get_set_same _ _ _).trans (Nat.mod_eq_of_lt (show _ < 2 ^ 5 by omega))
  · exact (get_set_ne _ _ _ _ (by simp only [R.ROWL_GRP_STATUS_INSVC_REP, R.ROWL_GRP_STATUS_SPARES_LEFT]; omega)).trans
      (get_bump_same _ _)

/-- The lane of a group returns to service, unless another repair holds it, with nothing counted against the position (R40). -/
def Ctl.laneReturned (c : Ctl) (l : Nat) (r : RepairSt) : Ctl :=
  let c := c.passTo r.due
  let c1 := { c with
    stk.repairs := c.stk.repairs.filter fun x => decide (x ≠ r)
    stk.failing := c.stk.failing.filter fun f => decide (f ≠ (r.unit, r.pos))
    stk.tsvHits := mapDel c.stk.tsvHits (r.unit, r.pos) }
  if c1.laneState l = 2 ∧ c1.repairIn (fun x => decide (48 ≤ x.unit) && decide ((x.unit - 48) / 8 = l)) = none then c1.setLaneState l 1
  else c1

theorem Ctl.laneReturned_get (c : Ctl) (l : Nat) (r : RepairSt) {x : Fld} (n : 25169920 ≤ x.key) : (c.laneReturned l r).get x = c.get x := by
  have passed : (c.passTo r.due).get x = c.get x := c.passTo_get _ (by simp only [R.TIM_NOW_VALUE]; omega)
  exact holds_ite (P := fun d : Ctl => d.get x = c.get x) ((setLaneState_get _ _ _ n).trans passed) passed

/-- LANE_REPAIR_RETURN (R40). -/
theorem laneRepairReturn_spec (s : State) {l g : Nat} {r : RepairSt} (hl : l < 4) (hg : g < 8)
    (window : (s.ctl.repairIn fun r => decide (r.unit = 48 + 8 * l + g) && decide (l < 4) && decide (g < 8)) = some r)
    (own : r.pos ≠ retryPos) (spares : s.ctl.get (R.ROWL_GRP_STATUS_SPARES_LEFT l g) ≤ 16) :
    ∃ t, exec (.laneRepairReturn l g none) s = .next t ∧ t.ctl.srcPending (192 + 8 * l + g) = true ∧
      t.ctl.get (R.ROWL_GRP_STATUS_SPARES_LEFT l g) = s.ctl.get (R.ROWL_GRP_STATUS_SPARES_LEFT l g) - 1 ∧
      t.ctl.get (R.ROWL_GRP_STATUS_INSVC_REP l g) = min (s.ctl.get (R.ROWL_GRP_STATUS_INSVC_REP l g) + 1)
        (2 ^ (R.ROWL_GRP_STATUS_INSVC_REP l g).width - 1) ∧ s.sameStack t := by
  let c1 := s.ctl.laneReturned l r
  let c2 := c1.recordLaneRepair l g r.pos
  have row := faultRow_of_lt (n := 192 + 8 * l + g) (by omega)
  have run : exec (.laneRepairReturn l g none) s = .next { s with ctl := c2.fault (192 + 8 * l + g) r.pos } :=
    State.exec_ctl (f := laneRepairReturn l g none) rfl (by
      rw [laneRepairReturn, window]
      simp only [own, if_false]
      rfl)
  have same (x : Fld) (n : 25169920 ≤ x.key) : c1.get x = s.ctl.get x := s.ctl.laneReturned_get l r n
  have kept (x : Fld) (n : 25169920 ≤ x.key) : (c2.fault (192 + 8 * l + g) r.pos).get x = c2.get x :=
    c2.fault_get _ _ row.1 (faultRow_lt row) row.2 (.inr (by omega))
  have spare : 25169920 ≤ (R.ROWL_GRP_STATUS_SPARES_LEFT l g).key := by simp only [R.ROWL_GRP_STATUS_SPARES_LEFT]; omega
  have count : 25169920 ≤ (R.ROWL_GRP_STATUS_INSVC_REP l g).key := by simp only [R.ROWL_GRP_STATUS_INSVC_REP]; omega
  obtain ⟨left, counted⟩ := c1.recordLaneRepair_spec l g r.pos (by rwa [same _ spare])
  rw [same _ spare] at left
  rw [same _ count] at counted
  exact ⟨_, run, c2.fault_srcPending _ _ row.1 (faultRow_lt row) row.2, (kept _ spare).trans left, (kept _ count).trans counted,
    rfl, rfl, rfl⟩

/-- Settles O25: each command and event by its lemma above. -/
theorem retirementMovesAndRepairs : Obligations.RetirementMovesAndRepairs := by
  unfold Obligations.RetirementMovesAndRepairs
  intro s otherDie
  refine ⟨fun h p g => ⟨fun bad => State.answers (dieRetire_refused g ?_), fun built service free first => ?_⟩, ?_, ?_, ?_, ?_, ?_, ?_, ?_⟩
  · rcases bad with bad | bad | ⟨bound, die, plain⟩ | ⟨free, other, plain⟩
    · exact .inl bad
    · exact .inr (.inl bad)
    · exact .inr (.inr ⟨Ctl.secondDie_of_bound bound die, plain⟩)
    · exact .inr (.inr ⟨(Ctl.secondDie_of_free free).2 other, plain⟩)
  · have allowed : ¬(s.ctl.secondDie (le p 0 1) = true ∧ le p 1 1 ≠ 0x5A) := fun ⟨second, plain⟩ =>
      first.elim (fun none => none ((Ctl.secondDie_of_free free).1 second)) plain
    exact ⟨fun moving => State.answers (dieRetire_busy g built service allowed moving), dieRetire_ok g built service allowed⟩
  · intro h p g u
    obtain ⟨t, run, answer, frame⟩ := retireStatus_ok g u
    exact ⟨t, run, frame, answer⟩
  · intro i which moving running awake waits front
    exact ⟨rowLanded_next which moving running awake waits, rowLanded_last which moving running awake waits⟩
  · exact fun d feed => feedOvercurrent_closed s feed
  · exact fun ch r built window fits _ spares => columnRepairReopen_spec s window built fits spares
  · exact fun l g r hl hg window own spares => laneRepairReturn_spec s hl hg window own spares
  · exact fun h p g => ⟨fun lo hi region aligned u => frgMetaPass_ok g region aligned u, fun bad => State.answers (frgMetaPass_refused g bad)⟩
  · exact fun q rest => foragerPassEnd_meta s

end Sys2Proof.Machine
end

section
/-! SUPPORT. Commands that claim the seal block (R20, R293), and the key slots (R198, R199): which one KEY_CREATE takes, and what a new key
and a zeroised one leave of the registers. -/

namespace Sys2Proof.Machine

/-! ## Claims -/

/-- The claim of the seal block discards no shadow value. -/
theorem Ctl.claiming_sea {s : State} {h : Head} (u : s.unclaimed h [blkSea]) (op : Nat) (p : Bytes) (run : Ctl → Ctl) :
    s.ctl.claiming h op p [blkSea] run = run { s.ctl with claims := (blkSea, h) :: s.ctl.claims } := by
  have taken : s.ctl.takeClaims h [blkSea] = { s.ctl with claims := (blkSea, h) :: s.ctl.claims } := by
    simp [takeClaims, claim, dropShadows, blkSea]
  rw [claiming_run _ _ _ _ _ _ (State.any_unclaimed u), taken]

/-! ## Key slots -/

/-- A slot that KEY_CREATE may take: not LIVE, and with a generation left. -/
def Ctl.keyFree (c : Ctl) (k : Nat) : Prop := c.get (R.SEA_KEY_STAT_LIVE k) = 0 ∧ c.get (R.SEA_KEY_STAT_GEN k) < 63

theorem Ctl.not_keyFree {c : Ctl} {k : Nat} (taken : c.get (R.SEA_KEY_STAT_LIVE k) ≠ 0 ∨ 63 ≤ c.get (R.SEA_KEY_STAT_GEN k)) :
    ¬c.keyFree k := fun ⟨live, gen⟩ => taken.elim (· live) gen.not_ge

theorem Ctl.freeKeySlot_of_lowest {c : Ctl} {k : Nat} (l : k < 1024) (free : c.keyFree k) (low : ∀ j, j < k → ¬c.keyFree j) :
    c.freeKeySlot = some k := by
  refine List.find?_range_eq_some.2 ⟨?_, List.mem_range.2 l, fun j hj => ?_⟩
  · simpa [keyFree, flag] using free
  · simpa [keyFree, flag, imp_iff_not_or] using low j hj

theorem Ctl.freeKeySlot_none {c : Ctl} (full : ∀ j, j < 1024 → ¬c.keyFree j) : c.freeKeySlot = none := by
  refine List.find?_range_eq_none.2 fun j hj => ?_
  simpa [keyFree, flag, imp_iff_not_or] using full j hj

/-- The fields of a key slot. -/
def keyFields (k : Nat) : List Fld := [R.SEA_KEY_STAT_LIVE k, R.SEA_KEY_STAT_OWNER k, R.SEA_KEY_STAT_CXL_MASK k,
  R.SEA_KEY_STAT_EPOCH k, R.SEA_KEY_STAT_GEN k]

/-- What a new key leaves in its slot (R198). -/
structure Ctl.keyMade (c d : Ctl) (h : Head) (mask k : Nat) : Prop where
  live : d.get (R.SEA_KEY_STAT_LIVE k) = 1
  owner : d.get (R.SEA_KEY_STAT_OWNER k) = h.num
  mask : d.get (R.SEA_KEY_STAT_CXL_MASK k) = mask % 4
  epoch : d.get (R.SEA_KEY_STAT_EPOCH k) = 0
  gen : d.get (R.SEA_KEY_STAT_GEN k) = c.get (R.SEA_KEY_STAT_GEN k) + 1
  keys : (mapGet d.sea.keys k).isSome = true
  kept : c.keeps d (keyFields k)

theorem Ctl.makeKey_spec (c : Ctl) (h : Head) (mask : Nat) {k : Nat} (free : c.keyFree k) : c.keyMade (c.makeKey h mask k) h mask k := by
  obtain ⟨-, gen⟩ := free
  have read (x : Fld) : (c.makeKey h mask k).get x = (((((c.set (R.SEA_KEY_STAT_GEN k) (c.get (R.SEA_KEY_STAT_GEN k) + 1)).set
      (R.SEA_KEY_STAT_EPOCH k) 0).set (R.SEA_KEY_STAT_LIVE k) 1).set (R.SEA_KEY_STAT_OWNER k) h.num).set
      (R.SEA_KEY_STAT_CXL_MASK k) (mask % 4)).get x := rfl
  have two : h.num < 2 := by cases h <;> decide
  have apart : (R.SEA_KEY_STAT_LIVE k).key = 9994271 + 32 * k ∧ (R.SEA_KEY_STAT_OWNER k).key = 9994270 + 32 * k ∧
      (R.SEA_KEY_STAT_CXL_MASK k).key = 9994268 + 32 * k ∧ (R.SEA_KEY_STAT_EPOCH k).key = 9994240 + 32 * k ∧
      (R.SEA_KEY_STAT_GEN k).key = 9994262 + 32 * k := ⟨rfl, rfl, rfl, rfl, rfl⟩
  refine ⟨?_, ?_, ?_, ?_, ?_, by simp [makeKey], fun x n => ?_⟩
  · rw [read, get_set_ne _ _ _ _ (by omega), get_set_ne _ _ _ _ (by omega), get_set_same]
    rfl
  · rw [read, get_set_ne _ _ _ _ (by omega), get_set_same]
    exact Nat.mod_eq_of_lt two
  · rw [read, get_set_same]
    exact Nat.mod_mod_of_dvd mask (dvd_refl 4)
  · rw [read, get_set_ne _ _ _ _ (by omega), get_set_ne _ _ _ _ (by omega), get_set_ne _ _ _ _ (by omega), get_set_same]
    rfl
  · rw [read, get_set_ne _ _ _ _ (by omega), get_set_ne _ _ _ _ (by omega), get_set_ne _ _ _ _ (by omega),
      get_set_ne _ _ _ _ (by omega), get_set_same]
    exact Nat.mod_eq_of_lt (show _ + 1 < 64 by omega)
  · simp only [keyFields, List.forall_mem_cons] at n
    obtain ⟨hl, ho, hm, he, hg, -⟩ := n
    rw [read, get_set_ne _ _ _ _ hm.symm, get_set_ne _ _ _ _ ho.symm, get_set_ne _ _ _ _ hl.symm, get_set_ne _ _ _ _ he.symm,
      get_set_ne _ _ _ _ hg.symm]

end Sys2Proof.Machine
end

section
/-! The commands of keys, the seal budget and SEAL_STATUS (R193, R197 to R199, R220). -/

namespace Sys2Proof.Machine

/-! ## Registers read under a claim -/

/-- What a field reads as depends on no claim. -/
theorem Ctl.view_claims (c : Ctl) (cl : List (Nat × Head)) (f : Fld) : ({ c with claims := cl } : Ctl).view f = c.view f := by
  have scalars : ∀ e ∈ scalarViews, e.2 { c with claims := cl } = e.2 c := List.map_inj_left.1 rfl
  have arrays : ∀ e ∈ arrayViews, e.2.2.2 { c with claims := cl } = e.2.2.2 c := List.map_inj_left.1 rfl
  unfold view
  split
  · next e found => rw [scalars e (List.mem_of_find?_eq_some found)]
  · split
    · next e found => rw [arrays e (List.mem_of_find?_eq_some found)]
    · rfl

theorem Ctl.wordAt_claims (c : Ctl) (cl : List (Nat × Head)) (h : Head) (off : Nat) :
    ({ c with claims := cl } : Ctl).wordAt h off = c.wordAt h off := by
  simp only [wordAt, regValue, view_claims]

theorem Ctl.wordAt_lt (c : Ctl) (h : Head) (off : Nat) : c.wordAt h off < 2 ^ 32 := by
  unfold wordAt
  split
  · exact Nat.mod_lt _ (by decide)
  · decide

/-! ## Numbers in a string of bytes -/

theorem leNat_toLE (n v : Nat) : leNat (toLE n v) = v % 256 ^ n := by
  induction n generalizing v with
  | zero => rw [Nat.pow_zero, Nat.mod_one]; rfl
  | succ n ih =>
    rw [toLE, leNat, ih, BitVec.toNat_ofNat, pow_succ' 256 n, Nat.mod_mul (x := v) (a := 256)]

theorem le_toLE_append {n v : Nat} (b : Bytes) (l : v < 256 ^ n) : le (toLE n v ++ b) 0 n = v := by
  rw [le, List.drop_zero, List.take_left' (length_toLE n v), leNat_toLE, Nat.mod_eq_of_lt l]

/-- A field behind a string of known length. -/
theorem le_append_left {a : Bytes} (b : Bytes) {off n : Nat} : le (a ++ b) (a.length + off) n = le b off n := by
  rw [le, le, List.drop_append, List.drop_eq_nil_of_le (by omega), List.nil_append, Nat.add_sub_cancel_left]

/-- The i-th of the four-byte numbers written one after the other. -/
theorem le_flatMap_toLE {f : Nat → Nat} (small : ∀ i, f i < 256 ^ 4) {n g : Nat} (l : g < n) (b : Bytes) :
    le ((List.range n).flatMap (fun i => toLE 4 (f i)) ++ b) (4 * g) 4 = f g := by
  obtain ⟨m, rfl⟩ : ∃ m, n = g + (m + 1) := ⟨n - g - 1, by omega⟩
  have before : ((List.range g).flatMap fun i => toLE 4 (f i)).length = 4 * g := by
    rw [length_flatMap_toLE, List.length_range, Nat.mul_comm]
  rw [List.range_add, List.flatMap_append, List.append_assoc, ← before, ← Nat.add_zero (List.length _), le_append_left,
    List.range_succ_eq_map, List.map_cons, List.flatMap_cons, List.append_assoc]
  exact le_toLE_append _ (small g)

/-! ## KEY_CREATE and SEAL_BUDGET_SET -/

section
variable {s : State} {h : Head} {p : Bytes} (g : s.takes h { min := 1, sealCap := true } p) (u : s.unclaimed h [blkSea])
include g u

theorem keyCreate_made {k : Nat} (l : k < 1024) (free : s.ctl.keyFree k) (low : ∀ j, j < k → ¬s.ctl.keyFree j) :
    ∃ t, exec (.keyCreate h p) s = .next t ∧
      t.replied h 0xC141 .ok (toLE 2 ((s.ctl.get (R.SEA_KEY_STAT_GEN k) + 1) * 1024 + k)) ∧
      s.ctl.keyMade t.ctl h (le p 0 1) k ∧ s.sameStack t := by
  let c1 : Ctl := { s.ctl with claims := (blkSea, h) :: s.ctl.claims }
  let out := toLE 2 ((s.ctl.get (R.SEA_KEY_STAT_GEN k) + 1) * 1024 + k)
  have made : c1.keyMade (c1.makeKey h (le p 0 1) k) h (le p 0 1) k := c1.makeKey_spec h _ free
  have run : exec (.keyCreate h p) s = .next { s with ctl := (c1.makeKey h (le p 0 1) k).finish h 0xC141 .ok out } :=
      State.exec_ctl (f := keyCreate h p) rfl (by
    rw [keyCreate, Ctl.ocs_run _ _ _ _ _ _ g.1 g.2, keyCreateRun, Ctl.claiming_sea u, Ctl.freeKeySlot_of_lowest (c := c1) l free low]
    exact congrArg (fun n => (c1.makeKey h (le p 0 1) k).finish h 0xC141 .ok (toLE 2 (n * 1024 + k))) made.gen)
  have same (x : Fld) : ((c1.makeKey h (le p 0 1) k).finish h 0xC141 .ok out).get x = (c1.makeKey h (le p 0 1) k).get x :=
    Ctl.finish_get ..
  refine ⟨_, run, s.replied_finish _ h _ _ _, ⟨?_, ?_, ?_, ?_, ?_, ?_, fun x n => ?_⟩, rfl, rfl, rfl⟩
  · exact (same _).trans made.live
  · exact (same _).trans made.owner
  · exact (same _).trans made.mask
  · exact (same _).trans made.epoch
  · exact (same _).trans made.gen
  · rw [Ctl.finish_sea]
    exact made.keys
  · exact (same x).trans (made.kept x n)

theorem keyCreate_full (full : ∀ j, j < 1024 → ¬s.ctl.keyFree j) :
    ∃ t, exec (.keyCreate h p) s = .next t ∧ t.replied h 0xC141 .resourceExhausted [] ∧ s.frame Ctl.onlyReplies t :=
  State.answers_claimed (cl := (blkSea, h) :: s.ctl.claims) (State.exec_ctl (f := keyCreate h p) rfl (by
    rw [keyCreate, Ctl.ocs_run _ _ _ _ _ _ g.1 g.2, keyCreateRun, Ctl.claiming_sea u,
      Ctl.freeKeySlot_none (c := { s.ctl with claims := (blkSea, h) :: s.ctl.claims }) full]))

theorem sealBudgetSet_queued (fits : le p 0 1 ≤ s.ctl.maxBudget) :
    ∃ t, exec (.sealBudgetSet h p) s = .next t ∧ t.waits h 0xC140 p .flash ∧
      t.ctl.sbp.writes = s.ctl.sbp.writes ++ [⟨4, toLE 1 (le p 0 1), some h, false, none⟩] ∧ t.ctl.regs = s.ctl.regs ∧
      s.sameStack t := by
  let c1 : Ctl := { s.ctl with claims := (blkSea, h) :: s.ctl.claims }
  obtain ⟨aux, run⟩ : ∃ aux, exec (.sealBudgetSet h p) s = .next { s with
      ctl := (c1.await h 0xC140 p .flash aux).writeRecord 4 (toLE 1 (le p 0 1)) (some h) } :=
    ⟨_, State.exec_ctl (f := sealBudgetSet h p) rfl (by
      rw [sealBudgetSet, Ctl.ocs_run _ _ _ _ _ _ g.1 g.2, sealBudgetRun, if_neg (Nat.not_lt.2 fits), Ctl.claiming_sea u])⟩
  exact ⟨_, run, ⟨aux, c1.await_pend h 0xC140 p .flash aux []⟩, by simp [Ctl.writeRecord, c1], by simp [Ctl.writeRecord, c1],
    rfl, rfl, rfl⟩

omit u in
theorem sealBudgetSet_refused (beyond : s.ctl.maxBudget < le p 0 1) :
    ∃ t, exec (.sealBudgetSet h p) s = .next t ∧ t.replied h 0xC140 .invalidParameter [] ∧ s.frame Ctl.onlyReplies t :=
  State.answers (State.exec_ctl (f := sealBudgetSet h p) rfl (by
    rw [sealBudgetSet, Ctl.ocs_run _ _ _ _ _ _ g.1 g.2, sealBudgetRun, if_pos beyond]))

end

/-! ## KEY_ERASE -/

/-- The granules that a live key guards are handled as ERASED once an erase of its slot is under way (R199). -/
theorem Ctl.sealAt_erasing (c d : Ctl) {a : Nat} (regs : d.regs = c.regs) (gens : d.sea.gens = c.sea.gens)
    (held : c.sealAt a ≠ 0) (user : a < c.userEnd) (live : c.granKeyLive (granOf a) = true)
    (stopped : (d.sea.erasing.any fun e => decide (e.1 = c.get (R.SEA_GRAN_KEY_SLOT (granOf a)))) = true) : d.sealAt a = 4 := by
  have same (x : Fld) : d.get x = c.get x := get_congr _ _ regs x
  have keyLive : d.granKeyLive (granOf a) = c.granKeyLive (granOf a) := by
    unfold granKeyLive granGen flag
    simp only [same, gens]
  have on : c.get (R.SEA_GRAN_STATE (granOf a)) ≠ 0 := fun plain => held (by simp [sealAt, sealEff, plain])
  have inside : a < d.userEnd := by rwa [userEnd, same]
  simp [sealAt, inside, sealEff, same, on, keyLive, live, stopped]

section
variable {s : State} {h : Head} {p : Bytes} (g : s.takes h { min := 2, sealCap := true } p)
include g

theorem keyErase_waits (u : s.unclaimed h [blkSea]) (live : s.ctl.handleLive (le p 0 2) = true)
    (own : s.ctl.keyOwner (le p 0 2 % 1024) = h) :
    ∃ t, exec (.keyErase h p) s = .next t ∧ t.waits h 0xC142 p .zeroise ∧ (le p 0 2 % 1024, h) ∈ t.ctl.sea.erasing ∧
      t.ctl.handleLive (le p 0 2) = false ∧
      (∀ a, s.ctl.sealAt a ≠ 0 → a < s.ctl.userEnd → s.ctl.get (R.SEA_GRAN_KEY_SLOT (granOf a)) = le p 0 2 % 1024 →
        s.ctl.granKeyLive (granOf a) = true → t.ctl.sealAt a = 4) ∧
      t.ctl.regs = s.ctl.regs ∧ s.sameStack t := by
  let c1 : Ctl := { s.ctl with claims := (blkSea, h) :: s.ctl.claims, sea.erasing := (le p 0 2 % 1024, h) :: s.ctl.sea.erasing }
  have run : exec (.keyErase h p) s = .next { s with ctl := c1.await h 0xC142 p .zeroise s.ctl.clock } :=
    State.exec_ctl (f := keyErase h p) rfl (by
      rw [keyErase, Ctl.ocs_run _ _ _ _ _ _ g.1 g.2, keyEraseRun]
      exact (if_neg (by simp [live, own])).trans (Ctl.claiming_sea u ..))
  refine ⟨_, run, ⟨_, Ctl.await_pend ..⟩, by simp [c1], by simp [Ctl.handleLive, c1], fun a held user slot key => ?_,
    Ctl.await_regs .., rfl, rfl, rfl⟩
  exact s.ctl.sealAt_erasing _ (Ctl.await_regs ..) (by simp [c1]) held user key (by simp [slot, c1])

theorem keyErase_refused (bad : s.ctl.handleLive (le p 0 2) = false ∨ s.ctl.keyOwner (le p 0 2 % 1024) ≠ h) :
    ∃ t, exec (.keyErase h p) s = .next t ∧ t.replied h 0xC142 .invalidParameter [] ∧ s.frame Ctl.onlyReplies t :=
  State.answers (State.exec_ctl (f := keyErase h p) rfl (by
    rw [keyErase, Ctl.ocs_run _ _ _ _ _ _ g.1 g.2, keyEraseRun]
    exact if_pos (by simpa using bad)))

end

/-! ## KEY_ZEROISE_DONE -/

/-- What zeroising leaves of a slot's key (R199). -/
theorem Ctl.zeroise_spec (c : Ctl) (k : Nat) : (c.zeroise k).get (R.SEA_KEY_STAT_LIVE k) = 0 ∧ mapGet (c.zeroise k).sea.keys k = none ∧
    k ∈ (c.zeroise k).sea.erased ∧ (∀ e ∈ (c.zeroise k).sea.erasing, e.1 ≠ k) ∧ c.keeps (c.zeroise k) [R.SEA_KEY_STAT_LIVE k] := by
  obtain ⟨live, kept⟩ := keeps_of_set (c := c) (d := c.zeroise k) (x := R.SEA_KEY_STAT_LIVE k) (v := 0) fun _ => rfl
  refine ⟨live.trans (Nat.zero_mod _), mapGet_mapDel_same .., ?_, fun e m => by simpa using (List.mem_filter.1 m).2, kept⟩
  change k ∈ if c.sea.erased.contains k then c.sea.erased else k :: c.sea.erased
  split
  · next known => simpa using known
  · exact List.mem_cons_self

theorem keyZeroiseDone_spec {s : State} {h : Head} {k : Fin 1024} {q : PendCmd}
    (erase : s.ctl.sea.erasing.find? (fun e => decide (e.1 = k.val)) = some (k.val, h)) (pend : (s.ctl.hd h).mbox.pend = some q)
    (op : q.op = 0xC142) (wait : q.wait = .zeroise) :
    ∃ t, exec (.keyZeroiseDone k) s = .next t ∧ t.replied h 0xC142 .ok [] ∧ t.ctl.get (R.SEA_KEY_STAT_LIVE k) = 0 ∧
      mapGet t.ctl.sea.keys k.val = none ∧ k.val ∈ t.ctl.sea.erased ∧ (∀ e ∈ t.ctl.sea.erasing, e.1 ≠ k.val) ∧
      s.ctl.keeps t.ctl [R.SEA_KEY_STAT_LIVE k] ∧ s.sameStack t := by
  obtain ⟨live, keys, erased, ended, kept⟩ := s.ctl.zeroise_spec k
  have pend' : ((s.ctl.zeroise k).hd h).mbox.pend = some q := by rw [← pend]; cases h <;> rfl
  have run : exec (.keyZeroiseDone k) s = .next { s with ctl := (s.ctl.zeroise k).finish h 0xC142 .ok [] } :=
    State.exec_ctl (f := keyZeroiseDone k) rfl (by simp only [keyZeroiseDone, erase, pend', op, wait, and_self, if_true])
  refine ⟨_, run, s.replied_finish _ h _ _ _, (Ctl.finish_get ..).trans live, ?_, ?_, ?_, fun x n => (Ctl.finish_get ..).trans (kept x n),
    rfl, rfl, rfl⟩
  · rwa [Ctl.finish_sea]
  · rwa [Ctl.finish_sea]
  · rwa [Ctl.finish_sea]

/-! ## SEAL_STATUS -/

theorem sealStatus_answers {s : State} {h : Head} {p : Bytes} (g : s.takes h { sealCap := true } p) (u : s.unclaimed h [blkSea]) :
    ∃ t, exec (.sealStatus h p) s = .next t ∧ t.replied h 0xC146 .ok
      (((List.range 64).flatMap fun n => toLE 4 (s.ctl.wordAt h (0x130100 + 4 * n))) ++ toLE 4 (s.ctl.wordAt h 0x130004)) ∧
      s.frame Ctl.onlyReplies t :=
  State.answers_claimed (cl := (blkSea, h) :: s.ctl.claims) (State.exec_ctl (f := sealStatus h p) rfl (by
    rw [sealStatus, Ctl.ocs_run _ _ _ _ _ _ g.1 g.2, sealStatusRun, Ctl.claiming_sea u]
    simp only [Ctl.wordAt_claims]))

/-! ## The statement -/

/-- Settles O26: each command by its lemma above. -/
theorem keysAreCreatedAndErased : Obligations.KeysAreCreatedAndErased := by
  unfold Obligations.KeysAreCreatedAndErased
  intro h p s u
  refine ⟨fun g => ⟨fun k l live gen low => ?_, fun full => keyCreate_full g u fun j l => Ctl.not_keyFree (full j l),
    sealBudgetSet_queued g u, sealBudgetSet_refused g⟩,
    fun g => ⟨keyErase_waits g u, keyErase_refused g⟩, fun g => ?_, fun k q erase pend op wait => keyZeroiseDone_spec erase pend op wait⟩
  · obtain ⟨t, run, answer, made, stack⟩ := keyCreate_made g u l ⟨live, gen⟩ fun j lj => Ctl.not_keyFree (low j lj)
    exact ⟨t, run, answer, made.live, made.owner, made.mask, made.epoch, made.gen, made.keys, made.kept, stack⟩
  · obtain ⟨t, run, answer, frame⟩ := sealStatus_answers g u
    have grans : ((List.range 64).flatMap fun n => toLE 4 (s.ctl.wordAt h (0x130100 + 4 * n))).length = 256 := length_flatMap_toLE ..
    refine ⟨t, _, run, answer, frame, ?_, fun n l => le_flatMap_toLE (fun i => s.ctl.wordAt_lt h _) l _, ?_⟩
    · rw [List.length_append, grans, length_toLE]
    · rw [← grans, ← Nat.add_zero (List.length _), le_append_left, ← List.append_nil (toLE 4 _)]
      exact le_toLE_append _ (s.ctl.wordAt_lt h _)

end Sys2Proof.Machine
end

section
/-! SEAL_GRANULE, RESEAL, UNSEAL and the fill (R194 to R196, R220, R221). -/

namespace Sys2Proof.Machine

/-! ## Judgement -/

/-- What SEAL_GRANULE and RESEAL need of their granule and handle (R221). -/
def Ctl.sealBound (c : Ctl) (h : Head) (p : Bytes) : Prop :=
  c.ownGranule h (le p 0 1) = true ∧ c.handleLive (le p 2 2) = true ∧ c.keyOwner (le p 2 2 % 1024) = h

section
variable {c : Ctl} {h : Head} {op : Nat} {p : Bytes}

theorem Ctl.judgeSeal_unbound (free : ¬c.sealBound h p) : c.judgeSeal h op p = .inl .invalidParameter := by
  refine if_pos ?_
  by_contra bound
  simp only [Bool.or_eq_true, Bool.not_eq_true', decide_eq_true_eq, not_or, Bool.not_eq_false, not_not] at bound
  exact free ⟨bound.1.1, bound.1.2, bound.2⟩

variable (bound : c.sealBound h p)
include bound

/-- The judgement of a command whose granule and key are the head's. -/
theorem Ctl.judgeSeal_bound : c.judgeSeal h op p = if c.sealingNow (le p 0 1) then .inl .busy
    else if decide (c.get (R.SEA_GRAN_STATE (le p 0 1)) = 0) ≠ decide (op = opSeal) then .inl .invalidParameter
    else if (op = opSeal ∧ c.sealSlotsLeft = 0) ∨ c.get (R.SEA_KEY_STAT_EPOCH (le p 2 2 % 1024)) = 0xFFFF then .inl .resourceExhausted
    else .inr (le p 0 1, le p 2 2 % 1024) := by
  obtain ⟨own, live, key⟩ := bound
  exact if_neg (by simp [own, live, key])

variable (idle : c.sealingNow (le p 0 1) = false)
include idle

theorem Ctl.judgeSeal_wrongState (wrong : ¬(c.get (R.SEA_GRAN_STATE (le p 0 1)) = 0 ↔ op = opSeal)) :
    c.judgeSeal h op p = .inl .invalidParameter := by
  rw [judgeSeal_bound bound, if_neg (by simp [idle]), if_pos (by simpa using wrong)]

variable (right : c.get (R.SEA_GRAN_STATE (le p 0 1)) = 0 ↔ op = opSeal)
include right

theorem Ctl.judgeSeal_spent (spent : (op = opSeal ∧ c.sealSlotsLeft = 0) ∨ c.get (R.SEA_KEY_STAT_EPOCH (le p 2 2 % 1024)) = 0xFFFF) :
    c.judgeSeal h op p = .inl .resourceExhausted := by
  rw [judgeSeal_bound bound, if_neg (by simp [idle]), if_neg (by simpa using right), if_pos spent]

theorem Ctl.judgeSeal_starts
    (left : ¬((op = opSeal ∧ c.sealSlotsLeft = 0) ∨ c.get (R.SEA_KEY_STAT_EPOCH (le p 2 2 % 1024)) = 0xFFFF)) :
    c.judgeSeal h op p = .inr (le p 0 1, le p 2 2 % 1024) := by
  rw [judgeSeal_bound bound, if_neg (by simp [idle]), if_neg (by simpa using right), if_neg left]

end

/-! ## SEAL_GRANULE and RESEAL -/

section
variable {s : State} {h : Head} {p : Bytes} {i : Instr} {op : Nat}
  (which : exec i s = .next (s.mapCtl (sealCommand h op p)))
  (g : s.takes h { min := 4, stack := true, sealCap := true, background := true } p)
include which g

theorem sealCommand_refused {e : Ocs} (judged : s.ctl.judgeSeal h op p = .inl e) :
    ∃ t, exec i s = .next t ∧ t.replied h op e [] ∧ s.frame Ctl.onlyReplies t :=
  State.answers (State.exec_ctl which (by rw [sealCommand, Ctl.ocs_run _ _ _ _ _ _ g.1 g.2, sealRun, judged]))

theorem sealCommand_starts {n k : Nat} (judged : s.ctl.judgeSeal h op p = .inr (n, k)) (u : s.unclaimed h [blkSea]) :
    ∃ t, exec i s = .next t ∧ t.started h op p ∧ t.ctl.sealingNow n = true ∧ t.ctl.regs = s.ctl.regs ∧ s.sameStack t ∧
      t.ctl.sea.sealing = s.ctl.sea.sealing ++
        [⟨n, k, if s.ctl.granInUse n = true then 3 else 0, some h, s.ctl.get (R.SEA_KEY_STAT_GEN k)⟩] ∧
      (s.ctl.granInUse n = true → (n, h) ∈ t.ctl.sea.holdGran) := by
  let c0 : Ctl := { s.ctl with claims := (blkSea, h) :: s.ctl.claims }
  let c1 : Ctl := if s.ctl.granInUse n then c0.holdGranule h n else c0
  let c2 : Ctl := c1.startBg h op p c1.clock
  let job : SealJob := ⟨n, k, if s.ctl.granInUse n = true then 3 else 0, some h, s.ctl.get (R.SEA_KEY_STAT_GEN k)⟩
  have regs1 : c1.regs = s.ctl.regs := holds_ite (P := fun d : Ctl => d.regs = s.ctl.regs) rfl rfl
  have regs2 : c2.regs = s.ctl.regs := (Ctl.startBg_regs ..).trans regs1
  have sealing : c2.sea.sealing = s.ctl.sea.sealing :=
    (congrArg SealSt.sealing (Ctl.startBg_sea ..)).trans (holds_ite (P := fun d : Ctl => d.sea.sealing = s.ctl.sea.sealing) rfl rfl)
  have run : exec i s = .next { s with ctl := { c2 with sea.sealing := s.ctl.sea.sealing ++ [job] } } := State.exec_ctl which (by
    rw [sealCommand, Ctl.ocs_run _ _ _ _ _ _ g.1 g.2, sealRun, judged]
    refine (Ctl.claiming_sea u ..).trans ?_
    rw [← sealing, show job = ⟨n, k, if s.ctl.granInUse n = true then 3 else 0, some h, c2.get (R.SEA_KEY_STAT_GEN k)⟩ from
      congrArg (SealJob.mk n k _ (some h)) (Ctl.get_congr _ _ regs2.symm _)]
    rfl)
  obtain ⟨bg, last, pend⟩ := c1.startBg_mbox h op p c1.clock
  have hd : (({ c2 with sea.sealing := s.ctl.sea.sealing ++ [job] } : Ctl).hd h) = c2.hd h := by cases h <;> rfl
  refine ⟨_, run, ⟨⟨c1.clock, ?_⟩, ?_, ?_⟩, ?_, regs2, ⟨rfl, rfl, rfl⟩, rfl, fun used => ?_⟩
  · exact (congrArg (fun x => x.mbox.bg) hd).trans bg
  · exact (congrArg (fun x => x.mbox.last) hd).trans last
  · exact (congrArg (fun x => x.mbox.pend) hd).trans pend
  · simp [Ctl.sealingNow, job]
  · change (n, h) ∈ c2.sea.holdGran
    rw [Ctl.startBg_sea, show c1 = c0.holdGranule h n from if_pos used]
    exact List.mem_cons_self

end

/-! ## UNSEAL -/

section
variable {c : Ctl} {h : Head} {p : Bytes}

theorem Ctl.judgeUnseal_other (other : c.ownGranule h (le p 0 1) = false) : c.judgeUnseal h p = some .invalidParameter :=
  if_pos (by rw [other]; rfl)

theorem Ctl.judgeUnseal_own (own : c.ownGranule h (le p 0 1) = true) : c.judgeUnseal h p = if c.sealingNow (le p 0 1) then some .busy
    else if c.get (R.SEA_GRAN_STATE (le p 0 1)) = 0 then some .invalidParameter else none :=
  if_neg (by rw [own]; decide)

theorem Ctl.judgeUnseal_idle (own : c.ownGranule h (le p 0 1) = true) (idle : c.sealingNow (le p 0 1) = false) :
    c.judgeUnseal h p = if c.get (R.SEA_GRAN_STATE (le p 0 1)) = 0 then some .invalidParameter else none :=
  (judgeUnseal_own own).trans (if_neg (by rw [idle]; decide))

end

section
variable {s : State} {h : Head} {p : Bytes} (g : s.takes h { min := 1, stack := true, sealCap := true } p)
include g

theorem unseal_refused {e : Ocs} (judged : s.ctl.judgeUnseal h p = some e) :
    ∃ t, exec (.unseal h p) s = .next t ∧ t.replied h 0xC145 e [] ∧ s.frame Ctl.onlyReplies t :=
  State.answers (State.exec_ctl (f := unsealCommand h p) rfl (by
    rw [unsealCommand, Ctl.ocs_run _ _ _ _ _ _ g.1 g.2, unsealRun, judged]
    rfl))

theorem unseal_waits (judged : s.ctl.judgeUnseal h p = none) (u : s.unclaimed h [blkSea]) :
    ∃ t, exec (.unseal h p) s = .next t ∧ t.ctl.regs = s.ctl.regs ∧ s.sameStack t ∧
      (s.ctl.granInUse (le p 0 1) = false → t.waits h 0xC145 p .boundary ∧ le p 0 1 ∈ t.ctl.sea.unseals) ∧
      (s.ctl.granInUse (le p 0 1) = true → t.waits h 0xC145 p .hold ∧ (le p 0 1, h) ∈ t.ctl.sea.holdGran) := by
  let c0 : Ctl := { s.ctl with claims := (blkSea, h) :: s.ctl.claims }
  let held : Ctl := (c0.holdGranule h (le p 0 1)).await h opUnseal p .hold c0.clock
  have run : exec (.unseal h p) s =
      .next { s with ctl := if s.ctl.granInUse (le p 0 1) then held else c0.startUnseal h p } :=
    State.exec_ctl (f := unsealCommand h p) rfl (by
      rw [unsealCommand, Ctl.ocs_run _ _ _ _ _ _ g.1 g.2, unsealRun, judged]
      exact Ctl.claiming_sea u ..)
  cases used : s.ctl.granInUse (le p 0 1) with
  | true =>
    rw [used, if_pos rfl] at run
    refine ⟨_, run, Ctl.await_regs .., ⟨rfl, rfl, rfl⟩, nofun, fun _ => ⟨⟨_, Ctl.await_pend ..⟩, ?_⟩⟩
    rw [Ctl.await_sea]
    exact List.mem_cons_self
  | false =>
    rw [used, if_neg Bool.false_ne_true] at run
    refine ⟨_, run, Ctl.await_regs .., ⟨rfl, rfl, rfl⟩, fun _ => ⟨⟨_, Ctl.await_pend ..⟩, ?_⟩, nofun⟩
    change _ ∈ (Ctl.await _ _ _ _ _ _).sea.unseals
    rw [Ctl.await_sea]
    exact List.mem_cons_self

end

/-! ## The statement -/

/-- Settles O27: each command by the outcome of its judgement. -/
theorem sealCommandsHoldTheirGranule : Obligations.SealCommandsHoldTheirGranule := by
  unfold Obligations.SealCommandsHoldTheirGranule
  intro h p s n m k
  refine ⟨fun i op which g => ?_, fun g => ⟨?_, ?_, ?_, ?_⟩, fun x running => ?_⟩
  · have run : exec i s = .next (s.mapCtl (sealCommand h op p)) := by
      obtain ⟨rfl, rfl⟩ | ⟨rfl, rfl⟩ := which <;> rfl
    have state : (if op = 0xC143 then s.ctl.get (R.SEA_GRAN_STATE n) = 0 else s.ctl.get (R.SEA_GRAN_STATE n) ≠ 0) ↔
        (s.ctl.get (R.SEA_GRAN_STATE n) = 0 ↔ op = opSeal) := by
      obtain ⟨-, rfl⟩ | ⟨-, rfl⟩ := which <;> simp [opSeal]
    refine ⟨fun free => sealCommand_refused run g (Ctl.judgeSeal_unbound free), fun bound busy => sealCommand_refused run g ?_,
      fun bound idle wrong => sealCommand_refused run g (Ctl.judgeSeal_wrongState bound idle (mt state.2 wrong)),
      fun bound idle right spent => sealCommand_refused run g (Ctl.judgeSeal_spent bound idle (state.1 right) spent),
      fun bound idle right left u => sealCommand_starts run g (Ctl.judgeSeal_starts bound idle (state.1 right) left) u⟩
    exact (Ctl.judgeSeal_bound bound).trans (if_pos busy)
  · exact fun other => unseal_refused g (Ctl.judgeUnseal_other other)
  · exact fun own busy => unseal_refused g ((Ctl.judgeUnseal_own own).trans (if_pos busy))
  · exact fun own idle plain => unseal_refused g ((Ctl.judgeUnseal_idle own idle).trans (if_pos plain))
  · exact fun own idle held u => unseal_waits g ((Ctl.judgeUnseal_idle own idle).trans (if_neg held)) u
  · refine ⟨_, rfl, fun j m gran step => ?_, rfl, rfl, rfl, rfl⟩
    exact List.mem_map.2 ⟨j, m, if_pos ⟨gran, step, running⟩⟩

end Sys2Proof.Machine
end

section
/-! SUPPORT. The arrival of a tag line (R209, R213), and the tag of a line of zeros under a key slot that holds no key and counters that
stand as the fill left them (R203). -/

namespace Sys2Proof.Machine

/-- A tag line that brings another tag than the line's, which is taken once the corrections of the tag line are counted: a tag failure. -/
theorem sealMetadataArrival_otherTag {s : State} {sa src n : Nat} {data : Bytes} (line : sa % 64 = 0) (sealed : s.ctl.sealAt sa = 2)
    (fine : (s.status sa).isMired = false)
    (other : (data.drop (8 * (sa / 64 % 8))).take 8 ≠ (s.mapCtl fun c => c.metaCorrected (c.tagAddr sa) n).tagOf sa) :
    exec (.sealMetadataArrival sa src [] (.line data n)) s =
      .next ((s.mapCtl fun c => c.metaCorrected (c.tagAddr sa) n).tagFail sa src) := by
  have whole : sa / 64 * 64 = sa := by omega
  change execSealMetadataArrival sa src [] (.line data n) s = _
  simp only [execSealMetadataArrival, whole, sealed, fine]
  rw [if_neg (by simp)]
  exact if_neg other

/-- The bytes of blocks. -/
def blocksBytes (l : List (BitVec 128)) : Bytes := l.flatMap fun b => (List.range 16).map (blockByte b)

/-- The tag of R203 over a ciphertext and its counter block, by the hash key and the mask. -/
def tagOver (hash mask : BitVec 128) (text ctr : Bytes) : Bytes :=
  let sum := ghash hash (toBlocks (text ++ ctr) 5 ++ [BitVec.ofNat 128 (640 * 2 ^ 64)])
  (List.range 8).map fun i => blockByte sum i ^^^ blockByte mask i

/-- Zeros encrypted are the pad itself. -/
theorem zeros_xor_pad (pad : Nat → BitVec 128) :
    ((List.range 64).map fun t => (List.replicate 64 0).getD t 0 ^^^ blockByte (pad (t / 16)) (t % 16)) =
      blocksBytes ((List.range 4).map pad) := by
  simp only [List.getD_eq_getElem?_getD, List.getElem?_getD_replicate_default_eq, BitVec.ofNat_eq_ofNat, BitVec.zero_xor]
  rfl

section
variable {c : Ctl} (keys : c.sea.keys = []) (ctrs : c.sea.ctrs = []) {sa e : Nat} (epoch : c.get (R.SEA_GRAN_EPOCH (granOf sa)) = e)
include keys ctrs epoch

theorem Ctl.cipher_unkeyed : c.cipher sa (List.replicate 64 0) =
    blocksBytes ((List.range 4).map fun j => aes256 0 (toBlock (ctrBlock 0 0 j sa e))) := by
  simp only [← zeros_xor_pad, Ctl.cipher, sealKeys, pageCtr, keys, ctrs, epoch, mapGet, Option.getD_none, List.getD_eq_getElem?_getD,
    List.getElem?_getD_replicate_default_eq]

theorem Ctl.tagFor_unkeyed : c.tagFor sa (List.replicate 64 0) =
    tagOver (aes256 0 0) (aes256 0 (toBlock ((ctrBlock 0 0 0 sa e).set 9 0x80)))
      (blocksBytes ((List.range 4).map fun j => aes256 0 (toBlock (ctrBlock 0 0 j sa e)))) (ctrBlock 0 0 0 sa e) := by
  simp only [Ctl.tagFor, cipher_unkeyed keys ctrs epoch]
  simp only [tagOver, sealKeys, pageCtr, keys, ctrs, epoch, mapGet, Option.getD_none, List.getD_eq_getElem?_getD,
    List.getElem?_getD_replicate_default_eq]

end

end Sys2Proof.Machine
end

section
/-! PROOF. O28 fails: a counterexample with MAP_TAG_BASE beyond its width. -/

namespace Sys2Proof.Machine

/-- MAP_TAG_BASE holds more than its 20 bits, which `Ctl.set` never leaves in a field: the user region ends behind granule 32,768, and that
granule is SEALED. -/
def wideMap : State :=
  { State.reset with ctl.regs := [(R.MAP_TAG_BASE_GRAN.key, 3 * 2 ^ 28), ((R.SEA_GRAN_STATE 32768).key, 2)] }

/-- The first line of granule 32,768. -/
def wideLine : Nat := 32768 * GiB

/-- The state once its tag line has come with one corrected symbol. -/
def wideMapNoted : State := wideMap.mapCtl fun c => c.metaCorrected (c.tagAddr wideLine) 1

/-- What the refutation turns on: in the field map the EPOCH of a granule 32,768 has the key of ECC_CE_SCORE of die 0. The tag line lies on
that die, so its correction raises the score, and the EPOCH with it. -/
theorem wideMapNoted_epoch : wideMapNoted.ctl.get (R.SEA_GRAN_EPOCH (granOf wideLine)) = 1 := by decide +kernel

theorem wideLine_sealed : wideMap.ctl.sealAt wideLine = 2 := by decide +kernel

theorem wideLine_fine : (wideMap.status wideLine).isMired = false := by decide +kernel

/-! ## The line's tag under both epochs -/

/-- The pad under EPOCH 0; its first counter block is 0. -/
theorem widePad_before : ((List.range 4).map fun j => aes256 0 (toBlock (ctrBlock 0 0 j wideLine 0))) =
    [0xdc95c078a2408989ad48a21492842087, 0xa1cf369949677a3af3d58e3eabf2741b, 0x98cfcdec46ebea1a286b3004f2746a0d,
      0xf5d6ffb9afd480133855795f97cce374] := by decide +kernel

/-- The pad under EPOCH 1. -/
theorem widePad_after : ((List.range 4).map fun j => aes256 0 (toBlock (ctrBlock 0 0 j wideLine 1))) =
    [0xc7e9d250998632d444356242ef04058d, 0x973e78b1fde74280add0a394f765a74f, 0x00131502ee0450709a7e969b58275bf3,
      0x9868c7781d351c4cd6c9dd46673d054a] := by decide +kernel

theorem wideMask_before : aes256 0 (toBlock ((ctrBlock 0 0 0 wideLine 0).set 9 0x80)) = 0x0390857b4c8c98e4cf7a2b6f3394c507 := by
  decide +kernel

theorem wideMask_after : aes256 0 (toBlock ((ctrBlock 0 0 0 wideLine 1).set 9 0x80)) = 0x3628a62af8d0eff84a221c1f4e5aa85b := by
  decide +kernel

/-- The hash key is the first block of the pad under EPOCH 0. -/
theorem zeroKey_hash : aes256 0 0 = 0xdc95c078a2408989ad48a21492842087 := by
  have first : toBlock (ctrBlock 0 0 0 wideLine 0) = 0 := by decide +kernel
  rw [← first]
  exact (List.cons.inj widePad_before).1

theorem wideMap_lineBytes : wideMap.lineBytes wideLine = List.replicate 64 0 := by decide +kernel

/-- The tag changes as the correction of the tag line is counted. -/
theorem wideMapNoted_tagOf_ne : wideMap.tagOf wideLine ≠ wideMapNoted.tagOf wideLine := by
  have before : wideMap.tagOf wideLine = _ :=
    (congrArg _ wideMap_lineBytes).trans (Ctl.tagFor_unkeyed rfl rfl (e := 0) (by decide +kernel))
  have after : wideMapNoted.tagOf wideLine = _ :=
    (congrArg _ wideMap_lineBytes).trans (Ctl.tagFor_unkeyed (by decide +kernel) (by decide +kernel) wideMapNoted_epoch)
  rw [before, after, zeroKey_hash, widePad_before, widePad_after, wideMask_before, wideMask_after]
  decide +kernel

/-! ## The statement -/

/-- Refutes O28, in its clause on a line whose nodes and tag pass. Its hypotheses bound no register value, and `wideMap` holds one wider than
its field: the tag line brings the tag that the line has, with one symbol corrected; counting that correction changes the EPOCH under which
the tag is then compared, and a tag failure is counted. -/
theorem not_sealedLinesFailIntoTheirCauses : ¬Obligations.SealedLinesFailIntoTheirCauses := by
  unfold Obligations.SealedLinesFailIntoTheirCauses
  intro all
  have brought : ((wideMap.tagOf wideLine).drop (8 * (wideLine / 64 % 8))).take 8 = wideMap.tagOf wideLine :=
    List.take_of_length_le (by simp [State.tagOf, Ctl.tagFor])
  obtain ⟨-, sealed, -⟩ := all wideMap wideLine 0 [] (.line (wideMap.tagOf wideLine) 1) (by decide)
  obtain ⟨passes, -⟩ := sealed wideLine_sealed wideLine_fine (by simp)
  obtain ⟨t, ran, count, -⟩ := passes rfl (congrArg some brought)
  rw [sealMetadataArrival_otherTag (by decide) wideLine_sealed wideLine_fine (by rw [brought]; exact wideMapNoted_tagOf_ne)] at ran
  obtain rfl := Host.Outcome.next.inj ran
  exact absurd count (show (wideMapNoted.tagFail wideLine 0).ctl.get R.SEA_TAG_FAIL_CNT_FAILS ≠ _ by decide +kernel)

end Sys2Proof.Machine
end
